-- ==== Sys2Proof/Word.lean ====
section
/-! DEFINITION. The words of the model: bytes, 32-bit words, and finite maps held as plain sorted lists. -/

namespace Sys2Proof

/-- One byte. -/
abbrev Byte := BitVec 8

/-- One 32-bit word: an FP32 lane, an accumulator cell. -/
abbrev Word32 := BitVec 32

/-- A finite map from numbers to values, held as a list of pairs with strictly rising keys.
What an unlisted key reads as is said where the map is read. -/
abbrev TMap (α : Type) := List (Nat × α)

namespace TMap

variable {α : Type}

/-- The value at key `k`; `d` where the key is not listed. -/
def get (d : α) : TMap α → Nat → α
  | [], _ => d
  | (a, v) :: t, k => if a = k then v else get d t k

/-- `k` gets the value `v`; the other keys stay. -/
def insert : TMap α → Nat → α → TMap α
  | [], k, v => [(k, v)]
  | (a, b) :: t, k, v =>
    if k < a then (k, v) :: (a, b) :: t
    else if a = k then (k, v) :: t
    else (a, b) :: insert t k v

/-- `k` is listed no longer. -/
def erase (m : TMap α) (k : Nat) : TMap α := m.filter fun e => decide (e.1 ≠ k)

/-- `k` gets the value `v`; where `v` is what an unlisted key reads as, the entry goes: the canonical form is kept. -/
def set [DecidableEq α] (d : α) (m : TMap α) (k : Nat) (v : α) : TMap α :=
  if v = d then m.erase k else m.insert k v

/-- The keys rise strictly. -/
abbrev Sorted (m : TMap α) : Prop := List.Pairwise (fun a b => a.1 < b.1) m

/-- The canonical form: the keys rise strictly and no entry holds what an unlisted key reads as. -/
abbrev Wf (d : α) (m : TMap α) : Prop := TMap.Sorted m ∧ ∀ e ∈ m, e.2 ≠ d

end TMap

end Sys2Proof
end

