-- ==== Sys2Proof/Syntax.lean ====
section
/-! DEFINITION. The commands of the block: one constructor of `Instr` per row of the opcode table, with what each row
brings from outside as its operands. -/

namespace Sys2Proof

/-- A command's header (Table 2.5) with the session that carried it. `inst` numbers the opening of that session, so that a
command of an ended session is told from one of a session that took its number later (R49). -/
structure CmdHdr where
  session : Nat
  inst : Nat
  format : Nat
  flags : Nat
  opcode : Nat
  queue : Nat
  seq : Nat
  jobTag : Nat
  startTc : Nat
  cookie : Nat
  deriving DecidableEq, Repr, Inhabited

/-- A command message: header and parameter block (R36, R39). PARAM_LEN is the length of `params`. -/
structure Command where
  hdr : CmdHdr
  params : List Byte
  deriving DecidableEq, Repr, Inhabited

/-- A Umauth datagram as it arrives: where it came from, and its transport header (Table 2.1). -/
structure Datagram where
  /-- The source IPv6 address. -/
  src : Nat
  ipv4 : Bool
  checksumZero : Bool
  length : Nat
  version : Nat
  kind : Nat
  session : Nat
  tseq : Nat
  ack : Nat
  window : Nat
  deriving DecidableEq, Repr, Inhabited

/-- The body of an OPEN datagram: the session credential (R462). `bytes` is the whole body as it arrived. -/
structure Credential where
  bytes : List Byte
  deriving DecidableEq, Repr, Inhabited

/-- A full timecode stamp (Table 4.1). -/
structure Stamp where
  ns : Nat
  twin : Nat
  device : Nat
  unit : Nat
  seq : Nat
  deriving DecidableEq, Repr, Inhabited

/-- A fabric packet (Table 14.1): header fields and payload. -/
structure Packet where
  type : Nat
  flags : Nat
  dst : Nat
  src : Nat
  level : Nat
  pass : Nat
  jobTag : Nat
  epoch : Nat
  opId : Nat
  tag : Nat
  offset : Nat
  pseq : Nat
  crc : Nat
  tc : Stamp
  payload : List Byte
  deriving DecidableEq, Repr, Inhabited

/-- A packet frame as it arrives at a port: its link sequence, and whether the FEC could correct its codewords (R325-R328). -/
structure Frame where
  port : Nat
  linkSeq : Nat
  fecOk : Bool
  packet : Packet
  deriving DecidableEq, Repr, Inhabited

/-- A link control frame (R326): the cumulative acknowledgement, a NACK, the credits given in bytes, the sender's fabric id and
port, its transmit stamp, the echo (the transmit stamp of the last LCF that the sender received, and when it received it), and the
root advertisement (R80). -/
structure LinkControl where
  ack : Nat
  nack : Option Nat
  credits : Nat
  peer : Nat
  peerPort : Nat
  stamp : Nat
  echoTx : Nat
  echoRx : Nat
  root : Nat
  hops : Nat
  deriving DecidableEq, Repr, Inhabited

/-- A PTP message on the host port (R79). -/
inductive PtpKind where
  | syncOneStep | syncTwoStep | followUp | delayResp | announce
  deriving DecidableEq, Repr, Inhabited

/-- What a PTP message brings: its domain, whether its timescale is PTP, its time in seconds since 1970 and ns, and for a
Delay_Resp the local stamp of the Delay_Req that it answers. -/
structure PtpMessage where
  kind : PtpKind
  domain : Nat
  tai : Bool
  seconds : Nat
  nanos : Nat
  requestTc : Nat
  deriving DecidableEq, Repr, Inhabited

/-- An instruction shifted into the test access port (R503). -/
inductive TapInstruction where
  | bypass | idcode | samplePreload | extest
  | other (code : Nat)
  deriving DecidableEq, Repr, Inhabited

/-- The header of a snapshot or negative (R390): ranges as (address, bytes); TAG of each shard range as (base, bytes, tag); the
block index of CRC-32C values. -/
structure NegHeader where
  jobTag : Nat
  step : Nat
  epoch : Nat
  owner : Nat
  feed : Nat
  ranges : List (Nat × Nat)
  tags : List (Nat × Nat × Nat)
  crcs : List Nat
  deriving DecidableEq, Repr, Inhabited

/-- What a BULK packet says beside its payload (R388, R393, R395, R397, R403); the spec gives these messages no layout. A slate and
a piece of a negative are the packet's payload, a piece at the packet's OFFSET in the concatenated ranges. -/
inductive Bulk where
  | slate (step : Nat)
  | slateAck (step : Nat)
  | header (h : NegHeader)
  | piece (step : Nat)
  | blockAck (step block : Nat) (ok : Bool)
  | release (owner : Nat)
  | loadRequest (owner step : Nat)
  | loadHeader (h : NegHeader)
  | loadPiece (step : Nat)
  | loadRefused (detail : Nat)
  | handshake (feed : Nat)
  | answer (feed twin : Nat) (holdsJob room : Bool)
  deriving DecidableEq, Repr, Inhabited

/-- A connection manager REQ on QP1 (R480): the source IPv6 address, the host's queue pair, the private data. -/
structure CmReq where
  src : Nat
  hostQpn : Nat
  privateData : List Byte
  deriving DecidableEq, Repr, Inhabited

/-- One channel of a decoded frame: how many luma columns and rows a sample covers, and the samples row by row: integer codes, or
FP16 bits for EXR (R484). -/
structure Plane where
  subX : Nat
  subY : Nat
  samples : List Nat
  deriving DecidableEq, Repr, Inhabited

/-- A frame as the decoder finds it, in decode-output order: its code of Table 20.2 (0 decoded), whether it is an AV1 key frame or an
HEVC IRAP picture, its presentation timestamp, its channels, and the bytes of the bitstream up to its end. -/
structure DecodedFrame where
  code : Nat
  key : Bool
  pts : Nat
  planes : List Plane
  used : Nat
  deriving DecidableEq, Repr, Inhabited

/-- What an intake engine makes of a bitstream: the codecs are standards that the spec names and does not reproduce. -/
structure DecodeOutcome where
  width : Nat
  height : Nat
  depth : Nat
  frames : List DecodedFrame
  deriving DecidableEq, Repr, Inhabited

/-- What bring-up finds: whether the factory section verifies and each field copy's TAG (R464, R466); the physical cores that fail
screening (R88), other units that fail it, and the far-tier slots with no module (R504). -/
structure BootFacts where
  factoryOk : Bool
  tagA : Bool
  tagB : Bool
  failedCores : List Nat
  failedUnits : List Nat
  emptySlots : List Nat
  deriving DecidableEq, Repr, Inhabited

/-- A command of the block: a row of the opcode table, those without operands last. -/
inductive Instr where
  /-- DATA (R29). A DATA datagram arrives on a session; it is accepted, buffered or discarded by its sequence distance, and its messages are delivered to their queues in order. -/
  | data (d : Datagram) (ms : List Command)
  /-- ACK (R47). An ACK datagram arrives; acknowledged datagrams stop being retained, and queues held by RETAIN may dispatch again. -/
  | ack (d : Datagram)
  /-- NACK (R30). A NACK datagram arrives and each datagram it names is retransmitted at once, outside the timed series. -/
  | nack (d : Datagram) (bitmap : Nat)
  /-- OPEN (R462). An OPEN datagram's credential is checked; a verified one records its nonce and gets a session number or a capacity refusal. -/
  | openSession (d : Datagram) (cred : Credential)
  /-- CLOSE (R31). A CLOSE datagram ends the session and releases its number, leaving bound queues running. -/
  | close (d : Datagram)
  /-- KEEPALIVE (R31). A KEEPALIVE datagram refreshes the session's silence timer. -/
  | keepalive (d : Datagram)
  /-- TIMED_RETRANSMISSION (R30). A retransmission interval expires and the device resends an unacknowledged DATA datagram with its original TSEQ. -/
  | timedRetransmission (session tseq : Nat)
  /-- RETRANSMIT_EXHAUSTED (R30). A datagram remains unacknowledged 12.8 ms after its eighth timed retransmission and the session is declared lost. -/
  | retransmitExhausted (session tseq : Nat)
  /-- SESSION_SILENCE_TIMEOUT (R31). Nothing has been received from a session for 1 s and the device declares it lost. -/
  | sessionSilenceTimeout (session : Nat)
  /-- WINDOW_REOPEN (R46). A receive buffer frees and the device sends an ACK advertising the reopened window. -/
  | windowReopen (session buffers : Nat)
  /-- QUEUE_BIND (R32). queue_bind binds a queue to a job, class, allotment and session and reserves its DEPTH in the command pool. -/
  | queueBind (c : Command)
  /-- QUEUE_UNBIND (R34). queue_unbind stops admission to a queue and unbinds it at once or after a drain, optionally flushing first. -/
  | queueUnbind (c : Command)
  /-- QUEUE_ATTACH (R50). queue_attach moves a queue to a new session and redelivers its retained replies with REDELIVERED set. -/
  | queueAttach (c : Command)
  /-- QUEUE_STATUS (R513). queue_status returns the state of a queue or of the issuing session's Q0. -/
  | queueStatus (c : Command)
  /-- QUEUE_FLUSH (R35). queue_flush cancels every admitted undispatched command of a queue with ST_CANCELLED. -/
  | queueFlush (c : Command)
  /-- NOP (R52). nop does nothing and replies only if NOTIFY is set. -/
  | nop (c : Command)
  /-- COMMAND_DISPATCH (R40). An admitted validated command whose FENCE, TIMED and retention conditions now hold is dispatched, with gating bits checked again. -/
  | commandDispatch (q : Nat)
  /-- QUEUE_DRAINED (R34). A draining queue's last command completes and its retained replies are acknowledged; the reservation returns and QUEUE_DRAINED and DEFERRED_DONE follow. -/
  | queueDrained (q : Nat)
  /-- XANCA_READ (R71). xanca_read returns table entries or block registers from one stable even generation. -/
  | xancaRead (c : Command)
  /-- CALLSHEET_READ (R72). callsheet_read returns the call sheet and, in expert form, waits for the bits of WAIT_MASK. -/
  | callsheetRead (c : Command)
  /-- CALLSHEET_WAIT_TIMEOUT (R72). TIMEOUT_MS of a waiting callsheet_read expires and DEFERRED_DONE carries ST_NOT_READY. -/
  | callsheetWaitTimeout (i : Nat)
  /-- CALLSHEET_DEADLINE (R63). A call-sheet bit misses its deadline; its failed bit is set, CALLSHEET_CHANGE and a DEADLINE error record are issued. -/
  | callsheetDeadline (b : Nat)
  /-- REGISTER_WRITE (R6). A write to a register without a row of its own sets RW fields, clears RW1C bits and ignores RO and RSV fields. -/
  | registerWrite (unit offset value : Nat)
  /-- BAD_REGISTER_ACCESS (R7). An unaligned, non-64-bit or out-of-window access reads zero or has no effect and logs an ACCESS error record. -/
  | badRegisterAccess (addr size : Nat) (write : Bool)
  /-- LCF (R326). A link control frame arrives carrying acknowledgements, NACKs, credits, identity, timestamps and the root advertisement. -/
  | lcf (port : Nat) (l : LinkControl)
  /-- LCF_TRANSMIT (R326). The 1 µs LCF interval of an UP port expires, or an acknowledgement is due, and the port sends an LCF. -/
  | lcfTransmit (port : Nat)
  /-- PTP_MESSAGE (R79). A PTP Sync, Follow_Up, Delay_Resp or Announce message arrives on the host port and feeds the offset measurement. -/
  | ptpMessage (m : PtpMessage)
  /-- TASK_PLACE (R360). A core frees or a task becomes ready and the scheduler places the first eligible task, loading its argument record. -/
  | taskPlace (c : Nat)
  /-- CORE_WAKE (R101). A gated core placed with a task completes its 2 µs wake and its first bundle issues. -/
  | coreWake (p : Nat)
  /-- CORE_GATE (R108). A core stays idle for IDLE_HOLD_US with GATE_EN set and is power-gated. -/
  | coreGate (p : Nat)
  /-- OPE_ACC (R91). An ACC adds K steps of outer products into an accumulator bank at fixed latency. -/
  | opeAcc (p : Nat)
  /-- OPE_ZERO (R91). ZERO clears an accumulator bank after the bank's last ACC or LOAD. -/
  | opeZero (p : Nat)
  /-- OPE_LOAD (R515). LOAD fills an accumulator bank from FP32 scratchpad rows through OPE-OUT. -/
  | opeLoad (p : Nat)
  /-- OPE_DRAIN (R223). DRAIN converts a bank to OUT_FMT with scaling, optional stochastic rounding, amax and measure-only handling and writes it to scratchpad. -/
  | opeDrain (p : Nat)
  /-- OPE_CONV (R95). CONV accumulates a convolution using a MODE 1 address generator that walks the unexpanded input. -/
  | opeConv (p : Nat)
  /-- VEC_FMA (R227). The vector unit computes a fused multiply-add with a single rounding. -/
  | vecFma (p : Nat)
  /-- VEC_ADD (R227). The vector unit adds lanes with RNE. -/
  | vecAdd (p : Nat)
  /-- VEC_MUL (R227). The vector unit multiplies lanes with RNE. -/
  | vecMul (p : Nat)
  /-- VEC_MIN (R227). The vector unit takes the lane minimum, propagating NaN. -/
  | vecMin (p : Nat)
  /-- VEC_MAX (R227). The vector unit takes the lane maximum, propagating NaN. -/
  | vecMax (p : Nat)
  /-- VEC_CMP (R96). The vector unit compares lanes. -/
  | vecCmp (p : Nat)
  /-- VEC_SEL (R96). The vector unit selects lanes. -/
  | vecSel (p : Nat)
  /-- VEC_CVT (R227). CVT converts lanes between formats with RNE or SR and may feed the non-finite flag. -/
  | vecCvt (p : Nat)
  /-- VEC_EXP2 (R96). The vector unit computes EXP2 within 1 ulp, with bits identical on every core. -/
  | vecExp2 (p : Nat)
  /-- VEC_LOG2 (R96). The vector unit computes LOG2 within 1 ulp, with bits identical on every core. -/
  | vecLog2 (p : Nat)
  /-- VEC_RCP (R96). The vector unit computes a reciprocal within 1 ulp, with bits identical on every core. -/
  | vecRcp (p : Nat)
  /-- VEC_RSQRT (R96). The vector unit computes a reciprocal square root within 1 ulp, with bits identical on every core. -/
  | vecRsqrt (p : Nat)
  /-- VEC_LOAD (R96). The vector unit loads 512 bytes per cycle from scratchpad through an address generator. -/
  | vecLoad (p : Nat)
  /-- VEC_STORE (R96). The vector unit stores 512 bytes per cycle to scratchpad through an address generator. -/
  | vecStore (p : Nat)
  /-- VEC_LANE_SUM (R96). LANE_SUM adds the 128 lanes in a fixed binary tree. -/
  | vecLaneSum (p : Nat)
  /-- VEC_RNG (R230). RNG draws words from the SHAKE256-keyed generator by seed, tensor id and index. -/
  | vecRng (p : Nat)
  /-- LN_FWD (R153). The continuity engine runs a layer-norm forward over rows, optionally writing statistics to a frame. -/
  | lnFwd (p : Nat)
  /-- RMS_FWD (R153). The continuity engine runs an RMS-norm forward over rows, optionally writing statistics. -/
  | rmsFwd (p : Nat)
  /-- SMAX_FWD (R153). The continuity engine runs a soft-maximum forward over rows, optionally writing (max, sum). -/
  | smaxFwd (p : Nat)
  /-- SMAX_PART (R153). The continuity engine updates a running soft-maximum over one key tile and writes the factor f. -/
  | smaxPart (p : Nat)
  /-- SMAX_FIN (R153). The continuity engine writes 1/sum of a running soft-maximum to AUX_LINE. -/
  | smaxFin (p : Nat)
  /-- LN_BWD (R153). The continuity engine runs a layer-norm backward from a checked frame and accumulates dγ and dβ. -/
  | lnBwd (p : Nat)
  /-- RMS_BWD (R153). The continuity engine runs an RMS-norm backward from a checked frame and accumulates dγ. -/
  | rmsBwd (p : Nat)
  /-- SMAX_BWD (R153). The continuity engine runs a soft-maximum backward from a checked frame. -/
  | smaxBwd (p : Nat)
  /-- FRAME_RELEASE (R150). FRAME_RELEASE clears a frame's VALID bit without any check. -/
  | frameRelease (p : Nat)
  /-- GET (R127). A TRANSFER GET moves lines from a far address into local scratchpad and tags them full. -/
  | getLines (p : Nat)
  /-- PUT (R127). A TRANSFER PUT sends local lines to a far address, as remote writes for a window. -/
  | putLines (p : Nat)
  /-- EMPTY (R127). A TRANSFER EMPTY sets F = 0 on local lines without moving data. -/
  | emptyLines (p : Nat)
  /-- PUSH (R197). A reel PUSH commits a frame onto the reel and spills the oldest lines to make the promised room. -/
  | pushFrame (p : Nat)
  /-- POP (R198). A reel POP releases the frame being read, pops the top frame, refills it from the spillway and returns its marker. -/
  | popFrame (p : Nat)
  /-- HOLD (R198). A reel HOLD pops the top DATA frame and keeps it held until its RELEASE. -/
  | holdFrame (p : Nat)
  /-- RELEASE (R198). A reel RELEASE empties a held frame's lines and returns its marker. -/
  | releaseFrame (p : Nat)
  /-- SETUP (R514). SETUP loads an address generator from a 64-byte descriptor in scratchpad. -/
  | setupGenerator (p : Nat)
  /-- LOOP (R97). LOOP repeats a body of bundles a counted number of times, nested up to four deep. -/
  | loopBundle (p : Nat)
  /-- WAIT_TAG (R124). WAIT_TAG stalls the sequencer until lines are full, lines are empty or a gauge reaches a value. -/
  | waitTag (p : Nat)
  /-- WAIT_TAG_RELEASE (R124). The condition of a stalled WAIT_TAG comes to hold and the next bundle issues in the following cycle. -/
  | waitTagRelease (p : Nat)
  /-- EMPTY_SLOT_STALL_RELEASE (R122). The last missing line of a stalled bundle's footprint turns full and the bundle issues in the following cycle. -/
  | emptySlotStallRelease (p : Nat)
  /-- CLAP (R182). A CLAP bundle arrives at a clap and waits for release unless ARRIVE_ONLY is set. -/
  | clapBundle (p : Nat)
  /-- END (R100). END retires once the engines are idle, making a task boundary at which slots return and boundary actions apply. -/
  | endTask (p : Nat)
  /-- TASK_WATCHDOG (R369). A task reaches its run-time limit and ends with TASK_FAULT cause 17, possibly starting a screen test. -/
  | taskWatchdog (p : Nat)
  /-- KERNEL_LOAD (R111). kernel_load checks a kernel image and places it in the program store of the job's cores. -/
  | kernelLoad (c : Command)
  /-- KERNEL_RUN (R112). kernel_run places its tasks in index order and completes when all of them have ended. -/
  | kernelRun (c : Command)
  /-- KERNEL_UNLOAD (R113). kernel_unload removes a kernel at once or after the last run that names it. -/
  | kernelUnload (c : Command)
  /-- OPE_REPAIR (R114). ope_repair retires a named OPE row, applied at the core's next task boundary. -/
  | opeRepair (c : Command)
  /-- REPAIR_HOLD_END (R105). The 440-cycle repair hold ends; the spare map is updated, OPE_REPAIRED is issued and the retired rows are recorded in MRAM. -/
  | repairHoldEnd (p : Nat) (checkOk : Bool)
  /-- REMOTE_WRITE_PACKET (R131). A remote-write packet is presented at the REMOTE position and accepted or refused under the turnout test. -/
  | remoteWritePacket (i : Nat)
  /-- WRITE_REFUSED (R135). A refusal returns to the sending core and a WRITE_REFUSED record is issued on the placing command's queue. -/
  | writeRefused (i : Nat)
  /-- TURNOUT_LATE (R135). At most every 10 µs per turnout, a TURNOUT_LATE record reports the lines refused since the last one. -/
  | turnoutLate (p t : Nat)
  /-- REMOTE_READ (R127). A remote read is served through the target's REMOTE position without checking or changing tags. -/
  | remoteRead (c first lines : Nat)
  /-- TURNOUT_OPEN (R141). turnout_open opens a turnout window for a placement and epoch, clearing tags unless KEEP_TAGS. -/
  | turnoutOpen (c : Command)
  /-- TURNOUT_CLOSE (R142). turnout_close closes a turnout at once or by drain. -/
  | turnoutClose (c : Command)
  /-- TURNOUT_DRAIN_LIMIT (R133). A drain limit expires and the turnout closes as by close-now with ST_WINDOW_CLOSED. -/
  | turnoutDrainLimit (p t : Nat)
  /-- SPAD_SCRUB (R139). The scrubber reads each scratchpad line at least every 10 ms in unused position cycles. -/
  | spadScrub (p line errors : Nat) (passEnd : Bool)
  /-- CONT_SCRUB (R156). The scrubber reads each continuity-store line at least every 10 ms. -/
  | contScrub (p line errors : Nat) (passEnd : Bool)
  /-- RESV_SCRUB (R176). The scrubber reads each reservoir line at least every 10 ms. -/
  | resvScrub (line errors : Nat) (passEnd : Bool)
  /-- MEMORY_SCRUB (R250). Each HBM or far-tier controller reads every granule once every SCRUB_PERIOD_H hours. -/
  | memoryScrub (u addr errors sub : Nat) (passEnd : Bool)
  /-- CONT_RUN (R158). cont_run runs a forward row operation over a tensor in virtual memory as row tasks. -/
  | contRun (c : Command)
  /-- CONT_RUN_FRAMES (R159). cont_run OP FRAMES sets the job's frame window on each core, applied at each core's boundary. -/
  | contRunFrames (c : Command)
  /-- STREAM_OPEN_POOL (R167). stream_open OP POOL defines a pool and opens its turnout and take region on every core. -/
  | streamOpenPool (c : Command)
  /-- STREAM_OPEN (R186). stream_open OP STREAM opens a stream of stages on lanes within a pool, reserving its slots. -/
  | streamOpen (c : Command)
  /-- STREAM_RUN (R187). stream_run runs iterations of a stream, completing when every iteration's last stage has completed. -/
  | streamRun (c : Command)
  /-- STREAM_CANCEL (R180). stream_cancel drops unplaced iterations, empties slots and returns credits, then replies after the drain. -/
  | streamCancel (c : Command)
  /-- STREAM_CLOSE (R188). stream_close closes a stream, at once or after its last run, or closes an unused pool. -/
  | streamClose (c : Command)
  /-- CLAP_SET (R189). clap_set sets, resets or removes a clap with its members, scope, flush and limit. -/
  | clapSet (c : Command)
  /-- STREAM_FETCH (R170). A granted demand or run-ahead fetch leaves for Flume, through the reservoir for WEIGHT stages. -/
  | streamFetch (id iter stage : Nat)
  /-- STREAM_TASK_PLACE (R164). The controller places an iteration's kernel task once its slots are granted and its lane core is free. -/
  | streamTaskPlace (id iter : Nat)
  /-- STREAM_STORE (R166). A STORE stage moves an output slot to virtual memory and frees the slot after its last line is read. -/
  | streamStore (id iter stage : Nat)
  /-- WARM_FETCH (R179). Idle memory cycles fill the reservoir for the next layer or keep standby lines resident. -/
  | warmFetch (id iter stage : Nat)
  /-- CREDIT_WATCHDOG (R181). A ring waits WATCHDOG_US with no pool progress and a CREDIT_DEADLOCK record is issued, cancelling under STALL_ACTION 1. -/
  | creditWatchdog (id lane stage : Nat)
  /-- CLAP_LIMIT (R183). A core waits LIMIT_US at a clap; the clap becomes BROKEN, waiters end with cause 11 and CLAP_BROKEN is issued. -/
  | clapLimit (slot n : Nat)
  /-- REEL_CONFIG (R213). reel_config OP CONFIG gives the job a ring, a reel window and a spillway on every core. -/
  | reelConfig (c : Command)
  /-- REEL_BEGIN (R214). reel_config OP BEGIN puts the job into step n, clears the ledger, arms the guards and builds the slate's first half. -/
  | reelBegin (c : Command)
  /-- REEL_UPDATE (R207). reel_config OP UPDATE requests the update gate of step n. -/
  | reelUpdate (c : Command)
  /-- REEL_SHARD (R204). reel_config OP SHARD registers or removes a shard range with its TAG. -/
  | reelShard (c : Command)
  /-- REEL_CLEAR (R214). reel_config OP CLEAR empties the job's reels outside a step. -/
  | reelClear (c : Command)
  /-- UPDATE_GATE_OPEN (R207). The ledger empties with no gather in flight; TAGs advance, the guard lifts, the job becomes UPDATED and DEFERRED_DONE follows. -/
  | updateGateOpen (slot : Nat)
  /-- SLATE_MIRROR (R388). Within 50 µs of a slate write, the slate is sent to the partner as BULK packets. -/
  | slateMirror (slot : Nat)
  /-- UPDATE_GATE_TIMEOUT (R207). LIMIT_MS of a pending gate expires and DEFERRED_DONE carries ST_CANCELLED with the job left IN_STEP. -/
  | updateGateTimeout (slot : Nat)
  /-- MAP_CREATE (R268). map_create gives the job a map with a zeroed root in a table pool. -/
  | mapCreate (c : Command)
  /-- MAP_EDIT (R269). map_edit maps, unmaps or protects a range atomically and starts a shootdown where needed. -/
  | mapEdit (c : Command)
  /-- SHOOTDOWN_COMPLETE (R258). Cached copies are invalidated and old-translation accesses have completed, ending an edit's shootdown. -/
  | shootdownComplete (i : Nat)
  /-- MAP_DESTROY (R270). map_destroy answers ST_DEFERRED and later releases the pool when the job's accesses have completed. -/
  | mapDestroy (c : Command)
  /-- MEM_COPY (R271). mem_copy copies a virtual range on reserved Flume channels. -/
  | memCopy (c : Command)
  /-- MEM_FILL (R271). mem_fill fills a virtual range with a 64-bit pattern. -/
  | memFill (c : Command)
  /-- FAR_MIGRATE_OUT (R273). far_migrate OUT copies HOME chunks of a channel to destinations one at a time. -/
  | farMigrateOut (c : Command)
  /-- FAR_MIGRATE_BACK (R273). far_migrate BACK copies REDIRECTED chunks back to their online home channel. -/
  | farMigrateBack (c : Command)
  /-- FAR_MIGRATE_RELEASE (R273). far_migrate RELEASE makes HOME chunks VACANT. -/
  | farMigrateRelease (c : Command)
  /-- CHUNK_FLIP (R262). A chunk's copy ends; new accesses are held, in-flight ones drain and the chunk changes state. -/
  | chunkFlip (channel : Nat)
  /-- FAR_OFFLINE (R274). far_offline takes a channel offline and optionally removes slot power. -/
  | farOffline (c : Command)
  /-- FAR_ONLINE (R275). far_online powers, trains and zeroes a channel. -/
  | farOnline (c : Command)
  /-- FAR_ONLINE_COMPLETE (R264). Channel bring-up finishes; VACANT chunks return to HOME and DEFERRED_DONE follows. -/
  | farOnlineComplete (channel outcome serial capacity rate trainMs : Nat)
  /-- SLOT_POWER_FALL (R505). 60 ms after FAR_SLOT_EN deassertion SLOT_POWER reads 0. -/
  | slotPowerFall (channel : Nat)
  /-- SEQ_CREATE_POOL (R289). seq_create OP POOL gives the job a key-value pool of pages with zeroed descriptors. -/
  | seqCreatePool (c : Command)
  /-- SEQ_CREATE_SEQUENCE (R281). seq_create OP SEQUENCE reserves a virtual range for a sequence. -/
  | seqCreateSequence (c : Command)
  /-- SEQ_DESTROY (R298). seq_create OP DESTROY removes every leaf of a sequence and releases its id. -/
  | seqDestroy (c : Command)
  /-- KV_PAGE_MAP (R299). kv_page_map allocates pool pages into invalid leaves of a sequence. -/
  | kvPageMap (c : Command)
  /-- KV_PAGE_SHARE (R299). kv_page_share maps a source sequence's pool pages into another sequence. -/
  | kvPageShare (c : Command)
  /-- KV_PAGE_FREE (R299). kv_page_free removes pool leaves from a sequence range. -/
  | kvPageFree (c : Command)
  /-- ATTN_RUN (R300). attn_run appends, copies on write, pins pages, opens rings and places head and query-tile tasks. -/
  | attnRun (c : Command)
  /-- ATTN_TILE_SEND (R279). The sequencer writes an allowed key tile into an empty ring slot of a task's core. -/
  | attnTileSend (p : Nat)
  /-- DEFERRED_EDIT_APPLY (R294). At a walked sequence's next kernel boundary pending edits are applied in order and their shootdowns run. -/
  | deferredEditApply (id : Nat)
  /-- FLUME_CHAIN_START (R319). flume_chain_start OP CHAIN claims a channel and starts a descriptor chain. -/
  | flumeChainStart (c : Command)
  /-- FLUME_TIMER_SET (R313). flume_chain_start OP TIMER sets or turns off a timer and resets its counter. -/
  | flumeTimerSet (c : Command)
  /-- FLUME_CHAIN_STOP (R320). flume_chain_stop stops a chain after or during its running descriptor. -/
  | flumeChainStop (c : Command)
  /-- FLUME_STATUS (R321). flume_status returns the channel registers. -/
  | flumeStatus (c : Command)
  /-- DESCRIPTOR_READ (R306). A channel reads its next descriptor and runs it if OWN is 1, or ends the chain on a read failure. -/
  | descriptorRead (engine channel : Nat)
  /-- OWN_POLL (R306). Every POLL_NS a channel rereads a descriptor whose OWN was 0. -/
  | ownPoll (engine channel : Nat)
  /-- COPY (R307). A COPY descriptor moves rows from SRC to DST. -/
  | copyDescriptor (engine channel : Nat)
  /-- FILL (R307). A FILL descriptor writes the pattern over rows at DST. -/
  | fillDescriptor (engine channel : Nat)
  /-- SKEW (R308). A SKEW descriptor writes a row-operand tile in the pre-skewed layout. -/
  | skewDescriptor (engine channel : Nat)
  /-- TRANSPOSE (R309). A TRANSPOSE descriptor writes the element transpose of its source. -/
  | transposeDescriptor (engine channel : Nat)
  /-- EVENT (R306). An EVENT descriptor moves no data and is written back. -/
  | eventDescriptor (engine channel : Nat)
  /-- LINK (R306). A LINK descriptor continues the chain at the descriptor at SRC. -/
  | linkDescriptor (engine channel : Nat)
  /-- STOP (R319). A STOP descriptor ends the chain with FLUME_CHAIN_END and DEFERRED_DONE ST_OK. -/
  | stopChain (engine channel : Nat)
  /-- EVENT_WAIT_RELEASE (R312). An awaited event counter reaches WAIT_VALUE and the waiting descriptor proceeds. -/
  | eventWaitRelease (engine channel : Nat)
  /-- TIMER_TICK (R313). A Flume timer ticks at START_TC + m × PERIOD_NS and advances its counter. -/
  | timerTick (t : Nat)
  /-- DESCRIPTOR_WRITE_BACK (R306). A descriptor completes; LINES_DONE, DONE_TC and STATUS are written, then the event advances and FLUME_DONE is issued. -/
  | descriptorWriteBack (engine channel : Nat)
  /-- COLL_PACKET (R340). A COLL packet arrives and is forwarded, epoch-checked and written, advancing its collective. -/
  | collPacket (f : Frame)
  /-- GATHER_PIECE (R205). A GATHER packet arrives and is tag-checked and written, advancing its gather. -/
  | gatherPiece (f : Frame)
  /-- CLAP_PACKET (R346). A CLAP packet arrives for a fabric clap round, kept if early, and may release the clap. -/
  | clapPacket (f : Frame)
  /-- BULK_PACKET (R393). A BULK packet carrying a mirror slate or a negative block is written to the resilience area and acknowledged. -/
  | bulkPacket (f : Frame) (b : Bulk)
  /-- LIGHT_DETECTED (R330). Light appears on an enabled DOWN port and it starts TRAINING. -/
  | lightDetected (port : Nat)
  /-- TRAINING_COMPLETE (R330). A port trains and checks its peer against the active map, going UP or MISWIRED. -/
  | trainingComplete (port peer peerPort width : Nat)
  /-- TRAINING_TIMEOUT (R330). A port fails to train within 200 ms, goes DOWN and retries every 1 s. -/
  | trainingTimeout (port : Nat)
  /-- LOSS_OF_LIGHT (R330). An UP port loses light and goes DOWN, starting its screen test. -/
  | lossOfLight (port : Nat)
  /-- CONNECTOR_REMOVAL (R508). All 17 lanes of an engine lose light within 1 ms; its ports go DOWN without a screen test. -/
  | connectorRemoval (engine : Nat)
  /-- FABRIC_ID_SET (R347). fabric_id_set sets the device's twin bit and device number. -/
  | fabricIdSet (c : Command)
  /-- PORT_MAP_SET (R352). port_map_set loads a port map record into an inactive slot. -/
  | portMapSet (c : Command)
  /-- RECUT_DRAIN (R336). recut in DRAIN mode waits for the job's epoch work to drain before the boundary clap. -/
  | recutDrain (c : Command)
  /-- RECUT_ABANDON (R337). recut in ABANDON mode cancels the job's epoch operations and proceeds to the boundary clap. -/
  | recutAbandon (c : Command)
  /-- RECUT_DRAINED (R336). The job's ACTIVE count reaches zero and the device arrives at the boundary clap. -/
  | recutDrained (slot : Nat)
  /-- PORT_DARK (R339). At the later of release and SWITCH_TC a changed port completes its acknowledgements and goes dark. -/
  | portDark (port : Nat)
  /-- PORT_RELOCK (R339). A changed port verifies its new peer and goes UP; with every port up, RECUT_DONE and DEFERRED_DONE follow. -/
  | portRelock (port peer peerPort width : Nat)
  /-- RECUT_LIMIT (R338). A recut's limit expires, before release leaving the epoch unchanged, after release ending the recut. -/
  | recutLimit (slot : Nat)
  /-- COLLECTIVE_RUN (R340). collective_run performs a canonical-order reduce-scatter, all-gather or all-reduce over the device's part. -/
  | collectiveRun (c : Command)
  /-- GATHER_RUN (R345). gather_run all-gathers sharded weights with ledger and tag checks. -/
  | gatherRun (c : Command)
  /-- COLLECTIVE_LIMIT (R343). Expected peer data misses LIMIT_MS and the collective or gather ends with ST_PEER_SILENT. -/
  | collectiveLimit (slot : Nat) (gather : Bool) (id : Nat)
  /-- LINK_STATUS (R356). link_status returns the link port registers. -/
  | linkStatus (c : Command)
  /-- JOB_CREATE (R377). job_create gives a job a slot, a tag and an allotment. -/
  | jobCreate (c : Command)
  /-- JOB_DESTROY (R378). job_destroy cancels the job's commands and starts its teardown. -/
  | jobDestroy (c : Command)
  /-- JOB_TEARDOWN (R378). After the destroyed job's last END its resources are removed, its queues unbound and JOB_STATE issued. -/
  | jobTeardown (slot : Nat)
  /-- MODE_SET (R379). mode_set switches between Interleave and Allotment mode when no job exists. -/
  | modeSet (c : Command)
  /-- ALLOTMENT_SET (R367). allotment_set defines or changes an allotment's cores, reserve and rotation. -/
  | allotmentSet (c : Command)
  /-- ROTATION_TURN_END (R368). A rotation turn ends or is yielded and the next tailwater job takes the allotment. -/
  | rotationTurnEnd (a : Nat)
  /-- TASK_MIGRATE (R371). task_migrate starts a placement migration of line ranges between cores. -/
  | taskMigrate (c : Command)
  /-- MIGRATION_DRAINED (R371). The migration's commands, turnouts and in-flight writes drain; ranges are copied, the placement rises and MIGRATE_DONE follows. -/
  | migrationDrained (slot : Nat)
  /-- FREEZE_SET (R406). freeze_set configures freezes and the slate log and takes the initial freeze. -/
  | freezeSet (c : Command)
  /-- FREEZE_TAKE (R407). freeze_take requests a freeze at the next BEGIN or at once. -/
  | freezeTake (c : Command)
  /-- FREEZE_STOP (R390). A held freeze's job quiesces and the device stops it and copies the state into a snapshot slot. -/
  | freezeStop (slot : Nat)
  /-- FREEZE_RESUME (R390). The snapshot copy ends; held commands are released, FREEZE_DONE is issued and the negative starts. -/
  | freezeResume (slot : Nat)
  /-- PARTNER_SET (R395). partner_set sends a handshake and pairs the job with a partner device. -/
  | partnerSet (c : Command)
  /-- PARTNER_HANDSHAKE (R395). A partner handshake arrives and the device answers with its feed tag, twin bit, job and room. -/
  | partnerHandshake (f : Frame) (feed : Nat)
  /-- PARTNER_LIMIT (R398). A mirror or negative block stays unacknowledged for PARTNER_LIMIT_MS and the partner is lost. -/
  | partnerLimit (slot : Nat)
  /-- FEED_TAG_SET (R408). feed_tag_set sets the device's feed tag. -/
  | feedTagSet (c : Command)
  /-- SLATE_READ (R410). slate_read copies logged or mirrored slates to memory. -/
  | slateRead (c : Command)
  /-- NEGATIVE_LOAD (R403). negative_load checks and loads a snapshot or negative into the job's memory. -/
  | negativeLoad (c : Command)
  /-- SPREAD_APPLY (R402). spread_apply aborts the step, abandons negatives and recuts with ABANDON to an equivalent layout. -/
  | spreadApply (c : Command)
  /-- RETAKE_RUN (R404). retake_run arms a loss-bit comparison for a step. -/
  | retakeRun (c : Command)
  /-- SCREEN_TEST_COMPLETE (R419). A screen test ends; a pass is transient, a fail replaces the unit from spares or retires it. -/
  | screenTestComplete (unit sub type : Nat) (failed : Bool) (subs : List Nat) (spare : Bool)
  /-- SWEEP (R421). The SWEEP_S interval expires and a core screen test runs on a free logical core. -/
  | sweep (c : Nat)
  /-- SCREEN_TEST_RUN (R433). screen_test_run runs screen tests on named units. -/
  | screenTestRun (c : Command)
  /-- ERROR_LOG_READ (R434). error_log_read returns error log entries. -/
  | errorLogRead (c : Command)
  /-- ERROR_INJECT (R435). error_inject corrupts a stored word or forces a screen test failure. -/
  | errorInject (c : Command)
  /-- HEARTBEAT (R431). A control core reports to the Watermaster. -/
  | heartbeat (n : Nat)
  /-- CONTROL_HEARTBEAT_TIMEOUT (R431). A control core misses reports for 10 ms and is reset, with its commands revalidated on other cores. -/
  | controlHeartbeatTimeout (n : Nat)
  /-- HOST_PORT_ENERGY_WAKE (R438). Signal energy on the host port receive lanes for 10 ms starts a STANDBY wake. -/
  | hostPortEnergyWake (f : BootFacts)
  /-- POWER_STATE_SET (R456). power_state_set moves the device between RUN, SLEEP and STANDBY. -/
  | powerStateSet (c : Command)
  /-- POWER_LIMIT_SET (R457). power_limit_set changes TDP, peak power and peak duration limits. -/
  | powerLimitSet (c : Command)
  /-- TELEMETRY_READ (R458). telemetry_read returns power, energy, point, thermal and rail telemetry. -/
  | telemetryRead (c : Command)
  /-- POWER_ESTIMATE (R449). Every 1 µs a power estimate drives the fast-clamp k and the excursion tracking. -/
  | powerEstimate (watts dynamic : Nat)
  /-- RAIL_SAMPLE (R453). Every 10 µs the Gaffer reads each rail's voltage and current. -/
  | railSample (mv ma : List Nat)
  /-- TEMP_SAMPLE (R453). Every 1 ms the Gaffer reads the die, stack and optical temperatures. -/
  | tempSample (cmp iod : Nat) (hbm opt : List Nat)
  /-- I3C_INDEX_WRITE (R502). A one-byte I3C private write sets the telemetry index. -/
  | i3cIndexWrite (data : List Byte)
  /-- SETP_ALERT (R496). The regulator holds SETP_ALERT_N low while its output lies outside tolerance. -/
  | setpAlert (low : Bool)
  /-- PWR_GOOD (R460). PWR_GOOD asserts and the device runs its power-on sequence up to the host port. -/
  | pwrGood (f : BootFacts)
  /-- FIRMWARE_LOAD_BEGIN (R473). firmware_load BEGIN opens an image load for the session. -/
  | firmwareLoadBegin (c : Command)
  /-- FIRMWARE_LOAD_DATA (R473). firmware_load DATA writes image bytes at an offset. -/
  | firmwareLoadData (c : Command)
  /-- FIRMWARE_LOAD_COMMIT (R464). firmware_load COMMIT verifies the image and starts the control cores. -/
  | firmwareLoadCommit (c : Command)
  /-- FIRMWARE_LOAD_ABORT (R473). firmware_load ABORT discards the open load. -/
  | firmwareLoadAbort (c : Command)
  /-- CONFIG_WRITE_SET (R474). config_write SET adds or replaces settings, optionally applied live. -/
  | configWriteSet (c : Command)
  /-- CONFIG_WRITE_CLEAR (R474). config_write CLEAR removes settings. -/
  | configWriteClear (c : Command)
  /-- CONFIG_WRITE_HOST_KEY (R474). config_write HOST_KEY sets or removes the host access key. -/
  | configWriteHostKey (c : Command)
  /-- CONFIG_WRITE_MIN_SVN (R474). config_write MIN_SVN raises the least accepted firmware SVN. -/
  | configWriteMinSvn (c : Command)
  /-- ATTEST_REPORT (R471). attest_report REPORT returns a signed attestation report. -/
  | attestReport (c : Command)
  /-- ATTEST_CHAIN (R475). attest_report CHAIN returns one item of the identity chain. -/
  | attestChain (c : Command)
  /-- ATTEST_ROLL (R470). attest_report ROLL generates the next identity key generation. -/
  | attestRoll (c : Command)
  /-- KEY_ROLLED (R470). Key generation finishes; the statement is signed and stored, old seeds are erased and KEY_ROLLED is issued. -/
  | keyRolled (ok : Bool)
  /-- NEIGHBOUR_DISCOVERY (R478). An IPv6 Neighbour Discovery message for the port's addresses is answered. -/
  | neighbourDiscovery (target src : Nat)
  /-- ICMPV6_ECHO (R478). An ICMPv6 echo request is answered. -/
  | icmpv6Echo (dst src : Nat) (data : List Byte)
  /-- CM_REQ (R480). A connection manager REQ is accepted with a REP and an RKEY, or rejected. -/
  | cmReq (r : CmReq)
  /-- CM_DREQ (R493). A host DREQ closes a queue pair and QP_STATE is issued. -/
  | cmDreq (qpn : Nat)
  /-- RDMA_SEND (R481). A RoCEv2 SEND is placed in the next receive slot or answered RNR NAK. -/
  | rdmaSend (qpn : Nat) (ecn : Bool) (data : List Byte)
  /-- RDMA_WRITE (R482). A RoCEv2 WRITE is translated and written, then acknowledged once accepted. -/
  | rdmaWrite (qpn : Nat) (ecn : Bool) (va rkey : Nat) (data : List Byte)
  /-- RDMA_READ (R481). A RoCEv2 READ is translated and answered with response data. -/
  | rdmaRead (qpn : Nat) (ecn : Bool) (va rkey n : Nat)
  /-- INTAKE_DECODE (R487). intake_decode queues a media decode on an intake engine. -/
  | intakeDecode (c : Command)
  /-- INTAKE_DECODE_COMPLETE (R487). A decode ends, reports its result and the engine starts its next queued decode. -/
  | intakeDecodeComplete (e : Nat) (r : DecodeOutcome)
  /-- INTAKE_STATUS (R492). intake_status returns intake engine registers. -/
  | intakeStatus (c : Command)
  /-- TAP_INSTRUCTION (R503). The IEEE 1149.1 test access port executes an instruction. -/
  | tapInstruction (i : TapInstruction)
  /-- FUNCTION_READY (R63). A function finishes its bring-up (training, scrubbing, placing, biasing or firmware start) and its call-sheet ready bit is set and its failed bit cleared. -/
  | functionReady (b : Nat)
  /-- FUNCTION_STOPS_BEING_USABLE (R65). A ready function such as an HBM stack or far-tier channel interface stops being usable and its bit and aggregate are cleared before its screen test runs. -/
  | functionStopsBeingUsable (b : Nat)
  /-- TRAINING_RETRY (R330). The 1 s retry timer of a DOWN port with light present expires and the port starts training again. -/
  | trainingRetry (port : Nat)
  /-- PARTNER_HANDSHAKE_LIMIT (R395). The partner handshake of partner_set goes unanswered for LIMIT_MS and the command completes with ST_PEER_SILENT. -/
  | partnerHandshakeLimit (slot : Nat)
  /-- NEGATIVE_LOAD_DONE (R403). A deferred negative_load finishes writing its ranges; tags, last gated step and reel state are set and DEFERRED_DONE follows. -/
  | negativeLoadDone (slot : Nat)
  /-- MAP_DESTROY_DONE (R270). With no command of the job running and every access under the map completed, the pool is released and map_destroy's DEFERRED_DONE is issued. -/
  | mapDestroyDone (slot : Nat)
  /-- READ_DRAIN_COMPLETE (R180). The last in-flight read of a cancelled stream or a MODE 1 stopped Flume chain arrives at its channel and is discarded, allowing the cancel or stop reply. -/
  | readDrainComplete (chain : Bool) (id discarded : Nat)
  /-- PFC_FRAME (R477). An IEEE 802.1Qbb PFC frame arrives on the host port for the configured priority and pauses or resumes transmission on it. -/
  | pfcFrame (prio quanta : Nat)
  /-- DYNAMIC_ADDRESS_ASSIGNMENT (R502). An I3C SETDASA or ENTDAA command assigns the telemetry target its dynamic address. -/
  | dynamicAddressAssignment (addr : Nat)
  /-- SERVO_ADJUST (R81). Every 1 ms the servo sets the counter rate within ±200 ppm from the filtered offsets. -/
  | servoAdjust
  /-- PARENT_SEARCH_TIMEOUT (R85). No new parent is found within 1 ms and the timecode unit enters HOLDOVER. -/
  | parentSearchTimeout
  /-- PTP_LOST (R85). A device following PTP loses its source and enters HOLDOVER. -/
  | ptpLost
  /-- HOLDOVER_LIMIT_EXCEEDED (R86). ERR_BOUND_NS exceeds HOLDOVER_LIMIT_NS and the unit enters FREERUN, clearing call-sheet bit 3. -/
  | holdoverLimitExceeded
  /-- UNLOCKED_NS_LIMIT (R77). The unlocked counter reaches 2^50 − 1 ns and holds there, so that only SEQ orders stamps. -/
  | unlockedNsLimit
  /-- DOZE_ENTRY (R443). The device has been idle for DOZE_HOLD_US and the Watermaster enters DOZE. -/
  | dozeEntry
  /-- GAFFER_TICK (R450). Every 100 µs the Gaffer rule lowers or raises the operating point. -/
  | gafferTick
  /-- SETPOINT_REACHED (R448). VSENSE reads the new VDD_CMP setpoint within tolerance and the frequency is raised. -/
  | setpointReached
  /-- EXCURSION_BACKSTOP (R449). An excursion reaches PEAK_MS − 0.5 ms and k becomes 4 until it ends. -/
  | excursionBackstop
  /-- CLAMP_RELEASE_STEP (R449). With no cause active, k falls by 1 each RELEASE_US. -/
  | clampReleaseStep
  /-- THROT_IN_ASSERT (R449). THROT_IN_N is asserted and k becomes THROT_LEVEL within 1 µs. -/
  | throtInAssert
  /-- THROT_IN_DEASSERT (R449). THROT_IN_N is released and the throttle cause ends. -/
  | throtInDeassert
  /-- I3C_READ (R502). An I3C private read returns 8 bytes at the index and advances it. -/
  | i3cRead
  /-- PWR_GOOD_DEASSERT (R499). PWR_GOOD deasserts and the device stops as at power-off. -/
  | pwrGoodDeassert
  /-- RAIL_FAULT (R499). A rail stays out of tolerance for 20 µs; fast clocks stop and FAULT_N asserts. -/
  | railFault
  /-- THERMAL_TRIP (R509). The compute die reaches 125 °C and the device stops as in R499. -/
  | thermalTrip
  /-- HOST_LINK_LOSS (R477). The host port loses signal and retrains its lanes with the module. -/
  | hostLinkLoss
  /-- PPS_IN_EDGE (R501). A rising edge of PPS_IN is stamped for board validation. -/
  | ppsInEdge
  deriving DecidableEq, Repr

end Sys2Proof
end

