-- ==== Sys2Proof/Config.lean ====
section
/-! DEFINITION. What the spec leaves to an implementation and what it leaves open: opaque constants with no body. Nothing can
be proved about their values, so a statement about the device holds for every value (notes/assumptions/3.md). -/

namespace Sys2Proof.Config

/-- A free value of any size, by the counter of the state that numbers the draws. -/
opaque freeValue : Nat → Nat

/-- Where the window of a unit's registers lies (REG_OFFSET, R54), and its BASIC_END where the chapter states none. -/
opaque regOffset : Nat → Nat

/-- CAP0 and CAP1 of a unit where the owning chapter defines none (Table 3.2). -/
opaque capWord : Nat → Nat → Nat

/-- ROOT_HASH of the boot ROM (R464). -/
opaque rootHash : List Byte

/-- ROM_VERSION (Table 19.7). -/
opaque romVersion : Nat

/-- Verification of an XMSS signature: public key, message, signature (R464; RFC 8391 is not reproduced by the spec). -/
opaque xmssVerify : List Byte → List Byte → List Byte → Bool

/-- The signature of a message by the identity key of a generation at a leaf index (R468, R471). -/
opaque xmssSign : Nat → Nat → List Byte → List Byte

/-- The identity public key of a generation (R463: 68 bytes). -/
opaque identityKey : Nat → List Byte

/-- The factory section: ISSUER_PK with ISSUER_CERT, and the body with DEVICE_SIG (R475 items 0 and 1). -/
opaque factoryItem : Nat → List Byte

/-- What a field section holds after its settings (0) and after its repairs (1), of how many of them there are (Table 19.5). -/
opaque sectionRest : Nat → Nat → List Byte

/-- The functions that the vector unit computes within 1 ulp, with bits identical on every core (R96): EXP2 0, LOG2 1,
RCP 2, RSQRT 3, of the FP32 bits of a lane. -/
opaque elementary : Nat → Word32 → Word32

/-- The word that CMP leaves in a lane: of the IMM field and the lanes of VA and VB (R96 names the operation and no result). -/
opaque compareLanes : Nat → Word32 → Word32 → Word32

/-- Which of its two operands SEL takes in a lane, of the IMM field and the lane of VC (R96). -/
opaque selectFirst : Nat → Word32 → Bool

/-- The generator that a vector LOAD or STORE names in its IMM field (R96 gives no layout for it). -/
opaque vectorGenerator : Nat → Nat

/-- The row of the generator's tile that a vector LOAD or STORE moves, of its IMM field. -/
opaque vectorRow : Nat → Nat

/-- What LANE_SUM leaves in the lanes other than lane 0, of the sum (R96). -/
opaque laneSumRest : Word32 → Nat → Word32

/-- CORE_CYCLES of a physical core at a time: what the changing CLK_ARITH makes of the time since the core woke (Table 5.9). -/
opaque coreCycles : Nat → Nat → Nat

/-- An RKEY that the device chooses (R480), by the counter of connections. -/
opaque rkey : Nat → Nat

/-- The filtered offset of a neighbour, ps, of its last exchanges (R80 names a filter and gives none). -/
opaque offsetFilter : List Int → Int

/-- The rate that the servo sets, in parts per billion, of the filtered offset in ps (R80, R81 bound it and give no law). -/
opaque servoRate : Int → Int

end Sys2Proof.Config
end

