-- ==== Sys2Proof/Machine/Operands.lean ====
section
/-! DEFINITION. The operand forms of commands: the flags of a header (Table 2.5), and the fields of a parameter block by
offset (R39). -/

namespace Sys2Proof

open Sys2Proof.Machine

namespace CmdHdr
/-- FLAGS bit 0 LEVEL: expert form. -/
def expert (h : CmdHdr) : Bool := bitAt h.flags 0
def notify (h : CmdHdr) : Bool := bitAt h.flags 1
def fence (h : CmdHdr) : Bool := bitAt h.flags 2
def timed (h : CmdHdr) : Bool := bitAt h.flags 3
def force (h : CmdHdr) : Bool := bitAt h.flags 4
end CmdHdr

/-- The key of a session's Q0 among the queues. -/
abbrev q0Key (session : Nat) : Nat := 4096 + session

/-- The key of the queue that a command names. -/
def CmdHdr.qkey (h : CmdHdr) : Nat := if h.queue = 0 then q0Key h.session else h.queue

namespace Command
def u8 (c : Command) (off : Nat) : Nat := leAt c.params off 1
def u16 (c : Command) (off : Nat) : Nat := leAt c.params off 2
def u32 (c : Command) (off : Nat) : Nat := leAt c.params off 4
def u64 (c : Command) (off : Nat) : Nat := leAt c.params off 8
def expert (c : Command) : Bool := c.hdr.expert
/-- A field of the expert form, with the default that the basic form gives (R39). -/
def ex (c : Command) (v dflt : Nat) : Nat := if c.hdr.expert then v else dflt
end Command

/-- The 16 bytes of a full stamp (R73). -/
def Stamp.bytes (t : Stamp) : List Byte :=
  le 4 t.seq ++ le 2 t.unit ++ le 2 (t.twin * 2 ^ 15 + t.device) ++ le 8 t.ns

end Sys2Proof
end

