-- ==== Sys2Proof/Machine/RegTable.lean ====
section
/-! DEFINITION. The register fields of every block window, as the register tables of spec/ give them: offset, stride and
count of a repeated register, bit range, access code (R6), whether the reset value is loaded from the configuration record
(R9, R467), and the value at power-good or the stated default. Reserved fields are not listed: they read as zero. -/

namespace Sys2Proof.Machine

/-- Table 0.3; no register of this part has a WO field. -/
inductive Access where
  | ro | rw | rw1c
  deriving DecidableEq, Repr

/-- A field of a register window. -/
structure RegField where
  off : Nat
  stride : Nat
  count : Nat
  hi : Nat
  lo : Nat
  acc : Access
  cfg : Bool
  reset : Nat
  deriving DecidableEq, Repr

/-- The common header of every window (Table 3.5): the identity, STATE, FAILED and READY fields are computed; ERR_PENDING is
stored. -/
def commonFields : List RegField := [⟨0x008, 0, 1, 2, 2, .rw1c, false, 0⟩]

/-- The XANCA window. -/
def xancaFields : List RegField := [
  ⟨0x010, 0, 1, 63, 0, .ro, false, 0x0⟩,  -- XANCA_GENERATION.GENERATION
  ⟨0x018, 0, 1, 63, 0, .ro, false, 0x0⟩,  -- XANCA_CS_READY.READY
  ⟨0x020, 0, 1, 63, 0, .ro, false, 0x0⟩,  -- XANCA_CS_FAILED.FAILED
  ⟨0x028, 0, 1, 63, 0, .rw, true, 0xffffffffffffffff⟩,  -- XANCA_CS_EVENT_EN.EVENT_EN
  ⟨0x030, 0, 1, 63, 0, .ro, false, 0x0⟩,  -- XANCA_CS_PENDING.PENDING
  ⟨0x100, 8, 64, 63, 0, .ro, false, 0x0⟩  -- XANCA_CS_TC_n.TC
  ]

/-- The TIMECODE window. -/
def timecodeFields : List RegField := [
  ⟨0x010, 0, 1, 63, 0, .ro, false, 0x0⟩,  -- TIMECODE_NOW.NS
  ⟨0x018, 0, 1, 63, 48, .ro, false, 0xffff⟩,  -- TIMECODE_STATUS.ROOT_ID
  ⟨0x018, 0, 1, 47, 32, .ro, false, 0xffff⟩,  -- TIMECODE_STATUS.ERR_BOUND_NS
  ⟨0x018, 0, 1, 31, 24, .ro, false, 0x0⟩,  -- TIMECODE_STATUS.HOP_DEPTH
  ⟨0x018, 0, 1, 23, 16, .ro, false, 0xff⟩,  -- TIMECODE_STATUS.PARENT_PORT
  ⟨0x018, 0, 1, 7, 4, .ro, false, 0x0⟩,  -- TIMECODE_STATUS.SOURCE
  ⟨0x018, 0, 1, 3, 0, .ro, false, 0x0⟩,  -- TIMECODE_STATUS.STATE
  ⟨0x020, 0, 1, 15, 15, .ro, false, 0x0⟩,  -- TIMECODE_FABRIC_ID.TWIN
  ⟨0x020, 0, 1, 14, 0, .ro, false, 0x7fff⟩,  -- TIMECODE_FABRIC_ID.DEVICE
  ⟨0x028, 0, 1, 63, 0, .ro, false, 0x0⟩,  -- TIMECODE_STEP.STEP_NS
  ⟨0x030, 0, 1, 63, 32, .ro, false, 0x0⟩,  -- TIMECODE_OFFSET.PTP_OFFSET_NS
  ⟨0x030, 0, 1, 31, 0, .ro, false, 0x0⟩,  -- TIMECODE_OFFSET.PARENT_OFFSET_PS
  ⟨0x038, 0, 1, 63, 32, .ro, false, 0x0⟩,  -- TIMECODE_COUNTS.CLAMPS
  ⟨0x038, 0, 1, 31, 16, .ro, false, 0x0⟩,  -- TIMECODE_COUNTS.SOURCE_CHANGES
  ⟨0x038, 0, 1, 15, 0, .ro, false, 0x0⟩,  -- TIMECODE_COUNTS.HOLDOVERS
  ⟨0x040, 0, 1, 63, 48, .rw, true, 0x3e8⟩,  -- TIMECODE_CTL.HOLDOVER_LIMIT_NS
  ⟨0x040, 0, 1, 47, 40, .rw, true, 0x0⟩,  -- TIMECODE_CTL.PTP_DOMAIN
  ⟨0x040, 0, 1, 34, 34, .rw, true, 0x1⟩,  -- TIMECODE_CTL.FABRIC_EN
  ⟨0x040, 0, 1, 33, 33, .rw, true, 0x1⟩,  -- TIMECODE_CTL.PTP_EN
  ⟨0x040, 0, 1, 32, 32, .rw, true, 0x1⟩,  -- TIMECODE_CTL.ROOT_ELIGIBLE
  ⟨0x080, 8, 16, 31, 0, .ro, false, 0x0⟩  -- TIMECODE_ASYM_n.ASYM_PS
  ]

/-- The CORE window. -/
def coreFields : List RegField := [
  ⟨0x010, 0, 1, 31, 16, .ro, false, 0x0⟩,  -- CORE_MAP.LOGICAL
  ⟨0x010, 0, 1, 15, 8, .ro, false, 0x0⟩,  -- CORE_MAP.PHYS_ROW
  ⟨0x010, 0, 1, 7, 0, .ro, false, 0x0⟩,  -- CORE_MAP.PHYS_COL
  ⟨0x018, 0, 1, 47, 32, .ro, false, 0x0⟩,  -- CORE_STATUS.KERNEL_ID
  ⟨0x018, 0, 1, 31, 16, .ro, false, 0x0⟩,  -- CORE_STATUS.JOB_SLOT
  ⟨0x018, 0, 1, 15, 12, .ro, false, 0x0⟩,  -- CORE_STATUS.ALLOTMENT
  ⟨0x018, 0, 1, 3, 0, .ro, false, 0x0⟩,  -- CORE_STATUS.PHASE
  ⟨0x020, 0, 1, 63, 32, .ro, false, 0x0⟩,  -- CORE_TASK.JOB_TAG
  ⟨0x020, 0, 1, 31, 0, .ro, false, 0x0⟩,  -- CORE_TASK.TASK_INDEX
  ⟨0x028, 0, 1, 63, 32, .ro, false, 0x0⟩,  -- CORE_COUNTS.TASKS_DONE
  ⟨0x028, 0, 1, 31, 16, .ro, false, 0x0⟩,  -- CORE_COUNTS.PREEMPTS
  ⟨0x028, 0, 1, 15, 0, .ro, false, 0x0⟩,  -- CORE_COUNTS.WAKES
  ⟨0x030, 0, 1, 47, 32, .ro, false, 0x1000⟩,  -- CORE_PROG.FREE_BUNDLES
  ⟨0x030, 0, 1, 31, 24, .ro, false, 0x0⟩,  -- CORE_PROG.RESIDENT
  ⟨0x040, 0, 1, 15, 8, .rw, true, 0x14⟩,  -- CORE_GATE_CTL.IDLE_HOLD_US
  ⟨0x040, 0, 1, 0, 0, .rw, true, 0x1⟩,  -- CORE_GATE_CTL.GATE_EN
  ⟨0x048, 0, 1, 63, 0, .ro, false, 0x0⟩  -- CORE_CYCLES.CYCLES
  ]

/-- The OPE window. -/
def opeFields : List RegField := [
  ⟨0x010, 0, 1, 47, 40, .ro, false, 0x0⟩,  -- OPE_SPARE_MAP.TRIM_COUNT
  ⟨0x010, 0, 1, 39, 32, .ro, false, 0x0⟩,  -- OPE_SPARE_MAP.REPAIRS
  ⟨0x010, 0, 1, 31, 24, .ro, false, 0xff⟩,  -- OPE_SPARE_MAP.RET1
  ⟨0x010, 0, 1, 23, 16, .ro, false, 0xff⟩,  -- OPE_SPARE_MAP.RET0
  ⟨0x010, 0, 1, 1, 0, .ro, false, 0x2⟩,  -- OPE_SPARE_MAP.SPARES_LEFT
  ⟨0x018, 0, 1, 63, 0, .ro, false, 0x0⟩,  -- OPE_TRIM_LO.TRIM
  ⟨0x020, 0, 1, 63, 0, .ro, false, 0x0⟩,  -- OPE_TRIM_HI.TRIM
  ⟨0x028, 0, 1, 63, 0, .ro, false, 0x0⟩,  -- OPE_REPAIR_TC.TC
  ⟨0x030, 0, 1, 63, 32, .ro, false, 0x0⟩,  -- OPE_COUNTS.OPS
  ⟨0x030, 0, 1, 31, 16, .ro, false, 0x0⟩,  -- OPE_COUNTS.HOLDS
  ⟨0x030, 0, 1, 15, 0, .ro, false, 0x0⟩,  -- OPE_COUNTS.BANK_FAULTS
  ⟨0x038, 0, 1, 0, 0, .rw, true, 0x1⟩  -- OPE_REPAIR_CTL.AUTO_REPAIR
  ]

/-- The SPAD window. -/
def spadFields : List RegField := [
  ⟨0x010, 0, 1, 63, 48, .ro, false, 0x6000⟩,  -- SPAD_CONFIG.LINES
  ⟨0x010, 0, 1, 47, 40, .ro, false, 0x10⟩,  -- SPAD_CONFIG.BANKS
  ⟨0x010, 0, 1, 39, 32, .ro, false, 0x80⟩,  -- SPAD_CONFIG.LINE_BYTES
  ⟨0x010, 0, 1, 31, 24, .ro, false, 0x10⟩,  -- SPAD_CONFIG.TURNOUTS
  ⟨0x010, 0, 1, 23, 16, .ro, false, 0x10⟩,  -- SPAD_CONFIG.TAKE_REGIONS
  ⟨0x018, 0, 1, 31, 0, .ro, false, 0x0⟩,  -- SPAD_TURNOUTS.STATES
  ⟨0x020, 0, 1, 63, 32, .ro, false, 0x0⟩,  -- SPAD_COUNTS.OVERRUNS
  ⟨0x020, 0, 1, 31, 16, .ro, false, 0x0⟩,  -- SPAD_COUNTS.STRAY
  ⟨0x020, 0, 1, 15, 0, .ro, false, 0x0⟩,  -- SPAD_COUNTS.REFUSED_OUT
  ⟨0x028, 0, 1, 63, 32, .ro, false, 0x0⟩,  -- SPAD_ECC.CORRECTED
  ⟨0x028, 0, 1, 31, 16, .ro, false, 0x0⟩,  -- SPAD_ECC.UNCORRECTED
  ⟨0x028, 0, 1, 15, 0, .ro, false, 0x0⟩,  -- SPAD_ECC.TAG_VOTES
  ⟨0x030, 0, 1, 63, 0, .ro, false, 0x0⟩,  -- SPAD_STALL.CYCLES
  ⟨0x100, 32, 16, 63, 62, .ro, false, 0x0⟩,  -- SPAD_TURNOUT_CTL_n.STATE
  ⟨0x100, 32, 16, 61, 61, .ro, false, 0x0⟩,  -- SPAD_TURNOUT_CTL_n.COMPLETE
  ⟨0x100, 32, 16, 60, 60, .ro, false, 0x0⟩,  -- SPAD_TURNOUT_CTL_n.LATE_NOTIFY
  ⟨0x100, 32, 16, 47, 32, .ro, false, 0x0⟩,  -- SPAD_TURNOUT_CTL_n.PLACEMENT
  ⟨0x100, 32, 16, 31, 0, .ro, false, 0x0⟩,  -- SPAD_TURNOUT_CTL_n.EPOCH
  ⟨0x108, 32, 16, 53, 48, .ro, false, 0x0⟩,  -- SPAD_TURNOUT_BOUNDS_n.JOB_SLOT
  ⟨0x108, 32, 16, 31, 16, .ro, false, 0x0⟩,  -- SPAD_TURNOUT_BOUNDS_n.LINES
  ⟨0x108, 32, 16, 15, 0, .ro, false, 0x0⟩,  -- SPAD_TURNOUT_BOUNDS_n.BASE_LINE
  ⟨0x110, 32, 16, 63, 32, .ro, false, 0x0⟩,  -- SPAD_GAUGE_n.EXPECT
  ⟨0x110, 32, 16, 31, 0, .ro, false, 0x0⟩,  -- SPAD_GAUGE_n.GAUGE
  ⟨0x118, 32, 16, 63, 32, .ro, false, 0x0⟩,  -- SPAD_TURNOUT_LATE_n.LATE
  ⟨0x118, 32, 16, 7, 0, .ro, false, 0x0⟩,  -- SPAD_TURNOUT_LATE_n.LAST_REASON
  ⟨0x300, 8, 16, 63, 63, .rw, false, 0x0⟩,  -- SPAD_TAKE_n.EN
  ⟨0x300, 8, 16, 31, 16, .rw, false, 0x0⟩,  -- SPAD_TAKE_n.LINES
  ⟨0x300, 8, 16, 15, 0, .rw, false, 0x0⟩,  -- SPAD_TAKE_n.BASE_LINE
  ⟨0x380, 0, 1, 63, 32, .rw, true, 0x2710⟩,  -- SPAD_CTL.DRAIN_LIMIT_US
  ⟨0x380, 0, 1, 0, 0, .rw, true, 0x1⟩,  -- SPAD_CTL.SCRUB_EN
  ⟨0x388, 0, 1, 47, 32, .ro, false, 0x100⟩,  -- SPAD_REPAIR.SPARE_LINES_LEFT
  ⟨0x388, 0, 1, 31, 16, .ro, false, 0x0⟩,  -- SPAD_REPAIR.LINES_REPAIRED
  ⟨0x388, 0, 1, 15, 0, .ro, false, 0xffff⟩,  -- SPAD_REPAIR.LAST_LINE
  ⟨0x390, 0, 1, 63, 0, .ro, false, 0x0⟩  -- SPAD_SCRUB.PASS_TC
  ]

/-- The CONT window. -/
def contFields : List RegField := [
  ⟨0x010, 0, 1, 63, 48, .ro, false, 0x2000⟩,  -- CONT_CONFIG.MAX_WIDTH
  ⟨0x010, 0, 1, 47, 32, .ro, false, 0x200⟩,  -- CONT_CONFIG.FRAME_SPACE
  ⟨0x010, 0, 1, 31, 24, .ro, false, 0x40⟩,  -- CONT_CONFIG.STORE_FRAMES
  ⟨0x010, 0, 1, 23, 16, .ro, false, 0x20⟩,  -- CONT_CONFIG.LANES
  ⟨0x018, 0, 1, 31, 22, .ro, false, 0x0⟩,  -- CONT_STATUS.FRAMES_VALID
  ⟨0x018, 0, 1, 21, 16, .ro, false, 0x0⟩,  -- CONT_STATUS.JOB_SLOT
  ⟨0x018, 0, 1, 6, 1, .ro, false, 0x0⟩,  -- CONT_STATUS.COP
  ⟨0x018, 0, 1, 0, 0, .ro, false, 0x0⟩,  -- CONT_STATUS.BUSY
  ⟨0x020, 0, 1, 63, 32, .ro, false, 0x0⟩,  -- CONT_COUNTS.OPS
  ⟨0x020, 0, 1, 31, 16, .ro, false, 0x0⟩,  -- CONT_COUNTS.NONFINITE_ROWS
  ⟨0x020, 0, 1, 15, 8, .ro, false, 0x0⟩,  -- CONT_COUNTS.KEY_FAULTS
  ⟨0x020, 0, 1, 7, 0, .ro, false, 0x0⟩,  -- CONT_COUNTS.OVERWRITES
  ⟨0x028, 0, 1, 63, 32, .ro, false, 0x0⟩,  -- CONT_ECC.CORRECTED
  ⟨0x028, 0, 1, 31, 16, .ro, false, 0x0⟩,  -- CONT_ECC.UNCORRECTED
  ⟨0x028, 0, 1, 15, 8, .ro, false, 0x8⟩,  -- CONT_ECC.SPARE_LINES_LEFT
  ⟨0x028, 0, 1, 7, 0, .ro, false, 0x0⟩,  -- CONT_ECC.LINES_REPAIRED
  ⟨0x030, 0, 1, 63, 0, .ro, false, 0x0⟩,  -- CONT_SCRUB.PASS_TC
  ⟨0x100, 8, 64, 47, 32, .ro, false, 0x0⟩,  -- CONT_WINDOW_n.SPILL_LINE
  ⟨0x100, 8, 64, 25, 16, .ro, false, 0x0⟩,  -- CONT_WINDOW_n.COUNT
  ⟨0x100, 8, 64, 8, 0, .ro, false, 0x0⟩,  -- CONT_WINDOW_n.BASE
  ⟨0x300, 0, 1, 0, 0, .rw, true, 0x1⟩,  -- CONT_CTL.SCRUB_EN
  ⟨0x1000, 8, 512, 63, 63, .ro, false, 0x0⟩,  -- CONT_FRAME_a.VALID
  ⟨0x1000, 8, 512, 62, 62, .ro, false, 0x0⟩,  -- CONT_FRAME_a.POISON
  ⟨0x1000, 8, 512, 61, 56, .ro, false, 0x0⟩,  -- CONT_FRAME_a.JOB_SLOT
  ⟨0x1000, 8, 512, 55, 52, .ro, false, 0x0⟩,  -- CONT_FRAME_a.KIND
  ⟨0x1000, 8, 512, 47, 40, .ro, false, 0x0⟩,  -- CONT_FRAME_a.ROWS
  ⟨0x1000, 8, 512, 15, 0, .ro, false, 0x0⟩  -- CONT_FRAME_a.KEY
  ]

/-- The RESV window. -/
def resvFields : List RegField := [
  ⟨0x010, 0, 1, 63, 48, .ro, false, 0x60⟩,  -- RESV_CONFIG.CAPACITY_MIB
  ⟨0x010, 0, 1, 47, 40, .ro, false, 0x10⟩,  -- RESV_CONFIG.WAYS
  ⟨0x010, 0, 1, 39, 24, .ro, false, 0x100⟩,  -- RESV_CONFIG.LINE_BYTES
  ⟨0x010, 0, 1, 23, 12, .ro, false, 0x100⟩,  -- RESV_CONFIG.STREAMS
  ⟨0x010, 0, 1, 11, 0, .ro, false, 0x400⟩,  -- RESV_CONFIG.CLAP_ENTRIES
  ⟨0x018, 0, 1, 63, 0, .ro, false, 0x0⟩,  -- RESV_HITS.HITS
  ⟨0x020, 0, 1, 63, 32, .ro, false, 0x0⟩,  -- RESV_MISSES.MISSES
  ⟨0x020, 0, 1, 31, 0, .ro, false, 0x0⟩,  -- RESV_MISSES.BYPASSES
  ⟨0x028, 0, 1, 63, 32, .ro, false, 0x0⟩,  -- RESV_ECC.CORRECTED
  ⟨0x028, 0, 1, 31, 16, .ro, false, 0x0⟩,  -- RESV_ECC.UNCORRECTED
  ⟨0x028, 0, 1, 15, 0, .ro, false, 0x400⟩,  -- RESV_ECC.SPARE_LINES_LEFT
  ⟨0x030, 0, 1, 63, 32, .ro, false, 0x0⟩,  -- RESV_OCCUPANCY.HEADGATE_LINES
  ⟨0x030, 0, 1, 31, 0, .ro, false, 0x0⟩,  -- RESV_OCCUPANCY.VALID_LINES
  ⟨0x038, 0, 1, 63, 32, .ro, false, 0x0⟩,  -- RESV_STREAM_COUNTS.SUPPRESSED
  ⟨0x038, 0, 1, 31, 16, .ro, false, 0x0⟩,  -- RESV_STREAM_COUNTS.HAZARDS
  ⟨0x038, 0, 1, 15, 8, .ro, false, 0x0⟩,  -- RESV_STREAM_COUNTS.DEADLOCKS
  ⟨0x038, 0, 1, 7, 0, .ro, false, 0x0⟩,  -- RESV_STREAM_COUNTS.CANCELS
  ⟨0x040, 0, 1, 63, 56, .rw, true, 0x10⟩,  -- RESV_CTL.HEADGATE_MIB
  ⟨0x040, 0, 1, 55, 40, .rw, true, 0xc8⟩,  -- RESV_CTL.WATCHDOG_US
  ⟨0x040, 0, 1, 39, 24, .rw, true, 0x3e8⟩,  -- RESV_CTL.CLAP_LIMIT_US
  ⟨0x040, 0, 1, 1, 1, .rw, true, 0x0⟩,  -- RESV_CTL.DEBUG_GEN
  ⟨0x040, 0, 1, 0, 0, .rw, true, 0x1⟩,  -- RESV_CTL.SCRUB_EN
  ⟨0x048, 0, 1, 63, 0, .ro, false, 0x0⟩,  -- RESV_SCRUB.PASS_TC
  ⟨0x100, 16, 256, 63, 63, .ro, false, 0x0⟩,  -- RESV_STREAM_s.OPEN
  ⟨0x100, 16, 256, 62, 60, .ro, false, 0x0⟩,  -- RESV_STREAM_s.STATE
  ⟨0x100, 16, 256, 59, 54, .ro, false, 0x0⟩,  -- RESV_STREAM_s.JOB_SLOT
  ⟨0x100, 16, 256, 53, 52, .ro, false, 0x0⟩,  -- RESV_STREAM_s.POOL
  ⟨0x100, 16, 256, 51, 44, .ro, false, 0x0⟩,  -- RESV_STREAM_s.LANES
  ⟨0x100, 16, 256, 43, 36, .ro, false, 0x0⟩,  -- RESV_STREAM_s.FIRST_CORE
  ⟨0x100, 16, 256, 35, 32, .ro, false, 0x0⟩,  -- RESV_STREAM_s.STAGES
  ⟨0x100, 16, 256, 31, 0, .ro, false, 0x0⟩,  -- RESV_STREAM_s.ITER_DONE
  ⟨0x108, 16, 256, 63, 32, .ro, false, 0x0⟩,  -- RESV_STREAM_CREDIT_s.ITER_FETCHED
  ⟨0x108, 16, 256, 31, 16, .ro, false, 0x0⟩,  -- RESV_STREAM_CREDIT_s.BORROWED
  ⟨0x108, 16, 256, 15, 0, .ro, false, 0x0⟩,  -- RESV_STREAM_CREDIT_s.WAITING_US
  ⟨0x1100, 8, 1024, 63, 58, .ro, false, 0x0⟩,  -- RESV_CLAP_n.JOB_SLOT
  ⟨0x1100, 8, 1024, 57, 52, .ro, false, 0x0⟩,  -- RESV_CLAP_n.CLAP
  ⟨0x1100, 8, 1024, 51, 50, .ro, false, 0x0⟩,  -- RESV_CLAP_n.STATE
  ⟨0x1100, 8, 1024, 49, 49, .ro, false, 0x0⟩,  -- RESV_CLAP_n.SCOPE
  ⟨0x1100, 8, 1024, 48, 48, .ro, false, 0x0⟩,  -- RESV_CLAP_n.FLUSH
  ⟨0x1100, 8, 1024, 47, 39, .ro, false, 0x0⟩,  -- RESV_CLAP_n.MEMBERS
  ⟨0x1100, 8, 1024, 38, 30, .ro, false, 0x0⟩,  -- RESV_CLAP_n.ARRIVED
  ⟨0x1100, 8, 1024, 29, 0, .ro, false, 0x0⟩,  -- RESV_CLAP_n.GENERATION
  ⟨0x3100, 8, 256, 63, 63, .ro, false, 0x0⟩,  -- RESV_POOL_p.VALID
  ⟨0x3100, 8, 256, 62, 48, .ro, false, 0x0⟩,  -- RESV_POOL_p.BASE_LINE
  ⟨0x3100, 8, 256, 47, 35, .ro, false, 0x0⟩,  -- RESV_POOL_p.SLOT_LINES
  ⟨0x3100, 8, 256, 34, 27, .ro, false, 0x0⟩,  -- RESV_POOL_p.SLOTS
  ⟨0x3100, 8, 256, 26, 23, .ro, false, 0x0⟩,  -- RESV_POOL_p.TURNOUT
  ⟨0x3100, 8, 256, 22, 19, .ro, false, 0x0⟩  -- RESV_POOL_p.TAKE
  ]

/-- The MMU window. -/
def mmuFields : List RegField := [
  ⟨0x4000, 32, 64, 63, 60, .ro, false, 0x0⟩,  -- MMU_REEL_JOB_j.STATE
  ⟨0x4000, 32, 64, 31, 0, .ro, false, 0x0⟩,  -- MMU_REEL_JOB_j.STEP
  ⟨0x4008, 32, 64, 63, 48, .ro, false, 0x0⟩,  -- MMU_REEL_RING_j.RING_BASE
  ⟨0x4008, 32, 64, 47, 32, .ro, false, 0x0⟩,  -- MMU_REEL_RING_j.RING_LINES
  ⟨0x4008, 32, 64, 31, 0, .ro, false, 0x0⟩,  -- MMU_REEL_RING_j.SPILL_LINES
  ⟨0x4010, 32, 64, 63, 48, .ro, false, 0x0⟩,  -- MMU_REEL_LEDGER_j.OPEN
  ⟨0x4010, 32, 64, 47, 32, .ro, false, 0x0⟩,  -- MMU_REEL_LEDGER_j.CLOSED
  ⟨0x4010, 32, 64, 31, 16, .ro, false, 0x0⟩,  -- MMU_REEL_LEDGER_j.ABORTS
  ⟨0x4018, 32, 64, 56, 24, .ro, false, 0x0⟩,  -- MMU_REEL_WINDOW_j.REEL_VA
  ⟨0x4800, 32, 144, 63, 32, .ro, false, 0x0⟩,  -- MMU_REEL_CORE_c.DEPTH
  ⟨0x4800, 32, 144, 31, 0, .ro, false, 0x0⟩,  -- MMU_REEL_CORE_c.LOW
  ⟨0x4808, 32, 144, 63, 48, .ro, false, 0x0⟩,  -- MMU_REEL_MARKS_c.MARKERS
  ⟨0x4808, 32, 144, 47, 40, .ro, false, 0x0⟩,  -- MMU_REEL_MARKS_c.HELD
  ⟨0x4808, 32, 144, 39, 32, .ro, false, 0x0⟩,  -- MMU_REEL_MARKS_c.JOB_SLOT
  ⟨0x4808, 32, 144, 31, 16, .ro, false, 0xffff⟩,  -- MMU_REEL_MARKS_c.READING
  ⟨0x4808, 32, 144, 15, 0, .ro, false, 0xffff⟩,  -- MMU_REEL_MARKS_c.TOP
  ⟨0x4810, 32, 144, 63, 32, .ro, false, 0x0⟩,  -- MMU_REEL_COUNTS_c.SPILLED
  ⟨0x4810, 32, 144, 31, 0, .ro, false, 0x0⟩,  -- MMU_REEL_COUNTS_c.REFILLED
  ⟨0x4818, 32, 144, 63, 32, .ro, false, 0x0⟩,  -- MMU_REEL_PEAK_c.PEAK_DEPTH
  ⟨0x4818, 32, 144, 31, 0, .ro, false, 0x0⟩,  -- MMU_REEL_PEAK_c.PEAK_SPILL
  ⟨0x5a00, 16, 16, 63, 63, .ro, false, 0x0⟩,  -- MMU_REEL_SHARD_k.VALID
  ⟨0x5a00, 16, 16, 62, 57, .ro, false, 0x0⟩,  -- MMU_REEL_SHARD_k.JOB_SLOT
  ⟨0x5a00, 16, 16, 56, 0, .ro, false, 0x0⟩,  -- MMU_REEL_SHARD_k.BASE_VA
  ⟨0x5a08, 16, 16, 63, 32, .ro, false, 0x0⟩,  -- MMU_REEL_SHARD_TAG_k.TAG
  ⟨0x5a08, 16, 16, 31, 0, .ro, false, 0x0⟩,  -- MMU_REEL_SHARD_TAG_k.LEN_64K
  ⟨0x5b00, 0, 1, 63, 48, .ro, false, 0x0⟩,  -- MMU_REEL_TOTALS.STALE_GATHERS
  ⟨0x5b00, 0, 1, 47, 32, .ro, false, 0x0⟩,  -- MMU_REEL_TOTALS.GUARD_FAULTS
  ⟨0x5b00, 0, 1, 31, 16, .ro, false, 0x0⟩,  -- MMU_REEL_TOTALS.CAPACITY_FAULTS
  ⟨0x5b00, 0, 1, 15, 0, .ro, false, 0x0⟩,  -- MMU_REEL_TOTALS.MISUSE_FAULTS
  ⟨0x5b08, 0, 1, 63, 32, .rw, true, 0x2710⟩,  -- MMU_REEL_CTL.UPDATE_LIMIT_MS
  ⟨0x5b08, 0, 1, 0, 0, .rw, true, 0x1⟩,  -- MMU_REEL_CTL.GUARD_EN
  ⟨0x010, 0, 1, 63, 56, .ro, false, 0x39⟩,  -- MMU_CONFIG.VA_BITS
  ⟨0x010, 0, 1, 55, 52, .ro, false, 0x4⟩,  -- MMU_CONFIG.LEVELS
  ⟨0x010, 0, 1, 51, 48, .ro, false, 0x7⟩,  -- MMU_CONFIG.PAGE_SIZES
  ⟨0x010, 0, 1, 47, 32, .ro, false, 0x40⟩,  -- MMU_CONFIG.WALKERS
  ⟨0x010, 0, 1, 31, 0, .ro, false, 0x8000⟩,  -- MMU_CONFIG.TLB2_ENTRIES
  ⟨0x018, 0, 1, 63, 32, .ro, false, 0x0⟩,  -- MMU_READS.PEAK
  ⟨0x018, 0, 1, 31, 0, .ro, false, 0x0⟩,  -- MMU_READS.IN_FLIGHT
  ⟨0x020, 0, 1, 63, 32, .ro, false, 0x0⟩,  -- MMU_COUNTS.WALKS
  ⟨0x020, 0, 1, 31, 16, .ro, false, 0x0⟩,  -- MMU_COUNTS.FAULTS
  ⟨0x020, 0, 1, 15, 0, .ro, false, 0x0⟩,  -- MMU_COUNTS.SHOOTDOWNS
  ⟨0x028, 0, 1, 63, 58, .ro, false, 0x0⟩,  -- MMU_FAULT_VA.JOB_SLOT
  ⟨0x028, 0, 1, 56, 0, .ro, false, 0x0⟩,  -- MMU_FAULT_VA.VA
  ⟨0x030, 0, 1, 63, 48, .ro, false, 0x0⟩,  -- MMU_FAULT_INFO.UNIT_ID
  ⟨0x030, 0, 1, 23, 16, .ro, false, 0x0⟩,  -- MMU_FAULT_INFO.LEVEL
  ⟨0x030, 0, 1, 15, 0, .ro, false, 0x0⟩,  -- MMU_FAULT_INFO.DETAIL
  ⟨0x038, 0, 1, 63, 0, .ro, false, 0x0⟩,  -- MMU_FAULT_TC.TC
  ⟨0x040, 0, 1, 63, 48, .rw, true, 0x4000⟩,  -- MMU_CTL.FAR_READ_CAP
  ⟨0x040, 0, 1, 0, 0, .rw, true, 0x0⟩,  -- MMU_CTL.RECORD_ALL
  ⟨0x100, 16, 64, 63, 63, .ro, false, 0x0⟩,  -- MMU_MAP_j.VALID
  ⟨0x100, 16, 64, 47, 0, .ro, false, 0x0⟩,  -- MMU_MAP_j.ROOT_PA
  ⟨0x108, 16, 64, 63, 32, .ro, false, 0x0⟩,  -- MMU_MAP_USE_j.POOL_FREE_KIB
  ⟨0x108, 16, 64, 31, 0, .ro, false, 0x0⟩  -- MMU_MAP_USE_j.MAPPED_64K
  ]

/-- The HBM_CTL window. -/
def hbmFields : List RegField := [
  ⟨0x010, 0, 1, 63, 48, .ro, false, 0x80⟩,  -- HBM_CTL_CONFIG.CAPACITY_GIB
  ⟨0x010, 0, 1, 47, 40, .ro, false, 0x10⟩,  -- HBM_CTL_CONFIG.HEIGHT
  ⟨0x010, 0, 1, 39, 32, .ro, false, 0x40⟩,  -- HBM_CTL_CONFIG.PSEUDO_CH
  ⟨0x010, 0, 1, 31, 16, .ro, false, 0x1f40⟩,  -- HBM_CTL_CONFIG.PIN_MBPS
  ⟨0x018, 0, 1, 63, 32, .ro, false, 0x0⟩,  -- HBM_CTL_ECC.CORRECTED
  ⟨0x018, 0, 1, 31, 16, .ro, false, 0x0⟩,  -- HBM_CTL_ECC.UNCORRECTED
  ⟨0x018, 0, 1, 15, 0, .ro, false, 0x0⟩,  -- HBM_CTL_ECC.POISONED
  ⟨0x020, 0, 1, 63, 0, .ro, false, 0x0⟩,  -- HBM_CTL_READS.READS
  ⟨0x028, 0, 1, 63, 0, .ro, false, 0x0⟩,  -- HBM_CTL_WRITES.WRITES
  ⟨0x030, 0, 1, 15, 8, .ro, false, 0x0⟩,  -- HBM_CTL_THERMAL.TEMP_C
  ⟨0x030, 0, 1, 7, 0, .ro, false, 0x1⟩,  -- HBM_CTL_THERMAL.REFRESH
  ⟨0x038, 0, 1, 63, 0, .ro, false, 0x0⟩,  -- HBM_CTL_SCRUB.PASS_TC
  ⟨0x040, 0, 1, 63, 48, .rw, true, 0x18⟩,  -- HBM_CTL_CTL.SCRUB_PERIOD_H
  ⟨0x040, 0, 1, 0, 0, .rw, true, 0x1⟩,  -- HBM_CTL_CTL.SCRUB_EN
  ⟨0x048, 0, 1, 31, 16, .ro, false, 0x8⟩,  -- HBM_CTL_REPAIR.SPARE_ROWS_LEFT
  ⟨0x048, 0, 1, 15, 0, .ro, false, 0x0⟩  -- HBM_CTL_REPAIR.ROWS_REPAIRED
  ]

/-- The FAR_CTL window. -/
def farFields : List RegField := [
  ⟨0x010, 0, 1, 63, 48, .ro, false, 0x80⟩,  -- FAR_CTL_CONFIG.CAPACITY_GIB
  ⟨0x010, 0, 1, 47, 32, .ro, false, 0x2260⟩,  -- FAR_CTL_CONFIG.RATE_MTS
  ⟨0x010, 0, 1, 31, 0, .ro, false, 0x0⟩,  -- FAR_CTL_CONFIG.SERIAL
  ⟨0x018, 0, 1, 63, 60, .ro, false, 0x0⟩,  -- FAR_CTL_STATUS.STATE
  ⟨0x018, 0, 1, 56, 56, .ro, false, 0x0⟩,  -- FAR_CTL_STATUS.SLOT_POWER
  ⟨0x018, 0, 1, 47, 40, .ro, false, 0x0⟩,  -- FAR_CTL_STATUS.REDIRECTED
  ⟨0x018, 0, 1, 39, 32, .ro, false, 0x0⟩,  -- FAR_CTL_STATUS.VACANT
  ⟨0x018, 0, 1, 31, 24, .ro, false, 0x0⟩,  -- FAR_CTL_STATUS.COPYING
  ⟨0x018, 0, 1, 23, 16, .ro, false, 0x0⟩,  -- FAR_CTL_STATUS.HOSTED
  ⟨0x020, 0, 1, 63, 32, .ro, false, 0x0⟩,  -- FAR_CTL_ECC.CORRECTED
  ⟨0x020, 0, 1, 31, 16, .ro, false, 0x0⟩,  -- FAR_CTL_ECC.UNCORRECTED
  ⟨0x020, 0, 1, 15, 0, .ro, false, 0x0⟩,  -- FAR_CTL_ECC.POISONED
  ⟨0x028, 0, 1, 63, 0, .ro, false, 0x0⟩,  -- FAR_CTL_READS.READS
  ⟨0x030, 0, 1, 63, 0, .ro, false, 0x0⟩,  -- FAR_CTL_WRITES.WRITES
  ⟨0x038, 0, 1, 63, 0, .ro, false, 0x0⟩,  -- FAR_CTL_SCRUB.PASS_TC
  ⟨0x040, 0, 1, 63, 56, .rw, true, 0x28⟩,  -- FAR_CTL_CTL.MIGRATE_GBPS
  ⟨0x040, 0, 1, 55, 40, .rw, true, 0x18⟩,  -- FAR_CTL_CTL.SCRUB_PERIOD_H
  ⟨0x040, 0, 1, 0, 0, .rw, true, 0x1⟩,  -- FAR_CTL_CTL.SCRUB_EN
  ⟨0x100, 8, 128, 63, 61, .ro, false, 0x0⟩,  -- FAR_CTL_CHUNK_k.PHASE
  ⟨0x100, 8, 128, 47, 30, .ro, false, 0x0⟩  -- FAR_CTL_CHUNK_k.DEST
  ]

/-- The ATTN window. -/
def attnFields : List RegField := [
  ⟨0x010, 0, 1, 63, 60, .ro, false, 0x0⟩,  -- ATTN_STATUS.STATE
  ⟨0x010, 0, 1, 59, 54, .ro, false, 0x0⟩,  -- ATTN_STATUS.JOB_SLOT
  ⟨0x010, 0, 1, 47, 32, .ro, false, 0xffff⟩,  -- ATTN_STATUS.SEQ_ID
  ⟨0x010, 0, 1, 31, 16, .ro, false, 0x0⟩,  -- ATTN_STATUS.TASKS_ACTIVE
  ⟨0x018, 0, 1, 63, 32, .ro, false, 0x0⟩,  -- ATTN_TILES.SENT
  ⟨0x018, 0, 1, 31, 0, .ro, false, 0x0⟩,  -- ATTN_TILES.SKIPPED
  ⟨0x020, 0, 1, 63, 32, .ro, false, 0x0⟩,  -- ATTN_COUNTS.RUNS
  ⟨0x020, 0, 1, 31, 16, .ro, false, 0x0⟩,  -- ATTN_COUNTS.COW_PAGES
  ⟨0x020, 0, 1, 15, 0, .ro, false, 0x0⟩,  -- ATTN_COUNTS.FAULTS
  ⟨0x028, 0, 1, 31, 16, .ro, false, 0x0⟩,  -- ATTN_PINS.PINNED
  ⟨0x028, 0, 1, 15, 0, .ro, false, 0x0⟩,  -- ATTN_PINS.DEFERRED
  ⟨0x030, 0, 1, 63, 48, .ro, false, 0x0⟩,  -- ATTN_RING.RING_LINE
  ⟨0x030, 0, 1, 47, 40, .ro, false, 0x0⟩,  -- ATTN_RING.SLOTS
  ⟨0x030, 0, 1, 39, 36, .ro, false, 0x0⟩,  -- ATTN_RING.TURNOUT
  ⟨0x030, 0, 1, 35, 32, .ro, false, 0x0⟩,  -- ATTN_RING.TAKE
  ⟨0x038, 0, 1, 63, 0, .ro, false, 0x0⟩,  -- ATTN_RUN_TC.TC
  ⟨0x040, 0, 1, 63, 32, .rw, true, 0x4000⟩,  -- ATTN_CTL.MAX_PIN_PAGES
  ⟨0x040, 0, 1, 0, 0, .rw, true, 0x1⟩,  -- ATTN_CTL.HEADGATE_FIRST
  ⟨0x1000, 16, 64, 63, 63, .ro, false, 0x0⟩,  -- ATTN_POOL_j.VALID
  ⟨0x1000, 16, 64, 62, 62, .ro, false, 0x0⟩,  -- ATTN_POOL_j.PAGE
  ⟨0x1000, 16, 64, 47, 0, .ro, false, 0x0⟩,  -- ATTN_POOL_j.BASE_PA
  ⟨0x1008, 16, 64, 63, 32, .ro, false, 0x0⟩,  -- ATTN_POOL_FREE_j.PAGES
  ⟨0x1008, 16, 64, 31, 0, .ro, false, 0x0⟩,  -- ATTN_POOL_FREE_j.FREE
  ⟨0x2000, 16, 1024, 63, 63, .ro, false, 0x0⟩,  -- ATTN_SEQ_s.VALID
  ⟨0x2000, 16, 1024, 62, 62, .ro, false, 0x0⟩,  -- ATTN_SEQ_s.EXCLUSIVE
  ⟨0x2000, 16, 1024, 61, 61, .ro, false, 0x0⟩,  -- ATTN_SEQ_s.EDIT_PENDING
  ⟨0x2000, 16, 1024, 59, 54, .ro, false, 0x0⟩,  -- ATTN_SEQ_s.JOB_SLOT
  ⟨0x2000, 16, 1024, 51, 48, .ro, false, 0x0⟩,  -- ATTN_SEQ_s.WALKERS
  ⟨0x2000, 16, 1024, 47, 12, .ro, false, 0x0⟩,  -- ATTN_SEQ_s.VA_2M
  ⟨0x2008, 16, 1024, 63, 32, .ro, false, 0x0⟩,  -- ATTN_SEQ_SHAPE_s.MAX_TOKENS
  ⟨0x2008, 16, 1024, 31, 16, .ro, false, 0x0⟩,  -- ATTN_SEQ_SHAPE_s.KV_HEADS
  ⟨0x2008, 16, 1024, 15, 8, .ro, false, 0x0⟩,  -- ATTN_SEQ_SHAPE_s.LAYERS
  ⟨0x2008, 16, 1024, 7, 4, .ro, false, 0x0⟩,  -- ATTN_SEQ_SHAPE_s.FMT
  ⟨0x2008, 16, 1024, 3, 3, .ro, false, 0x0⟩  -- ATTN_SEQ_SHAPE_s.DIM128
  ]

/-- The FLUME window. -/
def flumeFields : List RegField := [
  ⟨0x010, 0, 1, 63, 48, .ro, false, 0x10⟩,  -- FLUME_CONFIG.CHANNELS
  ⟨0x010, 0, 1, 47, 32, .ro, false, 0x400⟩,  -- FLUME_CONFIG.BYTES_PER_CYCLE
  ⟨0x010, 0, 1, 31, 16, .ro, false, 0x2000⟩,  -- FLUME_CONFIG.READ_CAP
  ⟨0x010, 0, 1, 1, 0, .ro, false, 0x0⟩,  -- FLUME_CONFIG.USE
  ⟨0x018, 0, 1, 63, 32, .ro, false, 0x0⟩,  -- FLUME_COUNTS.DESCRIPTORS
  ⟨0x018, 0, 1, 31, 16, .ro, false, 0x0⟩,  -- FLUME_COUNTS.BAD
  ⟨0x018, 0, 1, 15, 0, .ro, false, 0x0⟩,  -- FLUME_COUNTS.POISONED
  ⟨0x020, 0, 1, 63, 0, .ro, false, 0x0⟩,  -- FLUME_BYTES.BYTES
  ⟨0x028, 0, 1, 63, 32, .ro, false, 0x0⟩,  -- FLUME_READS.PEAK
  ⟨0x028, 0, 1, 31, 0, .ro, false, 0x0⟩,  -- FLUME_READS.IN_FLIGHT
  ⟨0x040, 0, 1, 63, 48, .rw, true, 0x3e8⟩,  -- FLUME_CTL.POLL_NS
  ⟨0x100, 32, 16, 63, 60, .ro, false, 0x0⟩,  -- FLUME_CH_STATE_n.STATE
  ⟨0x100, 32, 16, 59, 54, .ro, false, 0x0⟩,  -- FLUME_CH_STATE_n.JOB_SLOT
  ⟨0x100, 32, 16, 53, 53, .ro, false, 0x0⟩,  -- FLUME_CH_STATE_n.HEADGATE
  ⟨0x100, 32, 16, 52, 52, .ro, false, 0x0⟩,  -- FLUME_CH_STATE_n.STOP_ON_BAD
  ⟨0x100, 32, 16, 47, 32, .ro, false, 0x0⟩,  -- FLUME_CH_STATE_n.QUEUE
  ⟨0x100, 32, 16, 15, 0, .ro, false, 0xffff⟩,  -- FLUME_CH_STATE_n.WAIT_EVENT
  ⟨0x108, 32, 16, 56, 0, .ro, false, 0x0⟩,  -- FLUME_CH_DESC_n.VA
  ⟨0x110, 32, 16, 63, 32, .ro, false, 0x0⟩,  -- FLUME_CH_EVENT_n.WAIT_VALUE
  ⟨0x110, 32, 16, 31, 0, .ro, false, 0x0⟩,  -- FLUME_CH_EVENT_n.COUNTER
  ⟨0x118, 32, 16, 63, 32, .ro, false, 0x0⟩,  -- FLUME_CH_COUNTS_n.DONE
  ⟨0x118, 32, 16, 31, 0, .ro, false, 0x0⟩,  -- FLUME_CH_COUNTS_n.BAD
  ⟨0x400, 16, 16, 63, 32, .ro, false, 0x0⟩,  -- FLUME_TIMER_t.PERIOD_NS
  ⟨0x400, 16, 16, 31, 26, .ro, false, 0x0⟩,  -- FLUME_TIMER_t.JOB_SLOT
  ⟨0x408, 16, 16, 31, 0, .ro, false, 0x0⟩  -- FLUME_TIMER_COUNT_t.COUNTER
  ]

/-- The LINK_PORT window. -/
def linkFields : List RegField := [
  ⟨0x010, 0, 1, 63, 60, .ro, false, 0x0⟩,  -- LINK_PORT_STATE.STATE
  ⟨0x010, 0, 1, 59, 56, .ro, false, 0x0⟩,  -- LINK_PORT_STATE.WIDTH
  ⟨0x010, 0, 1, 47, 32, .ro, false, 0xffff⟩,  -- LINK_PORT_STATE.PEER
  ⟨0x010, 0, 1, 31, 24, .ro, false, 0xff⟩,  -- LINK_PORT_STATE.PEER_PORT
  ⟨0x010, 0, 1, 23, 16, .ro, false, 0xff⟩,  -- LINK_PORT_STATE.EXPECT_PORT
  ⟨0x010, 0, 1, 15, 0, .ro, false, 0xffff⟩,  -- LINK_PORT_STATE.EXPECT_PEER
  ⟨0x018, 0, 1, 31, 0, .ro, false, 0x0⟩,  -- LINK_PORT_LANES.PHYS_LANE
  ⟨0x020, 0, 1, 63, 32, .ro, false, 0x0⟩,  -- LINK_PORT_COUNTS.RETRIES
  ⟨0x020, 0, 1, 31, 16, .ro, false, 0x0⟩,  -- LINK_PORT_COUNTS.CRC_ERRORS
  ⟨0x020, 0, 1, 15, 0, .ro, false, 0x0⟩,  -- LINK_PORT_COUNTS.FEC_UNCORR
  ⟨0x028, 0, 1, 63, 0, .ro, false, 0x0⟩,  -- LINK_PORT_FEC.CORRECTED
  ⟨0x030, 0, 1, 63, 0, .ro, false, 0x0⟩,  -- LINK_PORT_TX.BYTES
  ⟨0x038, 0, 1, 63, 0, .ro, false, 0x0⟩,  -- LINK_PORT_RX.BYTES
  ⟨0x040, 0, 1, 63, 48, .rw, true, 0x10⟩,  -- LINK_PORT_CTL.RETRY_LIMIT
  ⟨0x040, 0, 1, 0, 0, .rw, true, 0x1⟩,  -- LINK_PORT_CTL.ENABLE
  ⟨0x048, 0, 1, 63, 32, .ro, false, 0x0⟩,  -- LINK_PORT_DROPS.STALE_EPOCH
  ⟨0x048, 0, 1, 31, 16, .ro, false, 0x0⟩,  -- LINK_PORT_DROPS.NO_ROUTE
  ⟨0x048, 0, 1, 15, 0, .ro, false, 0x0⟩,  -- LINK_PORT_DROPS.BAD_JOB
  ⟨0x050, 0, 1, 63, 0, .ro, false, 0x0⟩,  -- LINK_PORT_TC.TC
  ⟨0xf00, 0, 1, 16, 16, .ro, false, 0x0⟩,  -- LINK_FABRIC.TWIN_CONFIG
  ⟨0xf00, 0, 1, 15, 0, .ro, false, 0x7fff⟩,  -- LINK_FABRIC.FABRIC_ID
  ⟨0xf08, 0, 1, 15, 8, .ro, false, 0x0⟩,  -- LINK_MAP.LOADED
  ⟨0xf08, 0, 1, 7, 0, .ro, false, 0xff⟩,  -- LINK_MAP.ACTIVE
  ⟨0xf10, 0, 1, 63, 32, .rw, true, 0x3e8⟩,  -- LINK_FABRIC_CTL.COLL_LIMIT_MS
  ⟨0xf10, 0, 1, 31, 0, .rw, true, 0x7d0⟩,  -- LINK_FABRIC_CTL.RECUT_LIMIT_MS
  ⟨0x1000, 32, 64, 63, 60, .ro, false, 0x0⟩,  -- LINK_JOB_j.FSTATE
  ⟨0x1000, 32, 64, 31, 0, .ro, false, 0x0⟩,  -- LINK_JOB_j.EPOCH
  ⟨0x1008, 32, 64, 63, 32, .ro, false, 0x0⟩,  -- LINK_JOB_COUNT_j.ACTIVE
  ⟨0x1008, 32, 64, 31, 16, .ro, false, 0x0⟩,  -- LINK_JOB_COUNT_j.MEMBERS
  ⟨0x1008, 32, 64, 15, 0, .ro, false, 0x0⟩,  -- LINK_JOB_COUNT_j.LEAVES
  ⟨0x1010, 32, 64, 31, 0, .ro, false, 0x0⟩,  -- LINK_JOB_TAG_j.JOB_TAG
  ⟨0x1018, 32, 64, 63, 0, .ro, false, 0x0⟩  -- LINK_JOB_RECUT_j.TC
  ]

/-- The OPTIC window. -/
def opticFields : List RegField := [
  ⟨0x010, 0, 1, 63, 56, .ro, false, 0x0⟩,  -- OPTIC_STATUS.TEMP_C
  ⟨0x010, 0, 1, 55, 40, .ro, false, 0x0⟩,  -- OPTIC_STATUS.POWER_MW
  ⟨0x010, 0, 1, 33, 17, .ro, false, 0x0⟩,  -- OPTIC_STATUS.LANE_FAILED
  ⟨0x010, 0, 1, 16, 0, .ro, false, 0xffff⟩,  -- OPTIC_STATUS.LANE_ACTIVE
  ⟨0x018, 0, 1, 15, 8, .ro, false, 0xff⟩,  -- OPTIC_SPARE.SPARE_PORT
  ⟨0x018, 0, 1, 7, 0, .ro, false, 0xff⟩,  -- OPTIC_SPARE.SPARE_FOR
  ⟨0x020, 0, 1, 63, 32, .ro, false, 0x0⟩,  -- OPTIC_LASER.BIAS_UA
  ⟨0x020, 0, 1, 31, 0, .ro, false, 0x0⟩,  -- OPTIC_LASER.LOS_EVENTS
  ⟨0x028, 0, 1, 63, 0, .ro, false, 0x0⟩,  -- OPTIC_TC.TC
  ⟨0x030, 0, 1, 0, 0, .rw, true, 0x1⟩  -- OPTIC_CTL.SPARE_AUTO
  ]

/-- The SCHED window. -/
def schedFields : List RegField := [
  ⟨0x010, 0, 1, 63, 62, .ro, true, 0x0⟩,  -- SCHED_STATUS.MODE
  ⟨0x010, 0, 1, 61, 61, .ro, false, 0x0⟩,  -- SCHED_STATUS.TWIN_CONFIG
  ⟨0x010, 0, 1, 55, 48, .ro, false, 0x0⟩,  -- SCHED_STATUS.JOBS
  ⟨0x010, 0, 1, 47, 40, .ro, false, 0x0⟩,  -- SCHED_STATUS.ALLOTMENTS
  ⟨0x010, 0, 1, 39, 32, .ro, false, 0x0⟩,  -- SCHED_STATUS.CORES_FREE
  ⟨0x010, 0, 1, 31, 16, .ro, false, 0x0⟩,  -- SCHED_STATUS.HG_WAITING
  ⟨0x010, 0, 1, 15, 0, .ro, false, 0x0⟩,  -- SCHED_STATUS.TW_WAITING
  ⟨0x018, 0, 1, 63, 32, .ro, false, 0x0⟩,  -- SCHED_COUNTS.HG_PLACED
  ⟨0x018, 0, 1, 31, 16, .ro, false, 0x0⟩,  -- SCHED_COUNTS.WATCHDOGS
  ⟨0x018, 0, 1, 15, 0, .ro, false, 0x0⟩,  -- SCHED_COUNTS.MIGRATIONS
  ⟨0x020, 0, 1, 63, 32, .ro, false, 0x0⟩,  -- SCHED_HG_LATENCY.MAX_NS
  ⟨0x020, 0, 1, 31, 0, .ro, false, 0x0⟩,  -- SCHED_HG_LATENCY.LAST_NS
  ⟨0x028, 0, 1, 63, 32, .ro, false, 0x0⟩,  -- SCHED_TURNS.TURNS
  ⟨0x028, 0, 1, 31, 0, .ro, false, 0x0⟩,  -- SCHED_TURNS.OVERRUNS
  ⟨0x100, 32, 16, 63, 63, .ro, false, 0x0⟩,  -- SCHED_ALLOT_a.VALID
  ⟨0x100, 32, 16, 62, 62, .ro, false, 0x1⟩,  -- SCHED_ALLOT_a.EMPTY_YIELD
  ⟨0x100, 32, 16, 61, 61, .ro, false, 0x0⟩,  -- SCHED_ALLOT_a.TURN_ACTIVE
  ⟨0x100, 32, 16, 57, 52, .ro, false, 0x0⟩,  -- SCHED_ALLOT_a.TURN_JOB
  ⟨0x100, 32, 16, 51, 44, .ro, false, 0x0⟩,  -- SCHED_ALLOT_a.HG_RESERVE
  ⟨0x100, 32, 16, 43, 36, .ro, false, 0x0⟩,  -- SCHED_ALLOT_a.CORES
  ⟨0x100, 32, 16, 31, 0, .ro, false, 0x0⟩,  -- SCHED_ALLOT_a.TURN_US
  ⟨0x108, 32, 16, 63, 0, .ro, false, 0x0⟩,  -- SCHED_ALLOT_LO_a.MASK
  ⟨0x110, 32, 16, 63, 0, .ro, false, 0x0⟩,  -- SCHED_ALLOT_HI_a.MASK
  ⟨0x118, 32, 16, 63, 32, .ro, false, 0x0⟩,  -- SCHED_ALLOT_TOP_a.TURN_GUARD_US
  ⟨0x118, 32, 16, 15, 0, .ro, false, 0x0⟩,  -- SCHED_ALLOT_TOP_a.MASK
  ⟨0x400, 16, 64, 63, 63, .ro, false, 0x0⟩,  -- SCHED_JOB_j.VALID
  ⟨0x400, 16, 64, 62, 60, .ro, false, 0x0⟩,  -- SCHED_JOB_j.STATE
  ⟨0x400, 16, 64, 59, 56, .ro, false, 0x0⟩,  -- SCHED_JOB_j.ALLOTMENT
  ⟨0x400, 16, 64, 47, 32, .ro, false, 0x0⟩,  -- SCHED_JOB_j.PLACEMENT
  ⟨0x400, 16, 64, 31, 0, .ro, false, 0x0⟩,  -- SCHED_JOB_j.JOB_TAG
  ⟨0x408, 16, 64, 63, 32, .ro, false, 0x0⟩,  -- SCHED_JOB_COUNT_j.TASKS_PLACED
  ⟨0x408, 16, 64, 31, 16, .ro, false, 0x0⟩,  -- SCHED_JOB_COUNT_j.TASKS_WAITING
  ⟨0x408, 16, 64, 15, 8, .ro, false, 0x0⟩,  -- SCHED_JOB_COUNT_j.HG_QUEUES
  ⟨0x408, 16, 64, 7, 0, .ro, false, 0x0⟩,  -- SCHED_JOB_COUNT_j.CORES_HELD
  ⟨0x800, 0, 1, 63, 32, .rw, true, 0x186a0⟩,  -- SCHED_CTL.TASK_LIMIT_US
  ⟨0x800, 0, 1, 31, 16, .rw, true, 0x0⟩,  -- SCHED_CTL.TW_TASK_MAX_US
  ⟨0x800, 0, 1, 15, 0, .rw, true, 0x2710⟩  -- SCHED_CTL.MIGRATE_DRAIN_US
  ]

/-- The QMGR window. -/
def qmgrFields : List RegField := [
  ⟨0x010, 0, 1, 63, 48, .ro, false, 0x8000⟩,  -- QMGR_POOL.ENTRIES
  ⟨0x010, 0, 1, 47, 32, .ro, false, 0x8000⟩,  -- QMGR_POOL.FREE
  ⟨0x010, 0, 1, 31, 16, .ro, false, 0x0⟩,  -- QMGR_POOL.BOUND
  ⟨0x010, 0, 1, 15, 0, .ro, false, 0x0⟩,  -- QMGR_POOL.HEADGATE
  ⟨0x018, 0, 1, 15, 0, .ro, false, 0x0⟩,  -- QMGR_SESSIONS.OPEN
  ⟨0x020, 0, 1, 63, 32, .ro, false, 0x0⟩,  -- QMGR_COUNTS.ADMITTED
  ⟨0x020, 0, 1, 31, 16, .ro, false, 0x0⟩,  -- QMGR_COUNTS.SEQ_GAPS
  ⟨0x020, 0, 1, 15, 0, .ro, false, 0x0⟩,  -- QMGR_COUNTS.QUEUE_FULLS
  ⟨0x028, 0, 1, 63, 32, .ro, false, 0x0⟩,  -- QMGR_LATENCY.MAX_DISPATCH_NS
  ⟨0x028, 0, 1, 31, 0, .ro, false, 0x0⟩,  -- QMGR_LATENCY.COLD
  ⟨0x100, 0, 1, 0, 0, .rw, true, 0x1⟩,  -- QMGR_CTL.HG_VALIDATE_FIRST
  ⟨0x8000, 8, 4096, 63, 63, .ro, false, 0x0⟩,  -- QMGR_QUEUE_q.BOUND
  ⟨0x8000, 8, 4096, 62, 62, .ro, false, 0x0⟩,  -- QMGR_QUEUE_q.CLASS
  ⟨0x8000, 8, 4096, 61, 61, .ro, false, 0x0⟩,  -- QMGR_QUEUE_q.EXPERT_OK
  ⟨0x8000, 8, 4096, 60, 60, .ro, false, 0x0⟩,  -- QMGR_QUEUE_q.STOPPED
  ⟨0x8000, 8, 4096, 59, 56, .ro, false, 0x0⟩,  -- QMGR_QUEUE_q.ALLOTMENT
  ⟨0x8000, 8, 4096, 55, 50, .ro, false, 0x0⟩,  -- QMGR_QUEUE_q.JOB_SLOT
  ⟨0x8000, 8, 4096, 49, 45, .ro, false, 0x0⟩,  -- QMGR_QUEUE_q.SESSION
  ⟨0x8000, 8, 4096, 44, 34, .ro, false, 0x0⟩,  -- QMGR_QUEUE_q.DEPTH
  ⟨0x8000, 8, 4096, 33, 23, .ro, false, 0x0⟩,  -- QMGR_QUEUE_q.ADMITTED
  ⟨0x8000, 8, 4096, 22, 14, .ro, false, 0x0⟩  -- QMGR_QUEUE_q.RETAINED
  ]

/-- The RES window. -/
def resFields : List RegField := [
  ⟨0x010, 0, 1, 63, 32, .ro, true, 0x21000⟩,  -- RES_AREA.AREA_MIB
  ⟨0x010, 0, 1, 31, 0, .ro, false, 0x0⟩,  -- RES_AREA.FREE_MIB
  ⟨0x018, 0, 1, 15, 0, .ro, true, 0x0⟩,  -- RES_FEED.FEED_TAG
  ⟨0x020, 0, 1, 63, 32, .ro, false, 0x0⟩,  -- RES_COUNTS.FREEZES
  ⟨0x020, 0, 1, 31, 16, .ro, false, 0x0⟩,  -- RES_COUNTS.NEGATIVES
  ⟨0x020, 0, 1, 15, 0, .ro, false, 0x0⟩,  -- RES_COUNTS.ABANDONED
  ⟨0x028, 0, 1, 63, 32, .ro, false, 0x0⟩,  -- RES_RECOVERY.LOADS
  ⟨0x028, 0, 1, 31, 16, .ro, false, 0x0⟩,  -- RES_RECOVERY.RETAKES
  ⟨0x028, 0, 1, 15, 0, .ro, false, 0x0⟩,  -- RES_RECOVERY.DIVERGED
  ⟨0x030, 0, 1, 63, 0, .ro, false, 0x0⟩,  -- RES_BULK.BYTES
  ⟨0x040, 0, 1, 63, 48, .rw, true, 0x19⟩,  -- RES_CTL.NEG_GBPS
  ⟨0x040, 0, 1, 47, 32, .rw, true, 0xc8⟩,  -- RES_CTL.LOAD_GBPS
  ⟨0x040, 0, 1, 31, 16, .rw, true, 0x3e8⟩,  -- RES_CTL.PARTNER_LIMIT_MS
  ⟨0x100, 64, 64, 63, 60, .ro, false, 0x0⟩,  -- RES_JOB_j.STATE
  ⟨0x100, 64, 64, 59, 59, .ro, false, 0x0⟩,  -- RES_JOB_j.COFED
  ⟨0x100, 64, 64, 58, 58, .ro, false, 0x0⟩,  -- RES_JOB_j.PARTNER_LOST
  ⟨0x100, 64, 64, 55, 40, .ro, false, 0xffff⟩,  -- RES_JOB_j.PARTNER
  ⟨0x100, 64, 64, 39, 32, .ro, false, 0x0⟩,  -- RES_JOB_j.INBOUND
  ⟨0x100, 64, 64, 15, 0, .ro, false, 0x0⟩,  -- RES_JOB_j.INTERVAL
  ⟨0x108, 64, 64, 63, 32, .ro, false, 0xffffffff⟩,  -- RES_LOSS_BOUND_j.BOUND
  ⟨0x108, 64, 64, 31, 0, .ro, false, 0xffffffff⟩,  -- RES_LOSS_BOUND_j.LIVE
  ⟨0x110, 64, 64, 63, 32, .ro, false, 0xffffffff⟩,  -- RES_FREEZE_j.NEWEST
  ⟨0x110, 64, 64, 31, 0, .ro, false, 0xffffffff⟩,  -- RES_FREEZE_j.SAFE
  ⟨0x118, 64, 64, 63, 0, .ro, false, 0x0⟩,  -- RES_SHARD_j.SHARD_BYTES
  ⟨0x120, 64, 64, 63, 32, .ro, false, 0x0⟩,  -- RES_STOP_j.LAST_STOP_NS
  ⟨0x120, 64, 64, 31, 0, .ro, false, 0x0⟩,  -- RES_STOP_j.BOUND_STOP_NS
  ⟨0x128, 64, 64, 63, 32, .ro, false, 0xffffffff⟩,  -- RES_NEG_j.STEP
  ⟨0x128, 64, 64, 31, 0, .ro, false, 0x0⟩,  -- RES_NEG_j.KIB_LEFT
  ⟨0x130, 64, 64, 63, 32, .ro, false, 0xffffffff⟩,  -- RES_SLATE_j.NEWEST
  ⟨0x130, 64, 64, 31, 0, .ro, false, 0xffffffff⟩,  -- RES_SLATE_j.MIRRORED
  ⟨0x138, 64, 64, 63, 32, .ro, false, 0xffffffff⟩,  -- RES_RETAKE_j.ARMED
  ⟨0x138, 64, 64, 31, 0, .ro, false, 0xffffffff⟩,  -- RES_RETAKE_j.LAST_OK
  ⟨0x1100, 8, 256, 63, 48, .ro, false, 0xffff⟩,  -- RES_INBOUND_n.OWNER
  ⟨0x1100, 8, 256, 47, 47, .ro, false, 0x0⟩,  -- RES_INBOUND_n.COFED
  ⟨0x1100, 8, 256, 31, 0, .ro, false, 0xffffffff⟩  -- RES_INBOUND_n.NEWEST
  ]

/-- The DIAG window. -/
def diagFields : List RegField := [
  ⟨0x010, 0, 1, 63, 32, .ro, false, 0x0⟩,  -- DIAG_LOG.NEXT_INDEX
  ⟨0x010, 0, 1, 31, 16, .ro, false, 0x0⟩,  -- DIAG_LOG.ENTRIES
  ⟨0x010, 0, 1, 15, 0, .ro, false, 0x0⟩,  -- DIAG_LOG.LOST
  ⟨0x018, 0, 1, 63, 32, .ro, false, 0x0⟩,  -- DIAG_COUNTS.CORRECTED
  ⟨0x018, 0, 1, 31, 16, .ro, false, 0x0⟩,  -- DIAG_COUNTS.UNCORRECTED
  ⟨0x018, 0, 1, 15, 0, .ro, false, 0x0⟩,  -- DIAG_COUNTS.FAULTS
  ⟨0x020, 0, 1, 63, 32, .ro, false, 0x0⟩,  -- DIAG_SCREEN.TESTS
  ⟨0x020, 0, 1, 31, 16, .ro, false, 0x0⟩,  -- DIAG_SCREEN.FAILED
  ⟨0x020, 0, 1, 15, 8, .ro, false, 0x0⟩,  -- DIAG_SCREEN.RUNNING
  ⟨0x028, 0, 1, 63, 56, .ro, false, 0x0⟩,  -- DIAG_DEGRADED.ABSENT
  ⟨0x028, 0, 1, 55, 48, .ro, false, 0x4⟩,  -- DIAG_DEGRADED.CONTROL_ACTIVE
  ⟨0x028, 0, 1, 47, 32, .ro, false, 0x0⟩,  -- DIAG_DEGRADED.RETIRED
  ⟨0x030, 0, 1, 63, 0, .ro, false, 0x0⟩,  -- DIAG_ABSENT_LO.MASK
  ⟨0x038, 0, 1, 63, 0, .ro, false, 0x0⟩,  -- DIAG_ABSENT_HI.MASK
  ⟨0x040, 0, 1, 15, 0, .ro, false, 0x0⟩,  -- DIAG_ABSENT_TOP.MASK
  ⟨0x048, 0, 1, 63, 0, .ro, false, 0x0⟩,  -- DIAG_LAST_TC.TC
  ⟨0x050, 0, 1, 63, 32, .rw, true, 0xe10⟩,  -- DIAG_CTL.SWEEP_S
  ⟨0x050, 0, 1, 31, 24, .rw, true, 0x3⟩,  -- DIAG_CTL.REPEAT_LIMIT
  ⟨0x050, 0, 1, 23, 8, .rw, true, 0x18⟩,  -- DIAG_CTL.REPEAT_WINDOW_H
  ⟨0x050, 0, 1, 1, 1, .rw, true, 0x1⟩,  -- DIAG_CTL.RECORD_CORRECTED
  ⟨0x050, 0, 1, 0, 0, .rw, true, 0x0⟩,  -- DIAG_CTL.INJECT_EN
  ⟨0x100, 8, 64, 63, 32, .ro, false, 0xffffffff⟩,  -- DIAG_DAMAGED_j.STEP
  ⟨0x100, 8, 64, 31, 0, .ro, false, 0x0⟩  -- DIAG_DAMAGED_j.COUNT
  ]

/-- The WMASTER window. -/
def wmasterFields : List RegField := [
  ⟨0x010, 0, 1, 63, 60, .ro, false, 0x0⟩,  -- WMASTER_STATUS.DSTATE
  ⟨0x010, 0, 1, 59, 59, .ro, false, 0x0⟩,  -- WMASTER_STATUS.MOVING
  ⟨0x010, 0, 1, 47, 32, .ro, false, 0x0⟩,  -- WMASTER_STATUS.WAKES
  ⟨0x010, 0, 1, 31, 28, .ro, false, 0x0⟩,  -- WMASTER_STATUS.WAKE_CAUSE
  ⟨0x018, 0, 1, 42, 32, .ro, false, 0x0⟩,  -- WMASTER_PLL.RUNNING
  ⟨0x018, 0, 1, 10, 0, .ro, false, 0x0⟩,  -- WMASTER_PLL.LOCKED
  ⟨0x020, 0, 1, 63, 32, .ro, false, 0x0⟩,  -- WMASTER_HEARTBEAT.TIMEOUTS
  ⟨0x020, 0, 1, 3, 0, .ro, false, 0x0⟩,  -- WMASTER_HEARTBEAT.ALIVE
  ⟨0x028, 0, 1, 63, 0, .ro, false, 0x0⟩,  -- WMASTER_WAKE_NS.NS
  ⟨0x030, 0, 1, 63, 0, .ro, false, 0x0⟩,  -- WMASTER_STATE_TC.TC
  ⟨0x040, 0, 1, 63, 32, .rw, true, 0x1f4⟩,  -- WMASTER_CTL.DOZE_HOLD_US
  ⟨0x040, 0, 1, 0, 0, .rw, true, 0x1⟩  -- WMASTER_CTL.AUTO_DOZE
  ]

/-- The GAFFER window. -/
def gafferFields : List RegField := [
  ⟨0x010, 0, 1, 63, 48, .ro, false, 0x0⟩,  -- GAFFER_POWER.POWER_W
  ⟨0x010, 0, 1, 47, 32, .ro, false, 0x0⟩,  -- GAFFER_POWER.AVG1S_W
  ⟨0x010, 0, 1, 31, 16, .ro, false, 0x0⟩,  -- GAFFER_POWER.PEAK_SEEN_W
  ⟨0x010, 0, 1, 15, 0, .ro, false, 0x0⟩,  -- GAFFER_POWER.EXCURSION_US
  ⟨0x018, 0, 1, 63, 48, .ro, false, 0x44c⟩,  -- GAFFER_POINT.ARITH_MHZ
  ⟨0x018, 0, 1, 47, 32, .ro, false, 0x2ee⟩,  -- GAFFER_POINT.VDD_CMP_MV
  ⟨0x018, 0, 1, 31, 24, .ro, false, 0x0⟩,  -- GAFFER_POINT.POINT
  ⟨0x018, 0, 1, 23, 16, .ro, false, 0x0⟩,  -- GAFFER_POINT.CLAMP_K
  ⟨0x018, 0, 1, 15, 0, .ro, false, 0x7d0⟩,  -- GAFFER_POINT.CTRL_MHZ
  ⟨0x020, 0, 1, 63, 48, .ro, true, 0x3e8⟩,  -- GAFFER_LIMITS.TDP_W
  ⟨0x020, 0, 1, 47, 32, .ro, true, 0x47e⟩,  -- GAFFER_LIMITS.PEAK_W
  ⟨0x020, 0, 1, 31, 24, .ro, true, 0xa⟩,  -- GAFFER_LIMITS.PEAK_MS
  ⟨0x028, 0, 1, 63, 56, .ro, false, 0x0⟩,  -- GAFFER_THERMAL.CMP_C
  ⟨0x028, 0, 1, 55, 48, .ro, false, 0x0⟩,  -- GAFFER_THERMAL.IOD_C
  ⟨0x028, 0, 1, 47, 40, .ro, false, 0x0⟩,  -- GAFFER_THERMAL.HBM_C
  ⟨0x028, 0, 1, 39, 32, .ro, false, 0x0⟩,  -- GAFFER_THERMAL.OPT_C
  ⟨0x030, 0, 1, 63, 0, .ro, false, 0x0⟩,  -- GAFFER_ENERGY.MJ
  ⟨0x038, 0, 1, 63, 32, .ro, false, 0x0⟩,  -- GAFFER_COUNTS.CLAMPS
  ⟨0x038, 0, 1, 31, 16, .ro, false, 0x0⟩,  -- GAFFER_COUNTS.THROT_INS
  ⟨0x038, 0, 1, 15, 0, .ro, false, 0x0⟩,  -- GAFFER_COUNTS.POINT_CHANGES
  ⟨0x040, 0, 1, 63, 56, .rw, true, 0x69⟩,  -- GAFFER_CTL.THERMAL_C
  ⟨0x040, 0, 1, 55, 40, .rw, true, 0x64⟩,  -- GAFFER_CTL.RELEASE_US
  ⟨0x040, 0, 1, 7, 4, .rw, true, 0x4⟩,  -- GAFFER_CTL.THROT_LEVEL
  ⟨0x040, 0, 1, 0, 0, .rw, true, 0x1⟩,  -- GAFFER_CTL.THROT_IN_EN
  ⟨0x100, 8, 8, 63, 48, .ro, false, 0x0⟩,  -- GAFFER_RAIL_r.MV
  ⟨0x100, 8, 8, 47, 24, .ro, false, 0x0⟩  -- GAFFER_RAIL_r.MA
  ]

/-- The SEC window. -/
def secFields : List RegField := [
  ⟨0x010, 0, 1, 63, 60, .ro, false, 0x0⟩,  -- SEC_STATUS.PHASE
  ⟨0x010, 0, 1, 49, 48, .ro, false, 0x0⟩,  -- SEC_STATUS.CONFIG_COPY
  ⟨0x010, 0, 1, 47, 32, .ro, false, 0x0⟩,  -- SEC_STATUS.LOAD_SESSION
  ⟨0x010, 0, 1, 31, 0, .ro, false, 0x0⟩,  -- SEC_STATUS.ROM_VERSION
  ⟨0x018, 0, 1, 63, 0, .ro, false, 0x0⟩,  -- SEC_SERIAL.SERIAL
  ⟨0x020, 0, 1, 63, 32, .ro, false, 0x0⟩,  -- SEC_FW.VERSION
  ⟨0x020, 0, 1, 31, 0, .ro, false, 0x0⟩,  -- SEC_FW.SVN
  ⟨0x028, 8, 4, 63, 0, .ro, false, 0x0⟩,  -- SEC_FW_DIGEST_n.DIGEST
  ⟨0x048, 0, 1, 63, 56, .ro, false, 0x0⟩,  -- SEC_IDENT.KEY_GEN
  ⟨0x048, 0, 1, 52, 32, .ro, false, 0x0⟩,  -- SEC_IDENT.NEXT_INDEX
  ⟨0x048, 0, 1, 20, 0, .ro, false, 0x0⟩,  -- SEC_IDENT.LEFT
  ⟨0x050, 0, 1, 63, 0, .ro, false, 0x0⟩,  -- SEC_CONFIG_GEN.GENERATION
  ⟨0x058, 0, 1, 63, 48, .ro, false, 0x0⟩,  -- SEC_CONFIG_USE.SETTINGS
  ⟨0x058, 0, 1, 31, 0, .ro, false, 0x0⟩,  -- SEC_CONFIG_USE.REPAIRS
  ⟨0x060, 0, 1, 63, 32, .ro, false, 0x0⟩,  -- SEC_BOOT.BOOT_COUNT
  ⟨0x060, 0, 1, 31, 0, .ro, false, 0x0⟩,  -- SEC_BOOT.MIN_SVN
  ⟨0x068, 0, 1, 63, 48, .ro, false, 0x0⟩,  -- SEC_COUNTS.OPEN_REFUSED
  ⟨0x068, 0, 1, 47, 32, .ro, false, 0x0⟩,  -- SEC_COUNTS.LOAD_FAILED
  ⟨0x068, 0, 1, 31, 16, .ro, false, 0x0⟩,  -- SEC_COUNTS.REPORTS
  ⟨0x068, 0, 1, 15, 0, .ro, false, 0x0⟩,  -- SEC_COUNTS.ROLLS
  ⟨0x070, 0, 1, 63, 32, .rw, true, 0x10000⟩,  -- SEC_CTL.ROLL_THRESHOLD
  ⟨0x070, 0, 1, 0, 0, .rw, true, 0x1⟩  -- SEC_CTL.TIME_CHECK
  ]

/-- The HOSTPORT window. -/
def hostportFields : List RegField := [
  ⟨0x010, 0, 1, 63, 60, .ro, false, 0x0⟩,  -- HOSTPORT_LINK.STATE
  ⟨0x010, 0, 1, 59, 56, .ro, false, 0x0⟩,  -- HOSTPORT_LINK.LANES
  ⟨0x010, 0, 1, 47, 0, .ro, true, 0x0⟩,  -- HOSTPORT_LINK.MAC
  ⟨0x018, 0, 1, 63, 0, .ro, true, 0x0⟩,  -- HOSTPORT_IPV6_HI.ADDR
  ⟨0x020, 0, 1, 63, 0, .ro, true, 0x0⟩,  -- HOSTPORT_IPV6_LO.ADDR
  ⟨0x028, 0, 1, 63, 32, .ro, false, 0x0⟩,  -- HOSTPORT_COUNTS.FCS_ERRORS
  ⟨0x028, 0, 1, 31, 16, .ro, false, 0x0⟩,  -- HOSTPORT_COUNTS.DROPPED
  ⟨0x028, 0, 1, 15, 0, .ro, false, 0x0⟩,  -- HOSTPORT_COUNTS.PFC_SENT
  ⟨0x030, 0, 1, 63, 48, .ro, false, 0x0⟩,  -- HOSTPORT_RDMA.QPS
  ⟨0x030, 0, 1, 47, 32, .ro, false, 0x0⟩,  -- HOSTPORT_RDMA.QP_ERRORS
  ⟨0x030, 0, 1, 31, 0, .ro, false, 0x0⟩,  -- HOSTPORT_RDMA.NAKS
  ⟨0x038, 0, 1, 63, 0, .ro, false, 0x0⟩,  -- HOSTPORT_RX_BYTES.BYTES
  ⟨0x040, 0, 1, 63, 48, .rw, true, 0xb860⟩,  -- HOSTPORT_CTL.UMAUTH_PORT
  ⟨0x040, 0, 1, 47, 32, .rw, true, 0x2328⟩,  -- HOSTPORT_CTL.MTU
  ⟨0x040, 0, 1, 7, 4, .rw, true, 0x3⟩,  -- HOSTPORT_CTL.PFC_PRIO
  ⟨0x040, 0, 1, 0, 0, .rw, true, 0x1⟩  -- HOSTPORT_CTL.RDMA_EN
  ]

/-- The INTAKE window. -/
def intakeFields : List RegField := [
  ⟨0x010, 0, 1, 63, 60, .ro, false, 0x0⟩,  -- INTAKE_STATUS.STATE
  ⟨0x010, 0, 1, 59, 54, .ro, false, 0x0⟩,  -- INTAKE_STATUS.JOB_SLOT
  ⟨0x010, 0, 1, 47, 40, .ro, false, 0x0⟩,  -- INTAKE_STATUS.QUEUED
  ⟨0x010, 0, 1, 39, 36, .ro, false, 0x0⟩,  -- INTAKE_STATUS.CODEC
  ⟨0x018, 0, 1, 63, 32, .ro, false, 0x0⟩,  -- INTAKE_FRAMES.DONE
  ⟨0x018, 0, 1, 31, 0, .ro, false, 0x0⟩,  -- INTAKE_FRAMES.ERRORS
  ⟨0x020, 0, 1, 63, 0, .ro, false, 0x0⟩,  -- INTAKE_PIXELS.PIXELS
  ⟨0x028, 0, 1, 63, 0, .ro, false, 0x0⟩,  -- INTAKE_BITS.BYTES
  ⟨0x030, 0, 1, 63, 0, .ro, false, 0x0⟩,  -- INTAKE_TC.TC
  ⟨0x038, 0, 1, 63, 48, .rw, true, 0x10⟩  -- INTAKE_CTL.QUEUE_MAX
  ]

/-- The fields of a block type (Table 3.3). -/
def typeFields (type : Nat) : List RegField :=
  commonFields ++
  if type = 0x1 then xancaFields
  else if type = 0x10 then coreFields
  else if type = 0x11 then opeFields
  else if type = 0x12 then contFields
  else if type = 0x13 then spadFields
  else if type = 0x14 then resvFields
  else if type = 0x20 then flumeFields
  else if type = 0x30 then hbmFields
  else if type = 0x31 then farFields
  else if type = 0x32 then mmuFields
  else if type = 0x40 then linkFields
  else if type = 0x41 then opticFields
  else if type = 0x50 then attnFields
  else if type = 0x60 then qmgrFields
  else if type = 0x61 then schedFields
  else if type = 0x70 then resFields
  else if type = 0x80 then wmasterFields
  else if type = 0x81 then gafferFields
  else if type = 0x90 then secFields
  else if type = 0xa0 then hostportFields
  else if type = 0xa1 then intakeFields
  else if type = 0xb0 then timecodeFields
  else if type = 0xf0 then diagFields
  else []

/-- The stated range of a configuration field, as (type, offset, low bit, least, greatest); a field not listed takes every
value of its width. -/
def cfgRanges : List (Nat × Nat × Nat × Nat × Nat) := [
  (0x14, 0x40, 56, 0, 48),  -- RESV_CTL.HEADGATE_MIB
  (0x14, 0x40, 40, 10, 65535),  -- RESV_CTL.WATCHDOG_US
  (0x32, 0x40, 48, 1024, 65535),  -- MMU_CTL.FAR_READ_CAP
  (0x30, 0x40, 48, 1, 168),  -- HBM_CTL_CTL.SCRUB_PERIOD_H
  (0x31, 0x40, 56, 1, 64),  -- FAR_CTL_CTL.MIGRATE_GBPS
  (0x31, 0x40, 40, 1, 168),  -- FAR_CTL_CTL.SCRUB_PERIOD_H
  (0x50, 0x40, 32, 1, 65536),  -- ATTN_CTL.MAX_PIN_PAGES
  (0x20, 0x40, 48, 100, 65535),  -- FLUME_CTL.POLL_NS
  (0x40, 0x40, 48, 2, 255),  -- LINK_PORT_CTL.RETRY_LIMIT
  (0x70, 0x40, 48, 1, 400),  -- RES_CTL.NEG_GBPS
  (0x70, 0x40, 32, 1, 400),  -- RES_CTL.LOAD_GBPS
  (0x70, 0x40, 16, 10, 60000),  -- RES_CTL.PARTNER_LIMIT_MS
  (0xf0, 0x50, 24, 1, 255),  -- DIAG_CTL.REPEAT_LIMIT
  (0xf0, 0x50, 8, 1, 65535),  -- DIAG_CTL.REPEAT_WINDOW_H
  (0x80, 0x40, 32, 50, 1000000),  -- WMASTER_CTL.DOZE_HOLD_US
  (0x81, 0x40, 56, 80, 105),  -- GAFFER_CTL.THERMAL_C
  (0x81, 0x40, 40, 10, 10000),  -- GAFFER_CTL.RELEASE_US
  (0x81, 0x40, 4, 1, 8),  -- GAFFER_CTL.THROT_LEVEL
  (0x90, 0x70, 32, 64, 1048512),  -- SEC_CTL.ROLL_THRESHOLD
  (0xa0, 0x40, 32, 4200, 9216),  -- HOSTPORT_CTL.MTU
  (0xa0, 0x40, 4, 0, 7),  -- HOSTPORT_CTL.PFC_PRIO
  (0xa1, 0x38, 48, 1, 64)  -- INTAKE_CTL.QUEUE_MAX
  ]

end Sys2Proof.Machine
end

