-- ==== Sys2Proof/Machine/State.lean ====
section
/-! DEFINITION. The state of the device as plain data: every register, store, queue, counter, mode and pin that the spec
gives it, the queue of waiting commands, and `State.reset`, the device at power-good before its PWR_GOOD event. -/

namespace Sys2Proof.Machine

/-- Why a step stops with a fault. No rule of the spec makes the device stop without an outcome, so there is one
constructor only. -/
inductive Fault where
  /-- Raised by no command: kept so that the type is inhabited. Safe: it is never answered. -/
  | none
  deriving DecidableEq, Repr

/-- Why a step has no meaning. -/
inductive Refusal where
  /-- Raised by an arm of `exec` whose command has no meaning yet. Safe: the model stops where the device goes on. -/
  | notModelled (mnemonic : String)
  deriving DecidableEq, Repr

/-! ## Umauth: sessions, queues, replies (spec/02) -/

/-- A reply or a record (Table 2.6). -/
structure Msg where
  isRecord : Bool
  flags : Nat
  opcode : Nat
  queue : Nat
  status : Nat
  seq : Nat
  detail : Nat
  doneTc : Nat
  cookie : Nat
  body : List Byte
  deriving DecidableEq, Repr, Inhabited

/-- A DATA datagram of the device not yet acknowledged (R30): its TSEQ, when it was first sent, how many timed
retransmissions it has had, and the retained message it carries (`mid` 0: no queue retains it). -/
structure SentDatagram where
  tseq : Nat
  sentAt : Nat
  timed : Nat
  mid : Nat
  msg : Msg
  deriving DecidableEq, Repr, Inhabited

/-- A DATA datagram of the host buffered above ACK (R29). -/
structure Buffered where
  tseq : Nat
  messages : List Command
  deriving DecidableEq, Repr, Inhabited

/-- One of the sixteen sessions (R28-R31, R46). `inst` counts the sessions that have had this number. `rxBusy` counts
receive buffers that hold a delivered datagram (R46). -/
structure Session where
  isOpen : Bool := false
  /-- The IPv6 address that the OPEN came from (R480). -/
  addr : Nat := 0
  inst : Nat := 0
  ack : Nat := 0
  buffered : List Buffered := []
  rxBusy : Nat := 0
  lastRx : Nat := 0
  nextTseq : Nat := 1
  unacked : List SentDatagram := []
  hostWindow : Nat := 0
  held : List (Nat × Msg) := []
  deriving DecidableEq, Repr, Inhabited

/-- The life of a queue number (R32-R34). -/
inductive QueuePhase where
  | unbound | bound | draining
  deriving DecidableEq, Repr, Inhabited

/-- A queue (Table 2.3, R34-R47). Key q for queues 1-4,095 and 4,096 + session for a session's Q0. -/
structure Queue where
  phase : QueuePhase := .unbound
  headgate : Bool := false
  allotment : Nat := 0
  jobTag : Nat := 0
  depth : Nat := 0
  session : Nat := 0
  expertOk : Bool := false
  retain : Nat := 64
  expSeq : Nat := 0
  admitted : List Command := []
  running : List Command := []
  retained : List (Nat × Msg) := []
  unbindCmd : Option Command := none
  lastDispatch : Nat := 0
  /-- When the head command arrived, if nothing held it then (Table 15.3, MAX_DISPATCH_NS). -/
  freeSince : Option Nat := none
  lastTc : Nat := 0
  deriving DecidableEq, Repr, Inhabited

/-- The transport and the queues of the device. -/
structure Umauth where
  sessions : TMap Session := []
  queues : TMap Queue := []
  nextMid : Nat := 1
  /-- Dispatched Q0 commands of ended sessions that have not completed (R49). -/
  orphans : List Command := []
  /-- Replies and records held while no session is open (R49), at most 4,096. -/
  orphanHold : List Msg := []
  /-- Opcodes seen since firmware start (R51). -/
  seen : List Nat := []
  deriving DecidableEq, Repr, Inhabited

/-! ## The Xanca table and the call sheet (spec/03) -/

/-- The changing fields of a block entry (Table 3.2, R59). STATE: 1 ACTIVE, 2 SPARE, 3 RETIRED, 4 OFFLINE. -/
structure XEntry where
  state : Nat
  logical : Nat
  stateTc : Nat
  cap0 : Nat
  deriving DecidableEq, Repr, Inhabited

/-- A waiting `callsheet_read` (R72). -/
structure CsWait where
  cmd : Command
  mask : Nat
  due : Nat
  deriving DecidableEq, Repr, Inhabited

/-- The Xanca table and the call sheet. An unlisted entry is as bring-up leaves it with every unit passing. -/
structure Xanca where
  entries : TMap XEntry := []
  generation : Nat := 0
  ready : Nat := 0
  failed : Nat := 0
  csTc : TMap Nat := []
  waits : List CsWait := []
  /-- When bit 1 FIRMWARE was set, since power-good or the STANDBY wake (R63, R445). -/
  firmwareAt : Option Nat := none
  /-- The unlocked time of power-good or of the wake: deadlines count from it. -/
  bootNs : Nat := 0
  /-- Deadlines missed and reported (R63), by bit. -/
  missed : Nat := 0
  deriving DecidableEq, Repr, Inhabited

/-! ## Timecode (spec/04) -/

/-- Table 4.3. -/
inductive TcPhase where
  | unlocked | locked | holdover | freerun
  deriving DecidableEq, Repr, Inhabited

/-- What a port hears of its neighbour's root advertisement (R80), and its last filtered exchange. -/
structure Neighbour where
  heard : Bool := false
  root : Nat := 0xFFFF
  hops : Nat := 0
  /-- The offsets of the last 64 exchanges, newest first, in ps (R80). -/
  offsets : List Int := []
  deriving DecidableEq, Repr, Inhabited

/-- The counter and its servo. -/
structure Timecode where
  ns : Nat := 0
  phase : TcPhase := .unlocked
  source : Nat := 0
  parentPort : Nat := 0xFF
  hopDepth : Nat := 0
  rootId : Nat := 0xFFFF
  errBound : Nat := 0xFFFF
  stepNs : Nat := 0
  twin : Nat := 0
  device : Nat := 0x7FFF
  ptpOffset : Int := 0
  parentOffsetPs : Int := 0
  clamps : Nat := 0
  sourceChanges : Nat := 0
  holdovers : Nat := 0
  /-- The rate the servo has set, in parts per billion, within ±200,000 (R81). -/
  ratePpb : Int := 0
  /-- Thousand-millionths of a ns that the rate has accumulated. -/
  fraction : Int := 0
  timePll : Bool := false
  /-- SEQ of each unit (R75). -/
  unitSeq : TMap Nat := []
  neighbours : TMap Neighbour := []
  /-- PTP heard on the host port: whether its source is valid, and the offset last measured, ns (R79). -/
  ptpValid : Bool := false
  /-- Of the PTP exchange in progress: the Sync's receive stamp, its origin, and the local stamp of the Delay_Req. -/
  ptpT2 : Option Nat := none
  ptpT1 : Option Nat := none
  /-- The bound and the time at which the source was lost (R86). -/
  lostAt : Nat := 0
  boundAtLoss : Nat := 0
  /-- When the parent port went down, while a new parent is sought (R85). -/
  searchSince : Option Nat := none
  deriving DecidableEq, Repr, Inhabited

/-! ## Faults and screen tests (spec/17) -/

/-- An entry of the error log (Table 17.2). -/
structure ErrEntry where
  type : Nat
  cls : Nat
  outcome : Nat
  unit : Nat
  job : Nat
  index : Nat
  sub : Nat
  addr : Nat
  syndrome : Nat
  flags : Nat
  count : Nat
  detectTc : Stamp
  logTc : Stamp
  returned : Bool
  deriving DecidableEq, Repr, Inhabited

/-- A screen test under way (R419): the unit tested, the sub-unit, the entries that wait for its result, the
`screen_test_run` commands that named it, and what kind of test it is. -/
structure Screen where
  unit : Nat
  sub : Nat
  type : Nat
  startedAt : Nat
  /-- False while a core test waits for the core's task boundary. -/
  running : Bool
  entries : List Nat
  commands : List CmdHdr
  reportOnly : Bool
  sweep : Bool
  /-- The repeat rule of R420 or an injected failure decides the result: the test fails whatever the unit shows. -/
  mustFail : Bool
  deriving DecidableEq, Repr, Inhabited

/-- A `screen_test_run` under way: tests left, and the TYPE of the first failure. -/
structure ScreenRun where
  cmd : Command
  left : Nat
  firstFail : Option Nat
  deriving DecidableEq, Repr, Inhabited

/-- A corrupted stored word that the next read will find (R435). -/
structure Injected where
  unit : Nat
  sub : Nat
  addr : Nat
  bits : Nat
  deriving DecidableEq, Repr, Inhabited

/-- The diagnosis unit. -/
structure Diag where
  log : TMap ErrEntry := []
  nextIndex : Nat := 0
  lost : Nat := 0
  corrected : Nat := 0
  uncorrected : Nat := 0
  faults : Nat := 0
  tests : Nat := 0
  failedTests : Nat := 0
  lastTc : Nat := 0
  screens : List Screen := []
  runs : List ScreenRun := []
  /-- Passes of a sub-unit: (unit, sub, time), for the repeat rule (R420). -/
  passes : List (Nat × Nat × Nat) := []
  injected : List Injected := []
  /-- When ERROR_LOGGED was last issued for a unit (R418). -/
  lastLogged : TMap Nat := []
  /-- Absent logical cores, with the unit id of the RETIRED CORE entry each names (R423). -/
  absent : TMap Nat := []
  /-- Control cores: retired ones, and the times of their last report and timeouts (R431). -/
  controlRetired : List Nat := []
  lastReport : TMap Nat := []
  timeouts : TMap Nat := []
  degraded : Bool := false
  /-- Row repairs used, by unit × 65,536 + rank, and rows that no repair was left for, by unit (Table 17.4). -/
  rowRepairs : TMap Nat := []
  badRows : TMap Nat := []
  damagedStep : TMap Nat := []
  damagedCount : TMap Nat := []
  lastSweep : TMap Nat := []
  deriving DecidableEq, Repr, Inhabited

/-! ## Jobs, tasks and allotments (spec/15) -/

/-- What placed a task, and what its end means. -/
inductive TaskKind where
  | kernel
  | cont (run : Nat)
  | stream (stream iteration stage : Nat)
  | attn (run : Nat)
  deriving DecidableEq, Repr, Inhabited

/-- A task that is ready or running (R360, R112): its command, the order in which commands were dispatched, the logical cores
it may run on (none listed: any of its allotment), where its argument record lies, and what its record holds if it has been
built by the device. -/
structure Task where
  cmd : CmdHdr
  order : Nat
  slot : Nat
  headgate : Bool
  kernel : Nat
  index : Nat
  cores : List Nat
  argVa : Nat
  argSize : Nat
  args : List Byte
  kind : TaskKind
  readyAt : Nat
  deriving DecidableEq, Repr, Inhabited

/-- A command that places tasks (R112, R158, R187, R300): totals, and the first fault. -/
structure TaskRun where
  cmd : Command
  order : Nat
  slot : Nat
  total : Nat
  unplaced : Nat
  running : Nat
  ended : Nat
  faulted : Nat
  firstFault : Option (Nat × Nat)
  maxCores : Nat
  trace : Bool
  traceBuf : Nat
  lastEnd : Nat
  /-- Its unplaced tasks were dropped: it completes with ST_CANCELLED (R209, R378). -/
  cancelled : Bool := false
  deriving DecidableEq, Repr, Inhabited

/-- A migration in progress (R371): its pairs of logical cores with the physical core that each one was, its ranges, the commands
that it waits for; since step 2 (`closing`) the turnouts that it closes, by key, and those of them that their limit closed. -/
structure Migration where
  cmd : Command
  startedAt : Nat
  pairs : List (Nat × Nat)
  phys : List (Nat × Nat)
  ranges : List (Nat × Nat)
  limitUs : Nat
  waitFor : List CmdHdr
  closing : Bool
  closeAt : Nat
  turnouts : List Nat
  limited : List Nat
  deriving DecidableEq, Repr, Inhabited

/-- Table 15.1. -/
inductive JobPhase where
  | free | active | migrating | destroying
  deriving DecidableEq, Repr, Inhabited

/-- A job slot. -/
structure Job where
  phase : JobPhase := .free
  tag : Nat := 0
  allotment : Nat := 0
  placement : Nat := 0
  taskLimitUs : Nat := 0
  tasksPlaced : Nat := 0
  destroyCmd : Option Command := none
  migration : Option Migration := none
  deriving DecidableEq, Repr, Inhabited

/-- An allotment (R366-R368). -/
structure Allotment where
  valid : Bool := false
  emptyYield : Bool := true
  turnActive : Bool := false
  turnJob : Nat := 0
  turnStart : Nat := 0
  hgReserve : Nat := 0
  turnUs : Nat := 0
  guardUs : Nat := 0
  cores : List Nat := []
  leaving : List Nat := []
  /-- `allotment_set` commands that wait for the last leaving core. -/
  cmds : List Command := []
  lastOverrun : Option Nat := none
  deriving DecidableEq, Repr, Inhabited

/-- The scheduler. -/
structure Sched where
  allotmentMode : Bool := false
  jobs : TMap Job := []
  allotments : TMap Allotment := []
  nextOrder : Nat := 0
  ready : List Task := []
  runs : List TaskRun := []
  /-- The job slot that last gave a tailwater task in the round of R360. -/
  roundAt : Option Nat := none
  hgPlaced : Nat := 0
  watchdogs : Nat := 0
  migrations : Nat := 0
  maxLatency : Nat := 0
  /-- The longest headgate placement since a job's BEGIN, and TASK_FAULT records of a job, by slot (R385). -/
  stepMaxNs : TMap Nat := []
  taskFaults : TMap Nat := []
  lastLatency : Nat := 0
  turns : Nat := 0
  overruns : Nat := 0
  deriving DecidableEq, Repr, Inhabited

/-! ## Cores, the outer-product engine, the vector unit (spec/05) -/

/-- A resident kernel of a job (R110): its bundles as 128-bit numbers. Key slot × 256 + kernel id. -/
structure Kernel where
  bundles : List Nat
  cyclesStatic : Nat
  argMin : Nat
  engines : Nat
  /-- The physical cores whose program store holds it. -/
  cores : List Nat
  unloading : Option Command
  /-- The runs that the kernel's unloading waits for (R113). -/
  namedBy : List CmdHdr
  deriving DecidableEq, Repr, Inhabited

/-- What a core does (CORE_STATUS.PHASE); stalled and moving are told by `Core.stall` and the bundle. -/
inductive CorePhase where
  | gated | waking | idle | running | repairHold
  deriving DecidableEq, Repr, Inhabited

/-- Why the sequencer is stalled (R99). -/
inductive Stall where
  | waitTag
  | clap (clap generation : Nat)
  | emptySlot
  deriving DecidableEq, Repr, Inhabited

/-- An open loop of the sequencer: first and last bundle of its body, and how often the body is still to run (R97). -/
structure LoopFrame where
  first : Nat
  last : Nat
  left : Nat
  deriving DecidableEq, Repr, Inhabited

/-- A pending row repair (R103), with the command that asked for it if one did. -/
structure RowRepair where
  row : Nat
  cmd : Option Command
  /-- ST_DEFERRED has been sent. -/
  deferred : Bool
  /-- An injected failure: not written to the MRAM record (R417). -/
  injected : Bool
  deriving DecidableEq, Repr, Inhabited

/-- A physical core: its task and sequencer, its engines' registers, and the cycles until which they are busy. -/
structure Core where
  phase : CorePhase := .gated
  task : Option Task := none
  startedAt : Nat := 0
  startStamp : Option Stamp := none
  pc : Nat := 0
  /-- Slots of the current COMPUTE bundle already carried out: bit 0 OPE, 1 vector, 2 continuity. -/
  slotsDone : Nat := 0
  loops : List LoopFrame := []
  args : List Byte := []
  /-- Loaded generators: the 64 bytes of each descriptor (R514). -/
  generators : TMap (List Byte) := []
  amax : Word32 := 0
  drains : Nat := 0
  stall : Option Stall := none
  stallSince : Nat := 0
  /-- Time spent stalled at CLAP by the running task, ns (R369). -/
  clapNs : Nat := 0
  idleSince : Nat := 0
  /-- The cycle in which the next bundle can issue, and until which the engines are busy. -/
  cycle : Nat := 0
  accEnd : TMap Nat := []
  drainEnd : TMap Nat := []
  feederFree : Nat := 0
  outFree : Nat := 0
  contFree : Nat := 0
  engineEnd : Nat := 0
  /-- The latest line requests of the OPE-OUT and VEC ports: (cycle, line) (R118). -/
  outReqs : List (Nat × Nat) := []
  vecReqs : List (Nat × Nat) := []
  transferEnd : Nat := 0
  /-- Accumulator cells, keyed by bank × 16,384 + row × 128 + column; an unlisted cell holds +0.0. -/
  acc : TMap Word32 := []
  /-- Vector register lanes, keyed by register × 128 + lane. -/
  vreg : TMap Word32 := []
  /-- Logical rows of a bank that a DRAIN writes, where a CONV has suppressed some (R95). -/
  bankRows : TMap Nat := []
  retiredRows : List Nat := []
  repairs : List RowRepair := []
  holdStart : Nat := 0
  repairTc : Nat := 0
  ops : Nat := 0
  holds : Nat := 0
  bankFaults : Nat := 0
  tasksDone : Nat := 0
  preempts : Nat := 0
  wakes : Nat := 0
  wokeAt : Nat := 0
  /-- Retired, or to be retired at the next boundary. -/
  failing : Bool := false
  /-- What makes it fail was injected (R417). -/
  failInjected : Bool := false
  deriving DecidableEq, Repr, Inhabited

/-- The cores and the program stores. -/
structure Cores where
  cores : TMap Core := []
  kernels : TMap Kernel := []
  deriving DecidableEq, Repr, Inhabited

/-! ## Scratchpads, tags and turnouts (spec/06) -/

/-- Table 6.6. -/
inductive TurnoutPhase where
  | free | opened | draining | closed
  deriving DecidableEq, Repr, Inhabited

/-- A turnout (R130). `closeCmd` is the pending close-drain, `drainDue` its limit; `sinceNote` counts the lines refused since
the last TURNOUT_LATE record, `firstRefused` is the stamp of the first of them (R135). -/
structure Turnout where
  phase : TurnoutPhase := .free
  byCount : Bool := false
  lateNotify : Bool := false
  placement : Nat := 0
  epoch : Nat := 0
  slot : Nat := 0
  base : Nat := 0
  lines : Nat := 0
  expect : Nat := 0
  gauge : Nat := 0
  late : Nat := 0
  lastReason : Nat := 0
  openCmd : Option CmdHdr := none
  closeCmd : Option Command := none
  drainDue : Option Nat := none
  sinceNote : Nat := 0
  firstRefused : Option Stamp := none
  lastNote : Option Nat := none
  deriving DecidableEq, Repr, Inhabited

/-- What a remote write carries of its TRANSFER bundle (R128, Table 6.10). `serial` tells one issue of a bundle from another. -/
structure MeshOrigin where
  hdr : CmdHdr
  bundle : Nat
  task : Nat
  sender : Nat
  serial : Nat
  deriving DecidableEq, Repr, Inhabited

/-- A remote-write packet on the mesh: 1 to 4 lines with their poison (R128). -/
structure MeshPacket where
  target : Nat
  first : Nat
  lines : List (List Byte × Bool)
  slot : Nat
  placement : Nat
  epoch : Nat
  origin : MeshOrigin
  deriving DecidableEq, Repr, Inhabited

/-- Refusals of one TRANSFER bundle to one target that are still to be reported (R135, R143). -/
structure RefusalNote where
  origin : MeshOrigin
  target : Nat
  first : Nat
  lines : Nat
  reason : Nat
  stamp : Stamp
  deriving DecidableEq, Repr, Inhabited

/-- The scratchpads of the physical cores. Bytes are keyed core × 2²² + offset, lines core × 24,576 + line, turnouts
core × 16 + number. An unlisted byte is zero, an unlisted line is empty and clean. -/
structure Spads where
  bytes : TMap Byte := []
  full : TMap Bool := []
  poison : TMap Bool := []
  turnouts : TMap Turnout := []
  mesh : List MeshPacket := []
  refusals : List RefusalNote := []
  nextSerial : Nat := 0
  /-- Spare lines used, by core × 16 + bank (R137). -/
  sparesUsed : TMap Nat := []
  /-- Lines to be remapped at the core's next task boundary: (core, line, injected) (R137). -/
  toRemap : List (Nat × Nat × Bool) := []
  deriving DecidableEq, Repr, Inhabited

/-! ## The continuity engines (spec/07) -/

/-- The tag of an absolute frame (R147). KIND: 1 LN, 2 RMS, 3 SMAX. -/
structure FrameTag where
  valid : Bool := false
  poison : Bool := false
  slot : Nat := 0
  kind : Nat := 0
  rows : Nat := 0
  key : Nat := 0
  deriving DecidableEq, Repr, Inhabited

/-- A job's frame window on a core (R148). -/
structure FrameWindow where
  base : Nat := 0
  count : Nat := 0
  spill : Nat := 0
  deriving DecidableEq, Repr, Inhabited

/-- A window that cores still have to apply (R160). -/
structure PendingWindow where
  cmd : Command
  slot : Nat
  win : FrameWindow
  cores : List Nat
  deriving DecidableEq, Repr, Inhabited

/-- The continuity engines. Store bytes are keyed core × 65,536 + offset, tags core × 512 + absolute frame, windows and
non-finite flags core × 64 + job slot (R237). -/
structure Conts where
  store : TMap Byte := []
  tags : TMap FrameTag := []
  windows : TMap FrameWindow := []
  pending : List PendingWindow := []
  nonfinite : TMap Bool := []
  /-- Store lines to be remapped at the core's next boundary, and those remapped (R156). -/
  toRemap : List (Nat × Nat × Bool) := []
  sparesUsed : TMap Nat := []
  /-- Operation last started on a core, with its job slot (CONT_STATUS). -/
  running : TMap (Nat × Nat) := []
  /-- Rows counted under R154 by the tasks of a `cont_run`, by its dispatch order (R158). -/
  rowsCounted : TMap Nat := []
  /-- Rows done by the tasks of a `cont_run` that ended at END. -/
  rowsDone : TMap Nat := []
  deriving DecidableEq, Repr, Inhabited

/-! ## Streams, the reservoir and claps (spec/08) -/

/-- A pool of a job (R167). Key slot × 4 + pool. -/
structure Pool where
  valid : Bool := false
  base : Nat := 0
  slotLines : Nat := 0
  slots : Nat := 0
  turnout : Nat := 0
  take : Nat := 0
  deriving DecidableEq, Repr, Inhabited

/-- A stage of a stream (Table 8.5). KIND: 1 FETCH, 2 INTAKE, 3 KERNEL, 4 STORE. -/
structure Stage where
  kind : Nat
  weight : Bool
  shared : Bool
  kernel : Nat
  bytes : Nat
  addr : Nat
  stride : Nat
  pages : List Nat
  deriving DecidableEq, Repr, Inhabited

/-- A granted slot of a pool on a lane's core: its stage, its iteration, whether its fill has been started (a suppressed
run-ahead fetch leaves it granted and empty, R171), and the write generations of its data (R173). -/
structure SlotUse where
  lane : Nat
  stage : Nat
  iter : Nat
  index : Nat
  filled : Bool
  gens : List (Nat × Nat)
  deriving DecidableEq, Repr, Inhabited

/-- An iteration of the current run whose task has been placed: the slots of its STORE stages still to be stored. -/
structure Placed where
  iter : Nat
  ended : Bool
  outs : List SlotUse
  deriving DecidableEq, Repr, Inhabited

/-- A run of a stream (R187). -/
structure StreamRun where
  cmd : Command
  iterations : Nat
  first : Nat
  endClap : Nat
  warmStream : Nat
  warmIters : Nat
  warmFirst : Nat
  deriving DecidableEq, Repr, Inhabited

/-- RESV_STREAM.STATE (Table 8.3). -/
inductive StreamPhase where
  | idle | running | cancelling | faulted | standby
  deriving DecidableEq, Repr, Inhabited

/-- A stream. `runs`: the current run first. `granted`: source slots. -/
structure Stream where
  isOpen : Bool := false
  phase : StreamPhase := .idle
  slot : Nat := 0
  pool : Nat := 0
  lanes : Nat := 0
  firstCore : Nat := 0
  stages : List Stage := []
  borrowMax : Nat := 0
  standby : Bool := false
  headgate : Bool := false
  warmIters : Nat := 0
  debug : Bool := false
  stallAction : Nat := 0
  runAheadMax : Nat := 0
  openCmd : Option CmdHdr := none
  runs : List StreamRun := []
  granted : List SlotUse := []
  placed : List Placed := []
  /-- Iterations whose last stage has completed, and those the run has dropped. -/
  done : List Nat := []
  suppressed : Nat := 0
  peakBorrowed : Nat := 0
  lastDone : Nat := 0
  /-- The status with which the current run ends once its placed tasks have ended. -/
  ending : Option (Nat × Nat) := none
  cancelCmd : Option Command := none
  cancelAt : Nat := 0
  drained : Bool := false
  discarded : Nat := 0
  drainedAt : Nat := 0
  emptied : Nat := 0
  dropped : Nat := 0
  closeCmd : Option Command := none
  /-- Decoded output for an INTAKE stage, by stage (R488). -/
  intake : TMap (List Byte) := []
  /-- Since when the rings of the stream have waited for a grant, by lane × 8 + stage, and the last record (R181). -/
  waiting : TMap Nat := []
  deadlockAt : Option Nat := none
  deriving DecidableEq, Repr, Inhabited

/-- A line of the reservoir (R174, R175): 256 bytes at a physical address, for a job slot. `used` orders the least recently
used. -/
structure ResvLine where
  pa : Nat
  slot : Nat
  stream : Nat
  headgate : Bool
  count : Nat
  used : Nat
  data : List Byte
  poison : Bool
  gen : Nat
  deriving DecidableEq, Repr, Inhabited

/-- A clap (R182, Table 8.3). `broken` false: set. -/
structure Clap where
  broken : Bool
  fabric : Bool
  flush : Bool
  members : Nat
  limitUs : Nat
  arrived : Nat := 0
  generation : Nat := 0
  /-- Physical cores that wait, with the time since when. -/
  waiting : List (Nat × Nat) := []
  /-- Sources heard and rounds sent of the fabric exchange (R346). -/
  heard : List Nat := []
  sent : Nat := 0
  hdr : CmdHdr
  deriving DecidableEq, Repr, Inhabited

/-- The stream controller, the reservoir and the clap unit. Claps are keyed slot × 64 + number. -/
structure Streams where
  pools : TMap Pool := []
  streams : TMap Stream := []
  lines : List ResvLine := []
  useClock : Nat := 0
  claps : TMap Clap := []
  /-- Write generations of the tracked 64 KiB granules (R173). -/
  gens : TMap Nat := []
  /-- Last time a source slot of a pool on a core was filled or returned: core × 256 + slot × 4 + pool (R181). -/
  progress : TMap Nat := []
  sparesUsed : Nat := 0
  /-- Ways disabled, by set (Table 17.4). -/
  disabledWays : TMap Nat := []
  deriving DecidableEq, Repr, Inhabited

/-! ## The reel (spec/09) -/

/-- A marker on a marker stack (Table 9.2): its fields, the 32 bytes that the task built, and what the unit adds. -/
structure Marker where
  fid : Nat
  kind : Nat
  len : Nat
  next : Nat
  first : Nat
  raw : List Byte
  position : Nat
  pushTc : Nat
  deriving DecidableEq, Repr, Inhabited

/-- The reel unit of a logical core (R194-R198). Markers, newest first. -/
structure Reel where
  slot : Option Nat := none
  depth : Nat := 0
  low : Nat := 0
  marks : List Marker := []
  held : List Marker := []
  reading : Option Marker := none
  /-- The frame being read was popped with HOLD. -/
  readingHeld : Bool := false
  promised : Nat := 0
  spilled : Nat := 0
  refilled : Nat := 0
  peakDepth : Nat := 0
  peakSpill : Nat := 0
  deriving DecidableEq, Repr, Inhabited

/-- MMU_REEL_JOB.STATE (Table 9.7). -/
inductive StepPhase where
  | none | configured | inStep | gatePending | updated | aborted
  deriving DecidableEq, Repr, Inhabited

/-- An abort whose steps 4 to 6 wait for the last END (R209), with what STEP_ABORTED reports. -/
structure Abort where
  trigger : Nat
  core : Nat
  expected : Nat
  found : Nat
  id : Nat
  stamp : Stamp
  hdr : CmdHdr
  deriving DecidableEq, Repr, Inhabited

/-- The reel and the step of a job. -/
structure ReelJob where
  phase : StepPhase := .none
  step : Nat := 0
  ringBase : Nat := 0
  ringLines : Nat := 0
  spillLines : Nat := 0
  spillVa : Nat := 0
  reelVa : Nat := 0
  openIds : List Nat := []
  closedIds : List Nat := []
  aborts : Nat := 0
  gateCmd : Option Command := none
  gateDue : Nat := 0
  aborting : Option Abort := .none
  deriving DecidableEq, Repr, Inhabited

/-- A shard range (R204), with the refusals since its last GUARD_REFUSED record (R215). -/
structure Shard where
  valid : Bool := false
  slot : Nat := 0
  base : Nat := 0
  len : Nat := 0
  tag : Nat := 0
  refused : Nat := 0
  firstVa : Nat := 0
  firstStamp : Option Stamp := none
  lastRecord : Option Nat := none
  deriving DecidableEq, Repr, Inhabited

/-- The reel units, the jobs' steps and the sixteen shard ranges. -/
structure Reels where
  cores : TMap Reel := []
  jobs : TMap ReelJob := []
  shards : TMap Shard := []
  deriving DecidableEq, Repr, Inhabited

/-! ## Memory and maps (spec/11) -/

/-- The map of a job slot (R252): its table pool, and how far tables of 4 KiB (upwards) and of 256 bytes (downwards) have been
taken from it. -/
structure MapInfo where
  valid : Bool := false
  pool : Nat := 0
  poolBytes : Nat := 0
  next4k : Nat := 0
  top256 : Nat := 0
  mapped64k : Nat := 0
  walkers : Nat := 0
  destroyCmd : Option Command := none
  deriving DecidableEq, Repr, Inhabited

/-- An edit whose shootdown has not ended (R258). `cmd` none: a copy-on-write of a run (R291). `answered`: ST_DEFERRED has been
sent. `kind`: 0 `map_edit`, 1 a command of the key-value cache, 2 `seq_create` DESTROY. `pages`: pool pages that wait for it. -/
structure Shoot where
  cmd : Option Command
  slot : Nat
  kind : Nat
  changed : Nat
  pages : List Nat
  answered : Bool
  deriving DecidableEq, Repr, Inhabited

/-- A `far_migrate` OUT or BACK in progress (R273): chunks left, ascending, the first of them being copied. -/
structure FarMove where
  cmd : Command
  channel : Nat
  back : Bool
  left : List Nat
  moved : Nat
  poisoned : Nat
  deriving DecidableEq, Repr, Inhabited

/-- The two tiers: bytes by physical address, poison by 64-byte granule, maps, and what is in progress. -/
structure Memory where
  bytes : TMap Byte := []
  poison : TMap Bool := []
  maps : TMap MapInfo := []
  shoots : List Shoot := []
  moves : List FarMove := []
  /-- `far_online` commands in progress, by channel. -/
  bringups : List (Nat × Command) := []
  deriving DecidableEq, Repr, Inhabited

/-! ## Attention and the key-value cache (spec/12) -/

/-- A pool page in use (R290): its counts, and the shootdowns that it waits for (R292). -/
structure KvPage where
  ref : Nat := 0
  pin : Nat := 0
  waits : Nat := 0
  deriving DecidableEq, Repr, Inhabited

/-- A job's key-value pool (R289). `inUse`: the pages not free, by number; the descriptor pages come first and are not listed. -/
structure KvPool where
  valid : Bool := false
  pageBytes : Nat := 65536
  base : Nat := 0
  pages : Nat := 0
  descPages : Nat := 0
  lowWater : Nat := 0
  /-- The free count is below LOW_WATER and KV_POOL_LOW has been issued (R292). -/
  below : Bool := false
  cmd : Option CmdHdr := none
  inUse : TMap KvPage := []
  deriving DecidableEq, Repr, Inhabited

/-- A sequence (R281): its shape, each layer's length (R285), and the runs that walk it, by dispatch order (R293). -/
structure KvSeq where
  valid : Bool := false
  slot : Nat := 0
  va : Nat := 0
  maxTokens : Nat := 0
  kvHeads : Nat := 0
  layers : Nat := 0
  fmt : Nat := 0
  dim : Nat := 64
  lengths : TMap Nat := []
  walkers : List Nat := []
  exclusive : Bool := false
  deriving DecidableEq, Repr, Inhabited

/-- An edit that waits for a sequence's kernel boundary, or behind an edit of the same pages (R294, R296). -/
structure HeldEdit where
  cmd : Command
  slot : Nat
  ranges : List (Nat × Nat)
  deriving DecidableEq, Repr, Inhabited

/-- An `attn_run` (R277-R300). `pins`: the pool pages that it holds pinned, and how many pin-store entries. `rings`: the turnout
and the take region opened on each physical core. `sent`: tiles sent to each of its tasks, by task index. -/
structure AttnRun where
  cmd : Command
  order : Nat
  slot : Nat
  seq : Nat
  headgate : Bool
  walking : Bool := false
  pins : List Nat := []
  pinned : Nat := 0
  rings : TMap (Nat × Nat) := []
  sent : TMap Nat := []
  tilesSent : Nat := 0
  tilesSkipped : Nat := 0
  copied : Nat := 0
  length : Nat := 0
  deriving DecidableEq, Repr, Inhabited

/-- The attention sequencers, the pools by job slot, the sequences by id. -/
structure Attn where
  pools : TMap KvPool := []
  seqs : TMap KvSeq := []
  runs : List AttnRun := []
  held : List HeldEdit := []
  deriving DecidableEq, Repr, Inhabited
/-! ## Flume (spec/13) -/

/-- FLUME_CH_STATE.STATE (Table 13.6). -/
inductive FlumePhase where
  | idle | reading | waitEvent | waitOwn | moving | draining
  deriving DecidableEq, Repr, Inhabited

/-- What a descriptor's run has come to (Table 13.3): `bad`, `poison`, the status with its DETAIL, the lines of its prefix, the
address that faulted. -/
structure FlumeDone where
  bad : Bool := false
  poison : Bool := false
  status : Nat := 0
  detail : Nat := 0
  lines : Nat := 0
  faultVa : Nat := 0
  deriving DecidableEq, Repr, Inhabited

/-- A `flume_chain_stop` that waits (R320). -/
structure FlumeStop where
  cmd : Command
  since : Nat
  deriving DecidableEq, Repr, Inhabited

/-- A Flume channel (Table 13.6). `held` is the copy of the current descriptor that runs; `ahead` is the copy of the following one
that was read with OWN set when the current one started (R306). -/
structure FlumeChannel where
  phase : FlumePhase := .idle
  owner : Option Nat := none
  headgate : Bool := false
  stopOnBad : Bool := false
  cmd : Option Command := none
  desc : Nat := 0
  held : List Byte := []
  ahead : Option (List Byte) := none
  polledAt : Nat := 0
  counter : Nat := 0
  doneCount : Nat := 0
  badCount : Nat := 0
  /-- Of this chain: descriptors run, and BAD ones. -/
  ran : Nat := 0
  ranBad : Nat := 0
  placement : Nat := 0
  epoch : Nat := 0
  result : FlumeDone := {}
  /-- A stop: 1 MODE 0, 2 MODE 1, 4 the job's destruction, 6 the engine's takeover; 0 none. -/
  stopping : Nat := 0
  stop : Option FlumeStop := none
  /-- A MODE 1 stop waits for the reads in flight. -/
  discarding : Bool := false
  deriving DecidableEq, Repr, Inhabited

/-- A timer (R313). -/
structure FlumeTimer where
  owner : Option Nat := none
  period : Nat := 0
  nextAt : Nat := 0
  counter : Nat := 0
  deriving DecidableEq, Repr, Inhabited

/-- The engines: channels by event id, timers, and uses that a takeover has changed (R302, R425). -/
structure Flume where
  channels : TMap FlumeChannel := []
  timers : TMap FlumeTimer := []
  uses : TMap Nat := []
  deriving DecidableEq, Repr, Inhabited


/-! ## The optical fabric (spec/14) -/

/-- A port map record in a slot (Table 14.3): the expected (peer, peer port) of each port, and the non-zero routes. -/
structure PortMap where
  peers : List (Nat × Nat)
  routes : TMap Nat
  deriving DecidableEq, Repr, Inhabited

/-- LINK_PORT_STATE.STATE (Table 14.2). -/
inductive PortPhase where
  | down | training | check | up | miswired | recutting | failed
  deriving DecidableEq, Repr, Inhabited

/-- A port: its link state, its sequences, and its replay buffer, oldest first (R327). -/
structure Port where
  phase : PortPhase := .down
  width : Nat := 0
  peer : Nat := 0xFFFF
  peerPort : Nat := 0xFF
  light : Bool := false
  /-- Engine lane of each of the four port lanes; 0xFF lost (LINK_PORT_LANES). -/
  lanes : List Nat := []
  trainingSince : Nat := 0
  downSince : Nat := 0
  txSeq : Nat := 0
  rxSeq : Nat := 0
  unacked : List (Nat × Packet) := []
  retries : Nat := 0
  /-- Credit held for frames to the peer, and bytes to be granted to the peer in the next LCF (R327). -/
  credit : Nat := 0
  toGrant : Nat := 0
  /-- Packets waiting for credit, in the order in which they leave. -/
  txQueue : List Packet := []
  /-- An acknowledgement is due; a NACK is due from this link sequence (R326). -/
  ackDue : Bool := false
  nackDue : Option Nat := none
  lastLcf : Nat := 0
  /-- Peers trained with since power-good, newest first, at most 32 (R339). -/
  cached : List Nat := []
  /-- The exchange to be echoed in the next LCF: the peer's transmit stamp and its local receive stamp (R326). -/
  echo : Nat × Nat := (0, 0)
  tc : Nat := 0
  deriving DecidableEq, Repr, Inhabited

/-- An optical engine: lanes retired, and the lane and port that lane 16 stands in for (R323). -/
structure Optic where
  failed : Nat := 0
  spareFor : Nat := 0xFF
  sparePort : Nat := 0xFF
  tc : Nat := 0
  deriving DecidableEq, Repr, Inhabited

/-- A group of a layout (Table 14.4). -/
structure Group where
  first : Nat
  size : Nat
  parts : Nat
  deriving DecidableEq, Repr, Inhabited

/-- A layout record (Table 14.4). -/
structure Layout where
  epoch : Nat
  groups : List Group
  entries : List Nat
  deriving DecidableEq, Repr, Inhabited

/-- A pending recut (R336-R339). -/
structure Recut where
  cmd : CmdHdr
  epoch : Nat
  map : Nat
  abandon : Bool
  layout : Layout
  switchTc : Nat
  limitAt : Nat
  acceptedAt : Nat
  clapAt : Option Nat
  releasedAt : Option Nat
  darkAt : Option Nat
  cancelled : Nat
  /-- Ports whose entry changes, and of those the ones already dark. -/
  changed : List Nat
  dark : List Nat
  /-- Sources of the boundary clap's packets received, and rounds sent (R346). -/
  heard : List Nat
  sent : Nat
  bySpread : Bool
  deriving DecidableEq, Repr, Inhabited

/-- LINK_JOB_j.FSTATE. -/
inductive FState where
  | none | active | draining | clapping | switching
  deriving DecidableEq, Repr, Inhabited

/-- What the fabric keeps for a job slot. -/
structure FabricJob where
  fstate : FState := .none
  epoch : Nat := 0
  layout : Option Layout := .none
  recut : Option Recut := .none
  /-- The queue and command of the job's latest recut (R357). -/
  latestRecut : Option CmdHdr := .none
  recutTc : Nat := 0
  /-- The early store of 64 CLAP packets (R346). -/
  early : List Packet := []
  /-- Packets of the next epoch held in the receive buffer until release (R335). -/
  heldPackets : List Frame := []
  /-- Data packets whose operation this device has not begun. -/
  earlyData : List Packet := []
  /-- Clap numbers marked broken by a full early store (R346). -/
  brokenClaps : List Nat := []
  /-- (source, PSEQ) accepted (R328), newest first; own next PSEQ. -/
  accepted : List (Nat × Nat) := []
  nextPseq : Nat := 0
  staleCount : Nat := 0
  lastStale : Option Nat := .none
  deriving DecidableEq, Repr, Inhabited

/-- A `collective_run` or `gather_run` in progress (R340-R345). -/
structure Collective where
  cmd : Command
  slot : Nat
  gather : Bool
  /-- 0 REDUCE_SCATTER, 1 ALL_GATHER (a gather too), 2 ALL_REDUCE. -/
  op : Nat
  id : Nat
  epoch : Nat
  len : Nat
  src : Nat
  dst : Nat
  auxVa : Nat
  auxCount : Nat
  nonfinite : Bool
  pass : Nat
  /-- The part's leaves: the fabric id that holds each. -/
  part : List Nat
  limitAt : Nat
  /-- The device's own contribution, by leaf held, as read at dispatch. -/
  own : List (Nat × List Byte)
  /-- Partial sums received, keyed by (level × 65,536 + sending leaf) × 2⁴⁰ + offset in the N bytes; pieces of the result
  received, by offset. -/
  received : TMap (List Byte)
  gathered : TMap (List Byte)
  /-- The TAG of each gather piece, by its offset. -/
  tags : TMap Nat
  /-- Pieces that have been sent, and offsets written into DST. -/
  sent : List Nat
  written : List Nat
  /-- The OR of the non-finite flags, the maximum array, and the members heard of both (R342). -/
  orFlag : Bool
  aux : List Word32
  heardFrom : List Nat
  bytesSent : Nat
  /-- The step of the ledger that the gather belongs to, if the job was in one (R205). -/
  ledgerStep : Option Nat
  deriving DecidableEq, Repr, Inhabited

/-- The link controllers and the fabric state of every job. -/
structure Fabric where
  twinConfig : Bool := false
  maps : TMap PortMap := []
  activeMap : Option Nat := none
  ports : TMap Port := []
  optics : TMap Optic := []
  jobs : TMap FabricJob := []
  collectives : List Collective := []
  /-- Packets that no UP port can take while a port of their route is RECUTTING, with the port they came in by (R333). -/
  waiting : List (Packet × Nat) := []
  deriving DecidableEq, Repr, Inhabited
/-! ## Freezes, negatives, the slate log and retakes (spec/16) -/

/-- RES_JOB_j.STATE (Table 16.3). -/
inductive ResPhase where
  | none | partnered | initial | running | freezing | spreading | recovering | diverged
  deriving DecidableEq, Repr, Inhabited

/-- A snapshot or a negative: its header with the block index, and its bytes and poison by offset in the concatenation of its
ranges. An unlisted byte is zero. -/
structure Snap where
  header : NegHeader
  bytes : TMap Byte
  poison : TMap Bool
  deriving DecidableEq, Repr, Inhabited

/-- A negative of the device that its partner has completed (R400). -/
structure DoneNegative where
  step : Nat
  partner : Nat
  cofed : Bool
  deriving DecidableEq, Repr, Inhabited

/-- The negative in flight (R393): the snapshot slot it is of, its partner, the blocks acknowledged, and the failed checks by
block. -/
structure Negative where
  slot : Nat
  step : Nat
  partner : Nat
  cofed : Bool
  acked : List Nat
  fails : TMap Nat
  /-- When the oldest block not acknowledged was sent. -/
  sentAt : Nat
  deriving DecidableEq, Repr, Inhabited

/-- A freeze from its trigger to its resume (R390). `kind`: 0 initial, 1 BEGIN, 2 `freeze_take` with WHEN 1. -/
structure Freeze where
  kind : Nat
  cmd : Command
  /-- The `freeze_take` that asked for a freeze at the next BEGIN. -/
  take : Option Command
  step : Nat
  /-- Set once the job has been stopped: T0, and the slot. -/
  stopped : Option (Stamp × Nat)
  deriving DecidableEq, Repr, Inhabited

/-- What BEGIN has put into the slate of the step (R383), and the device's counts at BEGIN (R385): CORRECTED, LINK_RETRIES,
SUPPRESSED, HG_PLACED. -/
structure SlateHalf where
  seed : Nat
  samples : Nat
  entries : List Byte
  step : Nat
  epoch : Nat
  fabric : Nat
  begin : Stamp
  frozen : Bool
  replay : Option Nat
  stopNs : Nat
  counts : List Nat
  deriving DecidableEq, Repr, Inhabited

/-- An armed retake (R404): the expected loss terms and status. -/
structure Retake where
  cmd : Command
  step : Nat
  loss : List Byte
  status : Nat
  deriving DecidableEq, Repr, Inhabited

/-- A `partner_set` that waits for its handshake (R395), or for the next freeze (R397). -/
structure Pairing where
  cmd : Command
  partner : Nat
  feed : Nat
  cofed : Bool
  sentAt : Nat
  limitMs : Nat
  answered : Bool
  deriving DecidableEq, Repr, Inhabited

/-- A `negative_load` in progress (R403): the snapshot as far as it has come. -/
structure Load where
  cmd : Command
  owner : Nat
  holder : Nat
  step : Nat
  dests : List Nat
  snap : Option Snap
  got : List Nat
  fails : TMap Nat
  deriving DecidableEq, Repr, Inhabited

/-- A `spread_apply` in progress (R402). -/
structure Spread where
  cmd : Command
  resumeStep : Nat
  failed : List Nat
  leaves : Nat
  abandoned : Nat
  deriving DecidableEq, Repr, Inhabited

/-- What the device holds for another device of the job (R386, R395, R399): the mirror ring by step, its two negative slots, and
blocks verified of the negative that is arriving. -/
structure Inbound where
  owner : Nat
  mirror : TMap (List Byte)
  /-- Complete negatives, newest first, with COFED; at most two. -/
  held : List (Snap × Bool)
  arriving : Option Snap
  pieces : TMap Nat
  verified : List Nat
  deriving DecidableEq, Repr, Inhabited

/-- What an inheritor knows of a failed device (R399, R400): the step of the negative that it has loaded, its holder, and where its
ranges now lie. -/
structure Inherited where
  newest : Option Nat := .none
  holder : Nat := 0xFFFF
  ranges : List (Nat × Nat) := []
  deriving DecidableEq, Repr, Inhabited

/-- The resilience data of a job slot. -/
structure ResJob where
  phase : ResPhase := .none
  partner : Nat := 0xFFFF
  partnerFeed : Nat := 0
  cofed : Bool := false
  partnerLost : Bool := false
  handshake : Option Pairing := .none
  nextPartner : Option Pairing := .none
  /-- The partner that keeps its negatives until the new partner's first one completes (R397). -/
  oldPartner : Option (Nat × Command) := .none
  configured : Bool := false
  interval : Nat := 0
  firstStep : Nat := 0
  ringSlates : Nat := 0
  stageVa : Nat := 0
  reportVa : Nat := 0
  ranges : List (Nat × Nat) := []
  negGbps : Nat := 0
  boundStop : Nat := 0
  /-- Snapshot slots A and B (0 and 1), and which holds the newest. -/
  snaps : TMap Snap := []
  newest : Option Nat := .none
  freeze : Option Freeze := .none
  takeNext : Option Command := .none
  /-- BEGIN of this step has had its freeze: it is dispatched again without one. -/
  frozenFor : Option Nat := .none
  lastStop : Nat := 0
  negative : Option Negative := .none
  /-- A snapshot slot whose negative waits for the one in flight (R393). -/
  negWaiting : Option Nat := .none
  negatives : List DoneNegative := []
  /-- Failed devices whose leaves this device has taken over (R400). -/
  inherited : TMap Inherited := []
  /-- The slate log, by entry of the ring. -/
  slates : TMap (List Byte) := []
  newestSlate : Option Nat := .none
  mirrored : Option Nat := .none
  /-- When the oldest mirror block not acknowledged was sent, and its step. -/
  mirrorSent : TMap Nat := []
  half : Option SlateHalf := .none
  /-- The OR of the reduced non-finite flags of the step's collectives (R383). -/
  skip : Bool := false
  retake : Option Retake := .none
  lastOk : Option Nat := .none
  lastGated : Option Nat := .none
  /-- Steps begun since the last `negative_load` (R412). -/
  begun : List Nat := []
  /-- The newest step in the log at the last spread (R402). -/
  replayTo : Option Nat := .none
  spread : Option Spread := .none
  load : Option Load := .none
  /-- `negative_load` commands that wait for the one in progress, oldest first (R403). -/
  loads : List Command := []
  inbound : List Inbound := []
  latest : Option CmdHdr := .none
  /-- Slates written and not yet sent to the partner (R388). -/
  toMirror : List Nat := []
  /-- The device holds leaves of a failed device (Table 16.1). -/
  inheritor : Bool := false
  deriving DecidableEq, Repr, Inhabited

/-- The resilience unit. -/
structure Resil where
  jobs : TMap ResJob := []
  deriving DecidableEq, Repr, Inhabited


/-! ## Power, clocks and pins (spec/18, spec/21) -/

/-- Table 18.2. -/
inductive DState where
  | run | doze | sleep | standby
  deriving DecidableEq, Repr, Inhabited

/-- The Watermaster and the Gaffer. -/
structure Power where
  dstate : DState := .run
  moving : Bool := false
  /-- When the move in progress began, the state it left, and the command that asked for it (R446). -/
  moveStart : Nat := 0
  moveFrom : DState := .run
  moveCmd : Option Command := none
  heldMoves : List Command := []
  wakes : Nat := 0
  wakeCause : Nat := 0
  wakeNs : Nat := 0
  stateTc : Nat := 0
  /-- Bit per PLL: 0 ARITH, 1 MESH, 2 HBM, 3 FAR, 4-7 LINK0-3, 8 ETH, 9 CTRL, 10 TIME. -/
  pll : Nat := 0
  /-- Bit n: control core n reporting; timeouts (R431). -/
  alive : Nat := 0
  timeouts : Nat := 0
  /-- When the device last did something that keeps it from DOZE (R443). -/
  lastActive : Nat := 0
  point : Nat := 0
  ctrlMhz : Nat := 2000
  arithMhz : Nat := 1100
  vddMv : Nat := 750
  /-- The point whose voltage has been asked for (R448). -/
  pendingPoint : Option Nat := none
  clampK : Nat := 0
  peakK : Nat := 0
  backstop : Bool := false
  thermalK : Nat := 0
  excursionUs : Nat := 0
  /-- When the last excursion ended (R450). -/
  lastExcursion : Option Nat := none
  powerW : Nat := 0
  /-- The part of the estimate that is dynamic compute power (R447, R450). -/
  dynamicW : Nat := 0
  /-- Estimates of the last second, newest first: when each began, and its value in W. -/
  history : List (Nat × Nat) := []
  peakSeen : Nat := 0
  energyUj : Nat := 0
  clamps : Nat := 0
  throtIns : Nat := 0
  pointChanges : Nat := 0
  /-- The last clamp engagement, and when POWER_CLAMP was last issued (R459). -/
  engagedAt : Nat := 0
  lastClampRecord : Option Nat := none
  cmpC : Nat := 0
  iodC : Nat := 0
  hbmC : Nat := 0
  optC : Nat := 0
  tdpW : Nat := 1000
  peakW : Nat := 1150
  peakMs : Nat := 10
  /-- A rail fault or the thermal trip has stopped the device (R499, R509). -/
  stopped : Bool := false
  deriving DecidableEq, Repr, Inhabited

/-- The pins (Table 21.2) and the sideband targets. True is the level high. -/
structure Pins where
  pwrGood : Bool := false
  throtInN : Bool := true
  faultN : Bool := true
  setpAlertN : Bool := true
  testMode : Bool := false
  farSlotEn : TMap Nat := []
  /-- When FAR_SLOT_EN_c was last deasserted (R505). -/
  slotOffAt : TMap Nat := []
  slotPower : TMap Nat := []
  /-- The setpoint frame last sent (R496). -/
  setpFrame : Nat := 0
  i3cAddress : Nat := 0x4A
  i3cIndex : Nat := 0
  ppsStamp : Nat := 0
  tapInstruction : Nat := 1
  deriving DecidableEq, Repr, Inhabited

/-! ## Bring-up and security (spec/19) -/

/-- A setting of the field section (Table 19.5). -/
structure Setting where
  type : Nat
  inst : Nat
  offset : Nat
  msb : Nat
  lsb : Nat
  value : Nat
  deriving DecidableEq, Repr, Inhabited

/-- A repair of the field section (Table 19.5). KIND: 1 OPE row, 2 scratchpad line, 3 store line, 4 reservoir line, 5 core,
6 other unit, 7 control core, 8 optical lane. -/
structure Repair where
  unit : Nat
  kind : Nat
  sub : Nat
  deriving DecidableEq, Repr, Inhabited

/-- A copy of the field section with a valid TAG (R466). -/
structure FieldCopy where
  generation : Nat
  bootCount : Nat
  minSvn : Nat
  settings : List Setting
  repairs : List Repair
  deriving DecidableEq, Repr, Inhabited

/-- SEC_STATUS.PHASE. -/
inductive BootPhase where
  | rom | loading | verifying | running
  deriving DecidableEq, Repr, Inhabited

/-- The security block, the firmware memory and the MRAM die. -/
structure Security where
  phase : BootPhase := .rom
  loadSession : Nat := 0
  imageLen : Nat := 0
  /-- Bytes of the open load, by offset (R473). -/
  image : TMap Byte := []
  /-- The factory section failed its check (R460). -/
  factoryBad : Bool := false
  /-- A COMMIT has completed ST_OK (R473). -/
  committed : Bool := false
  fwVersion : Nat := 0
  fwSvn : Nat := 0
  fwDigest : List Byte := []
  /-- The verified image in firmware memory (R465). -/
  firmware : List Byte := []
  copyA : Option FieldCopy := some ⟨0, 0, 0, [], []⟩
  copyB : Option FieldCopy := none
  /-- The settings that bring-up loaded (R467). -/
  loaded : List Setting := []
  serial : Nat := 0
  hostKey : Option (List Byte) := none
  keyGen : Nat := 0
  nextIndex : Nat := 0
  reservedTo : Nat := 0
  lowIssued : Bool := false
  /-- Rollover statements with their signatures (R470). -/
  chain : List (List Byte) := []
  rollCmd : Option Command := none
  /-- The last 1,024 accepted NONCEs, newest first (R462). -/
  nonces : List Nat := []
  openRefused : Nat := 0
  loadFailed : Nat := 0
  reports : Nat := 0
  rolls : Nat := 0
  deriving DecidableEq, Repr, Inhabited

/-! ## The host port and the intake engines (spec/20) -/

/-- A queue pair (R480). `gone`: its job has been destroyed and a DREQ sent. `filled`: receive slots that a SEND has filled. -/
structure QueuePair where
  connected : Bool := true
  gone : Bool := false
  session : Nat := 0
  inst : Nat := 0
  jobTag : Nat := 0
  slot : Nat := 0
  recvVa : Nat := 0
  recvSlots : Nat := 0
  nextSlot : Nat := 0
  filled : List Nat := []
  rkey : Nat := 0
  hostQpn : Nat := 0
  hostAddr : Nat := 0
  deriving DecidableEq, Repr, Inhabited

/-- A decode on its engine's queue (R487). `cancelled`: it ends when the frame in progress ends. -/
structure Decode where
  cmd : Command
  slot : Nat
  cancelled : Bool := false
  deriving DecidableEq, Repr, Inhabited

/-- Queue pairs by number, decodes by engine (the running one first), and until when PFC has paused transmission. -/
structure HostPort where
  qps : TMap QueuePair := []
  decodes : TMap (List Decode) := []
  pausedUntil : Nat := 0
  deriving DecidableEq, Repr, Inhabited


/-! ## The whole device -/

/-- Something that the device has sent or driven, newest last in `State.outputs`. -/
inductive Output where
  | datagram (session : Nat) (kind : Nat) (tseq ack window : Nat) (body : List Byte) (msg : Option Msg)
  | openReply (kind : Nat) (session : Nat) (body : List Byte)
  | frame (port : Nat) (linkSeq : Nat) (packet : Packet)
  | linkControl (port : Nat) (l : LinkControl)
  | bulk (dst : Nat) (m : Bulk)
  | setpoint (frame : Nat)
  | i3c (data : List Byte)
  | i3cNack
  | tap (instruction value : Nat)
  | network (kind : Nat) (data : List Nat)
  deriving DecidableEq, Repr, Inhabited

/-- The state of the device. -/
structure State where
  /-- Commands that are waiting, first in first out. -/
  pending : List Instr := []
  umauth : Umauth := {}
  xanca : Xanca := {}
  timecode : Timecode := {}
  diag : Diag := {}
  security : Security := {}
  cores : Cores := {}
  sched : Sched := {}
  fabric : Fabric := {}
  spads : Spads := {}
  conts : Conts := {}
  streams : Streams := {}
  reels : Reels := {}
  memory : Memory := {}
  resil : Resil := {}
  flume : Flume := {}
  attn : Attn := {}
  hostPort : HostPort := {}
  power : Power := {}
  pins : Pins := {}
  /-- PWR_GOOD has been asserted and the device has not stopped. -/
  powered : Bool := false
  /-- Register fields with no other home, by unit id × 65,536 + offset; an unlisted register reads as `regReset`. -/
  regs : TMap Nat := []
  outputs : List Output := []
  /-- The counter that free values are drawn by; the model's own. -/
  freshCount : Nat := 0
  deriving DecidableEq, Repr, Inhabited

/-- The device at power-good: every register at its reset value, no session open, no queue bound, nothing loaded, and
nothing waiting. -/
def State.reset : State := {}

end Sys2Proof.Machine
end

