-- ==== Sys2Proof/Machine/Ops.lean ====
section
/-! DEFINITION. The named operations that the commands share: registers, stamps, replies and records, error records, the
call sheet, the Xanca table. -/

namespace Sys2Proof.Machine

/-! ## Status codes (Table 2.8) -/

abbrev stOk : Nat := 0x0000
abbrev stDeferred : Nat := 0x0001
abbrev stBadOpcode : Nat := 0x0100
abbrev stBadParam : Nat := 0x0101
abbrev stNotReady : Nat := 0x0102
abbrev stNoResource : Nat := 0x0103
abbrev stSeqGap : Nat := 0x0104
abbrev stQueueFull : Nat := 0x0105
abbrev stPageFault : Nat := 0x0106
abbrev stMediaError : Nat := 0x0107
abbrev stFaultHw : Nat := 0x0200
abbrev stRetired : Nat := 0x0201
abbrev stPoisoned : Nat := 0x0202
abbrev stEpochBusy : Nat := 0x0300
abbrev stStaleGather : Nat := 0x0301
abbrev stWindowClosed : Nat := 0x0302
abbrev stCancelled : Nat := 0x0303
abbrev stCreditDeadlock : Nat := 0x0304
abbrev stPeerSilent : Nat := 0x0305
abbrev stCofedRefused : Nat := 0x0400
abbrev stReplayDiverged : Nat := 0x0401
abbrev stNonfiniteSkip : Nat := 0x0402
abbrev stNoNegative : Nat := 0x0403
abbrev stAuthFail : Nat := 0x0500
abbrev stKeyExhausted : Nat := 0x0501

/-! ## Units (Table 3.3) -/

/-- (type code, first unit id, count) of every block type, in the order of the table. -/
def unitTypes : List (Nat × Nat × Nat) := [
  (0x0001, 0, 1), (0x0010, 1, 156), (0x0011, 157, 156), (0x0012, 313, 156), (0x0013, 469, 156), (0x0014, 625, 1),
  (0x0020, 626, 16), (0x0030, 642, 4), (0x0031, 646, 12), (0x0032, 658, 1), (0x0040, 659, 16), (0x0041, 675, 4),
  (0x0050, 679, 12), (0x0060, 691, 1), (0x0061, 692, 1), (0x0070, 693, 1), (0x0080, 694, 1), (0x0081, 695, 1),
  (0x0090, 696, 1), (0x00A0, 697, 1), (0x00A1, 698, 4), (0x00B0, 702, 1), (0x00F0, 703, 1)]

/-- The block type code of a unit. -/
def unitType (u : Nat) : Nat :=
  match unitTypes.find? fun t => t.2.1 ≤ u && u < t.2.1 + t.2.2 with
  | some t => t.1
  | none => 0

/-- The instance number of a unit within its type (R57). -/
def unitInstance (u : Nat) : Nat :=
  match unitTypes.find? fun t => t.2.1 ≤ u && u < t.2.1 + t.2.2 with
  | some t => u - t.2.1
  | none => 0

abbrev uCore (p : Nat) : Nat := 1 + p
abbrev uOpe (p : Nat) : Nat := 157 + p
abbrev uCont (p : Nat) : Nat := 313 + p
abbrev uSpad (p : Nat) : Nat := 469 + p
abbrev uResv : Nat := 625
abbrev uFlume (e : Nat) : Nat := 626 + e
abbrev uHbm (k : Nat) : Nat := 642 + k
abbrev uFar (c : Nat) : Nat := 646 + c
abbrev uMmu : Nat := 658
abbrev uLink (p : Nat) : Nat := 659 + p
abbrev uOptic (e : Nat) : Nat := 675 + e
abbrev uAttn (r : Nat) : Nat := 679 + r
abbrev uQmgr : Nat := 691
abbrev uSched : Nat := 692
abbrev uRes : Nat := 693
abbrev uWmaster : Nat := 694
abbrev uGaffer : Nat := 695
abbrev uSec : Nat := 696
abbrev uHostport : Nat := 697
abbrev uIntake (e : Nat) : Nat := 698 + e
abbrev uTimecode : Nat := 702
abbrev uDiag : Nat := 703

/-- CS_BIT of a unit (Table 3.3); none for the root and DIAG. -/
def csBitOf (u : Nat) : Option Nat :=
  if u = 0 then none
  else if u ≤ 624 then some 6
  else if u = uResv then some 8
  else if u ≤ 641 then some 9
  else if u ≤ 645 then some (16 + (u - 642))
  else if u ≤ 657 then some (20 + (u - 646))
  else if u = uMmu then some 10
  else if u ≤ 674 then some (36 + (u - 659))
  else if u ≤ 678 then some 35
  else if u ≤ 690 then some 11
  else if u = uQmgr then some 13
  else if u = uSched then some 14
  else if u = uRes then some 33
  else if u = uWmaster then some 0
  else if u = uGaffer then some 15
  else if u = uSec then some 5
  else if u = uHostport then some 2
  else if u ≤ 701 then some 34
  else if u = uTimecode then some 3
  else none

/-! ## Time -/

/-- The short timecode of now (R73). -/
abbrev State.now (s : State) : Nat := s.timecode.ns

/-- One microsecond and one millisecond, in ns. -/
abbrev usec : Nat := 1000
abbrev msec : Nat := 1000000

/-- A full stamp of a unit at `ns`, and the state in which the unit's SEQ has advanced (R75). -/
def State.stampAt (s : State) (u ns : Nat) : Stamp × State :=
  let q := s.timecode.unitSeq.get 0 u
  (⟨ns, s.timecode.twin, s.timecode.device, u, q⟩,
   { s with timecode := { s.timecode with unitSeq := s.timecode.unitSeq.set 0 u ((q + 1) % 2 ^ 32) } })

/-- A full stamp of a unit now. -/
def State.stamp (s : State) (u : Nat) : Stamp × State := s.stampAt u s.now

/-- A free value, and the state in which the next draw is another one. -/
def State.draw (s : State) : Nat × State :=
  (Config.freeValue s.freshCount, { s with freshCount := s.freshCount + 1 })

/-! ## Registers (R6-R9) -/

/-- Whether a field of the table lies in the register at `off`. -/
def RegField.at (f : RegField) (off : Nat) : Bool :=
  if f.stride = 0 then f.off == off
  else f.off ≤ off && (off - f.off) % f.stride == 0 && (off - f.off) / f.stride < f.count

/-- The value a configuration field takes: the setting that names the instance, else the one for every instance, else the
default (R467). -/
def cfgValue (l : List Setting) (u off : Nat) (f : RegField) : Nat :=
  let ok (i : Nat) (x : Setting) : Bool :=
    x.type == unitType u && x.inst == i && x.offset == off && x.msb == f.hi && x.lsb == f.lo
  match l.find? (ok (unitInstance u)) with
  | some x => x.value
  | none =>
    match l.find? (ok 0xFFFF) with
    | some x => x.value
    | none => f.reset

/-- The value of a register at power-good (R9). -/
def regReset (l : List Setting) (u off : Nat) : Nat :=
  ((typeFields (unitType u)).filter (·.at off)).foldl
    (fun acc f => putBits acc f.hi f.lo (if f.cfg then cfgValue l u off f else f.reset)) 0

/-- The stored value of a register. -/
def State.reg (s : State) (u off : Nat) : Nat :=
  s.regs.get (regReset s.security.loaded u off) (u * 65536 + off)

/-- A stored register takes a value. -/
def State.setReg (s : State) (u off v : Nat) : State :=
  { s with regs := s.regs.insert (u * 65536 + off) (v % 2 ^ 64) }

/-- A field of a stored register. -/
def State.fld (s : State) (u off hi lo : Nat) : Nat := bits (s.reg u off) hi lo

/-- A field of a stored register takes a value. -/
def State.setFld (s : State) (u off hi lo v : Nat) : State := s.setReg u off (putBits (s.reg u off) hi lo v)

/-- A counter field rises by `n` and saturates. -/
def State.bump (s : State) (u off hi lo n : Nat) : State :=
  s.setFld u off hi lo (satAdd (hi + 1 - lo) (s.fld u off hi lo) n)

/-! ## Umauth messages -/

def State.session (s : State) (n : Nat) : Session := s.umauth.sessions.get {} n

def State.setSession (s : State) (n : Nat) (x : Session) : State :=
  { s with umauth := { s.umauth with sessions := s.umauth.sessions.insert n x } }

def State.queue (s : State) (k : Nat) : Queue := s.umauth.queues.get {} k

def State.setQueue (s : State) (k : Nat) (q : Queue) : State :=
  { s with umauth := { s.umauth with queues := s.umauth.queues.insert k q } }

/-- The open sessions, in ascending number. -/
def State.openSessions (s : State) : List Nat :=
  ((List.range 17).filter fun n => n != 0 && (s.session n).isOpen)

/-- Something leaves the device. -/
def State.emit (s : State) (o : Output) : State := { s with outputs := s.outputs ++ [o] }

/-- The steps from `a` to `b` along 1, 2, …, 2³² − 1, 1, … (R29). -/
def steps (a b : Nat) : Nat := (b + (2 ^ 32 - 1) - a) % (2 ^ 32 - 1)

/-- The TSEQ after `t`; the value 0 is skipped (R28). -/
def nextTseq (t : Nat) : Nat := if t + 1 ≥ 2 ^ 32 then 1 else t + 1

/-- The WINDOW that the device advertises on a session: its free receive buffers (R46). -/
def Session.window (x : Session) : Nat := 512 - x.buffered.length - x.rxBusy

/-- A datagram of the device on a session (Table 2.1). -/
def State.sendDatagram (s : State) (n kind tseq : Nat) (body : List Byte) (m : Option Msg) : State :=
  s.emit (.datagram n kind tseq (s.session n).ack (s.session n).window body m)

/-- A message leaves in a new DATA datagram (R28): one message a datagram. -/
def State.transmit (s : State) (n mid : Nat) (m : Msg) : State :=
  let x := s.session n
  let t := x.nextTseq
  (s.setSession n { x with nextTseq := Machine.nextTseq t, unacked := x.unacked ++ [⟨t, s.now, 0, mid, m⟩] }).sendDatagram
    n 0x01 t [] (some m)

/-- A message goes out on a session, or is held while the host's WINDOW has no room (R46). -/
def State.sendOn (s : State) (n mid : Nat) (m : Msg) : State :=
  let x := s.session n
  if x.held.isEmpty && x.unacked.length < min x.hostWindow 512 then s.transmit n mid m
  else s.setSession n { x with held := x.held ++ [(mid, m)] }

/-- Held messages leave as the window permits, at most `fuel` of them (R46). -/
def State.pump : Nat → State → Nat → State
  | 0, s, _ => s
  | fuel + 1, s, n =>
    let x := s.session n
    match x.held with
    | [] => s
    | (mid, m) :: rest =>
      if x.unacked.length < min x.hostWindow 512 then
        State.pump fuel ((s.setSession n { x with held := rest }).transmit n mid m) n
      else s

/-- A message is retained by a queue and goes out on the queue's session, if it is open (R47, R49). -/
def State.postTo (s : State) (k : Nat) (m : Msg) : State :=
  let q := s.queue k
  let mid := s.umauth.nextMid
  let n := if k < 4096 then q.session else k - 4096
  let tc := max m.doneTc q.lastTc
  let m := { m with doneTc := tc }
  let s := s.setQueue k { q with retained := q.retained ++ [(mid, m)], lastTc := tc }
  let s := { s with umauth := { s.umauth with nextMid := mid + 1 } }
  if (s.session n).isOpen then s.sendOn n mid m else s

/-- Whether a command is a Q0 command of a session that has ended (R49). -/
def State.orphaned (s : State) (h : CmdHdr) : Bool :=
  h.queue == 0 && !((s.session h.session).isOpen && (s.session h.session).inst == h.inst)

/-- A message of a command goes to its queue; of an orphaned Q0 command, to Q0 of every open session with ORPHANED set, or
into the hold while none is open (R49). -/
def State.post (s : State) (h : CmdHdr) (m : Msg) : State :=
  if s.orphaned h then
    let m := { m with flags := putBit m.flags 6 true }
    if s.openSessions.isEmpty then
      if s.umauth.orphanHold.length < 4096 then
        { s with umauth := { s.umauth with orphanHold := s.umauth.orphanHold ++ [m] } }
      else s
    else s.openSessions.foldl (fun s n => s.postTo (q0Key n) m) s
  else s.postTo h.qkey m

/-- The reply of a command (Table 2.6). -/
def State.replyMsg (s : State) (h : CmdHdr) (status detail : Nat) (result : List Byte) : Msg :=
  ⟨false, h.flags % 32, h.opcode, h.queue, status, h.seq, detail % 65536, s.now, h.cookie, result⟩

/-- A record that follows up a command (R44): its type is its DETAIL. -/
def State.cmdRecord (s : State) (h : CmdHdr) (type status : Nat) (body : List Byte) : Msg :=
  ⟨true, h.flags % 32, h.opcode, h.queue, status, h.seq, type, s.now, h.cookie, body⟩

/-- A record not tied to a command (Table 2.6). -/
def State.freeRecord (s : State) (queue type status : Nat) (body : List Byte) : Msg :=
  ⟨true, 0, 0, queue, status, 0xFFFFFFFF, type, s.now, 0, body⟩

/-- A record on a command's own queue. -/
def State.recordCmd (s : State) (h : CmdHdr) (type status : Nat) (body : List Byte) : State :=
  s.post h (s.cmdRecord h type status body)

/-- A record on a queue, tied to no command. -/
def State.recordQueue (s : State) (q type status : Nat) (body : List Byte) : State :=
  s.postTo q (s.freeRecord q type status body)

/-- A record on Q0 of every open session. -/
def State.recordAll (s : State) (type status : Nat) (body : List Byte) : State :=
  s.openSessions.foldl (fun s n => s.postTo (q0Key n) (s.freeRecord 0 type status body)) s

/-- A command leaves its queue: it has completed. -/
def State.complete (s : State) (h : CmdHdr) : State :=
  let drop (l : List Command) : List Command := l.filter fun c => !decide (c.hdr = h)
  if s.orphaned h then { s with umauth := { s.umauth with orphans := drop s.umauth.orphans } }
  else
    let q := s.queue h.qkey
    s.setQueue h.qkey { q with running := drop q.running }

/-! ## Jobs -/

def State.job (s : State) (slot : Nat) : Job := s.sched.jobs.get {} slot

/-- The slot of the job that holds a tag (R358). -/
def State.slotOf (s : State) (tag : Nat) : Option Nat :=
  (List.range 64).find? fun j => (s.job j).phase != .free && (s.job j).tag == tag

/-- A step is damaged (R428). -/
def State.damage (s : State) (slot : Nat) : State :=
  let r := s.reels.jobs.get {} slot
  if (r.phase = .inStep || r.phase = .gatePending) && s.diag.damagedStep.get 0xFFFFFFFF slot ≠ r.step then
    { s with diag := { s.diag with
      damagedStep := s.diag.damagedStep.insert slot r.step
      damagedCount := s.diag.damagedCount.insert slot (satAdd 32 (s.diag.damagedCount.get 0 slot) 1) } }
  else s

/-- A command of a job completes: with ST_FAULT_HW it damages the job's step (R428). -/
def State.damagedBy (s : State) (h : CmdHdr) (status : Nat) : State :=
  if status = stFaultHw then (match s.slotOf h.jobTag with | some j => s.damage j | none => s) else s

/-- A command completes with a status: a reply unless it is ST_OK with NOTIFY clear (R43, R44). -/
def State.finish (s : State) (c : Command) (status detail : Nat) (result : List Byte) : State :=
  let s := if status ≠ stOk || c.hdr.notify then s.post c.hdr (s.replyMsg c.hdr status detail result) else s
  (s.complete c.hdr).damagedBy c.hdr status

/-- A command is refused with ST_BAD_PARAM at a byte offset of its parameter block (R38). -/
def State.badParam (s : State) (c : Command) (off : Nat) : State := s.finish c stBadParam (0x20 + off) []

/-- A command is answered ST_DEFERRED; it stays on its queue until its DEFERRED_DONE (R41, R44). -/
def State.defer (s : State) (c : Command) (detail : Nat) (result : List Byte) : State :=
  s.post c.hdr (s.replyMsg c.hdr stDeferred detail result)

/-- DEFERRED_DONE with a given body; its DONE_TC is later than the reply's (R45). -/
def State.deferredDoneWith (s : State) (h : CmdHdr) (status : Nat) (body : List Byte) : State :=
  let m := s.cmdRecord h 0x0001 status body
  let later := if s.orphaned h then s.now else (s.queue h.qkey).lastTc + 1
  let m := { m with doneTc := max s.now later }
  ((s.post h m).complete h).damagedBy h status

/-- DEFERRED_DONE (Table 2.7). -/
def State.deferredDone (s : State) (h : CmdHdr) (status detail : Nat) : State :=
  s.deferredDoneWith h status (le 2 detail ++ le 6 0)

/-! ## Parameter checks -/

/-- A parameter check that has failed: the status and the DETAIL. -/
abbrev Check := Option (Nat × Nat)

/-- ST_BAD_PARAM at block offset `off`, where `bad` holds (R38). -/
def badIf (bad : Bool) (off : Nat) : Check := if bad then some (stBadParam, 0x20 + off) else none

/-- A status with its DETAIL, where `bad` holds. -/
def failIf (bad : Bool) (status detail : Nat) : Check := if bad then some (status, detail) else none

/-- The first check that fails. -/
def firstFail (l : List Check) : Check := l.findSome? id

/-- The command is refused at the first check that fails, or has its effect. -/
def State.checked (s : State) (c : Command) (checks : List Check) (effect : State → State) : State :=
  match firstFail checks with
  | some (status, detail) => s.finish c status detail []
  | none => effect s

/-! ## The Xanca table (R56-R61) -/

/-- A unit's entry as bring-up leaves it with every unit passing: column 12 of a physical mesh row is the spare (R88). -/
def XEntry.initial (u : Nat) : XEntry :=
  let p := unitInstance u
  let core := 1 ≤ u && u ≤ 624
  let spare := core && p % 13 == 12
  ⟨if spare then 2 else 1,
   if 1 ≤ u && u ≤ 156 then (if spare then 0xFFFF else p / 13 * 12 + p % 13) else unitInstance u,
   0, 0⟩

def State.xentry (s : State) (u : Nat) : XEntry := s.xanca.entries.get (XEntry.initial u) u

def State.setXentry (s : State) (u : Nat) (e : XEntry) : State :=
  { s with xanca := { s.xanca with entries := s.xanca.entries.insert u e } }

/-- Whether a unit is ACTIVE. -/
def State.active (s : State) (u : Nat) : Bool := (s.xentry u).state == 1

/-- One event's changes to entries, with one new even GENERATION and one XANCA_CHANGE record for each unit in ascending
unit id (R59, R61). -/
def State.xancaChange (s : State) (changes : List (Nat × XEntry)) : State :=
  let g := s.xanca.generation + 2
  let old := changes.map fun c => (c.1, (s.xentry c.1).state)
  let s := changes.foldl (fun s c => s.setXentry c.1
    { c.2 with stateTc := if c.2.state ≠ (s.xentry c.1).state || c.2.logical ≠ (s.xentry c.1).logical
        then s.now else (s.xentry c.1).stateTc }) s
  let s := { s with xanca := { s.xanca with generation := g } }
  old.foldl (fun s o =>
    let e := s.xentry o.1
    s.recordAll 0x0005 (if e.state = 3 then stRetired else stOk)
      (le 2 o.1 ++ le 1 o.2 ++ le 1 e.state ++ le 2 e.logical ++ le 2 0 ++ le 8 g)) s

/-- The physical core that holds a logical id, if one does (R89, R106). -/
def State.physOf (s : State) (c : Nat) : Option Nat :=
  (List.range 156).find? fun p => (s.xentry (uCore p)).logical == c && s.active (uCore p)

/-- The logical id of a physical core; 0xFFFF when spare or retired. -/
def State.logicalOf (s : State) (p : Nat) : Nat := (s.xentry (uCore p)).logical

/-! ## The call sheet (R62-R66) -/

/-- The time since power-good, or since the STANDBY wake (R77: the step to TAI does not count; R445). -/
def State.sinceBoot (s : State) : Nat := s.now - s.timecode.stepNs - s.xanca.bootNs

/-- The time by which bit 1 was set later than 1.0 s after power-good, which extends the † deadlines (R63). -/
def State.firmwareDelay (s : State) : Nat := (s.xanca.firmwareAt.getD 0) - 1000 * msec

/-- The deadline of a bit after power-good, ns (Table 3.4): none for 1, 63 and the reserved bits. † bits wait for bit 1. -/
def State.csDeadline (s : State) (b : Nat) : Option Nat :=
  let dag (ms : Nat) : Option Nat := s.xanca.firmwareAt.map fun _ => ms * msec + s.firmwareDelay
  if b = 0 then some (50 * msec)
  else if b = 2 || b = 4 || b = 5 then some (1500 * msec)
  else if b = 3 then some (3000 * msec)
  else if b = 6 || b = 7 || b = 8 || b = 9 || b = 14 || b = 15 then dag 3000
  else if b = 10 || b = 11 || b = 12 || b = 13 || b = 34 || (16 ≤ b && b ≤ 19) then dag 4000
  else if (20 ≤ b && b ≤ 33) then dag 25000
  else if b = 35 || (36 ≤ b && b ≤ 51) then dag 10000
  else none

/-- Every call-sheet bit of a mask. -/
def maskOf (l : List Nat) : Nat := l.foldl (fun m b => putBit m b true) 0

/-- A record CALLSHEET_CHANGE of bit `b` (Table 3.10), unless masked (R66); its transition time is stored. -/
def State.csReport (s : State) (b : Nat) (failure : Bool) : State :=
  let s := { s with xanca := { s.xanca with csTc := s.xanca.csTc.set 0 b s.now } }
  if bitAt (s.reg 0 0x028) b then
    s.recordAll 0x0004 (if failure then stFaultHw else stOk)
      (le 8 s.xanca.ready ++ le 8 s.xanca.failed ++ le 1 b ++ le 1 (b2n (bitAt s.xanca.ready b)) ++
        le 1 (b2n (bitAt s.xanca.failed b)) ++ le 5 0)
  else s

/-- The bits whose deadline is still running (Table 3.7). -/
def State.csPending (s : State) : Nat :=
  if s.powered then
    maskOf ((List.range 52).filter fun b => !bitAt s.xanca.ready b && !bitAt s.xanca.failed b &&
      (match s.csDeadline b with | some d => s.sinceBoot < d | none => 3 < b && b != 63))
  else 0

/-! ## Error records (R415-R420) -/

/-- The unit whose screen test an error of this TYPE runs (Table 17.4), or none: no test. A core is named by its CORE unit. -/
def testTarget (type u : Nat) : Option Nat :=
  if type = 0x0010 || type = 0x0011 || type = 0x0012 || type = 0x0013 then
    (if 1 ≤ u && u ≤ 624 then some (uCore (unitInstance u)) else none)
  else if type = 0x0001 || type = 0x0002 then none
  else if type = 0x0042 || type = 0x0071 then none
  else some u

/-- Whether two errors meet in one test: a core is tested whole; elsewhere the sub-unit is. -/
def sameTest (t : Screen) (target sub type : Nat) : Bool :=
  t.unit == target && ((1 ≤ target && target ≤ 156) || (t.sub == sub && t.type == type))

/-- Passes of a sub-unit within the repeat window (R420). -/
def State.recentPasses (s : State) (u sub : Nat) : Nat :=
  let w := s.fld uDiag 0x050 23 8 * 3600 * 1000 * msec
  (s.diag.passes.filter fun p => p.1 == u && p.2.1 == sub && s.now ≤ p.2.2 + w).length

/-- The 64 bytes of an error record (Table 17.2). -/
def ErrEntry.bytes (e : ErrEntry) : List Byte :=
  le 2 e.type ++ le 1 e.cls ++ le 1 e.outcome ++ le 2 e.unit ++ le 2 e.job ++ le 4 e.index ++ le 4 e.sub ++
    le 8 e.addr ++ le 4 e.syndrome ++ le 2 e.flags ++ le 2 e.count ++ e.detectTc.bytes ++ e.logTc.bytes

/-- What a detecting unit reports. -/
structure ErrorReport where
  type : Nat
  cls : Nat
  unit : Nat
  job : Nat := 0xFFFF
  sub : Nat := 0
  addr : Nat := 0
  syndrome : Nat := 0
  flags : Nat := 0
  deriving DecidableEq, Repr, Inhabited

/-- Counters of DIAG_COUNTS (R416: each error counts, merged or not). -/
def Diag.counted (d : Diag) (cls : Nat) : Diag :=
  { d with corrected := satAdd 32 d.corrected (b2n (cls == 0))
           uncorrected := satAdd 16 d.uncorrected (b2n (cls == 1))
           faults := satAdd 16 d.faults (b2n (cls == 2)) }

/-- The index of the entry that a corrected error merges into (R416): the newest of its sub-unit whose test is pending or
whose LOG_TC is at most 10 ms old. -/
def State.mergeIndex (s : State) (r : ErrorReport) : Option Nat :=
  ((s.diag.log.filter fun e => e.2.type == r.type && e.2.unit == r.unit && e.2.sub == r.sub &&
    (e.2.outcome == 1 || s.now ≤ e.2.logTc.ns + 10 * msec)).getLast?).map (·.1)

/-- The OUTCOME of a new entry: no test, joined, permanent by repeat, or pending (Table 17.2, R419, R420). -/
def State.newOutcome (s : State) (r : ErrorReport) : Nat :=
  if r.cls = 3 then 0
  else match testTarget r.type r.unit with
    | none => 0
    | some t =>
      if s.diag.screens.any (fun x => sameTest x t r.sub r.type) then 7
      else if s.recentPasses r.unit r.sub ≥ s.fld uDiag 0x050 31 24 then 5
      else 1

/-- The screens after a new entry of this index. A core test waits for the core's task boundary. -/
def State.newScreens (s : State) (r : ErrorReport) (index outcome : Nat) : List Screen :=
  match testTarget r.type r.unit with
  | none => s.diag.screens
  | some t =>
    if outcome = 7 then
      s.diag.screens.map fun x => if sameTest x t r.sub r.type then { x with entries := x.entries ++ [index] } else x
    else if outcome = 1 || outcome = 5 then
      s.diag.screens ++ [⟨t, r.sub, r.type, s.now, !(1 ≤ t && t ≤ 156), [index], [], false, bitAt r.flags 1,
        outcome == 5⟩]
    else s.diag.screens

/-- A detection is counted, and marked in the unit's state register (Table 3.5). -/
def State.countError (s : State) (r : ErrorReport) : State :=
  let s := s.setFld r.unit 0x008 2 2 1
  { s with diag := s.diag.counted r.cls }

/-- A new entry of the error log with an OUTCOME, and its ERROR_LOGGED record (R415, R417, R418). -/
def State.logEntry (s : State) (r : ErrorReport) (dtc : Stamp) (outcome : Nat) : State :=
  let (ltc, s) := s.stamp uDiag
  let i := s.diag.nextIndex
  let e : ErrEntry := ⟨r.type, r.cls, outcome, r.unit, r.job, i, r.sub, r.addr, r.syndrome, r.flags, 1, dtc, ltc, false⟩
  let gone := s.diag.log.filter fun x => x.1 + 4096 ≤ i
  let lost := (gone.filter fun x => !x.2.returned).length
  let log := TMap.insert (s.diag.log.filter fun x => i < x.1 + 4096) i e
  let limited := (s.diag.lastLogged.find? fun x => x.1 == r.unit).any fun x => s.now < x.2 + 10 * msec
  let quiet := limited || (r.cls == 0 && s.fld uDiag 0x050 1 1 == 0)
  let s := { s with diag := { s.diag with
    log := log, nextIndex := (i + 1) % 2 ^ 32, lost := satAdd 16 s.diag.lost lost, lastTc := s.now,
    lastLogged := if quiet then s.diag.lastLogged else s.diag.lastLogged.insert r.unit s.now } }
  if quiet then s
  else s.recordAll 0xF001
    (if r.cls = 0 then stOk else if r.cls = 1 then stPoisoned else if r.cls = 2 then stFaultHw
     else if r.type = 0x0002 then stNotReady else stBadParam) e.bytes

/-- An error is detected: one error record, its ERROR_LOGGED record, and its screen test (R415-R420). -/
def State.logError (s : State) (r : ErrorReport) : State :=
  let (dtc, s) := s.stamp r.unit
  let s := s.countError r
  match (if r.cls = 0 then s.mergeIndex r else none) with
  | some i =>
    let e := s.diag.log.get default i
    { s with diag := { s.diag with log := s.diag.log.insert i { e with count := satAdd 16 e.count 1 } } }
  | none =>
    let oc := s.newOutcome r
    let screens := s.newScreens r s.diag.nextIndex oc
    let s := { s with diag := { s.diag with screens := screens } }
    s.logEntry r dtc oc

end Sys2Proof.Machine
end

