-- ==== Sys2Proof/Machine/CallSheet.lean ====
section
/-! DEFINITION. The call sheet (R62-R66, R72): which bits are counted, the aggregates, bit 63, and what a transition reports. -/

namespace Sys2Proof.Machine

/-- The bits that Table 3.4 defines. -/
def csDefined (b : Nat) : Bool := b ≤ 51 || b == 63

/-- The members of an aggregate bit (R64), with the unit of each. -/
def aggregateMembers (b : Nat) : List (Nat × Nat) :=
  if b = 12 then (List.range 4).map fun k => (16 + k, uHbm k)
  else if b = 32 then (List.range 12).map fun c => (20 + c, uFar c)
  else []

/-- The units that carry a bit as CS_BIT (Table 3.3). -/
def csUnits (b : Nat) : List Nat := (List.range 704).filter fun u => csBitOf u == some b

/-- The expected peer of a port under the active map; 0xFFFF where the port carries no traffic or no map is active (R332). -/
def State.expectPeer (s : State) (p : Nat) : Nat :=
  match s.fabric.activeMap with
  | none => 0xFFFF
  | some m => ((s.fabric.maps.get ⟨[], []⟩ m).peers.getD p (0xFFFF, 0xFF)).1

/-- The expected port of a port's peer. -/
def State.expectPort (s : State) (p : Nat) : Nat :=
  match s.fabric.activeMap with
  | none => 0xFF
  | some m => ((s.fabric.maps.get ⟨[], []⟩ m).peers.getD p (0xFFFF, 0xFF)).2

/-- Whether some unit that carries the bit is neither RETIRED nor OFFLINE. -/
def State.csUsable (s : State) (b : Nat) : Bool :=
  (csUnits b).any fun u => (s.xentry u).state == 1 || (s.xentry u).state == 2

/-- Whether a bit is counted for bit 63 (R62). -/
def State.csCounted (s : State) (b : Nat) : Bool :=
  if 36 ≤ b && b ≤ 51 then
    s.csUsable b && s.expectPeer (b - 36) != 0xFFFF && s.fld (uLink (b - 36)) 0x040 0 0 == 1
  else if b = 12 || b = 32 then (aggregateMembers b).any fun m => s.csUsable m.1
  else if (csUnits b).isEmpty then b ≤ 51
  else s.csUsable b

/-- Bit 63 for a mask of ready bits (R62). -/
def State.csAll (s : State) (ready : Nat) : Bool :=
  (List.range 52).all fun b => !s.csCounted b || bitAt ready b

/-- An aggregate for a mask of ready bits (R64). -/
def State.csAggregate (s : State) (ready b : Nat) : Bool :=
  let act := (aggregateMembers b).filter fun m => s.active m.2
  !act.isEmpty && act.all fun m => bitAt ready m.1

/-- The waiting `callsheet_read` commands whose every bit is ready complete with ST_OK (R72). -/
def State.csWake (s : State) : State :=
  let done := s.xanca.waits.filter fun w => s.xanca.ready &&& w.mask == w.mask
  let s := { s with xanca := { s.xanca with waits := s.xanca.waits.filter fun w => s.xanca.ready &&& w.mask != w.mask } }
  done.foldl (fun s w => s.deferredDone w.cmd.hdr stOk 0) s

/-- The ready and failed masks take new values; bit 63 follows; each transition is stamped and reported in ascending bit
order (R62, R66); waits are served (R72). -/
def State.csApply (s : State) (ready failed : Nat) : State :=
  let ready := putBit ready 63 (s.csAll ready)
  let changed := (List.range 64).filter fun b =>
    bitAt ready b != bitAt s.xanca.ready b || bitAt failed b != bitAt s.xanca.failed b
  let newFailure (b : Nat) : Bool := bitAt failed b && !bitAt s.xanca.failed b
  let fails := changed.filter newFailure
  let s := { s with xanca := { s.xanca with ready := ready, failed := failed } }
  (changed.foldl (fun s b => s.csReport b (fails.contains b)) s).csWake

/-- Bits become ready: each loses its failed bit (R63), and the aggregates follow (R64). -/
def State.csSetBits (s : State) (bs : List Nat) : State :=
  let r := bs.foldl (fun r b => putBit r b true) s.xanca.ready
  let f := bs.foldl (fun f b => putBit f b false) s.xanca.failed
  let touch (m : Nat) : Bool := (aggregateMembers m).any fun x => bs.contains x.1
  let up (r m : Nat) : Nat := if touch m then putBit r m (bitAt r m || s.csAggregate r m) else r
  let r := up (up r 12) 32
  let f := [12, 32].foldl (fun f m => if bitAt r m then putBit f m false else f) f
  s.csApply r f

/-- Bits are cleared, and nothing else. -/
def State.csClearBits (s : State) (bs : List Nat) : State :=
  s.csApply (bs.foldl (fun r b => putBit r b false) s.xanca.ready) s.xanca.failed

/-- A function stops being usable: its bit, and its aggregate (R65). -/
def State.csDrop (s : State) (b : Nat) : State :=
  let agg := [12, 32].filter fun m => (aggregateMembers m).any fun x => x.1 == b
  s.csClearBits (b :: agg)

/-- The aggregates are decided again by R64 after a member's STATE has changed (R65). -/
def State.csRecompute (s : State) : State :=
  let r := [12, 32].foldl (fun r m => putBit r m (s.csAggregate r m)) s.xanca.ready
  s.csApply r s.xanca.failed

end Sys2Proof.Machine
end

