-- ==== Sys2Proof/Machine/Power.lean ====
section
/-! DEFINITION. The Watermaster, the Gaffer, the pins and the sideband targets (spec/18, spec/21), as far as they do not
reach into other units: taking the device up and down is in Bringup.lean. -/

namespace Sys2Proof.Machine

/-- What a command answers. -/
abbrev Result := Host.Outcome State Fault Refusal

/-- The effect of a command on a device that is powered and has not been stopped (R499); without power nothing happens. -/
def State.live (s : State) (f : State → State) : Result := if s.powered then .next (f s) else .next s

/-- The effect `f` where its condition holds; otherwise the event does not occur and nothing changes. -/
def State.onlyIf (s : State) (b : Bool) (f : State → State) : State := if b then f s else s

/-! ## The host port's link (R477) -/

/-- Whether the host port's link is up: frames arrive only then. -/
def State.hostUp (s : State) : Bool := s.fld uHostport 0x010 63 60 == 2

/-- A frame that carries `n` bytes arrives; how many bytes its framing counts is a free value. -/
def State.rxBytes (s : State) (n : Nat) : State :=
  let (v, s) := s.draw
  s.bump uHostport 0x038 63 0 (n + v)

/-! ## Device states -/

/-- DSTATE as WMASTER_STATUS numbers it. -/
def DState.code : DState → Nat
  | .run => 0
  | .doze => 1
  | .sleep => 2
  | .standby => 3

/-- POWER_STATE (Table 18.7). -/
def State.powerStateRecord (s : State) (old new : DState) (cause moveNs : Nat) : State :=
  s.recordAll 0x9001 stOk
    (le 1 old.code ++ le 1 new.code ++ le 1 cause ++ le 1 0 ++ le 4 moveNs ++ le 8 s.now)

/-- The device leaves DOZE (R443): ARITH, MESH, HBM and FAR restart together. The wake takes at most 20 µs; its length is a
free value. Causes: 1 command; 2 packet; 3 timer; 4 scrub. -/
def State.dozeExit (s : State) (cause : Nat) : State :=
  if s.power.dstate = .doze then
    let (v, s) := s.draw
    let w := v % 20001
    let s := { s with power := { s.power with
      dstate := .run, wakes := satAdd 16 s.power.wakes 1, wakeCause := cause, wakeNs := w, stateTc := s.now,
      pll := s.power.pll ||| 0xF, lastActive := s.now } }
    s.powerStateRecord .doze .run cause w
  else s

/-! ## The register views of the two blocks (Tables 18.4, 18.5) -/

/-- The sum over the window [from, upto) of the estimates held, in W·ns. -/
def wattNs (upto since : Nat) : List (Nat × Nat) → Nat
  | [] => 0
  | (t, w) :: rest => w * (upto - max t since) + wattNs (min t upto) since rest

/-- The average over the second that ends at `upto`, W; the time before the first estimate counts as 0 W. -/
def Power.average (p : Power) (upto : Nat) : Nat := wattNs upto (upto - 1000 * msec) p.history / (1000 * msec)

/-- Whether an excursion runs or the clamp is engaged: THROT_OUT_N is asserted (R451). -/
def Power.throtOut (p : Power) : Bool := p.excursionUs > 0 || p.clampK > 0

/-- A register of WMASTER that mirrors its state. -/
def State.wmasterReg (s : State) (off : Nat) : Option Nat :=
  let p := s.power
  if off = 0x010 then
    some (p.dstate.code <<< 60 + b2n p.moving <<< 59 + p.wakes <<< 32 + p.wakeCause <<< 28)
  else if off = 0x018 then some (p.pll <<< 32 + p.pll)
  else if off = 0x020 then some (p.timeouts <<< 32 + p.alive)
  else if off = 0x028 then some p.wakeNs
  else if off = 0x030 then some p.stateTc
  else none

/-- A register of GAFFER that mirrors its state. -/
def State.gafferReg (s : State) (off : Nat) : Option Nat :=
  let p := s.power
  if off = 0x010 then
    some (p.powerW <<< 48 + (p.average s.now) <<< 32 + p.peakSeen <<< 16 + min p.excursionUs 65535)
  else if off = 0x018 then
    some (p.arithMhz <<< 48 + p.vddMv <<< 32 + p.point <<< 24 + p.clampK <<< 16 + p.ctrlMhz)
  else if off = 0x020 then some (p.tdpW <<< 48 + p.peakW <<< 32 + p.peakMs <<< 24)
  else if off = 0x028 then some (p.cmpC <<< 56 + p.iodC <<< 48 + p.hbmC <<< 40 + p.optC <<< 32)
  else if off = 0x030 then some (p.energyUj / 1000)
  else if off = 0x038 then some (p.clamps <<< 32 + p.throtIns <<< 16 + p.pointChanges)
  else none

/-- A GAFFER register as telemetry reads it (R453, R458). -/
def State.gafferValue (s : State) (off : Nat) : Nat := (s.gafferReg off).getD (s.reg uGaffer off)

/-! ## The fast clamp (R449) -/

/-- THROT_LEVEL while the throttle input is asserted and enabled. -/
def State.throttleK (s : State) : Nat :=
  if !s.pins.throtInN && s.fld uGaffer 0x040 0 0 == 1 then s.fld uGaffer 0x040 7 4 else 0

/-- The largest k of the active causes, with the cause's number (1 peak, 2 backstop, 3 throttle input, 4 thermal). -/
def State.clampCause (s : State) : Nat × Nat :=
  let l := [(s.power.peakK, 1), (if s.power.backstop then 4 else 0, 2), (s.throttleK, 3), (s.power.thermalK, 4)]
  l.foldl (fun best x => if x.1 > best.1 then x else best) (0, 0)

/-- k follows the causes: the largest of them while any acts; with none it stays until the release steps (R449). A new
engagement is counted, and reported at most once every 10 ms (R459). -/
def State.reclamp (s : State) : State :=
  let (k, cause) := s.clampCause
  if k = 0 then s
  else
    let old := s.power.clampK
    let s := { s with power := { s.power with clampK := k } }
    if old ≠ 0 then s
    else
      let quiet : Bool := match s.power.lastClampRecord with | some t => decide (s.now < t + 10 * msec) | none => false
      let s := { s with power := { s.power with
        clamps := satAdd 32 s.power.clamps 1, engagedAt := s.now,
        lastClampRecord := if quiet then s.power.lastClampRecord else some s.now } }
      if quiet then s
      else s.recordAll 0x9002 stOk
        (le 2 s.power.powerW ++ le 1 cause ++ le 1 k ++ le 4 0 ++ le 2 s.power.point ++ le 6 0 ++ le 8 s.now)

/-- The running excursion has reached PEAK_MS − 0.5 ms (R449). -/
def Power.atBackstop (p : Power) : Bool := p.excursionUs > 0 && p.excursionUs + 500 ≥ p.peakMs * 1000

/-- POWER_ESTIMATE (R449): a 1 µs estimate in W, of which `dynamic` is dynamic compute power. -/
def execPowerEstimate (watts dynamic : Nat) (s : State) : Result := s.live fun s =>
  let p := s.power
  let above := watts > p.tdpW
  let keep := p.history.takeWhile fun x => s.now < x.1 + 1000 * msec
  let rest := (p.history.dropWhile fun x => s.now < x.1 + 1000 * msec).take 1
  let p := { p with
    powerW := watts, dynamicW := dynamic, history := (s.now, watts) :: (keep ++ rest),
    peakSeen := max p.peakSeen watts, energyUj := p.energyUj + watts,
    lastExcursion := if !above && p.excursionUs > 0 then some s.now else p.lastExcursion,
    backstop := above && p.backstop,
    excursionUs := if above then p.excursionUs + 1 else 0,
    peakK := if watts + 30 > p.peakW then min 4 (max p.peakK (min p.clampK 4) + 1) else 0 }
  { s with power := p }.reclamp

/-- EXCURSION_BACKSTOP (R449). -/
def execExcursionBackstop (s : State) : Result := s.live fun s =>
  s.onlyIf s.power.atBackstop fun s => { s with power := { s.power with backstop := true } }.reclamp

/-- CLAMP_RELEASE_STEP (R449): with no cause active k falls by 1. -/
def execClampReleaseStep (s : State) : Result := s.live fun s =>
  s.onlyIf (s.clampCause.1 == 0 && s.power.clampK != 0) fun s =>
    { s with power := { s.power with clampK := s.power.clampK - 1 } }

/-- THROT_IN_ASSERT (R449, R451, R495). -/
def execThrotInAssert (s : State) : Result := s.live fun s =>
  s.onlyIf s.pins.throtInN fun s =>
    { s with pins := { s.pins with throtInN := false }
             power := { s.power with throtIns := satAdd 16 s.power.throtIns 1 } }.reclamp

/-- THROT_IN_DEASSERT (R449). -/
def execThrotInDeassert (s : State) : Result := s.live fun s =>
  { s with pins := { s.pins with throtInN := true } }.reclamp

/-! ## Operating points (R447, R448, R450) -/

/-- (MHz, mV, dynamic compute power in thousandths of P0's) of each point (Table 18.3). -/
def opPoint (p : Nat) : Nat × Nat × Nat :=
  [(1100, 750, 1000), (990, 710, 807), (880, 670, 638), (770, 635, 502), (550, 570, 289)].getD p (550, 570, 289)

/-- A setpoint frame (R496). -/
def setpFrame (mv : Nat) : Nat := mv <<< 8 + 10

/-- The VDD_CMP setpoint moves: a frame goes to the regulator. -/
def State.setVoltage (s : State) (mv : Nat) : State :=
  { s with power := { s.power with vddMv := mv }, pins := { s.pins with setpFrame := setpFrame mv } }.emit
    (.setpoint (setpFrame mv))

/-- The frequency changes at one edge of the divider (R448), the mesh clock with it (R440). -/
def State.setFrequency (s : State) (p : Nat) : State :=
  { s with power := { s.power with
    point := p, arithMhz := (opPoint p).1, pointChanges := satAdd 16 s.power.pointChanges 1 } }

/-- One point down: the frequency first, then the voltage (R448). -/
def State.lowerPoint (s : State) : State :=
  if s.power.point ≥ 4 then s
  else
    let p := s.power.point + 1
    { (s.setFrequency p).setVoltage (opPoint p).2.1 with power :=
      { ((s.setFrequency p).setVoltage (opPoint p).2.1).power with pendingPoint := none } }

/-- One point up: the voltage first; the frequency follows at SETPOINT_REACHED (R448). -/
def State.raisePoint (s : State) : State :=
  let p := s.power.point - 1
  let s := s.setVoltage (opPoint p).2.1
  { s with power := { s.power with pendingPoint := some p } }

/-- The estimate scaled to another point: dynamic power by Table 18.3 (R450). -/
def Power.predict (p : Power) (q : Nat) : Nat :=
  p.powerW - p.dynamicW + p.dynamicW * (opPoint q).2.2 / (opPoint p.point).2.2

/-- The average over the last 1 s with the current estimate held for the next 100 µs (R450). -/
def State.projected (s : State) : Nat := s.power.average (s.now + 100 * usec)

/-- GAFFER_TICK (R450). A point change on its way finishes before the next one begins. -/
def execGafferTick (s : State) : Result := s.live fun s =>
  let p := s.power
  let thermal := s.fld uGaffer 0x040 63 56
  let longAgo := p.excursionUs == 0 &&
    (match p.lastExcursion with | some t => decide (t + 100 * msec ≤ s.now) | none => true)
  if p.excursionUs + 2000 ≥ p.peakMs * 1000 || s.projected > p.tdpW then s.lowerPoint
  else if p.cmpC ≥ thermal then s.lowerPoint
  else if p.point > 0 && p.pendingPoint == none && longAgo && p.cmpC + 5 < thermal &&
      p.predict (p.point - 1) + 20 ≤ p.tdpW then s.raisePoint
  else s

/-- SETPOINT_REACHED (R448, R496): VSENSE_0 reads the new setpoint. -/
def execSetpointReached (s : State) : Result := s.live fun s =>
  match s.power.pendingPoint with
  | some p => { s.setFrequency p with power := { (s.setFrequency p).power with pendingPoint := none } }
  | none => s

/-- SETP_ALERT (R496): the regulator's alert; while it is low no frequency is raised, because VSENSE_0 decides (R448). -/
def execSetpAlert (low : Bool) (s : State) : Result := s.live fun s =>
  { s with pins := { s.pins with setpAlertN := !low } }

/-! ## Telemetry (R453, R458, R502) -/

/-- RAIL_SAMPLE (R453, R497): voltage in mV and current in mA of rails 0 to 5; rails 6 and 7 read zero. -/
def execRailSample (mv ma : List Nat) (s : State) : Result := s.live fun s =>
  (List.range 6).foldl (fun s r =>
    s.setReg uGaffer (0x100 + 8 * r) ((mv.getD r 0 % 65536) <<< 48 + (ma.getD r 0 % 2 ^ 24) <<< 24)) s

/-- The thermal clamp's k after a reading (R449). -/
def thermalLevel (old cmp : Nat) : Nat :=
  if cmp ≥ 115 then 8 else if old = 8 && cmp ≥ 105 then 8 else if cmp ≥ 110 then 4 else 0

/-- HBM_CTL_THERMAL of a stack after a reading: its temperature, and its refresh rate (Table 11.10). -/
def State.setHbmTemp (s : State) (k t : Nat) : State :=
  (s.setFld (uHbm k) 0x030 15 8 t).setFld (uHbm k) 0x030 7 0 (if t > 85 then 2 else 1)

/-- TEMP_SAMPLE (R453): the hottest compute-die sensor, the IO die, the four stacks and the four optical engines, °C. -/
def execTempSample (cmp iod : Nat) (hbm opt : List Nat) (s : State) : Result := s.live fun s =>
  let top (l : List Nat) : Nat := (l.take 4).foldl max 0
  let s := (List.range 4).foldl (fun s k => s.setHbmTemp k (hbm.getD k 0)) s
  let s := (List.range 4).foldl (fun s e => s.setFld (uOptic e) 0x010 63 56 (opt.getD e 0)) s
  { s with power := { s.power with
    cmpC := cmp % 256, iodC := iod % 256, hbmC := top hbm % 256, optC := top opt % 256,
    thermalK := thermalLevel s.power.thermalK cmp } }.reclamp

/-- The 96-byte result of `telemetry_read` (Table 18.6). -/
def State.telemetry (s : State) : List Byte :=
  le 8 s.now ++ le 8 (s.gafferValue 0x010) ++ le 8 (s.gafferValue 0x030) ++ le 8 (s.gafferValue 0x018) ++
    le 8 (s.gafferValue 0x028) ++ ((List.range 6).map fun r => le 8 (s.gafferValue (0x100 + 8 * r))).flatten ++
    le 4 s.power.clamps ++ le 1 s.power.dstate.code ++ le 3 0

/-- The checks of TELEMETRY_READ (R458). -/
def State.telemetryReadChecks (_s : State) (c : Command) : List Check :=
  [badIf (c.ex (c.u8 0) 0 > 1) 0]

/-- TELEMETRY_READ (R458). -/
def execTelemetryRead (c : Command) (s : State) : Result := s.live fun s =>
  s.checked c (s.telemetryReadChecks c) fun s =>
    let t := s.finish c stOk 0 s.telemetry
    if c.ex (c.u8 0) 0 = 1 then { t with power := { t.power with peakSeen := 0 } } else t

/-- The checks of POWER_LIMIT_SET (R457). -/
def State.powerLimitSetChecks (_s : State) (c : Command) : List Check :=
  let tdp := c.u16 0
  let peak := c.u16 2
  let ms := c.u8 4
  [badIf (tdp < 300 || tdp > 1000) 0, badIf (peak < tdp || peak > 1150) 2, badIf (ms < 1 || ms > 10) 4]

/-- POWER_LIMIT_SET (R457). -/
def execPowerLimitSet (c : Command) (s : State) : Result := s.live fun s =>
  let tdp := c.u16 0
  let peak := c.u16 2
  let ms := c.u8 4
  s.checked c (s.powerLimitSetChecks c)
    fun s =>
      let old := le 2 s.power.tdpW ++ le 2 s.power.peakW ++ le 1 s.power.peakMs ++ le 3 0
      let s := { s with power := { s.power with tdpW := tdp, peakW := peak, peakMs := ms } }
      let s := { s with power := { s.power with
        backstop := s.power.backstop || (s.power.excursionUs > 0 && s.power.excursionUs + 500 > ms * 1000) } }
      s.reclamp.finish c stOk 0 old

/-- I3C_INDEX_WRITE (R502): one byte sets the index; a longer write is refused. -/
def execI3cIndexWrite (data : List Byte) (s : State) : Result := s.live fun s =>
  match data with
  | [b] => { s with pins := { s.pins with i3cIndex := b.toNat } }
  | [] => s
  | _ => s.emit .i3cNack

/-- The 8 bytes at a telemetry index (R502). -/
def State.i3cValue (s : State) (i : Nat) : Nat :=
  if i = 0 then (s.wmasterReg 0x010).getD 0
  else if i ≤ 7 then s.gafferValue (0x010 + 8 * (i - 1))
  else if i ≤ 13 then s.gafferValue (0x100 + 8 * (i - 8))
  else 0

/-- I3C_READ (R502, R453). -/
def execI3cRead (s : State) : Result := s.live fun s =>
  let i := s.pins.i3cIndex
  { s with pins := { s.pins with i3cIndex := (i + 1) % 256 } }.emit (.i3c (le 8 (s.i3cValue i)))

/-- DYNAMIC_ADDRESS_ASSIGNMENT (R502). -/
def execDynamicAddressAssignment (addr : Nat) (s : State) : Result := s.live fun s =>
  { s with pins := { s.pins with i3cAddress := addr % 128 } }

/-- PPS_IN_EDGE (R501): the edge is stamped; the timecode is not disciplined by it. -/
def execPpsInEdge (s : State) : Result := s.live fun s => { s with pins := { s.pins with ppsStamp := s.now } }

/-- The instruction that acts: while TEST_MODE is low, every one but BYPASS, IDCODE and SAMPLE/PRELOAD acts as BYPASS; a code
of no supported instruction acts as BYPASS too (R503). -/
def tapEffective (testMode : Bool) (i : TapInstruction) : TapInstruction :=
  match i with
  | .bypass => .bypass
  | .idcode => .idcode
  | .samplePreload => .samplePreload
  | .extest => if testMode then .extest else .bypass
  | .other _ => .bypass

/-- TAP_INSTRUCTION (R503): the instruction register, and what the port then shifts out: the identity code, or the pins
(SAMPLE/PRELOAD and EXTEST: PWR_GOOD, THROT_IN_N, THROT_OUT_N, FAULT_N, SETP_ALERT_N in bits 0 to 4), or the bypass bit 0. -/
def execTapInstruction (i : TapInstruction) (s : State) : Result :=
  let pins := b2n s.pins.pwrGood + 2 * b2n s.pins.throtInN + 4 * b2n (!s.power.throtOut) + 8 * b2n s.pins.faultN +
    16 * b2n s.pins.setpAlertN
  let (code, v) := match tapEffective s.pins.testMode i with
    | .idcode => (1, 0x1074C0B3)
    | .samplePreload => (2, pins)
    | .extest => (3, pins)
    | _ => (0, 0)
  .next ({ s with pins := { s.pins with tapInstruction := code } }.emit (.tap code v))

end Sys2Proof.Machine
end

