-- ==== Sys2Proof/Machine/Jobs.lean ====
section
/-! DEFINITION. Jobs and allotments as other units ask about them (spec/15): slots, tags, live jobs, cores of an allotment,
and which commands are held. -/

namespace Sys2Proof.Machine

def State.setJob (s : State) (slot : Nat) (j : Job) : State :=
  { s with sched := { s.sched with jobs := s.sched.jobs.insert slot j } }

/-- Whether a tag names an existing job that is not DESTROYING (R378). -/
def State.jobLive (s : State) (tag : Nat) : Bool :=
  match s.slotOf tag with
  | some j => (s.job j).phase != .destroying
  | none => false

/-- The slot of the job of a command's queue; the tag of a validated command names one. -/
def State.cmdSlot (s : State) (h : CmdHdr) : Nat := (s.slotOf h.jobTag).getD 0

/-- The allotment of a slot. In Interleave mode allotment 0 is all 144 logical cores (R358, R16). -/
def State.allot (s : State) (a : Nat) : Allotment :=
  if s.sched.allotmentMode then s.sched.allotments.get {} a
  else { s.sched.allotments.get {} 0 with valid := true, cores := List.range 144, turnUs := 0 }

/-- Whether `queue_bind` or `job_create` may name an allotment: 0 in Interleave mode, a defined one otherwise (Table 2.3). -/
def State.allotmentOk (s : State) (a : Nat) : Bool :=
  if s.sched.allotmentMode then a < 16 && (s.allot a).valid else a == 0

/-- The logical cores of a job's allotment that the device presents (R16, R423). -/
def State.jobCores (s : State) (slot : Nat) : List Nat :=
  (s.allot (s.job slot).allotment).cores.filter fun c => !(s.diag.absent.any fun x => x.1 == c)

/-- The unit that ST_RETIRED names for an absent logical core (R423). -/
def State.absentUnit (s : State) (c : Nat) : Option Nat :=
  (s.diag.absent.find? fun x => x.1 == c).map (·.2)

/-- The queues bound to a job. -/
def State.jobQueues (s : State) (tag : Nat) : List Nat :=
  (s.umauth.queues.filter fun kq => kq.1 < 4096 && kq.2.phase != .unbound && kq.2.jobTag == tag).map (·.1)

/-- A migration of the job closes its turnouts (R371): Flume starts no descriptor into a window and streams issue no fetch. -/
def State.closing (s : State) (slot : Nat) : Bool := (s.job slot).migration.any (·.closing)

/-- Turnouts that a migration closes, where the limit has just closed one. -/
def State.noteLimit (s : State) (slot key : Nat) : State :=
  let j := s.job slot
  match j.migration with
  | some m => s.setJob slot { j with migration := some { m with limited := m.limited ++ (if m.turnouts.contains key then [key] else []) } }
  | none => s

/-! ## Kernels that are being unloaded (R113) -/

/-- Whether a command is still on its queue. -/
def State.waits (s : State) (h : CmdHdr) : Bool :=
  (s.queue h.qkey).admitted.any (fun c => decide (c.hdr = h)) || (s.queue h.qkey).running.any (fun c => decide (c.hdr = h))

/-- Kernels whose last run has completed are removed, and DEFERRED_DONE follows (R113). -/
def State.tryUnloads (s : State) : State :=
  (s.cores.kernels.filter fun e => e.2.unloading.isSome && !(e.2.namedBy.any s.waits)).foldl (fun s e =>
    let s := { s with cores := { s.cores with kernels := s.cores.kernels.erase e.1 } }
    match e.2.unloading with
    | some c => s.deferredDone c.hdr stOk 0
    | none => s) s

/-- Every undispatched command of a queue is answered ST_CANCELLED and goes (R35). -/
def State.flushQueue (s : State) (k : Nat) : State :=
  let cs := (s.queue k).admitted
  let s := cs.foldl (fun s c => s.post c.hdr (s.replyMsg c.hdr stCancelled 0 [])) s
  (s.setQueue k { s.queue k with admitted := [], freeSince := none }).tryUnloads

/-! ## Fabric state and held commands -/

/-- The fabric state of a slot. -/
def State.fjob (s : State) (slot : Nat) : FabricJob := s.fabric.jobs.get {} slot

def State.setFjob (s : State) (slot : Nat) (f : FabricJob) : State :=
  { s with fabric := { s.fabric with jobs := s.fabric.jobs.insert slot f } }

/-- Whether an event of the job holds a command back from dispatch: a pending migration holds every later command of the job
(R372); a pending recut holds a `collective_run`, `gather_run` or fabric-scope `clap_set` that names the next epoch (R338);
an abort holds every command of the job until it is complete (R209); a freeze in progress holds the job's commands (R390). -/
def State.jobHolds (s : State) (c : Command) : Bool :=
  match s.slotOf c.hdr.jobTag with
  | none => false
  | some j =>
    c.hdr.queue != 0 &&
    ((s.job j).migration.isSome || (s.reels.jobs.get {} j).aborting.isSome ||
     (s.resil.jobs.any fun e => e.1 == j && e.2.freeze.isSome) ||
     (match (s.fjob j).recut with
      | some r => (c.hdr.opcode == 0x4004 || c.hdr.opcode == 0x4005) && c.u32 4 == r.epoch
      | none => false))

end Sys2Proof.Machine
end

