-- ==== Sys2Proof/Machine/Opcodes.lean ====
section
/-! DEFINITION. What validation knows of each opcode (Tables 2.10 and 3.6, and the parameter tables of the owning chapters):
where it is accepted, its lengths, its gating bits and its reserved bytes. -/

namespace Sys2Proof.Machine

/-- Where a command is accepted (R52): on Q0 only, on Q0 and on bound queues, or on bound queues only. -/
inductive QueueUse where
  | q0Only | any | bound
  deriving DecidableEq, Repr

/-- An opcode of this edition. An empty length list means that the length depends on the block. -/
structure OpInfo where
  code : Nat
  use : QueueUse
  basic : List Nat
  expert : List Nat
  gates : List Nat
  /-- Reserved byte ranges (offset, size) of the basic block, and those that the expert form adds. -/
  resBasic : List (Nat × Nat)
  resExpert : List (Nat × Nat)
  deriving Repr

/-- Device, queue, memory, kernel and stream opcodes. -/
def opTableLow : List OpInfo := [
  ⟨0x0001, .any, [8], [24], [0], [(4, 4)], [(9, 1), (0x12, 6)]⟩,
  ⟨0x0002, .any, [0], [16], [0], [], [(0xC, 4)]⟩,
  ⟨0x0010, .q0Only, [16], [24], [1, 13], [(0xC, 4)], [(0x11, 1), (0x14, 4)]⟩,
  ⟨0x0011, .q0Only, [8], [8], [1], [(3, 5)], []⟩,
  ⟨0x0012, .q0Only, [8], [8], [1], [(4, 4)], []⟩,
  ⟨0x0013, .q0Only, [8], [8], [1], [(2, 6)], []⟩,
  ⟨0x0014, .q0Only, [8], [8], [1], [(2, 6)], []⟩,
  ⟨0x0040, .any, [0], [0], [0], [], []⟩,
  ⟨0x1001, .bound, [24], [32], [1, 10, 12], [(0x10, 8)], [(0x1A, 6)]⟩,
  ⟨0x1002, .bound, [32], [40], [1, 10, 12], [(3, 5)], [(0x22, 6)]⟩,
  ⟨0x1003, .bound, [8], [8], [1, 10, 12], [(0, 8)], []⟩,
  ⟨0x1010, .bound, [24], [32], [1, 10, 12], [], [(0x1C, 4)]⟩,
  ⟨0x1011, .bound, [24], [24], [1, 10, 12], [], []⟩,
  ⟨0x1020, .q0Only, [16], [24], [1, 10], [(4, 4)], [(0x12, 6)]⟩,
  ⟨0x1021, .q0Only, [8], [16], [1, 10], [(1, 7)], [(9, 7)]⟩,
  ⟨0x1022, .q0Only, [8], [8], [1, 10], [(1, 7)], []⟩,
  ⟨0x1030, .bound, [16], [24], [1, 6, 7], [(0xC, 4)], []⟩,
  ⟨0x1031, .bound, [8], [16], [1, 6, 7], [(4, 4)], [(0xC, 4)]⟩,
  ⟨0x2001, .bound, [16], [24], [1, 6], [(2, 2)], [(0x11, 7)]⟩,
  ⟨0x2002, .bound, [24], [48], [1, 6], [(2, 2), (0x12, 6)], [(0x1B, 5), (0x28, 8)]⟩,
  ⟨0x2003, .bound, [8], [8], [1, 6], [(2, 6)], []⟩,
  ⟨0x2010, .q0Only, [8], [16], [1, 6], [(3, 5)], [(9, 7)]⟩,
  ⟨0x2020, .bound, [48], [64], [1, 6], [(3, 1), (0x2C, 4)], [(0x3A, 6)]⟩,
  ⟨0x3001, .bound, [], [], [1, 6, 7, 8, 9], [], []⟩,
  ⟨0x3002, .bound, [24], [32], [1, 6, 7, 8, 9], [(3, 1), (0x14, 4)], []⟩,
  ⟨0x3003, .bound, [8], [8], [1, 6, 7, 8, 9], [(2, 6)], []⟩,
  ⟨0x3004, .bound, [8], [8], [1, 6, 7, 8, 9], [(4, 4)], []⟩,
  ⟨0x3010, .bound, [8], [16], [1, 6, 7, 8, 9], [(5, 3)], [(0xC, 4)]⟩,
  ⟨0x3020, .bound, [32], [40], [1, 6, 12], [(7, 1)], [(0x22, 2)]⟩]

/-- Fabric, resilience, scheduling, attention, Flume, power, security, intake and diagnosis opcodes. -/
def opTableHigh : List OpInfo := [
  ⟨0x4001, .q0Only, [8], [8], [1], [(3, 5)], []⟩,
  ⟨0x4002, .bound, [16], [16], [1, 35], [(1, 7)], []⟩,
  ⟨0x4003, .bound, [24], [32], [1, 35], [(6, 2)], [(0x1C, 4)]⟩,
  ⟨0x4004, .bound, [48], [56], [1, 35], [(0x2B, 5)], [(0x32, 2)]⟩,
  ⟨0x4005, .bound, [32], [40], [1, 35], [], [(0x22, 2)]⟩,
  ⟨0x4010, .bound, [8], [8], [1], [(1, 7)], []⟩,
  ⟨0x5001, .bound, [288], [304], [1, 33], [(0xC, 4)], [(0x122, 14)]⟩,
  ⟨0x5002, .bound, [8], [8], [1, 33], [(1, 7)], []⟩,
  ⟨0x5003, .bound, [8], [16], [1, 33], [(2, 6)], [(0xC, 4)]⟩,
  ⟨0x5004, .q0Only, [8], [8], [1], [(2, 6)], []⟩,
  ⟨0x5005, .bound, [24], [24], [1, 33], [(0x10, 8)], []⟩,
  ⟨0x5006, .bound, [136], [144], [1, 33], [], [(0x8A, 6)]⟩,
  ⟨0x5007, .bound, [40], [48], [1, 33], [(2, 2), (0xC, 4)], [(0x2C, 4)]⟩,
  ⟨0x5008, .bound, [8], [32], [1, 33], [(4, 4)], [(9, 1), (0xC, 4)]⟩,
  ⟨0x6001, .q0Only, [8], [16], [1, 14], [(6, 2)], [(0xC, 4)]⟩,
  ⟨0x6002, .q0Only, [8], [8], [1, 14], [(5, 3)], []⟩,
  ⟨0x6003, .q0Only, [8], [8], [1, 14], [(1, 7)], []⟩,
  ⟨0x6004, .q0Only, [32], [40], [1, 14], [(2, 2), (0x1A, 6)], [(0x21, 3)]⟩,
  ⟨0x6005, .bound, [104], [112], [1, 14], [(2, 6)], [(0x6C, 4)]⟩,
  ⟨0x7001, .bound, [32], [40], [1, 10, 11, 12], [(0xA, 2)], [(0x24, 4)]⟩,
  ⟨0x7002, .bound, [16], [24], [1, 10, 11, 12], [(6, 2)], [(0x11, 7)]⟩,
  ⟨0x7003, .bound, [24], [24], [1, 10, 11, 12], [(0x14, 4)], []⟩,
  ⟨0x7004, .bound, [16], [16], [1, 10, 11, 12], [(6, 2)], []⟩,
  ⟨0x7005, .bound, [80], [216], [1, 10, 11, 12], [(0x12, 2), (0x3C, 4)], [(0x51, 7)]⟩,
  ⟨0x8001, .bound, [24], [32], [1, 9], [(3, 1)], [(0x1A, 6)]⟩,
  ⟨0x8002, .bound, [8], [8], [1, 9], [(3, 5)], []⟩,
  ⟨0x8003, .bound, [8], [8], [1, 9], [(2, 6)], []⟩,
  ⟨0x9001, .q0Only, [8], [16], [1, 15], [(1, 7)], [(9, 3)]⟩,
  ⟨0x9002, .q0Only, [8], [8], [1, 15], [(5, 3)], []⟩,
  ⟨0x9003, .any, [0], [8], [1, 15], [], [(1, 7)]⟩,
  ⟨0xA001, .q0Only, [], [], [5], [(1, 3), (0xC, 4)], []⟩,
  ⟨0xA002, .q0Only, [], [], [1, 5], [(3, 1)], []⟩,
  ⟨0xA003, .any, [40], [48], [5], [(2, 6)], []⟩,
  ⟨0xB001, .bound, [48], [64], [1, 12, 34], [(6, 2)], [(0x33, 1), (0x3C, 4)]⟩,
  ⟨0xB002, .bound, [8], [], [1, 12, 34], [(1, 7)], []⟩,
  ⟨0xF001, .q0Only, [8], [16], [1], [(3, 5)], [(0xA, 6)]⟩,
  ⟨0xF002, .any, [8], [8], [1], [(6, 2)], []⟩,
  ⟨0xF003, .q0Only, [16], [16], [1], [(3, 1)], []⟩]

/-- The opcodes of Table 2.10. -/
def opInfo (code : Nat) : Option OpInfo := (opTableLow ++ opTableHigh).find? fun o => o.code == code

/-- Whether PARAM_LEN is the length that the owning chapter defines for the level (R37 step 6). -/
def lenOk (o : OpInfo) (c : Command) : Bool :=
  let n := c.params.length
  if o.code = 0xA001 then !c.expert && n == (if c.u8 0 = 1 then 16 + c.u32 8 else 16)
  else if o.code = 0xA002 then
    !c.expert && n == 8 + (if c.u8 0 ≤ 1 then 16 * c.u8 1 else if c.u8 0 = 2 then 32 else 0)
  else if o.code = 0x3001 then
    n == (if c.u8 0 = 1 then 16 else if c.expert then 32 + 32 * c.u8 1 else 16 + 32 * c.u8 1)
  else if c.expert then o.expert.contains n
  else o.basic.contains n

/-- The ports whose bits gate the fabric commands (R348). -/
def State.gatingPorts (s : State) : List Nat :=
  match s.fabric.activeMap with
  | none => []
  | some _ => (List.range 16).filter fun p =>
      s.expectPeer p != 0xFFFF &&
      (match (s.fabric.ports.get {} p).phase with
       | .training | .check | .up | .recutting => true
       | _ => false)

/-- The gating bits of a command (R67, R348, R69). -/
def State.gatesOf (s : State) (o : OpInfo) (c : Command) : List Nat :=
  o.gates ++ (if c.hdr.timed then [3] else []) ++
  (if 0x4002 ≤ o.code && o.code ≤ 0x4005 then (s.gatingPorts).map (36 + ·)
   else if o.code = 0x4010 && c.u8 0 < 16 then [36 + c.u8 0]
   else if (o.code = 0x1020 || o.code = 0x1021) && c.u8 0 < 12 then [20 + c.u8 0]
   else if o.code = 0xA003 && c.u8 0 = 2 then [1]
   else if o.code = 0x0001 && c.expert then [1]
   else if o.code = 0x1002 && c.u8 0 = 1 && c.u64 0x10 ≥ 0x0080_0000_0000 then [32]
   else [])

/-- The lowest-numbered gating bit that is not set (R67). -/
def State.gateMissing (s : State) (o : OpInfo) (c : Command) : Option Nat :=
  (List.range 64).find? fun b => (s.gatesOf o c).contains b && !bitAt s.xanca.ready b

/-- The first non-zero reserved byte of the block (R5). -/
def reservedBad (o : OpInfo) (c : Command) : Option Nat :=
  let e := 0x10 + 32 * c.u8 1
  let ranges :=
    if o.code = 0x3001 then
      if c.u8 0 = 1 then [(8, 8)] else (0xC, 4) :: (if c.expert then [(e + 2, 2), (e + 8, 8)] else [])
    else o.resBasic ++ (if c.expert then o.resExpert else [])
  (List.range c.params.length).find? fun i =>
    ranges.any (fun r => r.1 ≤ i && i < r.1 + r.2) && c.params.getD i 0 != 0

end Sys2Proof.Machine
end

