-- ==== Sys2Proof/Machine/Umauth.lean ====
section
/-! DEFINITION. Umauth: sessions and datagrams, admission and validation, dispatch, and the queue commands (spec/02). -/

namespace Sys2Proof.Machine

/-! ## Datagrams (R26-R31, R46) -/

/-- Whether a datagram is discarded on sight (R26). -/
def Datagram.discarded (d : Datagram) : Bool :=
  d.ipv4 || d.checksumZero || d.length < 24 || d.version != 1 ||
    !([0x01, 0x02, 0x03, 0x04, 0x07, 0x08].contains d.kind)

/-- The body `f` of a datagram row: a datagram of R26 is counted and dropped; one of another kind is another row's; one that
names no open session has no effect. -/
def State.receive (s : State) (d : Datagram) (kind : Nat) (f : State → State) : State :=
  if !s.hostUp then s
  else
  let s := s.rxBytes d.length
  if Datagram.discarded d then s.bump uHostport 0x028 31 16 1
  else if d.kind ≠ kind then s
  else if !(s.session d.session).isOpen then s
  else f s

/-- Datagrams up to `ack` are acknowledged: they are retransmitted no more, and the messages they carried are retained no
more (R30, R47). An ACK outside the unacknowledged range acknowledges nothing. -/
def State.acknowledge (s : State) (n ack : Nat) : State :=
  let x := s.session n
  if !(x.unacked.any fun u => u.tseq == ack) then s
  else
    let gone := (x.unacked.takeWhile fun u => u.tseq != ack) ++ (x.unacked.filter fun u => u.tseq == ack)
    let rest := (x.unacked.dropWhile fun u => u.tseq != ack).drop 1
    let mids := gone.map (·.mid)
    let s := s.setSession n { x with unacked := rest }
    { s with umauth := { s.umauth with queues := s.umauth.queues.map fun kq =>
      (kq.1, { kq.2 with retained := kq.2.retained.filter fun r => !mids.contains r.1 }) } }

/-- What every datagram of a session does: the silence timer, the acknowledgement, the host's WINDOW (R31, R46, R47). -/
def State.heard (s : State) (d : Datagram) : State :=
  let x := s.session d.session
  let s := s.setSession d.session { x with lastRx := s.now, hostWindow := min d.window 65535 }
  let s := s.acknowledge d.session d.ack
  State.pump (s.session d.session).held.length s d.session

/-- The device acknowledges: an ACK, or a NACK whose bit i names the datagram i + 1 steps after ACK (R29). -/
def State.sendAck (s : State) (n : Nat) : State :=
  let x := s.session n
  let far := (x.buffered.map fun b => steps x.ack b.tseq).foldl max 0
  let missing := (List.range 64).filter fun i =>
    i + 1 < far && !(x.buffered.any fun b => steps x.ack b.tseq == i + 1)
  if x.buffered.isEmpty then s.sendDatagram n 0x02 0 [] none
  else s.sendDatagram n 0x03 0 (le 8 (maskOf missing)) none

/-! ## Admission and validation (R36, R37) -/

/-- A reply that belongs to no queue goes out on the session that sent the command. -/
def State.replyDirect (s : State) (c : Command) (status detail : Nat) : State :=
  s.sendOn c.hdr.session 0 (s.replyMsg c.hdr status detail [])

/-- Whether the queue that a command names admits commands of its session (R36). -/
def State.admits (s : State) (h : CmdHdr) : Bool :=
  h.queue ≤ 4095 &&
    (h.queue == 0 || ((s.queue h.queue).phase == .bound && (s.queue h.queue).session == h.session))

/-- Validation, steps 1 to 7 and the reserved bytes of step 8, in order (R37, R5). -/
def State.validate (s : State) (c : Command) : Check :=
  let h := c.hdr
  let n := c.params.length
  if h.format ≠ 1 then some (stBadParam, 0)
  else match opInfo h.opcode with
  | none => some (stBadOpcode, 1)
  | some o =>
    if o.use = .q0Only && h.queue ≠ 0 then some (stBadOpcode, 2)
    else if o.use = .bound && h.queue = 0 then some (stBadOpcode, 3)
    else if h.jobTag ≠ (if h.queue = 0 then 0 else (s.queue h.queue).jobTag) then some (stBadParam, 0x0C)
    else if h.expert && h.queue ≠ 0 && !(s.queue h.queue).expertOk then some (stAuthFail, 1)
    else if (h.force && !h.expert) || bits h.flags 7 5 ≠ 0 then some (stBadParam, 1)
    else if (h.startTc ≠ 0 && !h.timed) || (h.timed && h.startTc > s.now + 10000 * msec) then some (stBadParam, 0x10)
    else if n % 8 ≠ 0 || n > 4064 || !lenOk o c then some (stBadParam, 6)
    else match s.gateMissing o c with
    | some b => some (stNotReady, b)
    | none =>
      match reservedBad o c with
      | some i => some (stBadParam, 0x20 + i)
      | none => none

/-- Whether the conditions of the first admitted command of a queue hold. -/
def State.dispatchable (s : State) (q : Queue) (c : Command) : Bool :=
  q.retained.length < q.retain && (!c.hdr.fence || q.running.isEmpty) && (!c.hdr.timed || c.hdr.startTc ≤ s.now) &&
    !s.jobHolds c

/-- An opcode has been seen since firmware start (R51). -/
def State.noteOpcode (s : State) (op : Nat) : State :=
  if bitAt s.xanca.ready 1 && !s.umauth.seen.contains op then
    { s with umauth := { s.umauth with seen := s.umauth.seen ++ [op] } }
  else s

/-- One command message is delivered to its queue: admitted or refused, then validated (R36, R37). A command that passes
validation wakes the device from DOZE (R443). -/
def State.deliver (s : State) (c : Command) : State :=
  let h := c.hdr
  if !s.admits h then s.replyDirect c stBadParam 4
  else
    let q := s.queue h.qkey
    if h.seq ≠ q.expSeq then (s.bump uQmgr 0x020 31 16 1).post h (s.replyMsg h stSeqGap (q.expSeq % 65536) [])
    else if q.admitted.length + q.running.length ≥ q.depth then
      (s.bump uQmgr 0x020 15 0 1).post h (s.replyMsg h stQueueFull (q.expSeq % 65536) [])
    else
      let s := (s.bump uQmgr 0x020 63 32 1).setQueue h.qkey { q with expSeq := (q.expSeq + 1) % 2 ^ 32 }
      match s.validate c with
      | some (status, detail) => s.post h (s.replyMsg h status detail [])
      | none =>
        let s := s.noteOpcode h.opcode
        let q := s.queue h.qkey
        let free := q.admitted.isEmpty && s.dispatchable q c
        (s.setQueue h.qkey { q with
          admitted := q.admitted ++ [c], freeSince := if free then some s.now else q.freeSince }).dozeExit 1

/-- The messages of a datagram, in the order in which they appear (R31), each with its session. -/
def State.deliverAll (s : State) (n : Nat) (ms : List Command) : State :=
  ms.foldl (fun s c => s.deliver { c with hdr := { c.hdr with session := n, inst := (s.session n).inst } }) s

/-- The buffered datagrams that now follow in order are accepted too (R29). -/
def State.acceptBuffered : Nat → State → Nat → State
  | 0, s, _ => s
  | fuel + 1, s, n =>
    let x := s.session n
    match x.buffered.find? fun b => steps x.ack b.tseq == 1 with
    | none => s
    | some b =>
      let s := s.setSession n { x with
        ack := b.tseq, rxBusy := x.rxBusy + 1, buffered := x.buffered.filter fun y => y.tseq != b.tseq }
      State.acceptBuffered fuel (s.deliverAll n b.messages) n

/-- DATA (R29). -/
def execData (d : Datagram) (ms : List Command) (s : State) : Result := s.live fun s =>
  s.receive d 0x01 fun s =>
    let s := s.heard d
    let n := d.session
    let x := s.session n
    let dist := steps x.ack d.tseq
    let s :=
      if dist = 1 then
        let s := s.setSession n { x with ack := d.tseq, rxBusy := x.rxBusy + 1 }
        State.acceptBuffered x.buffered.length (s.deliverAll n ms) n
      else if 2 ≤ dist && dist ≤ 512 && !(x.buffered.any fun b => b.tseq == d.tseq) then
        s.setSession n { x with buffered := x.buffered ++ [⟨d.tseq, ms⟩] }
      else s
    s.sendAck n

/-- ACK (R47). -/
def execAck (d : Datagram) (s : State) : Result := s.live fun s => s.receive d 0x02 fun s => s.heard d

/-- NACK (R30): each datagram named is sent again at once, outside the timed series. -/
def execNack (d : Datagram) (bitmap : Nat) (s : State) : Result := s.live fun s =>
  s.receive d 0x03 fun s =>
    let s := s.heard d
    let x := s.session d.session
    let named := x.unacked.filter fun u =>
      let k := steps d.ack u.tseq
      1 ≤ k && k ≤ 64 && bitAt bitmap (k - 1)
    named.foldl (fun s u => s.sendDatagram d.session 0x01 u.tseq [] (some u.msg)) s

/-- KEEPALIVE (R31). -/
def execKeepalive (d : Datagram) (s : State) : Result := s.live fun s => s.receive d 0x08 fun s => s.heard d

/-- A session ends (R31, R49): its Q0 goes with its undispatched commands; dispatched Q0 commands run on as orphans; its queues are
left without a session (number 0), so that a later session of the same number does not own them; its open image load is discarded
(R473); SESSION_LOST goes to the other sessions. -/
def State.endSession (s : State) (n : Nat) (report : Bool) : State :=
  let x := s.session n
  let q0 := s.queue (q0Key n)
  let left := (s.umauth.queues.filter fun kq =>
    kq.1 < 4096 && kq.2.phase != .unbound && kq.2.session == n).length
  let s := { s with umauth := { s.umauth with
    orphans := s.umauth.orphans ++ q0.running
    queues := s.umauth.queues.map fun (kq : Nat × Queue) => (kq.1, if kq.2.session = n then { kq.2 with session := 0 } else kq.2) } }
  let s := s.setSession n { inst := x.inst }
  let s := s.setQueue (q0Key n) {}
  let s := if s.security.loadSession = n && n ≠ 0 then
      { s with security := { s.security with loadSession := 0, image := [], imageLen := 0, phase := .rom } }
    else s
  if report then s.recordAll 0x0003 stOk (le 2 n ++ le 2 left ++ le 4 0) else s

/-- CLOSE (R31). -/
def execClose (d : Datagram) (s : State) : Result := s.live fun s =>
  s.receive d 0x07 fun s => s.endSession d.session true

/-- When the k-th timed retransmission is sent after the original transmission (R30): 100 µs × (2^k − 1). -/
def retransmitAt (k : Nat) : Nat := 100 * usec * (2 ^ k - 1)

/-- TIMED_RETRANSMISSION (R30). -/
def execTimedRetransmission (session tseq : Nat) (s : State) : Result := s.live fun s =>
  let x := s.session session
  match x.unacked.find? fun u => u.tseq == tseq with
  | none => s
  | some u =>
    s.onlyIf (x.isOpen && u.timed < 8 && u.sentAt + retransmitAt (u.timed + 1) ≤ s.now) fun s =>
      (s.setSession session { x with unacked := x.unacked.map fun v =>
        if v.tseq = tseq then { v with timed := v.timed + 1 } else v }).sendDatagram session 0x01 tseq [] (some u.msg)

/-- RETRANSMIT_EXHAUSTED (R30): 38.3 ms after the original transmission the session is lost. -/
def execRetransmitExhausted (session tseq : Nat) (s : State) : Result := s.live fun s =>
  let x := s.session session
  s.onlyIf (x.isOpen && x.unacked.any fun u =>
      u.tseq == tseq && u.timed == 8 && u.sentAt + retransmitAt 8 + 12800 * usec ≤ s.now) fun s =>
    s.endSession session true

/-- SESSION_SILENCE_TIMEOUT (R31). -/
def execSessionSilenceTimeout (session : Nat) (s : State) : Result := s.live fun s =>
  let x := s.session session
  s.onlyIf (x.isOpen && x.lastRx + 1000 * msec ≤ s.now) fun s => s.endSession session true

/-- WINDOW_REOPEN (R46): receive buffers free; where none was free, an ACK reopens the window. -/
def execWindowReopen (session buffers : Nat) (s : State) : Result := s.live fun s =>
  let x := s.session session
  s.onlyIf (x.isOpen && 0 < buffers && 0 < x.rxBusy) fun s =>
    let shut := x.window == 0
    let s := s.setSession session { x with rxBusy := x.rxBusy - buffers }
    if shut then s.sendDatagram session 0x02 0 [] none else s

/-! ## Dispatch (R40-R42, R47, R68) -/

/-- Whether a command is of a job that is ABORTED and is neither `reel_config` nor of the resilience group (R210). -/
def State.abortedRefuses (s : State) (c : Command) : Bool :=
  c.hdr.queue != 0 && c.hdr.opcode != 0x3020 && c.hdr.opcode / 0x1000 != 5 &&
    (s.slotOf c.hdr.jobTag).any fun j => (s.reels.jobs.get {} j).phase == .aborted

/-- COMMAND_DISPATCH (R40, R68): the first admitted command of a queue is dispatched; if a gating bit has cleared since
validation it completes with ST_NOT_READY instead; of an ABORTED
job, with ST_CANCELLED (R210). `q` is a queue number, or 4,096 + session for a Q0. -/
def execCommandDispatch (q : Nat) (s : State) : Result := s.live fun s =>
  let x := s.queue q
  match x.admitted with
  | [] => s
  | c :: rest =>
    if !s.dispatchable x c then s
    else
      let s := s.setQueue q { x with
        admitted := rest, running := x.running ++ [c], lastDispatch := s.now, freeSince := none }
      let waited := min (x.freeSince.elim 0 fun t => s.now - t) (2 ^ 32 - 1)
      let s := if s.fld uQmgr 0x028 63 32 < waited then s.setFld uQmgr 0x028 63 32 waited else s
      if s.abortedRefuses c then s.finish c stCancelled 0 []
      else match (opInfo c.hdr.opcode).bind fun o => s.gateMissing o c with
      | some b => s.finish c stNotReady b []
      | none => s

/-! ## Queue commands (R32-R35, R50, R513) -/

/-- Pool entries that no bound queue has reserved (R32). -/
def State.poolFree (s : State) : Nat :=
  32768 - ((s.umauth.queues.filter fun kq => kq.1 < 4096 && kq.2.phase != .unbound).map fun kq => kq.2.depth).sum

/-- The queues bound headgate (R33). -/
def State.headgateQueues (s : State) : Nat :=
  (s.umauth.queues.filter fun kq => kq.1 < 4096 && kq.2.phase != .unbound && kq.2.headgate).length

/-- Whether an allotment is that of the live job with a tag, if there is one (R358). -/
def State.allotmentIsJobs (s : State) (tag a : Nat) : Bool :=
  match s.slotOf tag with
  | some j => (s.job j).allotment == a
  | none => true

/-- QUEUE_BIND (R32, R33, Table 2.3). -/
def execQueueBind (c : Command) (s : State) : Result := s.live fun s =>
  let id := c.u16 0
  let depth := if c.u16 8 = 0 then 64 else c.u16 8
  let session := if c.u16 0xA = 0 then c.hdr.session else c.u16 0xA
  let allot := c.u8 3
  let retain := c.ex (c.u16 0x12) 64
  s.checked c
    [badIf (id = 0 || id > 4095 || (s.queue id).phase != .unbound) 0,
     badIf (c.u8 2 > 1) 2,
     badIf (!s.allotmentOk allot || !s.allotmentIsJobs (c.u32 4) allot) 3,
     badIf (!s.jobLive (c.u32 4)) 4,
     badIf (depth < 4 || depth > 1024) 8,
     badIf (session > 16 || !(s.session session).isOpen) 0xA,
     badIf (c.ex (c.u8 0x10) 0 > 1) 0x10,
     badIf (retain < 16 || retain > 256) 0x12,
     failIf (depth > s.poolFree) stNoResource 2,
     failIf (c.u8 2 = 1 && s.headgateQueues ≥ 256) stNoResource 3]
    fun s =>
      let s := s.setQueue id { phase := .bound, headgate := c.u8 2 == 1, allotment := allot, jobTag := c.u32 4,
                               depth := depth, session := session, expertOk := c.ex (c.u8 0x10) 0 == 1, retain := retain }
      s.finish c stOk 0 (le 2 id ++ le 2 depth ++ le 4 s.poolFree)

/-- Whether a queue number names a queue that is bound or being unbound (R513). -/
def State.queueNamed (s : State) (id : Nat) : Bool :=
  1 ≤ id && id ≤ 4095 && (s.queue id).phase != .unbound

/-- QUEUE_UNBIND (R34). -/
def execQueueUnbind (c : Command) (s : State) : Result := s.live fun s =>
  let id := c.u16 0
  s.checked c [badIf (!s.queueNamed id || (s.queue id).phase == .draining) 0, badIf (c.u8 2 > 1) 2] fun s =>
    let s := if c.u8 2 = 1 then s.flushQueue id else s
    let q := s.queue id
    if q.admitted.isEmpty && q.running.isEmpty && q.retained.isEmpty then (s.setQueue id {}).finish c stOk 0 []
    else (s.setQueue id { q with phase := .draining, unbindCmd := some c }).defer c 0 []

/-- QUEUE_DRAINED (R34): the drain has ended; the queue is unbound, QUEUE_DRAINED then DEFERRED_DONE are issued. -/
def execQueueDrained (q : Nat) (s : State) : Result := s.live fun s =>
  let x := s.queue q
  s.onlyIf (x.phase == .draining && x.admitted.isEmpty && x.running.isEmpty && x.retained.isEmpty) fun s =>
    let s := s.setQueue q {}
    match x.unbindCmd with
    | none => s
    | some u => (s.recordCmd u.hdr 0x0002 stOk (le 2 q ++ le 6 0)).deferredDone u.hdr stOk 0

/-- QUEUE_ATTACH (R50). -/
def execQueueAttach (c : Command) (s : State) : Result := s.live fun s =>
  let id := c.u16 0
  let n := if c.u16 2 = 0 then c.hdr.session else c.u16 2
  s.checked c [badIf (!s.queueNamed id) 0, badIf (n > 16 || !(s.session n).isOpen) 2] fun s =>
    let q := s.queue id
    let old := q.session
    let s := s.setSession old { s.session old with
      held := (s.session old).held.filter fun h => !(q.retained.any fun r => r.1 == h.1) }
    let s := s.setQueue id { q with session := n }
    let s := q.retained.foldl (fun s r => s.sendOn n r.1 { r.2 with flags := putBit r.2.flags 5 true }) s
    s.finish c stOk 0 (le 4 q.retained.length ++ le 4 0)

/-- The 24-byte result of `queue_status` (Table 2.4, R513). -/
def Queue.status (q : Queue) (isQ0 : Bool) : List Byte :=
  le 4 q.expSeq ++ le 2 (q.admitted.length + q.running.length) ++ le 2 q.running.length ++ le 2 q.retained.length ++
    le 1 (if isQ0 then 0xFF else b2n q.headgate) ++ le 1 (if isQ0 then 0 else q.allotment) ++
    le 4 (if isQ0 then 0 else q.jobTag) ++ le 8 q.lastDispatch

/-- QUEUE_STATUS (R513). -/
def execQueueStatus (c : Command) (s : State) : Result := s.live fun s =>
  let id := c.u16 0
  s.checked c [badIf (id != 0 && !s.queueNamed id) 0] fun s =>
    if id = 0 then s.finish c stOk 0 ((s.queue (q0Key c.hdr.session)).status true)
    else s.finish c stOk 0 ((s.queue id).status false)

/-- QUEUE_FLUSH (R35). -/
def execQueueFlush (c : Command) (s : State) : Result := s.live fun s =>
  let id := c.u16 0
  s.checked c [badIf (!s.queueNamed id) 0] fun s =>
    let n := (s.queue id).admitted.length
    (s.flushQueue id).finish c stOk 0 (le 4 n ++ le 4 0)

/-- NOP (R52). -/
def execNop (c : Command) (s : State) : Result := s.live fun s => s.finish c stOk 0 []

end Sys2Proof.Machine
end

