-- ==== Sys2Proof/Machine/Spad.lean ====
section
/-! DEFINITION. Scratchpad lines and tags, take regions, the refusal test, turnouts and their commands (spec/06). -/

namespace Sys2Proof.Machine

/-! ## Lines and tags -/

abbrev lineKey (p l : Nat) : Nat := p * 24576 + l
abbrev byteKey (p off : Nat) : Nat := p * 2 ^ 22 + off
abbrev turnoutKey (p t : Nat) : Nat := p * 16 + t

/-- `n` bytes of a core's scratchpad from a byte offset. -/
def State.spadBytes (s : State) (p off n : Nat) : List Byte :=
  (List.range n).map fun i => s.spads.bytes.get 0 (byteKey p (off + i))

/-- The 128 bytes of a line. -/
def State.line (s : State) (p l : Nat) : List Byte := s.spadBytes p (128 * l) 128

/-- Tag F of a line (R120). -/
def State.isFull (s : State) (p l : Nat) : Bool := s.spads.full.get false (lineKey p l)

/-- Tag P of a line (R120). -/
def State.isPoisoned (s : State) (p l : Nat) : Bool := s.spads.poison.get false (lineKey p l)

/-- A line's F is cleared. -/
def State.setEmpty (s : State) (p l : Nat) : State :=
  { s with spads := { s.spads with full := s.spads.full.set false (lineKey p l) false } }

/-- Lines are emptied. -/
def State.setEmptyRange (s : State) (p first n : Nat) : State :=
  (List.range n).foldl (fun s i => s.setEmpty p (first + i)) s

/-- Whether a line lies in an enabled take region (R123). -/
def State.inTake (s : State) (p l : Nat) : Bool :=
  (List.range 16).any fun n =>
    let r := s.reg (uSpad p) (0x300 + 8 * n)
    bitAt r 63 && bits r 15 0 ≤ l && l < bits r 15 0 + bits r 31 16

/-- Bytes are stored from a byte offset. -/
def putBytes (m : TMap Byte) (key : Nat) : List Byte → TMap Byte
  | [] => m
  | b :: t => putBytes (m.set 0 key b) (key + 1) t

/-- A line is written by any port: F becomes 1 and P the poison of the data; an overwrite of a full line of a take region is
counted (R121). -/
def State.storeLine (s : State) (p l : Nat) (data : List Byte) (poison : Bool) : State :=
  let s := if s.isFull p l && s.inTake p l then s.bump (uSpad p) 0x020 63 32 1 else s
  { s with spads := { s.spads with
    bytes := putBytes s.spads.bytes (byteKey p (128 * l)) (data.take 128)
    full := s.spads.full.set false (lineKey p l) true
    poison := s.spads.poison.set false (lineKey p l) poison } }

/-! ## Turnouts -/

def State.turnout (s : State) (p t : Nat) : Turnout := s.spads.turnouts.get {} (turnoutKey p t)

def State.setTurnout (s : State) (p t : Nat) (x : Turnout) : State :=
  { s with spads := { s.spads with turnouts := s.spads.turnouts.insert (turnoutKey p t) x } }

/-- Whether a turnout accepts writes. -/
def Turnout.accepting (x : Turnout) : Bool := x.phase == .opened || x.phase == .draining

/-- Whether a turnout's bounds hold a line. -/
def Turnout.holds (x : Turnout) (l : Nat) : Bool := x.base ≤ l && l < x.base + x.lines

/-- The completion condition (R133): every line full, or the gauge at EXPECT. -/
def State.turnoutComplete (s : State) (p : Nat) (x : Turnout) : Bool :=
  if x.byCount then x.expect ≤ x.gauge
  else (List.range x.lines).all fun i => s.isFull p (x.base + i)

/-- STATE of Table 6.7. -/
def Turnout.code (x : Turnout) : Nat :=
  match x.phase with
  | .free => 0 | .opened => 1 | .draining => 2 | .closed => 3

/-- A turnout closes (Table 6.6): TURNOUT_CLOSED goes to the queue of the command `by_` that closed it, else to that of its
`turnout_open` (R143); a pending close-drain ends with DEFERRED_DONE of `status` and `detail` (R142). `how`: 0 drain, 1 now,
2 limit, 3 retired, 4 job destroyed. -/
def State.closeTurnout (s : State) (p t c how : Nat) (by_ : Option CmdHdr) (recStatus status detail : Nat) : State :=
  let x := s.turnout p t
  let body := le 2 c ++ le 1 t ++ le 1 how ++ le 4 0 ++ le 4 x.gauge ++ le 4 x.expect ++ le 4 x.late ++ le 4 0 ++ le 8 s.now
  let s := s.setTurnout p t { x with phase := .closed, closeCmd := none, drainDue := none }
  let s := match by_.orElse (fun _ => x.openCmd) with
    | some h => s.recordCmd h 0x1030 recStatus body
    | none => s
  match x.closeCmd with
  | some d => s.deferredDone d.hdr status detail
  | none => s

/-- Draining turnouts of a core whose condition now holds close (R133). -/
def State.drainCheck (s : State) (p : Nat) : State :=
  (List.range 16).foldl (fun s t =>
    let x := s.turnout p t
    if x.phase == .draining && s.turnoutComplete p x then
      s.closeTurnout p t (s.logicalOf p) 0 (x.closeCmd.map (·.hdr)) stOk stOk 0
    else s) s

/-- Consecutive lines are written by one of the core's own ports or by a transfer. -/
def State.storeLines (s : State) (p first : Nat) (data : List (List Byte × Bool)) : State :=
  ((data.zipIdx.foldl (fun s d => s.storeLine p (first + d.2) d.1.1 d.1.2) s)).drainCheck p

/-- The turnout that a packet's first line matches (R131): an accepting one, else the lowest-numbered CLOSED one. -/
def State.matchTurnout (s : State) (p first : Nat) : Option Nat :=
  let acc := (List.range 16).find? fun t => (s.turnout p t).accepting && (s.turnout p t).holds first
  match acc with
  | some t => some t
  | none => (List.range 16).find? fun t => (s.turnout p t).phase == .closed && (s.turnout p t).holds first

/-- The first failing reason of Table 6.11 for a matched turnout; 0 where the packet is accepted (R131). -/
def refusalReason (x : Turnout) (first n slot placement epoch : Nat) : Nat :=
  if !x.accepting then 1
  else if x.placement ≠ placement then 2
  else if x.epoch ≠ epoch then 3
  else if x.slot ≠ slot then 4
  else if first + n > x.base + x.lines then 6
  else 0

/-- A remote write meets the turnout test at its target (R131-R135): the reason (0 accepted), and the state after it. -/
def State.remoteWrite (s : State) (p first : Nat) (data : List (List Byte × Bool)) (slot placement epoch : Nat) :
    Nat × State :=
  let n := data.length
  match s.matchTurnout p first with
  | none => (5, s.bump (uSpad p) 0x020 31 16 n)
  | some t =>
    let x := s.turnout p t
    let r := refusalReason x first n slot placement epoch
    if r = 0 then
      let s := s.setTurnout p t { x with gauge := satAdd 32 x.gauge n }
      (0, s.storeLines p first data)
    else
      let (st, s) := s.stamp (uSpad p)
      (r, s.setTurnout p t { x with
        late := satAdd 32 x.late n, lastReason := r, sinceNote := x.sinceNote + n,
        firstRefused := x.firstRefused.orElse fun _ => some st })

/-- REMOTE_WRITE_PACKET (R131): the i-th packet on the mesh is presented at its target. A refusal returns to its sender. -/
def execRemoteWritePacket (i : Nat) (s : State) : Result := s.live fun s =>
  match s.spads.mesh[i]? with
  | none => s
  | some k =>
    let s := { s with spads := { s.spads with mesh := s.spads.mesh.eraseIdx i } }
    match s.physOf k.target with
    | none => s
    | some p =>
      let (r, s) := s.remoteWrite p k.first k.lines k.slot k.placement k.epoch
      if r = 0 then s
      else
        let n := k.lines.length
        if s.spads.refusals.any fun x => x.origin == k.origin && x.target == k.target then
          { s with spads := { s.spads with refusals := s.spads.refusals.map fun x =>
            if x.origin == k.origin && x.target == k.target then { x with lines := x.lines + n } else x } }
        else
          let (st, s) := s.stamp (uSpad p)
          { s with spads := { s.spads with refusals := s.spads.refusals ++ [⟨k.origin, k.target, k.first, n, r, st⟩] } }

/-- WRITE_REFUSED (R135, R143): one record for all refused packets of a bundle to a target, once none of them is still on the
mesh. -/
def execWriteRefused (i : Nat) (s : State) : Result := s.live fun s =>
  match s.spads.refusals[i]? with
  | none => s
  | some x =>
    s.onlyIf (!(s.spads.mesh.any fun k => k.origin == x.origin && k.target == x.target)) fun s =>
      let s := { s with spads := { s.spads with refusals := s.spads.refusals.eraseIdx i } }
      let s := match s.physOf x.origin.sender with
        | some q => s.bump (uSpad q) 0x020 15 0 x.lines
        | none => s
      s.recordCmd x.origin.hdr 0x1032 stWindowClosed
        (le 2 x.target ++ le 2 x.first ++ le 2 x.lines ++ le 1 x.reason ++ le 1 0 ++ le 2 x.origin.sender ++
          le 2 x.origin.bundle ++ le 4 x.origin.task ++ x.stamp.bytes)

/-- TURNOUT_LATE (R135): with LATE_NOTIFY, at most one record every 10 µs, of the lines refused since the last one. -/
def execTurnoutLate (p t : Nat) (s : State) : Result := s.live fun s =>
  let x := s.turnout p t
  s.onlyIf (x.lateNotify && 0 < x.sinceNote && (x.lastNote.all fun l => l + 10 * usec ≤ s.now)) fun s =>
    let st := x.firstRefused.getD default
    let body := le 2 (s.logicalOf p) ++ le 1 t ++ le 1 x.lastReason ++ le 4 x.sinceNote ++ st.bytes
    let s := s.setTurnout p t { x with sinceNote := 0, firstRefused := none, lastNote := some s.now }
    match x.openCmd with
    | some h => s.recordCmd h 0x1031 stWindowClosed body
    | none => s

/-- TURNOUT_DRAIN_LIMIT (R133). -/
def execTurnoutDrainLimit (p t : Nat) (s : State) : Result := s.live fun s =>
  let x := s.turnout p t
  s.onlyIf (x.phase == .draining && (x.drainDue.any fun d => d ≤ s.now)) fun s =>
    (s.noteLimit x.slot (turnoutKey p t)).closeTurnout p t (s.logicalOf p) 2 (x.closeCmd.map (·.hdr)) stWindowClosed
      stWindowClosed 1

/-! ## Errors of a stored line (R137-R139) -/

/-- A read or the scrubber finds errors in a line: one bit is corrected (R137); more poison the line (R138). -/
def State.spadFound (s : State) (p l errors job flags : Nat) : State :=
  if errors = 0 then s
  else if errors = 1 then
    (s.bump (uSpad p) 0x028 63 32 1).logError
      { type := 0x20, cls := 0, unit := uSpad p, job := job, sub := l,
        addr := 0xF00000000000 + s.logicalOf p * 2 ^ 22 + 128 * l, flags := flags }
  else
    let s := { s with spads := { s.spads with poison := s.spads.poison.set false (lineKey p l) true } }
    (s.bump (uSpad p) 0x028 31 16 1).logError
      { type := 0x20, cls := 1, unit := uSpad p, job := job, sub := l,
        addr := 0xF00000000000 + s.logicalOf p * 2 ^ 22 + 128 * l, flags := flags }

/-- Reads of lines find what `error_inject` has corrupted in them (R435). -/
def State.spadTouch (s : State) (p job : Nat) (ls : List Nat) : State :=
  let hit (x : Injected) : Bool := x.unit == uSpad p && ls.contains x.sub
  (s.diag.injected.filter hit).foldl (fun s x => s.spadFound p x.sub x.bits job 1)
    { s with diag := { s.diag with injected := s.diag.injected.filter fun x => !hit x } }

/-- REMOTE_READ (R127): the target's REMOTE position delivers lines; it checks and changes no tag. Reading finds what is wrong
with the lines. -/
def execRemoteRead (c first lines : Nat) (s : State) : Result := s.live fun s =>
  match s.physOf c with
  | some p => s.spadTouch p 0xFFFF ((List.range lines).map (first + ·))
  | none => s

/-- SPAD_SCRUB (R139): the scrubber reads a line of an awake core and finds `errors` wrong bits in one of its codewords; a
pass may end with it. -/
def execSpadScrub (p line errors : Nat) (passEnd : Bool) (s : State) : Result := s.live fun s =>
  let c := s.cores.cores.get {} p
  s.onlyIf (p < 156 && line < 24576 && c.phase != .gated && c.phase != .waking && s.fld (uSpad p) 0x380 0 0 == 1) fun s =>
    let s := (s.spadTouch p 0xFFFF [line]).spadFound p line errors 0xFFFF 0
    if passEnd then s.setReg (uSpad p) 0x390 s.now else s

/-! ## Commands (R141, R142) -/

/-- The physical core that holds a logical core of the command's allotment. -/
def State.targetCore (s : State) (c : Command) (l : Nat) : Option Nat :=
  if l < 144 && ((s.allot (s.job (s.cmdSlot c.hdr)).allotment).cores.contains l) then s.physOf l else none

/-- The checks on a logical core that a command names at offset `off` (R141, R423). -/
def State.coreChecks (s : State) (c : Command) (l off : Nat) : List Check :=
  let inAllot := l < 144 && ((s.allot (s.job (s.cmdSlot c.hdr)).allotment).cores.contains l)
  [match s.absentUnit l with
   | some u => if inAllot then some (stRetired, u) else none
   | none => none,
   badIf (!inAllot || (s.physOf l).isNone) off]

/-- TURNOUT_OPEN (R141). -/
def execTurnoutOpen (c : Command) (s : State) : Result := s.live fun s =>
  let l := c.u16 0
  let p := (s.physOf l).getD 0
  let named := c.u8 2
  let pick := (List.range 16).find? fun t => !(s.turnout p t).accepting
  let byCount := c.u8 3
  let expect := c.u32 4
  let base := c.u16 8
  let n := c.u16 0xA
  let slot := s.cmdSlot c.hdr
  let placement := c.ex (c.u16 0x10) (s.job slot).placement
  let epoch := c.ex (c.u32 0x14) (s.fjob slot).epoch
  let overlap := (List.range 16).any fun t =>
    (s.turnout p t).accepting && (s.turnout p t).base < base + n && base < (s.turnout p t).base + (s.turnout p t).lines
  s.checked c
    (s.coreChecks c l 0 ++
     [badIf (named != 0xFF && (15 < named || (s.turnout p named).accepting)) 2,
      badIf (1 < byCount) 3,
      badIf (if byCount = 1 then expect == 0 else expect != 0) 4,
      badIf (24575 < base) 8,
      badIf (n == 0 || 24576 < base + n) 0xA,
      badIf overlap 8,
      badIf (1 < c.ex (c.u8 0x12) 0) 0x12,
      badIf (1 < c.ex (c.u8 0x13) 0) 0x13,
      failIf (named == 0xFF && pick.isNone) stNoResource 0x30])
    fun s =>
      let t := if named = 0xFF then pick.getD 0 else named
      let s := if c.ex (c.u8 0x13) 0 = 1 then s else s.setEmptyRange p base n
      let s := s.setTurnout p t
        { phase := .opened, byCount := byCount == 1, lateNotify := c.ex (c.u8 0x12) 0 == 1, placement := placement,
          epoch := epoch, slot := slot, base := base, lines := n, expect := expect, openCmd := some c.hdr }
      s.finish c stOk 0 (le 1 t ++ le 1 0 ++ le 2 placement ++ le 4 epoch)

/-- The 16-byte result of `turnout_close` (R142). -/
def Turnout.result (x : Turnout) (t : Nat) : List Byte :=
  le 4 x.gauge ++ le 4 x.late ++ le 4 x.expect ++ le 1 t ++ le 1 x.code ++ le 2 0

/-- TURNOUT_CLOSE (R142). -/
def execTurnoutClose (c : Command) (s : State) : Result := s.live fun s =>
  let l := c.u16 0
  let p := (s.physOf l).getD 0
  let t := c.u8 2
  let x := s.turnout p t
  let now := c.u8 3 == 1
  let dl := c.ex (c.u32 8) 0
  s.checked c
    (s.coreChecks c l 0 ++
     [badIf (15 < t || x.phase == .free || x.slot != s.cmdSlot c.hdr || (!now && x.phase == .draining)) 2,
      badIf (1 < c.u8 3) 3])
    fun s =>
      if x.phase = .closed then s.finish c stOk 0 (x.result t)
      else if now then
        let s := s.closeTurnout p t l 1 (some c.hdr) stOk stCancelled 0
        s.finish c stOk 0 ((s.turnout p t).result t)
      else if s.turnoutComplete p x then
        let s := s.closeTurnout p t l 0 (some c.hdr) stOk stOk 0
        s.finish c stOk 0 ((s.turnout p t).result t)
      else
        let us := if dl = 0 then s.fld (uSpad p) 0x380 63 32 else dl
        let s := s.setTurnout p t { x with
          phase := .draining, closeCmd := some c,
          drainDue := if dl = 0xFFFFFFFF then none else some (s.now + us * usec) }
        s.defer c 0 ((s.turnout p t).result t)

end Sys2Proof.Machine
end

