-- ==== Sys2Proof/Machine/Memory.lean ====
section
/-! DEFINITION. The two memory tiers: where an address lies, reads and writes with poison, far-tier chunks, the page-table walk,
the shard guard, and translation faults (spec/11, R204, R208). -/

namespace Sys2Proof.Machine

/-! ## Physical addresses (R244, R245) -/

abbrev farBase : Nat := 0x010000000000
abbrev spadBase : Nat := 0xF00000000000

/-- The HBM stack of an address. -/
def hbmOf (pa : Nat) : Option Nat := if pa < 0x008000000000 then some (pa / 2 ^ 37) else none

/-- The far-tier channel and chunk of an address. -/
def farOf (pa : Nat) : Option (Nat × Nat) :=
  if farBase ≤ pa && pa < farBase + 12 * 2 ^ 37 then some ((pa - farBase) / 2 ^ 37, (pa - farBase) % 2 ^ 37 / 2 ^ 30) else none

/-- The controller of an address. -/
def controllerOf (pa : Nat) : Option Nat :=
  match hbmOf pa, farOf pa with
  | some k, _ => some (uHbm k)
  | none, some (c, _) => some (uFar c)
  | none, none => none

/-- FAR_CTL_STATUS.STATE of a channel (Table 11.11). -/
def State.farState (s : State) (c : Nat) : Nat := s.fld (uFar c) 0x018 63 60

/-- PHASE and DEST of a chunk (Table 11.11). -/
def State.chunkPhase (s : State) (c k : Nat) : Nat := s.fld (uFar c) (0x100 + 8 * k) 63 61
def State.chunkDest (s : State) (c k : Nat) : Nat := s.fld (uFar c) (0x100 + 8 * k) 47 30 * 2 ^ 30

def State.setChunk (s : State) (c k phase dest : Nat) : State :=
  s.setReg (uFar c) (0x100 + 8 * k) (phase * 2 ^ 61 + dest)

/-- Where a read of an address goes (R260, R261): to the side being copied from. -/
def State.readSide (s : State) (pa : Nat) : Nat :=
  match farOf pa with
  | some (c, k) =>
    if s.chunkPhase c k = 2 || s.chunkPhase c k = 3 then s.chunkDest c k + pa % 2 ^ 30 else pa
  | none => pa

/-- Where a write of an address goes (R260, R261): to both sides while a chunk is being copied. -/
def State.writeSides (s : State) (pa : Nat) : List Nat :=
  match farOf pa with
  | some (c, k) =>
    let d := s.chunkDest c k + pa % 2 ^ 30
    if s.chunkPhase c k = 2 then [d] else if s.chunkPhase c k = 1 || s.chunkPhase c k = 3 then [pa, d] else [pa]
  | none => [pa]

/-- Whether the memory at an address is gone: a RETIRED stack, a FAILED channel (R251). -/
def State.dead (s : State) (pa : Nat) : Bool :=
  match hbmOf pa, farOf pa with
  | some k, _ => (s.xentry (uHbm k)).state == 3
  | none, some (c, _) => s.farState c == 4
  | none, none => true

/-- Whether an address cannot be used: a VACANT chunk, or one at home on a channel that is not online (Table 11.7). -/
def State.vacant (s : State) (pa : Nat) : Bool :=
  match farOf pa with
  | some (c, k) =>
    let ph := s.chunkPhase c k
    ph == 4 || ((ph == 0 || ph == 1) && s.farState c != 2 && s.farState c != 4)
  | none => false

/-! ## Reads and writes -/

/-- Bytes as they are stored, on one side. -/
def State.rawBytes (s : State) (pa n : Nat) : List Byte := (List.range n).map fun i => s.memory.bytes.get 0 (pa + i)

/-- The granules of a range. -/
def granules (pa n : Nat) : List Nat := (List.range ((pa % 64 + n + 63) / 64)).map (pa / 64 + ·)

/-- The bytes that a read of a physical range within one chunk delivers. -/
def State.memBytes (s : State) (pa n : Nat) : List Byte := s.rawBytes (s.readSide pa) n

/-- Whether the read delivers poison (R249, R251). -/
def State.memPoison (s : State) (pa n : Nat) : Bool :=
  let r := s.readSide pa
  s.dead r || (granules r n).any fun g => s.memory.poison.get false g

/-- A counter register of a controller that counts granules without saturating short of 64 bits. -/
def State.countGranules (s : State) (pa off n : Nat) : State :=
  match controllerOf pa with
  | some u => s.bump u off 63 0 (granules pa n).length
  | none => s

/-- A write raises the generations of the tracked 64 KiB granules that it enters (R173). -/
def State.trackWrite (s : State) (pa n : Nat) : State :=
  { s with streams := { s.streams with gens := s.streams.gens.map fun e =>
    if e.1 * 65536 < pa + n && pa < (e.1 + 1) * 65536 then (e.1, (e.2 + 1) % 65536) else e } }

/-- A write to one side: dropped and counted where the memory is gone; else the bytes are stored, and each granule wholly covered
takes the poison of the data. -/
def State.writeRaw (s : State) (pa : Nat) (data : List Byte) (poison : Bool) : State :=
  let u := (controllerOf pa).getD 0
  let hbm := (hbmOf pa).isSome
  if s.dead pa then s.bump u (if hbm then 0x018 else 0x020) 31 16 1
  else
    let whole := (granules pa data.length).filter fun g => pa ≤ 64 * g && 64 * g + 64 ≤ pa + data.length
    let touched := if poison then granules pa data.length else whole
    let s := { s with memory := { s.memory with
      bytes := putBytes s.memory.bytes pa data
      poison := touched.foldl (fun m g => m.set false g poison) s.memory.poison } }
    let s := s.trackWrite pa data.length
    s.countGranules pa (if hbm then 0x028 else 0x030) data.length

/-- A write of a physical range within one chunk. -/
def State.memWrite (s : State) (pa : Nat) (data : List Byte) (poison : Bool) : State :=
  (s.writeSides pa).foldl (fun s a => s.writeRaw a data poison) s

/-- A physical range reads as zero, with no poison. -/
def State.memZero (s : State) (pa n : Nat) : State :=
  { s with memory := { s.memory with
    bytes := s.memory.bytes.filter fun e => !(pa ≤ e.1 && e.1 < pa + n)
    poison := s.memory.poison.filter fun e => !(pa ≤ 64 * e.1 && 64 * e.1 < pa + n) } }

/-- A read or the scrubber finds errors in a granule (R248, R249). -/
def State.memFound (s : State) (pa errors sub flags : Nat) : State :=
  match controllerOf pa with
  | none => s
  | some u =>
    let hbm := (hbmOf pa).isSome
    let ecc := if hbm then 0x018 else 0x020
    let ty := if hbm then 0x30 else 0x31
    if errors = 0 then s
    else if errors = 1 then
      (s.bump u ecc 63 32 1).logError { type := ty, cls := 0, unit := u, sub := sub, addr := pa, flags := flags }
    else
      let s := { s with memory := { s.memory with poison := s.memory.poison.set false (pa / 64) true } }
      (s.bump u ecc 31 16 1).logError { type := ty, cls := 1, unit := u, sub := sub, addr := pa, flags := flags }

/-- What a read of a physical range does beside delivering data: it is counted, and it finds injected errors (R435). -/
def State.memTouch (s : State) (pa n : Nat) : State :=
  let r := s.readSide pa
  let hit (x : Injected) : Bool := controllerOf r == some x.unit && r ≤ x.addr && x.addr < r + n
  let found := s.diag.injected.filter hit
  let s := { s with diag := { s.diag with injected := s.diag.injected.filter fun x => !hit x } }
  let s := found.foldl (fun s x => s.memFound x.addr x.bits x.sub 1) s
  s.countGranules r (if (hbmOf r).isSome then 0x020 else 0x028) n

/-! ## The walk (R252-R254) -/

/-- A translation fault: the level of the failing entry (0 none), the DETAIL of Table 11.7, and the address. -/
structure VFault where
  level : Nat
  detail : Nat
  va : Nat
  deriving DecidableEq, Repr, Inhabited

/-- Level, shift and index width of the walk (Table 11.4). -/
def walkLevels : List (Nat × Nat × Nat) := [(4, 39, 18), (3, 30, 9), (2, 21, 9), (1, 16, 5)]

/-- The address of the entry of a table that an address indexes. -/
def entryAddr (table va shift width : Nat) : Nat := table + 8 * (va / 2 ^ shift % 2 ^ width)

/-- A table entry as stored. -/
def State.entryAt (s : State) (a : Nat) : Nat := ofLe (s.rawBytes a 8)

/-- ADDR of an entry. -/
def entryTarget (e : Nat) : Nat := bits e 47 8 * 256

/-- Whether a valid entry is malformed at a level (Table 11.5). -/
def entryBad (lvl shift e : Nat) : Bool :=
  bits e 63 48 != 0 || bits e 7 3 != 0 || (lvl == 4 && bitAt e 1) || (lvl == 1 && !bitAt e 1) ||
    (bitAt e 1 && entryTarget e % 2 ^ shift != 0)

/-- The walk through the levels that are left. -/
def State.walk (s : State) (va : Nat) (write : Bool) : List (Nat × Nat × Nat) → Nat → Except VFault Nat
  | [], _ => .error ⟨1, 4, va⟩
  | (lvl, shift, width) :: rest, table =>
    let e := s.entryAt (entryAddr table va shift width)
    if !bitAt e 0 then .error ⟨lvl, 1, va⟩
    else if entryBad lvl shift e then .error ⟨lvl, 4, va⟩
    else if bitAt e 1 then
      if write && !bitAt e 2 then .error ⟨lvl, 2, va⟩ else .ok (entryTarget e + va % 2 ^ shift)
    else s.walk va write rest (entryTarget e)

def State.map (s : State) (slot : Nat) : MapInfo := s.memory.maps.get {} slot

def State.setMap (s : State) (slot : Nat) (m : MapInfo) : State :=
  { s with memory := { s.memory with maps := s.memory.maps.insert slot m } }

/-! ## The guard of shard ranges (R204, R208) -/

def State.reelJob (s : State) (slot : Nat) : ReelJob := s.reels.jobs.get {} slot

def State.setReelJob (s : State) (slot : Nat) (r : ReelJob) : State :=
  { s with reels := { s.reels with jobs := s.reels.jobs.insert slot r } }

def State.shard (s : State) (k : Nat) : Shard := s.reels.shards.get {} k

def State.setShard (s : State) (k : Nat) (x : Shard) : State :=
  { s with reels := { s.reels with shards := s.reels.shards.insert k x } }

/-- Whether the job is in a step or its gate is pending. -/
def State.inStep (s : State) (slot : Nat) : Bool :=
  (s.reelJob slot).phase == .inStep || (s.reelJob slot).phase == .gatePending

/-- The shard range that a write into the job's memory would enter while its guard is in force: in a step, while the gate is
pending (R208), and after an abort (R209). -/
def State.guardHit (s : State) (slot va n : Nat) : Option Nat :=
  if (s.inStep slot || (s.reelJob slot).phase == .aborted) && s.fld uMmu 0x5B08 0 0 == 1 then
    (List.range 16).find? fun k =>
      let x := s.shard k
      x.valid && x.slot == slot && x.base < va + n && va < x.base + x.len
  else none

/-- A refused write is counted, and reported at most once every 10 µs per range (R208, R215). -/
def State.guardRefused (s : State) (k slot src va : Nat) (task : Bool) : State :=
  let s := if task then s else s.bump uMmu 0x5B00 47 32 1
  let (st, s) := s.stamp uMmu
  let x := s.shard k
  let x := if x.refused = 0 then { x with firstVa := va, firstStamp := some st } else x
  let x := { x with refused := satAdd 32 x.refused 1 }
  if x.lastRecord.all fun t => t + 10 * usec ≤ s.now then
    (s.setShard k { x with refused := 0, firstStamp := none, lastRecord := some s.now }).recordAll 0x3021 stBadParam
      (le 1 k ++ le 1 slot ++ le 2 src ++ le 4 x.refused ++ le 8 x.firstVa ++ (x.firstStamp.getD default).bytes)
  else s.setShard k x

/-- Translation with every check that follows the walk (R254, R260, R208). -/
def State.translate (s : State) (slot va : Nat) (write : Bool) : Except VFault Nat :=
  if !(s.map slot).valid then .error ⟨0, 7, va⟩
  else if va / 2 ^ 57 ≠ 0 then .error ⟨0, 5, va⟩
  else match s.walk va write walkLevels (s.map slot).pool with
  | .error f => .error f
  | .ok pa =>
    if s.vacant pa then .error ⟨0, 6, va⟩
    else if write && (s.guardHit slot va 1).isSome then .error ⟨0, 3, va⟩
    else .ok pa

/-! ## Virtual accesses -/

/-- A virtual range cut at every multiple of 128 bytes: (offset from its start, length). -/
def pieces (va n : Nat) : List (Nat × Nat) :=
  if n = 0 then []
  else
    (List.range ((va % 128 + n + 127) / 128)).map fun i =>
      let a := if i = 0 then 0 else 128 * i - va % 128
      (a, min (128 * (i + 1) - va % 128) n - a)

/-- The bytes of a virtual range and whether any of them is poisoned. -/
def State.vread (s : State) (slot va n : Nat) : Except VFault (List Byte × Bool) :=
  (pieces va n).foldlM (fun (acc : List Byte × Bool) q =>
    match s.translate slot (va + q.1) false with
    | .error f => .error f
    | .ok pa => .ok (acc.1 ++ s.memBytes pa q.2, acc.2 || s.memPoison pa q.2)) ([], false)

/-- The unit of the first poisoned piece of a virtual range (Table 2.8: DETAIL of ST_POISONED). -/
def State.poisonUnit (s : State) (slot va n : Nat) : Nat :=
  ((pieces va n).findSome? fun q =>
    match s.translate slot (va + q.1) false with
    | .ok pa => if s.memPoison pa q.2 then controllerOf (s.readSide pa) else none
    | .error _ => none).getD 0

/-- What reading a virtual range does beside delivering data. -/
def State.vtouch (s : State) (slot va n : Nat) : State :=
  (pieces va n).foldl (fun s q =>
    match s.translate slot (va + q.1) false with
    | .error _ => s
    | .ok pa => s.memTouch pa q.2) s

/-- The first translation fault of an access to a range. -/
def State.vcheck (s : State) (slot va n : Nat) (write : Bool) : Option VFault :=
  (pieces va n).findSome? fun q =>
    match s.translate slot (va + q.1) write with
    | .error f => some f
    | .ok _ => none

/-- A virtual range is written in ascending order up to its first fault; the bytes written come back with it. -/
def State.vwrite (s : State) (slot va : Nat) (data : List Byte) (poison : Bool) : State × Nat × Option VFault :=
  (pieces va data.length).foldl (fun (acc : State × Nat × Option VFault) q =>
    match acc.2.2 with
    | some _ => acc
    | none =>
      match acc.1.translate slot (va + q.1) true with
      | .error f => (acc.1, acc.2.1, some f)
      | .ok pa => (acc.1.memWrite pa ((data.drop q.1).take q.2) poison, acc.2.1 + q.2, none)) (s, 0, none)

/-- A translation fault sets the fault registers (R256); the body of its TRANSLATION_FAULT record comes with the state. -/
def State.noteFault (s : State) (slot src : Nat) (f : VFault) : List Byte × State :=
  let s := s.bump uMmu 0x020 31 16 1
  let s := s.setReg uMmu 0x028 (slot * 2 ^ 58 + f.va % 2 ^ 57)
  let s := s.setReg uMmu 0x030 (src * 2 ^ 48 + f.level * 2 ^ 16 + f.detail)
  let s := s.setReg uMmu 0x038 s.now
  let (st, s) := s.stamp uMmu
  (le 1 slot ++ le 1 f.level ++ le 2 f.detail ++ le 2 src ++ le 2 0 ++ le 8 f.va ++ st.bytes, s)

/-- The TRANSLATION_FAULT record of a command's work (R256). -/
def State.vfault (s : State) (h : CmdHdr) (slot src : Nat) (f : VFault) : State :=
  let (body, s) := s.noteFault slot src f
  s.recordCmd h 0x1001 stPageFault body

end Sys2Proof.Machine
end

