-- ==== Sys2Proof/Machine/Address.lean ====
section
/-! DEFINITION. Far addresses (R126, R310): a scratchpad window of a logical core with bit 63 set, a virtual address of the job
otherwise; reads, and writes that meet the turnout test. -/

namespace Sys2Proof.Machine

/-- Why an access to a far address fails: status, DETAIL, and the translation fault if it is one. -/
structure FarFail where
  status : Nat
  detail : Nat
  fault : Option VFault
  deriving DecidableEq, Repr, Inhabited

/-- Where a far address points. -/
inductive FarPlace where
  | window (c off : Nat)
  | virtual (va : Nat)
  | bad
  deriving DecidableEq, Repr, Inhabited

/-- The place of a far address (R126). -/
def farPlace (a : Nat) : FarPlace :=
  if bitAt a 63 then
    let w := bits a 47 0
    let c := (w - spadBase) / 2 ^ 22
    let off := (w - spadBase) % 2 ^ 22
    if spadBase ≤ w && c < 144 && off < 3 * 2 ^ 20 then .window c off else .bad
  else .virtual a

/-- The physical core of a window, or why the window cannot be used: its core is absent (R423), or outside the allotment of the
job where `inAllot` asks for that. -/
def State.windowCore (s : State) (slot c : Nat) (inAllot : Bool) : Except FarFail Nat :=
  match s.absentUnit c with
  | some u => .error ⟨stRetired, u, none⟩
  | none =>
    match s.physOf c with
    | none => .error ⟨stBadParam, 0, none⟩
    | some p =>
      if inAllot && !((s.allot (s.job slot).allotment).cores.contains c) then .error ⟨stBadParam, 0, none⟩ else .ok p

/-- The bytes at a far address, and whether any of them is poisoned. -/
def State.farRead (s : State) (slot a n : Nat) (inAllot : Bool) : Except FarFail (List Byte × Bool) :=
  match farPlace a with
  | .bad => .error ⟨stBadParam, 0, none⟩
  | .virtual va =>
    match s.vread slot va n with
    | .error f => .error ⟨stPageFault, f.detail, some f⟩
    | .ok r => .ok r
  | .window c off =>
    if 3 * 2 ^ 20 < off + n then .error ⟨stBadParam, 0, none⟩
    else match s.windowCore slot c inAllot with
      | .error f => .error f
      | .ok p => .ok (s.spadBytes p off n,
          (List.range ((off % 128 + n + 127) / 128)).any fun i => s.isPoisoned p (off / 128 + i))

/-- What reading a far address does beside delivering data. -/
def State.farTouch (s : State) (slot a n : Nat) : State :=
  match farPlace a with
  | .bad => s
  | .virtual va => s.vtouch slot va n
  | .window c off =>
    match s.physOf c with
    | some p => s.spadTouch p slot ((List.range ((off % 128 + n + 127) / 128)).map (off / 128 + ·))
    | none => s

/-- The unit that a poisoned read names (ST_POISONED). -/
def State.farUnit (s : State) (slot a : Nat) : Nat :=
  match farPlace a with
  | .virtual va => match s.translate slot va false with
    | .ok pa => (controllerOf pa).getD 0
    | .error _ => 0
  | .window c _ => uSpad ((s.physOf c).getD 0)
  | .bad => 0

/-- Consecutive lines cut into packets of 1 to 4 lines within one block of 512 bytes (R128): (first line, lines). -/
def packets (first n : Nat) : List (Nat × Nat) :=
  if n = 0 then []
  else
    (List.range ((first % 4 + n + 3) / 4)).map fun i =>
      let a := if i = 0 then first else first - first % 4 + 4 * i
      (a, min (first - first % 4 + 4 * (i + 1)) (first + n) - a)

/-- Whole lines of data. -/
def toLines (data : List Byte) (poison : Bool) : List (List Byte × Bool) :=
  (List.range (data.length / 128)).map fun i => ((data.drop (128 * i)).take 128, poison)

/-- Data is written at a far address in ascending order up to the first failure; the bytes written come back with it. A window
takes whole lines as remote writes under the placement number and the epoch given. -/
def State.farWrite (s : State) (slot a : Nat) (data : List Byte) (poison : Bool) (placement epoch : Nat) (inAllot : Bool) :
    State × Nat × Option FarFail :=
  match farPlace a with
  | .bad => (s, 0, some ⟨stBadParam, 0, none⟩)
  | .virtual va =>
    let (s, n, f) := s.vwrite slot va data poison
    (s, n, f.map fun f => ⟨stPageFault, f.detail, some f⟩)
  | .window c off =>
    if 3 * 2 ^ 20 < off + data.length then (s, 0, some ⟨stBadParam, 0, none⟩)
    else match s.windowCore slot c inAllot with
      | .error f => (s, 0, some f)
      | .ok p =>
        let ls := toLines data poison
        (packets (off / 128) ls.length).foldl (fun (acc : State × Nat × Option FarFail) k =>
          match acc.2.2 with
          | some _ => acc
          | none =>
            let (r, s) := acc.1.remoteWrite p k.1 ((ls.drop (k.1 - off / 128)).take k.2) slot placement epoch
            if r = 0 then (s, acc.2.1 + 128 * k.2, none) else (s, acc.2.1, some ⟨stWindowClosed, r, none⟩)) (s, 0, none)

/-- A translation fault of a command's work is recorded (R256), and a guarded write counted and reported (R208). -/
def State.farFault (s : State) (h : CmdHdr) (slot src : Nat) (x : FarFail) : State :=
  match x.fault with
  | none => s
  | some f =>
    let s := s.vfault h slot src f
    if f.detail = 3 then
      match s.guardHit slot f.va 1 with
      | some k => s.guardRefused k slot src f.va false
      | none => s
    else s

end Sys2Proof.Machine
end

