-- ==== Sys2Proof/Machine/Crypto.lean ====
section
/-! DEFINITION. SHAKE256 (FIPS 202), KMAC256 (NIST SP 800-185) and CRC-32C, which the spec names as the functions of its
digests, its generator (R229), its session proofs (R462) and its checks. PRESUMED: the spec cites those standards and does not
reproduce them (notes/assumptions/4.md). -/

namespace Sys2Proof.Machine

/-! ## Keccak-f[1600] on 25 lanes of 64 bits, lane (x, y) at index x + 5y -/

def rotl64 (v n : Nat) : Nat := (v * 2 ^ (n % 64)) % 2 ^ 64 + v / 2 ^ (64 - n % 64)

def keccakRotations : List Nat := [
  0, 1, 62, 28, 27, 36, 44, 6, 55, 20, 3, 10, 43, 25, 39, 41, 45, 15, 21, 8, 18, 2, 61, 56, 14]

def keccakRounds : List Nat := [
  0x0000000000000001, 0x0000000000008082, 0x800000000000808A, 0x8000000080008000,
  0x000000000000808B, 0x0000000080000001, 0x8000000080008081, 0x8000000000008009,
  0x000000000000008A, 0x0000000000000088, 0x0000000080008009, 0x000000008000000A,
  0x000000008000808B, 0x800000000000008B, 0x8000000000008089, 0x8000000000008003,
  0x8000000000008002, 0x8000000000000080, 0x000000000000800A, 0x800000008000000A,
  0x8000000080008081, 0x8000000000008080, 0x0000000080000001, 0x8000000080008008]

/-- One round: θ, ρ and π, χ, ι. -/
def keccakRound (a : List Nat) (rc : Nat) : List Nat :=
  let g (l : List Nat) (i : Nat) : Nat := l.getD i 0
  let c := (List.range 5).map fun x => g a x ^^^ g a (x + 5) ^^^ g a (x + 10) ^^^ g a (x + 15) ^^^ g a (x + 20)
  let d := (List.range 5).map fun x => g c ((x + 4) % 5) ^^^ rotl64 (g c ((x + 1) % 5)) 1
  let t := (List.range 25).map fun i => rotl64 (g a i ^^^ g d (i % 5)) (g keccakRotations i)
  -- π: B[y, 2x + 3y] = A[x, y]; the source of (x, y) is (x + 3y, x)
  let b := (List.range 25).map fun i => g t ((i % 5 + 3 * (i / 5)) % 5 + 5 * (i % 5))
  let e := (List.range 25).map fun i =>
    let y := 5 * (i / 5)
    g b i ^^^ ((2 ^ 64 - 1 - g b (y + (i + 1) % 5 % 5)) &&& g b (y + (i + 2) % 5 % 5))
  match e with
  | h :: r => (h ^^^ rc) :: r
  | [] => []

def keccakF (a : List Nat) : List Nat := keccakRounds.foldl keccakRound a

/-- One 136-byte block is XORed into the state, and the permutation applied. -/
def absorbBlock (a : List Nat) (block : List Byte) : List Nat :=
  keccakF ((List.range 25).map fun i => a.getD i 0 ^^^ (if i < 17 then leAt block (8 * i) 8 else 0))

def absorbAll : Nat → List Nat → List Byte → List Nat
  | 0, a, _ => a
  | n + 1, a, bs => absorbAll n (absorbBlock a (bs.take 136)) (bs.drop 136)

/-- Output blocks of 136 bytes. -/
def squeeze : Nat → List Nat → List Byte
  | 0, _ => []
  | n + 1, a => ((List.range 17).flatMap fun i => le 8 (a.getD i 0)) ++ squeeze n (keccakF a)

/-- The sponge with a domain suffix: 0x1F for SHAKE256, 0x04 for cSHAKE256. -/
def sponge (suffix : Nat) (msg : List Byte) (outLen : Nat) : List Byte :=
  let r := 136 - msg.length % 136
  let pad : List Byte :=
    if r = 1 then [BitVec.ofNat 8 (suffix + 0x80)]
    else BitVec.ofNat 8 suffix :: (List.replicate (r - 2) 0 ++ [0x80])
  let m := msg ++ pad
  let a := absorbAll (m.length / 136) (List.replicate 25 0) m
  (squeeze (outLen / 136 + 1) a).take outLen

/-- SHAKE256 with an output of `n` bytes. -/
def shake256 (msg : List Byte) (n : Nat) : List Byte := sponge 0x1F msg n

/-- The least number of bytes, at least one, that hold `v` big-endian. -/
def beBytes (v : Nat) : List Byte := (le (Nat.log2 v / 8 + 1) v).reverse

def leftEncode (v : Nat) : List Byte := BitVec.ofNat 8 (Nat.log2 v / 8 + 1) :: beBytes v
def rightEncode (v : Nat) : List Byte := beBytes v ++ [BitVec.ofNat 8 (Nat.log2 v / 8 + 1)]
def encodeString (s : List Byte) : List Byte := leftEncode (8 * s.length) ++ s
def bytePad (s : List Byte) : List Byte :=
  let t := leftEncode 136 ++ s
  t ++ List.replicate ((136 - t.length % 136) % 136) 0

/-- ASCII bytes. -/
def ascii (s : String) : List Byte := s.toList.map fun c => BitVec.ofNat 8 c.toNat

/-- KMAC256 with an empty customisation string and an output of `n` bytes. -/
def kmac256 (key msg : List Byte) (n : Nat) : List Byte :=
  sponge 0x04 (bytePad (encodeString (ascii "KMAC") ++ encodeString []) ++ bytePad (encodeString key) ++ msg ++
    rightEncode (8 * n)) n

/-! ## CRC-32C: reflected polynomial 0x82F63B78, initial and final XOR of all ones -/

def crcBit (c : Nat) : Nat := if c % 2 = 1 then (c / 2) ^^^ 0x82F63B78 else c / 2

def crcByte (c : Nat) (b : Byte) : Nat :=
  let c := c ^^^ b.toNat
  crcBit (crcBit (crcBit (crcBit (crcBit (crcBit (crcBit (crcBit c)))))))

def crc32c (bs : List Byte) : Nat := (bs.foldl crcByte 0xFFFFFFFF) ^^^ 0xFFFFFFFF

/-- The word of the generator (R229). -/
def rngWord (purpose seed tensor index : Nat) : Nat :=
  let msg := ascii "G7RNG1" ++ le 1 purpose ++ le 1 0 ++ le 8 seed ++ le 4 tensor ++ le 8 (index / 64)
  leAt (shake256 msg 256) (4 * (index % 64)) 4

end Sys2Proof.Machine
end

