-- ==== Sys2Proof/Machine/Numerics.lean ====
section
/-! DEFINITION. Numeric formats, exact values, rounding, conversion, block scaling, the canonical sum (spec/10). -/

namespace Sys2Proof.Machine

/-- An exact value: a NaN, an infinity (true: negative), or (−1)^neg × m × 2^e. -/
inductive Num where
  | nan
  | inf (neg : Bool)
  | fin (neg : Bool) (m : Nat) (e : Int)
  deriving DecidableEq, Repr, Inhabited

/-- Which codes of a floating-point format are special (Table 10.2). -/
inductive Specials where
  | ieee | e4m3 | finite
  deriving DecidableEq, Repr

/-- A floating-point format of Table 10.2. -/
structure FloatFmt where
  expBits : Nat
  manBits : Nat
  bias : Nat
  specials : Specials
  deriving DecidableEq, Repr

abbrev fmtFp32 : FloatFmt := ⟨8, 23, 127, .ieee⟩
abbrev fmtBf16 : FloatFmt := ⟨8, 7, 127, .ieee⟩
abbrev fmtFp16 : FloatFmt := ⟨5, 10, 15, .ieee⟩
abbrev fmtE4M3 : FloatFmt := ⟨4, 3, 7, .e4m3⟩
abbrev fmtE5M2 : FloatFmt := ⟨5, 2, 15, .ieee⟩
abbrev fmtE2M3 : FloatFmt := ⟨2, 3, 1, .finite⟩
abbrev fmtE3M2 : FloatFmt := ⟨3, 2, 3, .finite⟩
abbrev fmtE2M1 : FloatFmt := ⟨2, 1, 1, .finite⟩

/-- The width of a code. -/
def FloatFmt.width (f : FloatFmt) : Nat := 1 + f.expBits + f.manBits

/-- The code of the largest finite magnitude. -/
def FloatFmt.maxCode (f : FloatFmt) : Nat :=
  match f.specials with
  | .ieee => (2 ^ f.expBits - 1) * 2 ^ f.manBits - 1
  | .e4m3 => 2 ^ (f.expBits + f.manBits) - 2
  | .finite => 2 ^ (f.expBits + f.manBits) - 1

/-- The canonical NaN (R226, Table 10.4); a format without NaN encodes zero. -/
def FloatFmt.nanCode (f : FloatFmt) : Nat :=
  match f.specials with
  | .ieee => (2 ^ f.expBits - 1) * 2 ^ f.manBits + 2 ^ (f.manBits - 1)
  | .e4m3 => 2 ^ (f.expBits + f.manBits) - 1
  | .finite => 0

/-- The value of a code (R217). -/
def FloatFmt.decode (f : FloatFmt) (code : Nat) : Num :=
  let neg := bitAt code (f.expBits + f.manBits)
  let e := bits code (f.expBits + f.manBits - 1) f.manBits
  let m := code % 2 ^ f.manBits
  if f.specials = .ieee ∧ e = 2 ^ f.expBits - 1 then (if m = 0 then .inf neg else .nan)
  else if f.specials = .e4m3 ∧ code % 2 ^ (f.expBits + f.manBits) = 2 ^ (f.expBits + f.manBits) - 1 then .nan
  else if e = 0 then .fin neg m (1 - (f.bias : Int) - f.manBits)
  else .fin neg (2 ^ f.manBits + m) ((e : Int) - f.bias - f.manBits)

/-- m × 2^k rounded down to an integer. -/
def scaleDown (m : Nat) (k : Int) : Nat :=
  if 0 ≤ k then m * 2 ^ k.toNat else m / 2 ^ (-k).toNat

/-- m × 2^k rounded to an integer, ties to even. -/
def scaleEven (m : Nat) (k : Int) : Nat :=
  if 0 ≤ k then m * 2 ^ k.toNat
  else
    let d := 2 ^ (-k).toNat
    let q := m / d
    let r := m % d
    if 2 * r > d || (2 * r == d && q % 2 == 1) then q + 1 else q

/-- How a conversion rounds (R224): to nearest even, or stochastically with a 16-bit draw (R228). -/
inductive Rounding where
  | rne
  | sr (draw : Nat)
  deriving DecidableEq, Repr

/-- The exponent of the least significant bit of the format's grid at a magnitude m × 2^e, m ≠ 0. -/
def FloatFmt.lsb (f : FloatFmt) (m : Nat) (e : Int) : Int :=
  max (e + Nat.log2 m) (1 - (f.bias : Int)) - f.manBits

/-- The magnitude code that a finite value rounds to, before the check against the largest finite value. -/
def FloatFmt.roundMag (f : FloatFmt) (rd : Rounding) (m : Nat) (e : Int) : Nat :=
  if m = 0 then 0
  else
    let q := f.lsb m e
    let n := match rd with
      | .rne => scaleEven m (e - q)
      | .sr draw => scaleDown m (e - q) + (if scaleDown m (e - q + 16) % 65536 + draw ≥ 65536 then 1 else 0)
    n + (q + f.manBits + f.bias - 1).toNat * 2 ^ f.manBits

/-- A magnitude code with its sign. -/
def FloatFmt.signed (f : FloatFmt) (neg : Bool) (c : Nat) : Nat := (b2n neg) * 2 ^ (f.expBits + f.manBits) + c

/-- Conversion of an exact value to a format (R224, Table 10.4): BF16, FP16 and FP32 overflow to infinity, the others
saturate; E4M3 has no infinity and makes one NaN. -/
def FloatFmt.encode (f : FloatFmt) (rd : Rounding) (x : Num) : Nat :=
  match x with
  | .nan => f.nanCode
  | .inf neg =>
    match f.specials with
    | .ieee => f.signed neg (f.maxCode + 1)
    | .e4m3 => f.nanCode
    | .finite => f.signed neg f.maxCode
  | .fin neg m e =>
    let c := f.roundMag rd m e
    if c ≤ f.maxCode then f.signed neg c
    else if f.specials = .ieee ∧ f.expBits + f.manBits ≥ 15 then f.signed neg (f.maxCode + 1)
    else f.signed neg f.maxCode

/-- rn32 of R220. -/
def rn32 (x : Num) : Word32 := BitVec.ofNat 32 (fmtFp32.encode .rne x)

/-- The exact value of an FP32 word. -/
def val32 (w : Word32) : Num := fmtFp32.decode w.toNat

/-! ## Exact arithmetic -/

/-- The exact product. -/
def Num.mul : Num → Num → Num
  | .nan, _ => .nan
  | _, .nan => .nan
  | .inf a, .inf b => .inf (a != b)
  | .inf a, .fin b m _ => if m = 0 then .nan else .inf (a != b)
  | .fin b m _, .inf a => if m = 0 then .nan else .inf (a != b)
  | .fin a m e, .fin b n g => .fin (a != b) (m * n) (e + g)

/-- A signed integer with its sign, m × 2^e as an integer multiple of 2^g, g ≤ e. -/
def alignTo (neg : Bool) (m : Nat) (e g : Int) : Int :=
  let v : Int := (m * 2 ^ (e - g).toNat : Nat)
  if neg then -v else v

/-- The exact sum; a sum of zeros is −0 only where both are (R219); a sum of opposite infinities is NaN. -/
def Num.add : Num → Num → Num
  | .nan, _ => .nan
  | _, .nan => .nan
  | .inf a, .inf b => if a = b then .inf a else .nan
  | .inf a, _ => .inf a
  | _, .inf b => .inf b
  | .fin a m e, .fin b n g =>
    if m = 0 && n = 0 then .fin (a && b) 0 0
    else
      let l := min e g
      let v := alignTo a m e l + alignTo b n g l
      .fin (decide (v < 0)) v.natAbs l

/-- The value times 2^k. -/
def Num.scale (x : Num) (k : Int) : Num :=
  match x with
  | .fin n m e => .fin n m (e + k)
  | x => x

/-- The magnitude. -/
def Num.abs : Num → Num
  | .nan => .nan
  | .inf _ => .inf false
  | .fin _ m e => .fin false m e

def Num.neg : Num → Num
  | .nan => .nan
  | .inf a => .inf (!a)
  | .fin a m e => .fin (!a) m e

/-- Whether a value is finite. -/
def Num.isFinite : Num → Bool
  | .fin _ _ _ => true
  | _ => false

/-- a < b, with −0 less than +0 (R227); false where either is NaN. -/
def Num.lt : Num → Num → Bool
  | .nan, _ => false
  | _, .nan => false
  | .inf a, .inf b => a && !b
  | .inf a, .fin _ _ _ => a
  | .fin _ _ _, .inf b => !b
  | .fin a m e, .fin b n g =>
    if m = 0 && n = 0 then a && !b
    else decide (alignTo a m e (min e g) < alignTo b n g (min e g))

/-- The larger, NaN if either is NaN (R227). -/
def Num.max (a b : Num) : Num := if a = .nan || b = .nan then .nan else if a.lt b then b else a

/-- The smaller, NaN if either is NaN (R227). -/
def Num.min (a b : Num) : Num := if a = .nan || b = .nan then .nan else if b.lt a then b else a

/-- FP32 operations, each with one rounding. -/
def fadd (a b : Word32) : Word32 := rn32 ((val32 a).add (val32 b))
def fmul (a b : Word32) : Word32 := rn32 ((val32 a).mul (val32 b))
def fsub (a b : Word32) : Word32 := rn32 ((val32 a).add (val32 b).neg)
def ffma (a b c : Word32) : Word32 := rn32 (((val32 a).mul (val32 b)).add (val32 c))
def fmax (a b : Word32) : Word32 := rn32 ((val32 a).max (val32 b))
def fmin (a b : Word32) : Word32 := rn32 ((val32 a).min (val32 b))

/-! ## Format codes (Table 10.1) -/

/-- Element width in bits of a format code. -/
def codeWidth (c : Nat) : Nat :=
  if c = 0 then 32 else if c = 1 || c = 2 then 16 else if c = 7 || c = 8 then 6 else if c = 9 then 4 else 8

/-- The MX formats. -/
def isMx (c : Nat) : Bool := 5 ≤ c && c ≤ 9

/-- The floating-point format of an element of a format code; none for INT8. -/
def elementFmt (c : Nat) : Option FloatFmt :=
  if c = 0 then some fmtFp32
  else if c = 1 then some fmtBf16
  else if c = 2 then some fmtFp16
  else if c = 3 || c = 5 then some fmtE4M3
  else if c = 4 || c = 6 then some fmtE5M2
  else if c = 7 then some fmtE2M3
  else if c = 8 then some fmtE3M2
  else if c = 9 then some fmtE2M1
  else none

/-- The row and the column format of an operand code: 0xB and 0xC mix E4M3 and E5M2 (R216). -/
def rowCode (c : Nat) : Nat := if c = 0xB then 3 else if c = 0xC then 4 else c
def colCode (c : Nat) : Nat := if c = 0xB then 4 else if c = 0xC then 3 else c

/-- The value of an element of a format code (R217, R221). -/
def decodeElement (c v : Nat) : Num :=
  match elementFmt c with
  | some f => f.decode v
  | none =>
    let i := toSigned 8 v
    .fin (decide (i < 0)) i.natAbs 0

/-- The value of an MX element under its block scale (R218). -/
def decodeScaled (c v scale : Nat) : Num :=
  if scale = 0xFF then .nan else (decodeElement c v).scale ((scale : Int) - 127)

/-- Conversion to INT8 (Table 10.4). -/
def encodeInt8 (x : Num) : Nat :=
  match x with
  | .nan => 0
  | .inf neg => if neg then 0x80 else 0x7F
  | .fin neg m e =>
    let n := scaleEven m e
    if neg then ofSigned 8 (-((min n 128 : Nat) : Int)) else min n 127

/-- Conversion of an exact value to a scalar format code (R224). -/
def encodeElement (c : Nat) (rd : Rounding) (x : Num) : Nat :=
  match elementFmt c with
  | some f => f.encode rd x
  | none => encodeInt8 x

/-- Whether a result code of a scalar format is an infinity or a NaN. -/
def codeNonfinite (c v : Nat) : Bool :=
  match elementFmt c with
  | some f => !(f.decode v).isFinite
  | none => false

/-- floor(log2) of a positive finite value. -/
def Num.log2 : Num → Int
  | .fin _ m e => e + Nat.log2 m
  | _ => 0

/-- The exponent of the element format's largest normal (R225). -/
def mxEmax (c : Nat) : Int := if c = 5 then 8 else if c = 6 then 15 else if c = 7 then 2 else if c = 8 then 4 else 2

/-- A block of 32 values to an MX format (R225): its scale, and its elements. -/
def encodeBlock (c : Nat) (xs : List Num) : Nat × List Nat :=
  if xs.any (fun x => !x.isFinite) then (0xFF, xs.map fun _ => 0)
  else
    let a := xs.foldl (fun a x => Num.max a x.abs) (.fin false 0 0)
    if a = .fin false 0 0 || xs.all (fun x => match x with | .fin _ m _ => m == 0 | _ => false) then (0, xs.map fun _ => 0)
    else
      let x := max (-127) (min 127 (a.log2 - mxEmax c))
      ((x + 127).toNat, xs.map fun v =>
        match elementFmt c with
        | some f =>
          match v.scale (-x) with
          | .fin neg m e => f.signed neg (min (f.roundMag .rne m e) f.maxCode)
          | _ => 0
        | none => 0)

/-! ## Sums in a fixed tree (R96, R239) -/

/-- One level of the tree: neighbours are added, an odd last element goes up unchanged. -/
def sumLevel : List Word32 → List Word32
  | a :: b :: t => fadd a b :: sumLevel t
  | l => l

/-- The canonical sum of leaves in index order (R239). `fuel` bounds the number of levels. -/
def sumTree : Nat → List Word32 → Word32
  | _, [] => 0
  | _, [x] => x
  | 0, x :: _ => x
  | n + 1, l => sumTree n (sumLevel l)

/-- `canonical_sum` of R239. -/
def canonicalSum (l : List Word32) : Word32 := sumTree l.length l

/-! ## Rows in the little-endian bit stream (R218) -/

/-- Element i of width w in bytes. -/
def elementAt (bs : List Byte) (w i : Nat) : Nat :=
  (leAt bs (w * i / 8) ((w + 14) / 8) >>> (w * i % 8)) % 2 ^ w

/-- Elements of width w packed into bytes, first element lowest. -/
def packElements (w : Nat) (vs : List Nat) : List Byte :=
  le ((vs.length * w + 7) / 8) ((vs.foldr (fun v acc => v % 2 ^ w + acc * 2 ^ w) 0))

end Sys2Proof.Machine
end

