-- ==== Sys2Proof/Machine/Engine.lean ====
section
/-! DEFINITION. What the engines of a core compute: address generators, the outer-product engine, the vector unit (spec/05,
spec/10). A plan says which lines a bundle reads and writes; an effect is what the engine then does. -/

namespace Sys2Proof.Machine

def State.core (s : State) (p : Nat) : Core := s.cores.cores.get {} p

def State.setCore (s : State) (p : Nat) (c : Core) : State :=
  { s with cores := { s.cores with cores := s.cores.cores.insert p c } }

/-- Argument register `n`: bytes 8n to 8n + 7 of the argument record; zero beyond it (R222). -/
def Core.arg (c : Core) (n : Nat) : Nat := leAt c.args (8 * n) 8

/-! ## Bundles (Tables 5.5 to 5.7) -/

abbrev bKind (b : Nat) : Nat := bits b 127 124
abbrev bDelay (b : Nat) : Nat := bits b 123 112
abbrev bOop (b : Nat) : Nat := bits b 111 108
abbrev bFmt (b : Nat) : Nat := bits b 107 104
abbrev bTa (b : Nat) : Bool := bitAt b 103
abbrev bTb (b : Nat) : Bool := bitAt b 102
abbrev bBank (b : Nat) : Nat := bits b 101 101
abbrev bSteps (b : Nat) : Nat := if bits b 100 88 = 0 then 8192 else bits b 100 88
abbrev bAgA (b : Nat) : Nat := bits b 87 84
abbrev bAgB (b : Nat) : Nat := bits b 83 80
abbrev bAgOut (b : Nat) : Nat := bits b 79 76
abbrev bOutFmt (b : Nat) : Nat := bits b 75 72
abbrev bVop (b : Nat) : Nat := bits b 71 66
abbrev bImm (b : Nat) : Nat := bits b 45 32
abbrev bCont (b : Nat) : Nat := bits b 31 0

/-! ## Generators (Table 5.3, R95, R514) -/

/-- Whether a descriptor has a field out of range or a reserved byte that is not zero (R95). -/
def generatorBad (d : List Byte) : Bool :=
  let u (o n : Nat) : Nat := leAt d o n
  let rng (o n lo hi : Nat) : Bool := u o n < lo || hi < u o n
  let reserved := u 0x05 3 != 0 || u 0x0C 4 != 0 || u 0x1B 1 != 0 || u 0x1F 1 != 0 || u 0x23 1 != 0 || u 0x27 1 != 0 ||
    u 0x2E 2 != 0 || u 0x34 12 != 0
  reserved || u 0 4 % 128 != 0 || 1 < u 4 1 ||
    (if u 4 1 = 0 then u 8 4 % 128 != 0
     else rng 0x10 2 1 1024 || rng 0x12 2 1 4096 || rng 0x14 2 1 4096 || rng 0x16 2 1 64 ||
       (List.range 3).any fun i =>
         rng (0x18 + i) 1 1 8 || rng (0x1C + i) 1 1 4 || rng (0x20 + i) 1 1 4 || rng (0x24 + i) 1 0 7)

/-- A loaded generator, if it is in the mode that an operation needs. -/
def Core.generator (c : Core) (g mode : Nat) : Option (List Byte) :=
  match c.generators.find? fun e => e.1 == g with
  | some e => if leAt e.2 4 1 = mode then some e.2 else none
  | none => none

/-- The bytes of a stored row of 128 elements of a format. -/
def rowBytes (fmt : Nat) : Nat := 128 * codeWidth fmt / 8

/-- Rows in a group that fills whole lines, and the group's size (R514). -/
def rowGroup (fmt : Nat) : Nat := if codeWidth fmt = 4 then 2 else if codeWidth fmt = 6 then 4 else 1
def groupBytes (fmt : Nat) : Nat := rowGroup fmt * rowBytes fmt

/-- The byte offset of row `k` of a MODE 0 tile (R514). -/
def rowAddr (d : List Byte) (fmt k : Nat) : Nat :=
  leAt d 0 4 + k / rowGroup fmt * leAt d 8 4 + k % rowGroup fmt * rowBytes fmt

/-- Whether PITCH holds a row or a group (R514). -/
def pitchOk (d : List Byte) (fmt : Nat) : Bool := groupBytes fmt ≤ leAt d 8 4

/-- The lines that a byte range touches. -/
def linesOf (off n : Nat) : List Nat := (List.range ((off % 128 + n + 127) / 128)).map (off / 128 + ·)

/-- The lines of the first `n` rows of a tile, and of its scale lines where the format is an MX one (R218). -/
def tileLines (d : List Byte) (fmt n : Nat) : List Nat :=
  (List.range n).flatMap fun k => linesOf (rowAddr d fmt k) (rowBytes fmt)

/-- The lines of `n` rows of a tile from row `k`, in order. -/
def tileLinesFrom (d : List Byte) (fmt k n : Nat) : List Nat :=
  (List.range n).flatMap fun i => linesOf (rowAddr d fmt (k + i)) (rowBytes fmt)

/-- The line after the one that holds the last element of `n` rows: the first scale line. -/
def scaleLine (d : List Byte) (fmt n : Nat) : Nat := (rowAddr d fmt (n - 1) + rowBytes fmt - 1) / 128 + 1

/-- The scale lines of a tile of `n` rows whose scales cover `k` steps. -/
def scaleLines (d : List Byte) (fmt n k : Nat) : List Nat :=
  if isMx fmt then (List.range ((k + 31) / 32)).map (scaleLine d fmt n + ·) else []

/-- How many rows later group 1 is stored than group 0 in a pre-skewed tile (R308); 0 where the tile is stored plain. -/
def skewShift (fmt : Nat) : Nat := if codeWidth fmt = 16 then 0 else if codeWidth fmt = 8 then 1 else 2

/-! ## Line requests (R116-R118, R516) -/

/-- The cycles that K steps of a format take (Table 5.1). -/
def stepCycles (fmt k : Nat) : Nat :=
  let w := codeWidth (rowCode fmt)
  if w = 16 then 4 * k else if w < 8 then ceilDiv k 2 else k

/-- The line requests of row `k` of a tile, `cycle i` being the cycle of its line `i`; a line that packed rows share is asked for once,
with the first of them. -/
def rowRequests (d : List Byte) (fmt k : Nat) (cycle : Nat → Nat) : List (Nat × Nat) :=
  ((linesOf (rowAddr d fmt k) (rowBytes fmt)).filter fun l => rowAddr d fmt k ≤ 128 * l).zipIdx.map fun e => (cycle e.2, e.1)

/-- The requests of a feeder for an operand of `n` steps of operation format `fmt`, stored in format `code` (R94, R125, Table 6.1): a
plain operand is read step by step; a transposed one line by line, the second stored tile and those after it while the tile before
is presented. -/
def feederRequests (d : List Byte) (fmt code n : Nat) (t skewed : Bool) : List (Nat × Nat) :=
  if t then
    let lines := rowBytes code
    let steps := max lines (stepCycles fmt 128)
    (List.range (ceilDiv n 128)).flatMap fun m =>
      let start := if m = 0 then 0 else lines + (m - 1) * steps
      (tileLinesFrom d code (128 * m) 128).zipIdx.map fun e => (start + e.2, e.1)
  else
    let w := codeWidth code
    (List.range (if skewed then n + 7 * skewShift code else n)).flatMap fun k =>
      rowRequests d code k fun i => if w = 16 then 4 * k + 2 * i else if w < 8 then k / 2 else k

/-- The requests of the OPE-S port: for each group of 32 steps the row operand's scale line, then the column operand's (R516). -/
def scaleRequests (fmt : Nat) (a b : List Nat) : List (Nat × Nat) :=
  (a.zip b).zipIdx.flatMap fun e => [(stepCycles fmt (32 * e.2), e.1.1), (stepCycles fmt (32 * e.2) + 1, e.1.2)]

/-- The rule of R118 for a port of `n` positions over requests (cycle, line) in the order of their cycles: at most `n` in one cycle, and
at most `n` of one bank in 16 consecutive cycles. -/
def bankRule (n : Nat) : List (Nat × Nat) → Bool
  | [] => true
  | q :: rest =>
    let near := rest.takeWhile fun r => r.1 < q.1 + 16
    (near.filter fun r => r.1 == q.1).length < n && (near.filter fun r => r.2 % 16 == q.2 % 16).length < n && bankRule n rest

/-- The requests that a later one can still meet within 16 cycles: the last 64 of a port. -/
def lastRequests (l : List (Nat × Nat)) : List (Nat × Nat) := l.drop (l.length - 64)

/-! ## Operands -/

/-- The 128 elements of the stored row at a byte offset. -/
def State.rowElements (s : State) (p fmt off : Nat) : List Nat :=
  let bs := s.spadBytes p off (rowBytes fmt)
  (List.range 128).map fun i => elementAt bs (codeWidth fmt) i

/-- Elements to values, under the block scales of a row where the format is an MX one. -/
def rowValues (fmt : Nat) (es : List Nat) (scale : Nat → Nat) : List Num :=
  es.zipIdx.map fun e => if isMx fmt then decodeScaled fmt e.1 (scale (e.2 / 32)) else decodeElement fmt e.1

/-- The column operand of step `k`: row k of a plain tile, or column k of the stored tiles with TB set (R94). -/
def State.colOperand (s : State) (p : Nat) (d : List Byte) (fmt k steps : Nat) (t : Bool) : List Num :=
  if t then
    (List.range 128).map fun j =>
      decodeElement fmt ((s.rowElements p fmt (rowAddr d fmt (k / 128 * 128 + j))).getD (k % 128) 0)
  else
    rowValues fmt (s.rowElements p fmt (rowAddr d fmt k)) fun b =>
      ofLe (s.spadBytes p (128 * scaleLine d fmt steps + 4 * k + b) 1)

/-- The row operand of step `k`: with TA set, column k; plain in BF16 and FP16; else from the pre-skewed rows of R308. -/
def State.rowOperand (s : State) (p : Nat) (d : List Byte) (fmt k steps : Nat) (t : Bool) : List Num :=
  if t || skewShift fmt = 0 then s.colOperand p d fmt k steps t
  else
    let n := steps + 7 * skewShift fmt
    let es := (List.range 128).map fun r =>
      (s.rowElements p fmt (rowAddr d fmt (k + r / 16 * skewShift fmt))).getD r 0
    rowValues fmt es fun b => ofLe (s.spadBytes p (128 * scaleLine d fmt n + 4 * k + b) 1)

/-- The lines that an operand of `k` steps reads. -/
def operandLines (d : List Byte) (fmt k : Nat) (t skewed : Bool) : List Nat :=
  if t then tileLines d fmt ((k + 127) / 128 * 128)
  else
    let n := if skewed then k + 7 * skewShift fmt else k
    tileLines d fmt n ++ scaleLines d fmt n k

/-! ## Convolution (R95) -/

/-- Output position of logical row 0, and how many rows lie in its output line. -/
def convRows (d : List Byte) : Nat :=
  let ow := leAt d 0x2C 2
  if ow = 0 then 0 else min 128 (ow - leAt d 0x30 4 % ow)

/-- K of a CONV. -/
def convSteps (d : List Byte) : Nat := leAt d 0x18 1 * leAt d 0x19 1 * leAt d 0x1A 1 * leAt d 0x16 2 * 128

/-- An input coordinate in one dimension: output × stride − padding + kernel index × dilation; none outside the input. -/
def convCoord (d : List Byte) (dim out k size : Nat) : Option Nat :=
  let v : Int := (out * leAt d (0x1C + dim) 1 + k * leAt d (0x20 + dim) 1 : Nat) - (leAt d (0x24 + dim) 1 : Nat)
  if 0 ≤ v ∧ v < (size : Int) then some v.toNat else none

/-- The stored row (128 channels) and the channel that step `k` takes for logical row `r`; none where it supplies zero. -/
def convElement (d : List Byte) (k r : Nat) : Option (Nat × Nat) :=
  let ct := leAt d 0x16 2
  let kw := leAt d 0x1A 1
  let kh := leAt d 0x19 1
  let c := k % 128
  let t := k / 128 % ct
  let w := k / 128 / ct % kw
  let h := k / 128 / ct / kw % kh
  let f := k / 128 / ct / kw / kh
  let o := leAt d 0x30 4 + r
  let ow := leAt d 0x2C 2
  let oh := leAt d 0x2A 2
  if convRows d ≤ r then none
  else
    match convCoord d 0 (o / ow / oh) f (leAt d 0x10 2), convCoord d 1 (o / ow % oh) h (leAt d 0x12 2),
      convCoord d 2 (o % ow) w (leAt d 0x14 2) with
    | some a, some b, some e => some (((a * leAt d 0x12 2 + b) * leAt d 0x14 2 + e) * ct + t, c)
    | _, _, _ => none

/-- Where the unexpanded input ends: the first scale line of an MX input. -/
def convScaleLine (d : List Byte) (fmt : Nat) : Nat :=
  (leAt d 0 4 + leAt d 0x10 2 * leAt d 0x12 2 * leAt d 0x14 2 * leAt d 0x16 2 * rowBytes fmt - 1) / 128 + 1

def State.convOperand (s : State) (p : Nat) (d : List Byte) (fmt k : Nat) : List Num :=
  (List.range 128).map fun r =>
    match convElement d k r with
    | none => .fin false 0 0
    | some (row, c) =>
      let e := elementAt (s.spadBytes p (leAt d 0 4 + row * rowBytes fmt) (rowBytes fmt)) (codeWidth fmt) c
      if isMx fmt then decodeScaled fmt e (ofLe (s.spadBytes p (128 * convScaleLine d fmt + 4 * row + c / 32) 1))
      else decodeElement fmt e

def convLines (d : List Byte) (fmt : Nat) : List Nat :=
  ((List.range (convSteps d / 128)).flatMap fun q => (List.range 128).flatMap fun r =>
    match convElement d (128 * q) r with
    | none => []
    | some (row, _) => linesOf (leAt d 0 4 + row * rowBytes fmt) (rowBytes fmt) ++
        (if isMx fmt then linesOf (128 * convScaleLine d fmt + 4 * row) 4 else [])).eraseDups

/-! ## Accumulator banks (R91, R220) -/

abbrev cellKey (bank i j : Nat) : Nat := bank * 16384 + i * 128 + j

def Core.cell (c : Core) (bank i j : Nat) : Word32 := c.acc.get 0 (cellKey bank i j)

/-- A bank takes new cells, each a function of its place. -/
def Core.setBank (c : Core) (bank : Nat) (f : Nat → Nat → Word32) : Core :=
  let cells := (List.range 16384).filterMap fun n =>
    let v := f (n / 128) (n % 128)
    if v = 0 then none else some (bank * 16384 + n, v)
  let low := c.acc.filter fun e => decide (e.1 < bank * 16384)
  let high := c.acc.filter fun e => decide ((bank + 1) * 16384 ≤ e.1)
  { c with acc := low ++ cells ++ high }

/-- One cell after the steps of an ACC or CONV, in issue order (R220). -/
def accumulate (acc : Word32) (ab : List (Num × Num)) : Word32 :=
  ab.foldl (fun acc q => rn32 ((val32 acc).add (val32 (rn32 (q.1.mul q.2))))) acc

/-- `ope_acc` of R220 for given operand vectors of each step. -/
def Core.accSteps (c : Core) (bank : Nat) (steps : List (List Num × List Num)) : Core :=
  c.setBank bank fun i j =>
    accumulate (c.cell bank i j) (steps.map fun q => (q.1.getD i (.fin false 0 0), q.2.getD j (.fin false 0 0)))

/-! ## Numeric control (R222, Table 10.3) -/

/-- Whether argument register 31 is malformed for an operation that uses it. -/
def Core.controlBad (c : Core) : Bool :=
  let a := c.arg 31
  bits a 63 48 != 0 || bits a 31 20 != 0 || bits a 7 0 == 0x80 || bits a 7 0 == 0x81 || bits a 15 8 == 0x80 ||
    bits a 15 8 == 0x81

/-- The formats that may round stochastically (Table 10.4). -/
def srAllowed (fmt : Nat) : Bool := 1 ≤ fmt && fmt ≤ 4

/-- The codes that CVT may name. -/
def cvtCode (c : Nat) : Bool := c ≤ 4 || c == 0xA

/-! ## The plan of a COMPUTE bundle -/

/-- The lines that a bundle's OPE and vector slots read and write. -/
structure Plan where
  reads : List Nat := []
  writes : List Nat := []
  deriving DecidableEq, Repr, Inhabited

/-- The lines that a DRAIN writes: its rows, its scale lines, and AMAX_LINE (R223, R225). -/
def drainLines (d : List Byte) (fmt rows : Nat) : List Nat :=
  tileLines d fmt rows ++ (if isMx fmt then (List.range 4).map (scaleLine d fmt rows + ·) else [])

/-- The plan of the OPE slot, or the cause of the fault that ends the task. -/
def Core.opePlan (c : Core) (b : Nat) : Except Nat Plan :=
  let fmt := bFmt b
  let k := bSteps b
  let a31 := c.arg 31
  match bOop b with
  | 1 =>
    match c.generator (bAgA b) 0, c.generator (bAgB b) 0 with
    | some da, some db =>
      if !pitchOk da (rowCode fmt) || !pitchOk db (colCode fmt) then .error 4
      else .ok { reads := operandLines da (rowCode fmt) k (bTa b) true ++ operandLines db (colCode fmt) k (bTb b) false }
    | _, _ => .error 4
  | 3 =>
    match c.generator (bAgOut b) 0 with
    | some d =>
      if !pitchOk d 0 then .error 4 else if bOutFmt b ≠ 0 then .error 16 else .ok { reads := tileLines d 0 128 }
    | none => .error 4
  | 4 =>
    match c.generator (bAgOut b) 0 with
    | some d =>
      if !pitchOk d (bOutFmt b) then .error 4
      else if c.controlBad || (bitAt a31 16 && !srAllowed (bOutFmt b)) then .error 16
      else
        let rows := c.bankRows.get 128 (bBank b)
        .ok { writes := (if bitAt a31 17 then [] else drainLines d (bOutFmt b) rows) ++
          (if bitAt a31 18 then [bits a31 47 32] else []) }
    | none => .error 4
  | 5 =>
    match c.generator (bAgA b) 1, c.generator (bAgB b) 0 with
    | some da, some db =>
      if !pitchOk db (colCode fmt) then .error 4
      else .ok { reads := convLines da (rowCode fmt) ++ operandLines db (colCode fmt) (convSteps da) (bTb b) false }
    | _, _ => .error 4
  | _ => .ok {}

/-- The plan of the vector slot. -/
def Core.vecPlan (c : Core) (b : Nat) : Except Nat Plan :=
  let imm := bImm b
  let lines : Option (List Nat) :=
    (c.generator (Config.vectorGenerator imm % 16) 0).map fun d => linesOf (rowAddr d 0 (Config.vectorRow imm)) 512
  match bVop b with
  | 0x08 =>
    if c.controlBad || (bitAt imm 5 && !srAllowed (bits imm 13 10)) then .error 16 else .ok {}
  | 0x0D => match lines with | some l => .ok { reads := l } | none => .error 4
  | 0x0E => match lines with | some l => .ok { writes := l } | none => .error 4
  | 0x10 => if c.controlBad then .error 16 else .ok {}
  | _ => .ok {}

/-! ## Requests of a bundle to the scratchpad's banks (R118, R516) -/

/-- The cycle at which a LOAD or DRAIN starts (R91, R515). -/
def Core.outStart (c : Core) (b : Nat) : Nat :=
  let st := max c.cycle c.outFree
  if bOop b = 4 then max st (c.accEnd.get 0 (bBank b)) else st

/-- The requests of a LOAD or DRAIN on the OPE-OUT port: a row in each cycle, an MX tile's scale lines as their 32 rows end, AMAX_LINE
in the cycle after the last row (R223, R515). -/
def Core.outRequests (c : Core) (b : Nat) : List (Nat × Nat) :=
  let st := c.outStart b
  let a31 := c.arg 31
  match c.generator (bAgOut b) 0 with
  | none => []
  | some d =>
    if bOop b = 3 then (List.range 128).flatMap fun k => rowRequests d 0 k fun _ => st + k
    else if bOop b = 4 then
      let fmt := bOutFmt b
      let rows := c.bankRows.get 128 (bBank b)
      (if bitAt a31 17 then [] else (List.range 128).flatMap fun k =>
        (if k < rows then rowRequests d fmt k fun _ => st + k else []) ++
          (if isMx fmt && k % 32 = 31 then [(st + k, scaleLine d fmt rows + k / 32)] else [])) ++
        (if bitAt a31 18 then [(st + 128, bits a31 47 32)] else [])
    else []

/-- The requests of a vector LOAD or STORE, in its own cycle. -/
def Core.vecRequests (c : Core) (b : Nat) : List (Nat × Nat) :=
  if bVop b = 0xD || bVop b = 0xE then
    match c.vecPlan b with
    | .ok pl => (pl.reads ++ pl.writes).map fun l => (c.cycle, l)
    | .error _ => []
  else []

/-- Whether the feeders and the OPE-S port can serve an ACC, or the column feeder a CONV: each operation is taken by itself. -/
def Core.feedersOk (c : Core) (b : Nat) : Bool :=
  let fmt := bFmt b
  let ra := rowCode fmt
  let rb := colCode fmt
  let n := bSteps b
  if bOop b = 1 then
    match c.generator (bAgA b) 0, c.generator (bAgB b) 0 with
    | some da, some db =>
      bankRule 2 (feederRequests da fmt ra n (bTa b) true) && bankRule 2 (feederRequests db fmt rb n (bTb b) false) &&
        bankRule 1 (scaleRequests fmt (scaleLines da ra (n + 7 * skewShift ra) n) (scaleLines db rb n n))
    | _, _ => true
  else if bOop b = 5 then
    match c.generator (bAgA b) 1, c.generator (bAgB b) 0 with
    | some da, some db =>
      let sw := max 1 (leAt da 0x1E 1)
      bankRule 2 ((feederRequests db fmt rb (convSteps da) (bTb b) false).map fun q => (if bTb b then q.1 else sw * q.1, q.2))
    | _, _ => true
  else true

/-- Whether every port serves the bundle's requests together with those of the cycles before (R118). -/
def Core.portsOk (c : Core) (b : Nat) : Bool :=
  c.feedersOk b && ((bOop b != 3 && bOop b != 4) || bankRule 4 (c.outReqs ++ c.outRequests b)) &&
    ((bVop b != 0xD && bVop b != 0xE) || bankRule 4 (c.vecReqs ++ c.vecRequests b))

/-! ## Effects of the OPE -/

/-- ACC (R220). -/
def State.opeAcc (s : State) (p b : Nat) : Core :=
  let c := s.core p
  match c.generator (bAgA b) 0, c.generator (bAgB b) 0 with
  | some da, some db =>
    let n := bSteps b
    c.accSteps (bBank b) ((List.range n).map fun k =>
      (s.rowOperand p da (rowCode (bFmt b)) k n (bTa b), s.colOperand p db (colCode (bFmt b)) k n (bTb b)))
  | _, _ => c

/-- CONV (R95): the bank's rows beyond the output line will not be drained. -/
def State.opeConv (s : State) (p b : Nat) : Core :=
  let c := s.core p
  match c.generator (bAgA b) 1, c.generator (bAgB b) 0 with
  | some da, some db =>
    let n := convSteps da
    let c := c.accSteps (bBank b) ((List.range n).map fun k =>
      (s.convOperand p da (rowCode (bFmt b)) k, s.colOperand p db (colCode (bFmt b)) k n (bTb b)))
    { c with bankRows := c.bankRows.set 128 (bBank b) (convRows da) }
  | _, _ => c

/-- ZERO (R91). -/
def Core.opeZero (c : Core) (b : Nat) : Core :=
  { c.setBank (bBank b) (fun _ _ => 0) with bankRows := c.bankRows.erase (bBank b) }

/-- LOAD (R91, R223): 128 rows of FP32. -/
def State.opeLoad (s : State) (p b : Nat) : Core :=
  let c := s.core p
  match c.generator (bAgOut b) 0 with
  | some d =>
    let rows := (List.range 128).map fun i => s.rowElements p 0 (rowAddr d 0 i)
    { c.setBank (bBank b) (fun i j => BitVec.ofNat 32 ((rows.getD i []).getD j 0)) with
      bankRows := c.bankRows.erase (bBank b) }
  | none => c

/-- The largest magnitude of a bank joined to the running amax (R223). -/
def Core.bankAmax (c : Core) (bank : Nat) : Word32 :=
  (List.range 16384).foldl (fun a n => rn32 ((val32 a).max (val32 (c.cell bank (n / 128) (n % 128))).abs)) c.amax

/-- The exact value that a DRAIN converts: v × 2^Eb (R223). -/
def Core.drainValue (c : Core) (bank i j : Nat) : Num :=
  (val32 (c.cell bank i j)).scale (toSigned 8 (if bank = 0 then bits (c.arg 31) 7 0 else bits (c.arg 31) 15 8))

/-- The codes of row `i` of a DRAIN to a scalar format, with the draws of R228 where SR is set. -/
def Core.drainRow (c : Core) (bank fmt i : Nat) : List Nat :=
  let sr := bitAt (c.arg 31) 16
  (List.range 128).map fun j =>
    let idx := (bits (c.arg 29) 31 0 + c.drains) * 16384 + i * 128 + j
    let rd : Rounding := if sr then .sr (rngWord 0 (c.arg 30) (bits (c.arg 29) 63 32) idx % 65536) else .rne
    encodeElement fmt rd (c.drainValue bank i j)

/-- Block scales and element codes of row `i` of a DRAIN to an MX format (R225: E0 and E1 are ignored). -/
def Core.drainBlocks (c : Core) (bank fmt i : Nat) : List (Nat × List Nat) :=
  (List.range 4).map fun q =>
    encodeBlock fmt ((List.range 32).map fun j => val32 (c.cell bank i (32 * q + j)))

/-- The bytes that a DRAIN puts at each offset of the scratchpad: (offset, bytes), rows then scales. -/
def Core.drainData (c : Core) (bank fmt : Nat) (d : List Byte) : List (Nat × List Byte) :=
  let rows := c.bankRows.get 128 bank
  if isMx fmt then
    let bl := (List.range rows).map fun i => c.drainBlocks bank fmt i
    (bl.zipIdx.map fun q => (rowAddr d fmt q.2, packElements (codeWidth fmt) (q.1.flatMap (·.2)))) ++
      (bl.zipIdx.map fun q => (128 * scaleLine d fmt rows + 4 * q.2, q.1.map fun x => BitVec.ofNat 8 x.1))
  else (List.range rows).map fun i => (rowAddr d fmt i, packElements (codeWidth fmt) (c.drainRow bank fmt i))

/-- Whole lines of given pieces; what no piece covers is zero (R515). -/
def coverLine (ps : List (Nat × List Byte)) (l : Nat) : List Byte :=
  let near := ps.filter fun q => q.1 < 128 * (l + 1) && 128 * l < q.1 + q.2.length
  (List.range 128).map fun i =>
    match near.find? fun q => q.1 ≤ 128 * l + i && 128 * l + i < q.1 + q.2.length with
    | some q => q.2.getD (128 * l + i - q.1) 0
    | none => 0

/-- Sets the core's non-finite flag of a job (R237). -/
def State.setNonfinite (s : State) (p slot : Nat) : State :=
  { s with conts := { s.conts with nonfinite := s.conts.nonfinite.set false (p * 64 + slot) true } }

/-- DRAIN (R223-R225, R237). -/
def State.opeDrain (s : State) (p b slot : Nat) : State :=
  let c := s.core p
  match c.generator (bAgOut b) 0 with
  | none => s
  | some d =>
    let fmt := bOutFmt b
    let bank := bBank b
    let a31 := c.arg 31
    let amax := c.bankAmax bank
    let ps := c.drainData bank fmt d
    let bad := !(val32 amax).isFinite || !bitAt a31 17 &&
      (if isMx fmt then (List.range 128).any fun i => (c.drainBlocks bank fmt i).any fun x => x.1 == 0xFF
       else (List.range 128).any fun i => (c.drainRow bank fmt i).any fun v => codeNonfinite fmt v)
    let s := s.setCore p { c with amax := amax, drains := c.drains + b2n (bitAt a31 16) }
    let s := if bitAt a31 19 && bad then s.setNonfinite p slot else s
    let s := if bitAt a31 17 then s
      else ((drainLines d fmt (c.bankRows.get 128 bank)).eraseDups).foldl (fun s l =>
        s.storeLine p l (coverLine ps l) false) s
    if bitAt a31 18 then s.storeLine p (bits a31 47 32) (le 4 amax.toNat ++ List.replicate 124 0) false else s

/-! ## The vector unit (R96, R227-R230) -/

def Core.lanes (c : Core) (v : Nat) : List Word32 := (List.range 128).map fun l => c.vreg.get 0 (128 * v + l)

/-- A vector register takes 128 lanes. -/
def Core.setLanes (c : Core) (v : Nat) (ls : List Word32) : Core :=
  { c with vreg := ((List.range 128).foldl (fun m l => TMap.set 0 m (128 * v + l) (ls.getD l 0)) c.vreg) }

/-- The 512 bytes of a vector register. -/
def laneBytes (ls : List Word32) : List Byte := ls.flatMap fun w => le 4 w.toNat

/-- Bytes as 128 lanes; missing bytes are zero. -/
def bytesLanes (bs : List Byte) : List Word32 := (List.range 128).map fun l => BitVec.ofNat 32 (leAt bs (4 * l) 4)

abbrev bVd (b : Nat) : Nat := bits b 65 61
abbrev bVa (b : Nat) : Nat := bits b 60 56
abbrev bVb (b : Nat) : Nat := bits b 55 51
abbrev bVc (b : Nat) : Nat := bits b 50 46

/-- A lane-wise operation of VA, VB and VC. -/
def Core.lanewise (c : Core) (b : Nat) (f : Word32 → Word32 → Word32 → Word32) : Core :=
  let va := c.lanes (bVa b)
  let vb := c.lanes (bVb b)
  let vc := c.lanes (bVc b)
  c.setLanes (bVd b) ((List.range 128).map fun l => f (va.getD l 0) (vb.getD l 0) (vc.getD l 0))

/-- The result codes of CVT (R227, Table 10.5). -/
def Core.cvtCodes (c : Core) (b : Nat) : List Nat :=
  let imm := bImm b
  let dst := bits imm 13 10
  let src := bits imm 9 6
  let bs := laneBytes (c.lanes (bVa b))
  let vb := c.lanes (bVb b)
  let vc := c.lanes (bVc b)
  (List.range 128).map fun l =>
    let x := (decodeElement src (elementAt bs (codeWidth src) l)).scale (toSigned 8 ((vb.getD l 0).toNat % 256))
    let idx := bits (c.arg 29) 31 0 * 16384 + (vc.getD l 0).toNat
    let rd : Rounding :=
      if bitAt imm 5 then .sr (rngWord 0 (c.arg 30) (bits (c.arg 29) 63 32) idx % 65536) else .rne
    encodeElement dst rd x

/-- CVT. -/
def State.vecCvt (s : State) (p b slot : Nat) : State :=
  let c := s.core p
  let imm := bImm b
  let dst := bits imm 13 10
  let codes := c.cvtCodes b
  let s := s.setCore p (c.setLanes (bVd b) (bytesLanes (packElements (codeWidth dst) codes)))
  if bitAt imm 4 && codes.any (codeNonfinite dst) then s.setNonfinite p slot else s

/-- RNG (R230). -/
def Core.vecRng (c : Core) (b : Nat) : Core :=
  let imm := bImm b
  let word (i : Word32) : Nat :=
    rngWord (bits imm 13 12) (c.arg 30) (bits (c.arg 29) 63 32) (bits (c.arg 29) 31 0 * 16384 + i.toNat)
  c.lanewise b fun a _ _ =>
    if bitAt imm 11 then rn32 (.fin false (word a / 256) (-24)) else BitVec.ofNat 32 (word a)

/-- LANE_SUM (R96): the sum in lane 0. -/
def Core.vecLaneSum (c : Core) (b : Nat) : Core :=
  let sum := canonicalSum (c.lanes (bVa b))
  c.setLanes (bVd b) (sum :: (List.range 127).map fun i => Config.laneSumRest sum (i + 1))

/-- LOAD of 512 bytes. -/
def State.vecLoad (s : State) (p b : Nat) : Core :=
  let c := s.core p
  match c.generator (Config.vectorGenerator (bImm b) % 16) 0 with
  | some d => c.setLanes (bVd b) (bytesLanes (s.spadBytes p (rowAddr d 0 (Config.vectorRow (bImm b))) 512))
  | none => c

/-- STORE of 512 bytes. -/
def State.vecStore (s : State) (p b : Nat) : State :=
  let c := s.core p
  match c.generator (Config.vectorGenerator (bImm b) % 16) 0 with
  | some d =>
    let bs := laneBytes (c.lanes (bVa b))
    let first := rowAddr d 0 (Config.vectorRow (bImm b)) / 128
    (List.range 4).foldl (fun s i => s.storeLine p (first + i) ((bs.drop (128 * i)).take 128) false) s
  | none => s

end Sys2Proof.Machine
end

