-- ==== Sys2Proof/Machine/Continuity.lean ====
section
/-! DEFINITION. The continuity engine: slots, row descriptors, frames and windows, row arithmetic (spec/07). -/

namespace Sys2Proof.Machine

/-! ## Slot and descriptor (Tables 7.1 to 7.3) -/

abbrev cCop (w : Nat) : Nat := bits w 31 26
abbrev cDesc (w : Nat) : Nat := bits w 25 11
abbrev cFrame (w : Nat) : Nat := bits w 10 2
abbrev cFlag (w : Nat) : Bool := bitAt w 1

/-- The operations of Table 7.2. -/
def copKnown (o : Nat) : Bool := (1 ≤ o && o ≤ 5) || (9 ≤ o && o ≤ 11) || o == 0x10

/-- Whether an operation uses a frame (Table 7.2). -/
def copFrame (w : Nat) : Bool :=
  let o := cCop w
  if 1 ≤ o && o ≤ 3 then cFlag w else true

/-- Whether the continuity slot is illegal (R145). -/
def contSlotBad (w : Nat) : Bool :=
  if w = 0 then false
  else
    let o := cCop w
    !copKnown o || bitAt w 0 || ((o == 5 || o == 0x10) && cFlag w) || (!copFrame w && cFrame w != 0) ||
      (o == 0x10 && cDesc w != 0)

/-- KIND of the frames of an operation (R147). -/
def copKind (o : Nat) : Nat :=
  if o = 1 || o = 9 then 1 else if o = 2 || o = 0xA then 2 else 3

def copBackward (o : Nat) : Bool := 9 ≤ o && o ≤ 11

/-- A row descriptor (Table 7.3). -/
structure RowDesc where
  rows : Nat
  width : Nat
  fmtIn : Nat
  fmtOut : Nat
  key : Nat
  eps : Word32
  inScale : Word32
  outScale : Word32
  inLine : Nat
  inPitch : Nat
  in2Line : Nat
  in2Pitch : Nat
  outLine : Nat
  outPitch : Nat
  paramLine : Nat
  gradLine : Nat
  auxLine : Nat
  amaxLine : Nat
  deriving DecidableEq, Repr, Inhabited

def RowDesc.read (d : List Byte) : RowDesc :=
  let h (o : Nat) : Nat := leAt d o 2
  let f (o : Nat) : Word32 := BitVec.ofNat 32 (leAt d o 4)
  ⟨h 0, h 2, leAt d 4 1, leAt d 5 1, h 6, f 8, f 0xC, f 0x10, h 0x14, h 0x16, h 0x18, h 0x1A, h 0x1C, h 0x1E, h 0x20, h 0x22,
    h 0x24, h 0x26⟩

/-- Lines of a packed row. -/
def RowDesc.rowLines (d : RowDesc) (fmt : Nat) : Nat := ceilDiv (d.width * codeWidth fmt / 8) 128

/-- W' of R146: FP32 lines of a row. -/
def RowDesc.fp32Lines (d : RowDesc) : Nat := ceilDiv d.width 32

/-- Lines between rows. -/
def pitchOr (pitch packed : Nat) : Nat := if pitch = 0 then packed else pitch

/-- The lines of rows at a line with a pitch. -/
def rowsLines (rows line pitch n : Nat) : List Nat :=
  (List.range rows).flatMap fun r => (List.range n).map fun i => line + r * pitch + i

def RowDesc.inLines (d : RowDesc) : List Nat :=
  rowsLines d.rows d.inLine (pitchOr d.inPitch (d.rowLines d.fmtIn)) (d.rowLines d.fmtIn)
def RowDesc.in2Lines (d : RowDesc) : List Nat :=
  rowsLines d.rows d.in2Line (pitchOr d.in2Pitch (d.rowLines d.fmtIn)) (d.rowLines d.fmtIn)
def RowDesc.outLines (d : RowDesc) : List Nat :=
  rowsLines d.rows d.outLine (pitchOr d.outPitch (d.rowLines d.fmtOut)) (d.rowLines d.fmtOut)

/-- γ alone, or γ and β: packed FP32 vectors. -/
def RowDesc.paramLines (d : RowDesc) (vectors : Nat) : List Nat :=
  if d.paramLine = 0xFFFF then [] else (List.range (vectors * d.fp32Lines)).map (d.paramLine + ·)
def RowDesc.gradLines (d : RowDesc) (vectors : Nat) : List Nat :=
  if d.gradLine = 0xFFFF then [] else (List.range (vectors * d.fp32Lines)).map (d.gradLine + ·)
def RowDesc.auxLines (d : RowDesc) : List Nat :=
  if d.auxLine = 0xFFFF then [] else (List.range (ceilDiv (4 * d.rows) 128)).map (d.auxLine + ·)

/-- Vectors in PARAM_LINE and GRAD_LINE: γ and β for LN, γ for RMS. -/
def copVectors (o : Nat) : Nat := if o = 1 || o = 9 then 2 else if o = 2 || o = 0xA then 1 else 0

/-- The lines that an operation reads: inputs, parameters, accumulators, D. -/
def RowDesc.reads (d : RowDesc) (o : Nat) : List Nat :=
  (if o = 5 then [] else d.inLines) ++ (if copBackward o then d.in2Lines else []) ++
    d.paramLines (copVectors o) ++ (if copBackward o then d.gradLines (copVectors o) else []) ++
    (if o = 0xB then d.auxLines else [])

/-- The lines that an operation writes. -/
def RowDesc.writes (d : RowDesc) (o : Nat) : List Nat :=
  (if o = 5 || d.outLine = 0xFFFF then [] else d.outLines) ++
    (if copBackward o then d.gradLines (copVectors o) else []) ++
    (if o = 4 || o = 5 then d.auxLines else []) ++ (if d.amaxLine = 0xFFFF then [] else [d.amaxLine])

/-- Whether the engine refuses a descriptor (R146, cause 9), apart from the frame's place. -/
def RowDesc.bad (d : RowDesc) (o : Nat) (raw : List Byte) (usesFrame : Bool) : Bool :=
  d.rows = 0 || 128 < d.rows || d.width = 0 || 8192 < d.width || 4 < d.fmtIn || 4 < d.fmtOut ||
    (!usesFrame && d.key != 0) || (copKind o == 3 && d.eps != 0) || (!copBackward o && d.in2Line != 0xFFFF) ||
    ((o == 4 || o == 5) && d.auxLine == 0xFFFF) || leAt raw 0x28 88 != 0 ||
    (d.reads o ++ d.writes o).any fun l => 24575 < l

/-! ## Frames (R147-R150) -/

abbrev frameKey (p a : Nat) : Nat := p * 512 + a
abbrev windowKey (p slot : Nat) : Nat := p * 64 + slot

def State.frameTag (s : State) (p a : Nat) : FrameTag := s.conts.tags.get {} (frameKey p a)

def State.setFrameTag (s : State) (p a : Nat) (t : FrameTag) : State :=
  { s with conts := { s.conts with tags := s.conts.tags.set {} (frameKey p a) t } }

def State.window (s : State) (p slot : Nat) : FrameWindow := s.conts.windows.get {} (windowKey p slot)

/-- Where a frame lies (R148): its absolute number, and the first scratchpad line of a spill frame. -/
def framePlace (w : FrameWindow) (rel : Nat) : Option (Nat × Option Nat) :=
  if w.count ≤ rel then none
  else
    let a := w.base + rel
    if a < 64 then some (a, none) else some (a, some (w.spill + (a - max 64 w.base) * 8))

/-- The 1,024 bytes of a frame. -/
def State.frameBytes (s : State) (p a : Nat) (spill : Option Nat) : List Byte :=
  match spill with
  | some l => s.spadBytes p (128 * l) 1024
  | none => (List.range 1024).map fun i => s.conts.store.get 0 (p * 65536 + a * 1024 + i)

/-- A frame takes new entries (R149, R152). -/
def State.setFrameBytes (s : State) (p a : Nat) (spill : Option Nat) (bs : List Byte) : State :=
  match spill with
  | some l => (List.range 8).foldl (fun s i => s.storeLine p (l + i) ((bs.drop (128 * i)).take 128) false) s
  | none => { s with conts := { s.conts with store := putBytes s.conts.store (p * 65536 + a * 1024) bs } }

/-- A frame is written and tagged; an overwritten frame of another key is counted (R149). -/
def State.writeFrame (s : State) (p slot a : Nat) (spill : Option Nat) (kind rows key : Nat) (es : List (Word32 × Word32)) :
    State :=
  let t := s.frameTag p a
  let s := if t.valid && t.key != key then s.bump (uCont p) 0x020 7 0 1 else s
  let bs := (es.take rows).flatMap fun e => le 4 e.1.toNat ++ le 4 e.2.toNat
  let s := s.setFrameBytes p a spill (bs ++ List.replicate (1024 - bs.length) 0)
  s.setFrameTag p a ⟨true, false, slot, kind, rows, key⟩

/-- The check before a frame is read (R150): the cause of the fault. -/
def FrameTag.readFault (t : FrameTag) (slot kind rows key : Nat) : Option Nat :=
  if t.poison then some 2
  else if !t.valid || t.slot ≠ slot || t.kind ≠ kind || t.rows ≠ rows || t.key ≠ key then some 7
  else none

/-- Entry r of a frame (R147). -/
def frameEntry (bs : List Byte) (r : Nat) : Word32 × Word32 :=
  (BitVec.ofNat 32 (leAt bs (8 * r) 4), BitVec.ofNat 32 (leAt bs (8 * r + 4) 4))

/-! ## Arithmetic (R153, Table 7.4) -/

def fp32Zero : Word32 := 0
def fp32NegInf : Word32 := 0xFF800000
def fp32One : Word32 := 0x3F800000
def log2e : Word32 := 0x3FB8AA3B

def frcp (x : Word32) : Word32 := Config.elementary 2 x
def frsqrt (x : Word32) : Word32 := Config.elementary 3 x
def fexp2 (x : Word32) : Word32 := Config.elementary 0 x

/-- A row reduction: 32 parts over ascending j, then the tree (R153). -/
def rowReduce (f : Word32 → Word32 → Word32) (init : Word32) (v : List Word32) : Word32 :=
  let part := v.zipIdx.foldl (fun (ps : List Word32) e =>
    ps.set (e.2 % 32) (f (ps.getD (e.2 % 32) init) e.1)) (List.replicate 32 init)
  let half (l : List Word32) : List Word32 :=
    (List.range (l.length / 2)).map fun i => f (l.getD (2 * i) init) (l.getD (2 * i + 1) init)
  (half (half (half (half (half part))))).getD 0 init

def rowSum (v : List Word32) : Word32 := rowReduce fadd fp32Zero v
def rowMax (v : List Word32) : Word32 := rowReduce fmax fp32NegInf v

/-- W as FP32. -/
def widthWord (w : Nat) : Word32 := rn32 (.fin false w 0)

/-- What a row gives: statistics, AUX value, elements before OUT_SCALE, and addends of dγ and dβ. -/
structure RowResult where
  a : Word32 := 0
  b : Word32 := 0
  aux : Word32 := 0
  ys : List Word32 := []
  dg : List Word32 := []
  db : List Word32 := []
  deriving DecidableEq, Repr, Inhabited

/-- exp2((x − m) × LOG2E). -/
def expOf (m x : Word32) : Word32 := fexp2 (fmul (fsub x m) log2e)

/-- One row of an operation (Table 7.4): x the row of x or s, y2 the row of dy or dp, the statistics read, D if given. -/
def rowFormula (o : Nat) (first : Bool) (w : Nat) (eps : Word32) (g be x y2 : List Word32) (st : Word32 × Word32)
    (dGiven : Option Word32) : RowResult :=
  let rw := frcp (widthWord w)
  let gam (j : Nat) : Word32 := g.getD j fp32One
  let bet (j : Nat) : Word32 := be.getD j fp32Zero
  let idx := List.range x.length
  let xa (j : Nat) : Word32 := x.getD j 0
  let ya (j : Nat) : Word32 := y2.getD j 0
  match o with
  | 1 =>
    let a := fmul (rowSum x) rw
    let d := x.map fun v => fsub v a
    let b := frsqrt (fadd (fmul (rowSum (d.map fun v => fmul v v)) rw) eps)
    { a := a, b := b, ys := idx.map fun j => fadd (fmul (fmul (d.getD j 0) b) (gam j)) (bet j) }
  | 2 =>
    let b := frsqrt (fadd (fmul (rowSum (x.map fun v => fmul v v)) rw) eps)
    { a := 0, b := b, ys := idx.map fun j => fmul (fmul (xa j) b) (gam j) }
  | 3 =>
    let a := rowMax x
    if a = fp32NegInf then { a := a, b := 0, ys := x.map fun _ => 0 }
    else
      let e := x.map (expOf a)
      let b := rowSum e
      { a := a, b := b, ys := e.map fun v => fmul v (frcp b) }
  | 4 =>
    let a0 := if first then fp32NegInf else st.1
    let b0 := if first then fp32Zero else st.2
    let a := fmax a0 (rowMax x)
    if a = fp32NegInf then { a := a, b := 0, aux := fp32One, ys := x.map fun _ => 0 }
    else
      let f := expOf a a0
      let e := x.map (expOf a)
      { a := a, b := fadd (fmul b0 f) (rowSum e), aux := f, ys := e }
  | 5 =>
    { a := st.1, b := st.2, aux := if (val32 st.2).abs.lt (.fin false 1 (-200)) then 0 else frcp st.2 }
  | 9 =>
    let xh := x.map fun v => fmul (fsub v st.1) st.2
    let gr := idx.map fun j => fmul (ya j) (gam j)
    let c1 := fmul (rowSum gr) rw
    let c2 := fmul (rowSum (idx.map fun j => fmul (gr.getD j 0) (xh.getD j 0))) rw
    { a := st.1, b := st.2,
      ys := idx.map fun j => fmul st.2 (fsub (fsub (gr.getD j 0) c1) (fmul (xh.getD j 0) c2)),
      dg := idx.map fun j => fmul (ya j) (xh.getD j 0), db := y2 }
  | 0xA =>
    let xh := x.map fun v => fmul v st.2
    let gr := idx.map fun j => fmul (ya j) (gam j)
    let c2 := fmul (rowSum (idx.map fun j => fmul (gr.getD j 0) (xh.getD j 0))) rw
    { a := st.1, b := st.2,
      ys := idx.map fun j => fmul st.2 (fsub (gr.getD j 0) (fmul (xh.getD j 0) c2)),
      dg := idx.map fun j => fmul (ya j) (xh.getD j 0) }
  | _ =>
    if st.1 = fp32NegInf then { a := st.1, b := st.2, ys := x.map fun _ => 0 }
    else
      let pr := x.map fun v => fmul (expOf st.1 v) (frcp st.2)
      let dd := dGiven.getD (rowSum (idx.map fun j => fmul (pr.getD j 0) (ya j)))
      { a := st.1, b := st.2, ys := idx.map fun j => fmul (pr.getD j 0) (fsub (ya j) dd) }

/-! ## An operation -/

/-- A row of inputs: converted to FP32, then multiplied by IN_SCALE (R153). -/
def State.inputRow (s : State) (p : Nat) (d : RowDesc) (line : Nat) : List Word32 :=
  let bs := s.spadBytes p (128 * line) (128 * d.rowLines d.fmtIn)
  (List.range d.width).map fun j =>
    fmul (rn32 (decodeElement d.fmtIn (elementAt bs (codeWidth d.fmtIn) j))) d.inScale

/-- A packed FP32 vector of WIDTH values. -/
def State.fp32Vector (s : State) (p line n : Nat) : List Word32 :=
  let bs := s.spadBytes p (128 * line) (4 * n)
  (List.range n).map fun j => BitVec.ofNat 32 (leAt bs (4 * j) 4)

/-- Bytes are stored in whole lines from a line; the rest of the last line is zero. -/
def State.storeBytes (s : State) (p line : Nat) (bs : List Byte) : State :=
  (List.range (ceilDiv bs.length 128)).foldl (fun s i =>
    let part := (bs.drop (128 * i)).take 128
    s.storeLine p (line + i) (part ++ List.replicate (128 - part.length) 0) false) s

/-- The cause of the fault with which the engine refuses an operation, before it writes anything (R146, R150). -/
def State.contFault (s : State) (p slot w : Nat) : Option Nat :=
  let o := cCop w
  if o = 0x10 then (if (framePlace (s.window p slot) (cFrame w)).isNone then some 9 else none)
  else
    let raw := s.line p (cDesc w)
    let d := RowDesc.read raw
    if d.bad o raw (copFrame w) then some 9
    else if copFrame w then
      match framePlace (s.window p slot) (cFrame w) with
      | none => some 9
      | some (a, _) =>
        if copBackward o || o = 5 || (o = 4 && !cFlag w) then (s.frameTag p a).readFault slot (copKind o) d.rows d.key
        else none
    else none

/-- Every row of an operation, in ascending order. -/
def State.contRows (s : State) (p slot w : Nat) (d : RowDesc) : List RowResult :=
  let o := cCop w
  let fb := match framePlace (s.window p slot) (cFrame w) with
    | some (a, spill) => if copFrame w then s.frameBytes p a spill else []
    | none => []
  let g := if d.paramLine = 0xFFFF then [] else s.fp32Vector p d.paramLine d.width
  let be := if d.paramLine = 0xFFFF || o != 1 then [] else s.fp32Vector p (d.paramLine + d.fp32Lines) d.width
  let aux := s.fp32Vector p d.auxLine d.rows
  (List.range d.rows).map fun r =>
    let x := if o = 5 then [] else s.inputRow p d (d.inLine + r * pitchOr d.inPitch (d.rowLines d.fmtIn))
    let y := if copBackward o then s.inputRow p d (d.in2Line + r * pitchOr d.in2Pitch (d.rowLines d.fmtIn)) else []
    rowFormula o (o == 4 && cFlag w) d.width d.eps g be x y (frameEntry fb r)
      (if o = 0xB && d.auxLine != 0xFFFF then aux[r]? else none)

/-- Whether an FP32 word is an infinity or a NaN. -/
def nonfinite (w : Word32) : Bool := !(val32 w).isFinite

/-- The output codes of a row (R154). -/
def outCodes (d : RowDesc) (r : RowResult) : List Nat :=
  r.ys.map fun y => encodeElement d.fmtOut .rne (val32 (fmul y d.outScale))

/-- An operation writes its outputs, its frame, AUX, gradients and amax (R149, R153, R154). -/
def State.contApply (s : State) (p slot w : Nat) (d : RowDesc) (rs : List RowResult) : State :=
  let o := cCop w
  let place := framePlace (s.window p slot) (cFrame w)
  let writesStat := copFrame w && o ≤ 4
  let s :=
    if o = 5 || d.outLine = 0xFFFF then s
    else rs.zipIdx.foldl (fun s r =>
      s.storeBytes p (d.outLine + r.2 * pitchOr d.outPitch (d.rowLines d.fmtOut))
        (packElements (codeWidth d.fmtOut) (outCodes d r.1))) s
  let s := match place with
    | some (a, spill) =>
      if writesStat then s.writeFrame p slot a spill (copKind o) d.rows d.key (rs.map fun (r : RowResult) => (r.a, r.b)) else s
    | none => s
  let s := if o = 4 || o = 5 then s.storeBytes p d.auxLine (rs.flatMap fun (r : RowResult) => le 4 r.aux.toNat) else s
  let sumInto (old : List Word32) (f : RowResult → List Word32) : List Word32 :=
    rs.foldl (fun acc r => acc.zipIdx.map fun e => fadd e.1 ((f r).getD e.2 0)) old
  let hasGrad := copBackward o && d.gradLine != 0xFFFF && copVectors o != 0
  let dg := if hasGrad then sumInto (s.fp32Vector p d.gradLine d.width) (·.dg) else []
  let db := if hasGrad && o = 9 then sumInto (s.fp32Vector p (d.gradLine + d.fp32Lines) d.width) (·.db) else []
  let s := if hasGrad then s.storeBytes p d.gradLine (laneBytes dg) else s
  let s := if hasGrad && o = 9 then s.storeBytes p (d.gradLine + d.fp32Lines) (laneBytes db) else s
  let amax := (rs.flatMap (·.ys)).foldl (fun a y => rn32 ((val32 a).max (val32 y).abs)) fp32Zero
  let s := if d.amaxLine = 0xFFFF then s
    else s.storeLine p d.amaxLine (le 4 amax.toNat ++ List.replicate 124 0) false
  let badOut (r : RowResult) : Bool :=
    o != 5 && d.outLine != 0xFFFF && (outCodes d r).any (codeNonfinite d.fmtOut)
  let badRow (r : RowResult) : Bool :=
    badOut r || (writesStat && (nonfinite r.a || nonfinite r.b)) || ((o = 4 || o = 5) && nonfinite r.aux)
  let n := (rs.filter badRow).length
  let s := s.bump (uCont p) 0x020 31 16 n
  let s := if copBackward o && (rs.any badOut || dg.any nonfinite || db.any nonfinite) then s.setNonfinite p slot else s
  let s := match place with
    | some (a, _) => if copBackward o && cFlag w then s.setFrameTag p a { s.frameTag p a with valid := false } else s
    | none => s
  s.bump (uCont p) 0x020 63 32 1

/-- A legal, accepted operation of a COMPUTE bundle's continuity slot. -/
def State.contOp (s : State) (p slot w : Nat) : State :=
  let s := { s with conts := { s.conts with running := s.conts.running.insert p (cCop w, slot) } }
  if cCop w = 0x10 then
    match framePlace (s.window p slot) (cFrame w) with
    | some (a, _) =>
      (s.setFrameTag p a { s.frameTag p a with valid := false }).bump (uCont p) 0x020 63 32 1
    | none => s
  else
    let d := RowDesc.read (s.line p (cDesc w))
    s.contApply p slot w d (s.contRows p slot w d)

/-- The cycles from issue to completion (R155, Table 7.5). -/
def contCycles (w : Nat) (d : RowDesc) : Nat :=
  let o := cCop w
  let w1 := d.fp32Lines
  if o = 0x10 then 2
  else
    let per := if o = 5 then 1 else if o = 2 || o = 4 then 2 * w1 else 3 * w1
    let extra := if d.gradLine = 0xFFFF then 0 else if o = 9 then 4 * w1 else if o = 0xA then 2 * w1 else 0
    60 + d.rows * per + extra

/-- The lines that a continuity slot reads under the footprint check of R122: descriptor, inputs, parameters, accumulators. -/
def State.contReads (s : State) (p w : Nat) : List Nat :=
  if w = 0 || cCop w = 0x10 then []
  else cDesc w :: (RowDesc.read (s.line p (cDesc w))).reads (cCop w)

end Sys2Proof.Machine
end

