-- ==== Sys2Proof/Machine/Tasks.lean ====
section
/-! DEFINITION. Tasks as the scheduler and the sequencer see them: free cores, the order of placement, the start of a task, and
the sequencer's program counter and loops (R16, R97, R101, R360-R362). -/

namespace Sys2Proof.Machine

def State.kernel (s : State) (slot id : Nat) : Option Kernel :=
  (s.cores.kernels.find? fun e => e.1 == slot * 256 + id).map (·.2)

def State.setKernel (s : State) (slot id : Nat) (k : Kernel) : State :=
  { s with cores := { s.cores with kernels := s.cores.kernels.insert (slot * 256 + id) k } }

/-- A bundle of a kernel, as a 128-bit number. -/
def Kernel.bundle (k : Kernel) (pc : Nat) : Option Nat := k.bundles[pc]?

/-- Whether a physical core could take a task now: it holds a logical id, has no task, is in no repair hold, and no screen
test holds or awaits it (R16, R103, R419). -/
def State.coreFree (s : State) (p : Nat) : Bool :=
  let c := s.core p
  s.active (uCore p) && s.logicalOf p < 144 && c.task.isNone && (c.phase == .idle || c.phase == .gated) && !c.failing &&
    !(s.diag.screens.any fun t => t.unit == uCore p)

/-- The allotment that a logical core is in (R366). -/
def State.allotmentOf (s : State) (c : Nat) : Option Nat :=
  if s.sched.allotmentMode then (List.range 16).find? fun a => (s.allot a).valid && (s.allot a).cores.contains c
  else if c < 144 then some 0 else none

/-- Free cores of an allotment (R362). -/
def State.freeCores (s : State) (a : Nat) : List Nat :=
  (s.allot a).cores.filter fun c => !(s.allot a).leaving.contains c && (s.physOf c).any fun p => s.coreFree p

/-- The job whose turn it is in an allotment; none where tailwater work takes no turns (R360, R368). -/
def State.turnOf (s : State) (a : Nat) : Option Nat :=
  if s.sched.allotmentMode && (s.allot a).turnUs ≠ 0 && (s.allot a).turnActive then some (s.allot a).turnJob else none

/-- Whether a tailwater task of a job may be placed (R360, R362). -/
def State.tailwaterOk (s : State) (slot : Nat) : Bool :=
  let a := (s.job slot).allotment
  let al := s.allot a
  (if s.sched.allotmentMode && al.turnUs ≠ 0 then al.turnActive && al.turnJob == slot else true) &&
    al.hgReserve < (s.freeCores a).length

/-- The run of a command. -/
def State.runOf (s : State) (h : CmdHdr) : Option TaskRun := s.sched.runs.find? fun r => decide (r.cmd.hdr = h)

/-- Whether a task may be placed on a logical core: it is of the job's allotment and not leaving it, the task may run there, no
frame window of the job waits to be applied there (R160), and its command is below MAX_CORES (R361). -/
def State.mayRun (s : State) (t : Task) (c : Nat) : Bool :=
  let a := s.allot (s.job t.slot).allotment
  a.cores.contains c && !a.leaving.contains c && (t.cores.isEmpty || t.cores.contains c) &&
    !(s.conts.pending.any fun w => w.slot == t.slot && (s.physOf c).any w.cores.contains) &&
    ((s.runOf t.cmd).all fun r => r.maxCores == 0 || r.running < r.maxCores)

/-- The earlier of two tasks of one job and class (R361). -/
def Task.before (a b : Task) : Bool := a.order < b.order || (a.order == b.order && a.index < b.index)

/-- The first task of a list in dispatch and index order. -/
def firstTask (l : List Task) : Option Task :=
  l.foldl (fun (acc : Option Task) t => match acc with
    | none => some t
    | some a => if t.before a then some t else some a) none

/-- Whether a tailwater task would end within its job's turn, where the turn guard asks it (R368). -/
def State.turnFits (s : State) (t : Task) : Bool :=
  let al := s.allot (s.job t.slot).allotment
  if s.sched.allotmentMode && al.turnUs ≠ 0 then
    let left := al.turnStart + al.turnUs * usec - s.now
    al.guardUs * usec < left ||
      (s.kernel t.slot t.kernel).any fun k => k.cyclesStatic != 0 && k.cyclesStatic * 10 ≤ left * 11
  else true

/-- The task that a freed logical core takes (R360): headgate first, then tailwater, one task from each job in a round. -/
def State.pickTask (s : State) (c : Nat) : Option Task :=
  let can := s.sched.ready.filter fun t => s.mayRun t c
  match firstTask (can.filter (·.headgate)) with
  | some t => some t
  | none =>
    let tw := can.filter fun t => s.tailwaterOk t.slot && s.turnFits t
    let slots := (List.range 64).filter fun j => tw.any fun t => t.slot == j
    let next := match s.sched.roundAt with
      | some r => (slots.find? fun j => r < j).orElse fun _ => slots.head?
      | none => slots.head?
    match next with
    | some j => firstTask (tw.filter fun t => t.slot == j)
    | none => none

/-- A task starts on a free core (R101): registers loaded, generators and loop counters reset; a gated core wakes first. The
argument record has been read. -/
def State.startTask (s : State) (p : Nat) (t : Task) (args : List Byte) : State :=
  let c := s.core p
  let gated := c.phase == .gated
  let s := s.setCore p { c with
    phase := if gated then .waking else .running
    task := some t, startedAt := s.now, startStamp := none, pc := 0, slotsDone := 0, loops := [], args := args
    generators := [], amax := 0, drains := 0, stall := none, clapNs := 0, outReqs := [], vecReqs := []
    wokeAt := if gated then s.now else c.wokeAt }
  let s := { s with sched := { s.sched with
    ready := s.sched.ready.filter fun x => !decide (x = t)
    roundAt := if t.headgate then s.sched.roundAt else some t.slot
    runs := s.sched.runs.map fun (r : TaskRun) =>
      if r.cmd.hdr = t.cmd then { r with unplaced := r.unplaced - 1, running := r.running + 1 } else r } }
  let s := s.setJob t.slot { s.job t.slot with tasksPlaced := satAdd 32 (s.job t.slot).tasksPlaced 1 }
  if t.headgate then
    let l := s.now - t.readyAt
    { s with sched := { s.sched with
      hgPlaced := satAdd 32 s.sched.hgPlaced 1, lastLatency := l, maxLatency := max s.sched.maxLatency l
      stepMaxNs := s.sched.stepMaxNs.map fun (e : Nat × Nat) => (e.1, max e.2 l) } }
  else s

/-! ## The sequencer -/

/-- The next bundle after one at `pc`: loops whose body ends there run again or are left, the innermost first. -/
def nextPc (pc : Nat) : List LoopFrame → Nat × List LoopFrame
  | [] => (pc + 1, [])
  | f :: rest =>
    if f.last = pc then
      if 1 < f.left then (f.first, { f with left := f.left - 1 } :: rest) else nextPc pc rest
    else (pc + 1, f :: rest)

/-- A bundle has been carried out: the sequencer goes on to the next, DELAY cycles later (R97, R98). -/
def Core.advance (c : Core) (b : Nat) : Core :=
  let (pc, loops) := nextPc c.pc c.loops
  { c with pc := pc, loops := loops, slotsDone := 0, stall := none, cycle := c.cycle + 1 + bDelay b }

/-- The bundle at which a running core stands. -/
def State.bundleAt (s : State) (p : Nat) : Option Nat :=
  let c := s.core p
  match c.task with
  | some t => if c.phase = .running then (s.kernel t.slot t.kernel).bind fun k => k.bundle c.pc else none
  | none => none

/-- A stall ends; time stalled at CLAP counts for the watchdog (R369), at tags for SPAD_STALL (Table 6.7). -/
def State.endStall (s : State) (p : Nat) : State :=
  let c := s.core p
  let ns := s.now - c.stallSince
  match c.stall with
  | some (.clap _ _) => s.setCore p { c with stall := none, clapNs := c.clapNs + ns, cycle := c.cycle + ns * 11 / 10 }
  | some _ => (s.setCore p { c with stall := none, cycle := c.cycle + ns * 11 / 10 }).bump (uSpad p) 0x030 63 0 (ns * 11 / 10)
  | none => s

end Sys2Proof.Machine
end

