-- ==== Sys2Proof/Machine/Timecode.lean ====
section
/-! DEFINITION. The timecode unit: the choice of a source, exchanges, the states of Table 4.3, the servo, and the counter's tick
(spec/04). -/

namespace Sys2Proof.Machine

/-- The device's fabric id (R76, R347). -/
def State.fabricId (s : State) : Nat := s.timecode.twin * 2 ^ 15 + s.timecode.device

/-! ## The source (R80) -/

/-- Whether the device is a root candidate: its PTP source is locked and it may be the root. -/
def State.rootCandidate (s : State) : Bool :=
  s.timecode.phase == .locked && s.timecode.ptpValid && s.fld uTimecode 0x040 33 33 == 1 && s.fld uTimecode 0x040 32 32 == 1

/-- Whether a port is UP. -/
def State.portUp (s : State) (p : Nat) : Bool := (s.fabric.ports.get {} p).phase == .up

/-- The neighbour to follow among the live ports: the lowest root, then the lowest hop depth, then the lowest port. -/
def State.bestNeighbour (s : State) : Option (Nat × Neighbour) :=
  let live := ((List.range 16).filter fun p => s.portUp p).filterMap fun p =>
    let n := s.timecode.neighbours.get {} p
    if n.heard && n.root != 0xFFFF then some (p, n) else none
  if s.fld uTimecode 0x040 34 34 = 0 then none
  else live.foldl (fun (acc : Option (Nat × Neighbour)) x => match acc with
    | none => some x
    | some a => if x.2.root < a.2.root || (x.2.root == a.2.root && x.2.hops < a.2.hops) then some x else some a) none

/-- What the device follows. `port`: PARENT_PORT. -/
structure TcSource where
  source : Nat
  port : Nat
  root : Nat
  hops : Nat
  deriving DecidableEq, Repr, Inhabited

/-- The source that R80 chooses now. -/
def State.tcSource (s : State) : TcSource :=
  let fabric (x : Nat × Neighbour) : TcSource := ⟨1, x.1, x.2.root, x.2.hops + 1⟩
  let ptp : TcSource :=
    if s.timecode.ptpValid && s.fld uTimecode 0x040 33 33 == 1 then ⟨2, 0xFE, 0xFFFF, 0⟩ else ⟨0, 0xFF, 0xFFFF, 0⟩
  match s.bestNeighbour with
  | some x =>
    if s.rootCandidate && !(x.2.root < s.fabricId) then ⟨3, 0xFE, s.fabricId, 0⟩ else fabric x
  | none => if s.rootCandidate then ⟨3, 0xFE, s.fabricId, 0⟩ else ptp

/-- The bound of a LOCKED device: 2 ns per hop (R80, R82). -/
def TcSource.bound (x : TcSource) : Nat := if x.source = 1 then min (2 * x.hops) 0xFFFF else 0

/-- ERR_BOUND_NS now: in HOLDOVER and FREERUN it grows by 50 ns per second from its value at loss (R86). -/
def State.errBound (s : State) : Nat :=
  let t := s.timecode
  match t.phase with
  | .holdover => min (t.boundAtLoss + 50 * (s.now - t.lostAt) / 1000000000) 0xFFFF
  | .freerun => min (t.boundAtLoss + 50 * (s.now - t.lostAt) / 1000000000) 0xFFFF
  | _ => t.errBound

/-- A LOCKED device takes the source that R80 chooses; where there is none it goes on with its rate and looks for one (R85). -/
def State.tcReselect (s : State) : State :=
  let t := s.timecode
  if t.phase ≠ .locked then s
  else
    let x := s.tcSource
    if x.source = 0 then { s with timecode := { t with searchSince := t.searchSince.orElse fun _ => some s.now } }
    else
      { s with timecode := { t with
        source := x.source, parentPort := x.port, rootId := x.root, hopDepth := x.hops, errBound := x.bound
        searchSince := none
        sourceChanges := if x.source = t.source && x.port = t.parentPort then t.sourceChanges
          else satAdd 16 t.sourceChanges 1 } }

/-- An offset to the source followed has been measured, in ns: the device's counter less the source's (Table 4.3). -/
def State.tcMeasured (s : State) (offset : Int) : State :=
  let t := s.timecode
  match t.phase with
  | .unlocked =>
    let ns := ((t.ns : Int) - offset).toNat
    if ns < t.ns then s
    else
      let s := { s with timecode := { t with ns := ns, stepNs := ns - t.ns, phase := .locked } }
      s.tcReselect.tcReselect.csSetBits [3]
  | .locked => s.tcReselect
  | .holdover =>
    if offset.natAbs < 100 then { s with timecode := { t with phase := .locked } }.tcReselect.tcReselect else s
  | .freerun =>
    if offset.natAbs < 100 then
      ({ s with timecode := { t with phase := .locked } }.tcReselect.tcReselect).csSetBits [3]
    else s

/-- An LCF brings an exchange and the neighbour's advertisement (R80, R326): t1 the neighbour's transmit stamp, t2 now, t3 the
device's own stamp that the neighbour echoes, t4 when the neighbour received it. -/
def State.tcExchange (s : State) (p : Nat) (l : LinkControl) : State :=
  let n := s.timecode.neighbours.get {} p
  let diff : Int := ((s.now : Int) - l.stamp) - ((l.echoRx : Int) - l.echoTx)
  let asym := toSigned 32 (s.fld uTimecode (0x080 + 8 * p) 31 0)
  let ps : Int := 500 * diff - asym / 2
  let n := { n with heard := true, root := l.root, hops := l.hops, offsets := (ps :: n.offsets).take 64 }
  let s := { s with timecode := { s.timecode with neighbours := s.timecode.neighbours.insert p n } }
  let x := s.tcSource
  if x.source = 1 && x.port = p then
    { s with timecode := { s.timecode with parentOffsetPs := Config.offsetFilter n.offsets } }.tcMeasured (ps / 1000)
  else s.tcReselect

/-- A port carries no exchange any longer. -/
def State.tcPortDown (s : State) (p : Nat) : State :=
  { s with timecode := { s.timecode with neighbours := s.timecode.neighbours.erase p } }.tcReselect

/-! ## Commands -/

/-- PTP time as NS (R79). -/
def ptpNs (m : PtpMessage) : Nat := (m.seconds - 946684800) * 1000000000 + m.nanos

/-- PTP_MESSAGE (R79): Announce makes the source valid; a Sync with its Follow_Up gives t1 and t2, a Delay_Resp t4 and with it
the offset. Messages of another domain, and Announce with the ARB timescale, are ignored. -/
def execPtpMessage (m : PtpMessage) (s : State) : Result := s.live fun s =>
  s.onlyIf (s.hostUp && s.fld uTimecode 0x040 33 33 == 1 && m.domain == s.fld uTimecode 0x040 47 40) fun s =>
    let t := s.timecode
    match m.kind with
    | .announce => if m.tai then { s with timecode := { t with ptpValid := true } }.tcReselect else s
    | .syncOneStep => { s with timecode := { t with ptpT1 := some (ptpNs m), ptpT2 := some s.now } }
    | .syncTwoStep => { s with timecode := { t with ptpT1 := none, ptpT2 := some s.now } }
    | .followUp => { s with timecode := { t with ptpT1 := some (ptpNs m) } }
    | .delayResp =>
      match t.ptpT1, t.ptpT2 with
      | some t1, some t2 =>
        let offset : Int := (((t2 : Int) - t1) - ((ptpNs m : Int) - m.requestTc)) / 2
        let s := { s with timecode := { t with ptpOffset := offset, ptpT1 := none, ptpT2 := none } }
        let x := s.tcSource
        if t.ptpValid && (x.source == 2 || x.source == 3) then s.tcMeasured offset else s
      | _, _ => s

/-- SERVO_ADJUST (R80, R81): the rate follows the filtered offset within ±200 ppm; without a source it stays (R86). -/
def execServoAdjust (s : State) : Result := s.live fun s =>
  let x := s.tcSource
  s.onlyIf (x.source != 0 && s.timecode.phase != .unlocked) fun s =>
    let ps : Int := if x.source = 1 then Config.offsetFilter (s.timecode.neighbours.get {} x.port).offsets
      else s.timecode.ptpOffset * 1000
    { s with timecode := { s.timecode with ratePpb := max (-200000) (min 200000 (Config.servoRate ps)) } }

/-- The unit enters HOLDOVER with the bound that it had when its source was lost (R85, R86). -/
def State.enterHoldover (s : State) (lostAt : Nat) : State :=
  let t := s.timecode
  { s with timecode := { t with
    phase := .holdover, holdovers := satAdd 16 t.holdovers 1, lostAt := lostAt, boundAtLoss := t.errBound
    searchSince := none } }

/-- PARENT_SEARCH_TIMEOUT (R85). -/
def execParentSearchTimeout (s : State) : Result := s.live fun s =>
  match s.timecode.searchSince with
  | some t =>
    s.onlyIf (s.timecode.phase == .locked && t + msec ≤ s.now && s.tcSource.source == 0) fun s => s.enterHoldover t
  | none => s

/-- PTP_LOST (R85). -/
def execPtpLost (s : State) : Result := s.live fun s =>
  s.onlyIf s.timecode.ptpValid fun s =>
    let t := s.timecode
    let follows := t.source == 2 || t.source == 3
    let s := { s with timecode := { t with ptpValid := false, ptpT1 := none, ptpT2 := none } }
    if t.phase == .locked && follows then s.enterHoldover s.now else s

/-- HOLDOVER_LIMIT_EXCEEDED (R86). -/
def execHoldoverLimitExceeded (s : State) : Result := s.live fun s =>
  s.onlyIf (s.timecode.phase == .holdover && s.fld uTimecode 0x040 63 48 < s.errBound) fun s =>
    { s with timecode := { s.timecode with phase := .freerun } }.csClearBits [3]

/-- The NS at which an unlocked counter holds (R77). -/
abbrev unlockedLimit : Nat := 2 ^ 50 - 1

/-- UNLOCKED_NS_LIMIT (R77). -/
def execUnlockedNsLimit (s : State) : Result := s.live fun s =>
  s.onlyIf (s.timecode.phase == .unlocked && unlockedLimit ≤ s.now) fun s =>
    { s with timecode := { s.timecode with ns := unlockedLimit } }

/-! ## The tick -/

/-- The counter advances: by 1 ns while the TIME PLL runs, at the servo's rate, else by 40 ns (R74, R81). It never goes back, and
an unlocked one holds at its limit (R77). -/
def Timecode.tick (t : Timecode) : Timecode :=
  if !t.timePll then
    { t with ns := if t.phase = .unlocked then min (t.ns + 40) unlockedLimit else t.ns + 40 }
  else
    let f := t.fraction + t.ratePpb
    let (d, f) : Nat × Int := if f ≥ 1000000000 then (2, f - 1000000000) else if f ≤ -1000000000 then (0, f + 1000000000)
      else (1, f)
    { t with ns := if t.phase = .unlocked then min (t.ns + d) unlockedLimit else t.ns + d, fraction := f }

/-- What the block does while nothing waits: time passes. -/
def State.tick (s : State) : State := if s.powered then { s with timecode := s.timecode.tick } else s

/-- The time of an event that receives a fabric packet: no earlier than 1 ns after the header's stamp (R84). -/
def State.afterHeader (s : State) (ns : Nat) : Nat × State :=
  if s.now ≤ ns then
    (ns + 1, { s with timecode := { s.timecode with clamps := satAdd 32 s.timecode.clamps 1 } })
  else (s.now, s)

end Sys2Proof.Machine
end

