-- ==== Sys2Proof/Machine/FabricOps.lean ====
section
/-! DEFINITION. The link layer of the fabric: ports and their states, packets, routes, replay buffers, credits, and what arriving
frames pass before they mean anything (R323-R335). -/

namespace Sys2Proof.Machine

/-! ## Packets (Table 14.1) -/

/-- The 64 bytes of a header with a given CRC field. -/
def packetHeader (k : Packet) (crc : Nat) : List Byte :=
  le 1 k.type ++ le 1 k.flags ++ le 2 k.dst ++ le 2 k.src ++ le 1 k.level ++ le 1 k.pass ++ le 4 k.jobTag ++ le 4 k.epoch ++
    le 2 k.opId ++ le 2 k.payload.length ++ le 4 k.tag ++ le 8 k.offset ++ le 4 k.pseq ++ le 4 crc ++ le 8 0 ++ k.tc.bytes

/-- The CRC of a packet: over header and payload, with its own field taken as zero. -/
def packetCrc (k : Packet) : Nat := crc32c (packetHeader k 0 ++ k.payload)

/-- The bytes of a packet's frame (R326). -/
def wireBytes (k : Packet) : Nat := 72 + k.payload.length

def packetHeadgate (k : Packet) : Bool := bitAt k.flags 0

/-! ## Ports -/

def State.port (s : State) (p : Nat) : Port := s.fabric.ports.get {} p

def State.setPort (s : State) (p : Nat) (x : Port) : State :=
  { s with fabric := { s.fabric with ports := s.fabric.ports.insert p x } }

/-- STATE as LINK_PORT_STATE numbers it (Table 14.6). -/
def PortPhase.code : PortPhase → Nat
  | .down => 0 | .training => 1 | .check => 2 | .up => 3 | .miswired => 4 | .recutting => 5 | .failed => 6

/-- Whether the call-sheet bit of a port is set in a state (R330). -/
def PortPhase.ready (x : PortPhase) : Bool := x == .up || x == .recutting

/-- A port changes its state: LINK_STATE, its call-sheet bit, and what the timecode unit hears on it (R330, R357, R85). -/
def State.portPhase (s : State) (p : Nat) (ph : PortPhase) : State :=
  let x := s.port p
  if x.phase = ph then s
  else
    let old := x.phase
    let s := s.setPort p { x with phase := ph, tc := s.now }
    let s := s.recordAll 0x4001 (if ph == .down || ph == .miswired || ph == .failed then stFaultHw else stOk)
      (le 1 p ++ le 1 old.code ++ le 1 ph.code ++ le 1 x.width ++ le 2 x.peer ++ le 1 x.peerPort ++ le 1 0 ++
        le 2 (s.expectPeer p) ++ le 6 0 ++ le 8 s.now)
    let s := if ph.ready && !old.ready then s.csSetBits [36 + p]
      else if !ph.ready && old.ready then s.csClearBits [36 + p] else s
    if old == .up then s.tcPortDown p else s

/-! ## Sending (R326, R327, R331, R333) -/

/-- The ports usable towards a fabric id under the active map (Table 14.3). -/
def State.routeTo (s : State) (dst : Nat) : Nat :=
  match s.fabric.activeMap with
  | none => 0
  | some m => (s.fabric.maps.get ⟨[], []⟩ m).routes.get 0 (dst / 2 ^ 15 * 8192 + dst % 2 ^ 15)

/-- Bytes queued at a port. -/
def Port.queued (x : Port) : Nat := (x.txQueue.map wireBytes).sum

/-- The UP port of a route with the least data queued; the lowest of several. -/
def State.leastQueued (s : State) (ports : List Nat) : Option Nat :=
  ports.foldl (fun (acc : Option Nat) p => match acc with
    | none => some p
    | some a => if (s.port p).queued < (s.port a).queued then some p else some a) none

/-- The source writes TC and CRC when it sends a packet for the first time; nobody rewrites them (R328). -/
def State.sealPacket (s : State) (p : Nat) (k : Packet) : Packet × State :=
  if k.src = s.fabricId && k.tc == default then
    let (st, s) := s.stamp (uLink p)
    let k := { k with tc := st }
    ({ k with crc := packetCrc k }, s)
  else (k, s)

/-- Frames leave a port while there is credit, and room in the replay buffer; at most `fuel` of them. -/
def State.kick : Nat → State → Nat → State
  | 0, s, _ => s
  | fuel + 1, s, p =>
    let x := s.port p
    match x.txQueue with
    | [] => s
    | k :: rest =>
      if x.phase == .up && wireBytes k ≤ x.credit &&
          (x.unacked.map fun u => wireBytes u.2).sum + wireBytes k ≤ 524288 then
        let (k, s) := s.sealPacket p k
        let s := s.setPort p { s.port p with
          txQueue := rest, credit := x.credit - wireBytes k, txSeq := (x.txSeq + 1) % 4096
          unacked := x.unacked ++ [(x.txSeq, k)] }
        State.kick fuel ((s.bump (uLink p) 0x030 63 0 k.payload.length).emit (.frame p x.txSeq k)) p
      else s

def State.kickPort (s : State) (p : Nat) : State := State.kick (s.port p).txQueue.length s p

/-- A packet joins a port's queue; HEADGATE packets go ahead of the others (R331). -/
def State.enqueue (s : State) (p : Nat) (k : Packet) : State :=
  let x := s.port p
  let q := if packetHeadgate k then (x.txQueue.filter packetHeadgate) ++ k :: x.txQueue.filter (fun y => !packetHeadgate y)
    else x.txQueue ++ [k]
  (s.setPort p { x with txQueue := q }).kickPort p

/-- A packet takes its route (R333): an UP port, or it waits for a RECUTTING one, or it is dropped with an error record. `inPort`
is the port that it came in by, whose registers count the drop; the device's own packets count at P0. -/
def State.sendPacket (s : State) (k : Packet) (inPort : Nat) : State :=
  let route := s.routeTo k.dst
  let named := (List.range 16).filter fun p => bitAt route p
  match s.leastQueued (named.filter fun p => (s.port p).phase == .up) with
  | some p => s.enqueue p k
  | none =>
    if named.any fun p => (s.port p).phase == .recutting then
      { s with fabric := { s.fabric with waiting := s.fabric.waiting ++ [(k, inPort)] } }
    else
      (s.bump (uLink inPort) 0x048 31 16 1).logError { type := 0x42, cls := 3, unit := uLink inPort, sub := k.dst }

/-- Packets that waited for a route look for one again. -/
def State.sendWaiting (s : State) : State :=
  let w := s.fabric.waiting
  w.foldl (fun s k => s.sendPacket k.1 k.2) { s with fabric := { s.fabric with waiting := [] } }

/-- A port loses its link: its frames go out again, with unchanged headers, by other UP ports (R333). -/
def State.portLost (s : State) (p : Nat) (ph : PortPhase) : State :=
  let x := s.port p
  let ks := x.unacked.map (·.2) ++ x.txQueue
  let s := s.setPort p { x with
    txQueue := [], unacked := [], txSeq := 0, rxSeq := 0, credit := 0, toGrant := 0, retries := 0, ackDue := false
    nackDue := none, downSince := s.now }
  let s := s.portPhase p ph
  (ks.foldl (fun s k => s.sendPacket k p) s).sendWaiting

/-- A port's link is up with a peer: fresh sequences, and the whole receive buffer to grant (R327). -/
def State.portUpNow (s : State) (p : Nat) : State :=
  let x := s.port p
  let s := s.setPort p { x with
    txSeq := 0, rxSeq := 0, credit := 0, toGrant := 1048576, retries := 0, ackDue := true, nackDue := none
    cached := (x.peer :: x.cached.filter (· != x.peer)).take 32 }
  (s.portPhase p .up).sendWaiting

/-- A new packet of the device (R328): PSEQ counts per job; a packet to the device itself takes no fabric. -/
def State.originate (s : State) (slot type flags dst level pass opId tag offset epoch : Nat) (payload : List Byte) : State :=
  let f := s.fjob slot
  let s := s.setFjob slot { f with nextPseq := (f.nextPseq + 1) % 2 ^ 32 }
  s.sendPacket
    { type := type, flags := flags, dst := dst, src := s.fabricId, level := level, pass := pass, jobTag := (s.job slot).tag
      epoch := epoch, opId := opId, tag := tag, offset := offset, pseq := f.nextPseq, crc := 0, tc := default
      payload := payload } 0

/-! ## Acknowledgement (R327) -/

/-- A cumulative acknowledgement of link sequences: the frames up to it leave the replay buffer. -/
def State.linkAck (s : State) (p ack : Nat) : State :=
  let x := s.port p
  if x.unacked.any fun u => u.1 == ack then
    let rest := (x.unacked.dropWhile fun u => u.1 != ack).drop 1
    (s.setPort p { x with unacked := rest, retries := 0 }).kickPort p
  else s

/-- A NACK: the frames from that link sequence on are sent again; after RETRY_LIMIT replays of one frame the port goes DOWN and
its screen test runs. -/
def State.linkNack (s : State) (p seq : Nat) : State :=
  let x := s.port p
  let again := x.unacked.dropWhile fun u => u.1 != seq
  if again.isEmpty then s
  else
    let s := (s.setPort p { x with retries := x.retries + 1 }).bump (uLink p) 0x020 63 32 1
    if s.fld (uLink p) 0x040 63 48 ≤ x.retries + 1 then
      (s.portLost p .down).logError { type := 0x40, cls := 2, unit := uLink p, sub := p }
    else again.foldl (fun s u => s.emit (.frame p u.1 u.2)) s

/-! ## Frames that arrive (R327, R328, R333) -/

/-- Whether a packet of a source and job has been accepted within the last 65,536 values (R328). -/
def FabricJob.seen (f : FabricJob) (k : Packet) : Bool := f.accepted.any fun a => a.1 == k.src && a.2 == k.pseq

/-- A packet is accepted: its PSEQ is remembered. -/
def State.acceptPacket (s : State) (slot : Nat) (k : Packet) : State :=
  let f := s.fjob slot
  s.setFjob slot { f with
    accepted := (k.src, k.pseq) :: f.accepted.filter fun a =>
      a.1 != k.src || (k.pseq + 2 ^ 32 - a.2) % 2 ^ 32 < 65536 }

/-- A frame at a port: a bad one is refused with a NACK, one out of sequence discarded; a packet for another device is forwarded;
one that has been accepted before is discarded; `k` takes the others, with the job slot if the device has the job. A frame of
another TYPE belongs to another row. -/
def State.frameAt (s : State) (f : Frame) (type : Nat) (k : State → Option Nat → State) : State :=
  let p := f.port
  let x := s.port p
  let q := f.packet
  let nack (s : State) : State := s.setPort p { s.port p with nackDue := some x.rxSeq }
  if q.type ≠ type || 16 ≤ p || !(x.phase == .up || x.phase == .recutting) then s
  else if !f.fecOk then nack (s.bump (uLink p) 0x020 15 0 1)
  else if packetCrc q ≠ q.crc then nack (s.bump (uLink p) 0x020 31 16 1)
  else if f.linkSeq ≠ x.rxSeq then
    if (f.linkSeq + 4096 - x.rxSeq) % 4096 < 2048 then nack s else s.setPort p { x with ackDue := true }
  else
    let s := s.setPort p { x with
      rxSeq := (x.rxSeq + 1) % 4096, ackDue := true, nackDue := none, toGrant := x.toGrant + wireBytes q }
    let s := s.bump (uLink p) 0x038 63 0 q.payload.length
    if q.dst ≠ s.fabricId then s.sendPacket q p
    else match s.slotOf q.jobTag with
      | none => k s none
      | some slot => if (s.fjob slot).seen q then s else k s (some slot)

/-- A frame whose packet needs a job of this device: with an unknown tag it is dropped and counted (R328). -/
def State.frameIn (s : State) (f : Frame) (type : Nat) (k : State → Nat → State) : State :=
  s.frameAt f type fun s slot => match slot with
    | none => s.bump (uLink f.port) 0x048 15 0 1
    | some slot => k s slot

/-- What R335 makes of a packet's EPOCH. -/
inductive EpochVerdict where
  | accept | boundary | hold | stale
  deriving DecidableEq, Repr, Inhabited

def FabricJob.verdict (f : FabricJob) (k : Packet) : EpochVerdict :=
  if k.epoch = f.epoch then .accept
  else if k.epoch = f.epoch + 1 then
    if k.type = 3 && k.opId = 0xFFFF then .boundary
    else match f.recut with
      | some r => if r.epoch = k.epoch && r.clapAt.isSome && r.releasedAt.isNone then .hold else .stale
      | none => .stale
  else .stale

/-- A packet of a stale epoch is dropped and counted, and reported at most once every 10 µs per job (R335, R357). -/
def State.staleEpoch (s : State) (slot : Nat) (f : Frame) : State :=
  let s := s.bump (uLink f.port) 0x048 63 32 1
  let j := s.fjob slot
  let n := j.staleCount + 1
  if j.lastStale.all fun t => t + 10 * usec ≤ s.now then
    let (ns, s) := s.afterHeader f.packet.tc.ns
    let s := s.setFjob slot { j with staleCount := 0, lastStale := some s.now }
    match j.latestRecut with
    | some h => s.recordCmd h 0x4002 stEpochBusy
        (le 1 slot ++ le 1 f.port ++ le 2 0 ++ le 4 n ++ le 4 f.packet.epoch ++ le 4 j.epoch ++ le 8 ns)
    | none => s
  else s.setFjob slot { j with staleCount := n }

/-- The epoch test of an arriving COLL, GATHER or CLAP packet (R335); `f` takes an accepted one. -/
def State.epochIn (s : State) (slot : Nat) (f : Frame) (boundary accept : State → State) : State :=
  match (s.fjob slot).verdict f.packet with
  | .accept => accept (s.acceptPacket slot f.packet)
  | .boundary => boundary (s.acceptPacket slot f.packet)
  | .hold =>
    let j := (s.acceptPacket slot f.packet).fjob slot
    s.setFjob slot { j with heldPackets := j.heldPackets ++ [f] }
  | .stale => s.staleEpoch slot f

/-! ## Members of a layout (R334) -/

/-- The job's members, ascending. -/
def Layout.members (l : Layout) : List Nat :=
  (l.entries.foldl (fun (m : TMap Unit) e => m.insert e ()) []).map (·.1)

/-- ceil(log2 n). -/
def clog2 (n : Nat) : Nat := if n ≤ 1 then 0 else Nat.log2 (n - 1) + 1

/-- The rank of a fabric id among the members. -/
def rankIn (ms : List Nat) (id : Nat) : Nat := (ms.takeWhile (· != id)).length

/-- The member of a rank. -/
def memberAt (ms : List Nat) (r : Nat) : Nat := ms.getD r 0

end Sys2Proof.Machine
end

