-- ==== Sys2Proof/Machine/Claps.lean ====
section
/-! DEFINITION. Claps: arrivals, completion, release (R182, R183), and the reservoir's invalidation at a release (R177). -/

namespace Sys2Proof.Machine

abbrev clapKey (slot n : Nat) : Nat := slot * 64 + n

/-- A clap of a job, if it is set or broken. -/
def State.clap (s : State) (slot n : Nat) : Option Clap :=
  (s.streams.claps.find? fun e => e.1 == clapKey slot n).map (·.2)

def State.setClap (s : State) (slot n : Nat) (c : Clap) : State :=
  { s with streams := { s.streams with claps := s.streams.claps.insert (clapKey slot n) c } }

/-- The job's reservoir lines are invalidated (R177). -/
def State.flushResv (s : State) (slot : Nat) : State :=
  { s with streams := { s.streams with lines := s.streams.lines.filter fun l => l.slot != slot } }

/-- A waiting core goes on with the bundle after its CLAP (R183). -/
def State.releaseCore (s : State) (p : Nat) : State :=
  match s.bundleAt p with
  | some b => let s := s.endStall p; s.setCore p ((s.core p).advance b)
  | none => s

/-- A generation completes: FLUSH_RESV, the release of every waiting core, then the count clears and GENERATION rises (R182).
Packets heard of the next generation stay. -/
def State.clapComplete (s : State) (slot n : Nat) : State :=
  match s.clap slot n with
  | none => s
  | some c =>
    let s := if c.flush then s.flushResv slot else s
    let s := c.waiting.foldl (fun s w => s.releaseCore w.1) s
    s.setClap slot n { c with
      arrived := 0, generation := (c.generation + 1) % 2 ^ 30, waiting := [], sent := 0
      heard := c.heard.filter fun h => h / 65536 != c.generation }

/-! ## The exchange of a fabric clap (R346) -/

/-- The rounds of a clap that has reached its local count, as far as they go: round k is sent to rank r + 2^k, and the next follows
once rank r − 2^k has been heard; after the last the clap is released. -/
def State.clapRounds : Nat → State → Nat → Nat → State
  | 0, s, _, _ => s
  | fuel + 1, s, slot, n =>
    match s.clap slot n, (s.fjob slot).layout with
    | some c, some l =>
      let ms := l.members
      let d := ms.length
      let r := rankIn ms s.fabricId
      if c.sent != 0 && !(c.heard.contains (c.generation * 65536 + memberAt ms ((r + d - 2 ^ (c.sent - 1) % d) % d))) then s
      else if clog2 d ≤ c.sent then s.clapComplete slot n
      else
        let s := s.setClap slot n { c with sent := c.sent + 1 }
        let s := s.originate slot 3 (b2n (s.queue c.hdr.qkey).headgate) (memberAt ms ((r + 2 ^ c.sent) % d)) 0xFF 0 n
          c.generation 0 (s.fjob slot).epoch []
        State.clapRounds fuel s slot n
    | some _, none => s.clapComplete slot n
    | none, _ => s

/-- The exchange goes on: at most 15 rounds and a release. -/
def State.clapExchange (s : State) (slot n : Nat) : State := State.clapRounds 17 s slot n

/-- One arrival (R182): at MEMBERS the generation completes; with SCOPE fabric, after the exchange (R346). -/
def State.arrive (s : State) (slot n : Nat) : State :=
  match s.clap slot n with
  | none => s
  | some c =>
    if c.broken then s
    else
      let s := s.setClap slot n { c with arrived := c.arrived + 1 }
      if c.arrived + 1 < c.members then s
      else if c.fabric then s.clapExchange slot n
      else s.clapComplete slot n

/-- A CLAP_BROKEN record (Table 8.9). -/
def State.clapBrokenRecord (s : State) (slot n : Nat) : State :=
  match s.clap slot n with
  | some c => s.recordAll 0x3004 stCancelled
      (le 1 n ++ le 1 slot ++ le 2 c.arrived ++ le 2 c.members ++ le 2 0 ++ le 4 c.generation ++ le 4 0 ++ le 8 s.now)
  | none => s

/-- A packet is kept in the job's early store of 64; where that is full it is dropped, and its clap number is broken (R346). -/
def State.keepEarly (s : State) (slot : Nat) (k : Packet) : State :=
  let f := s.fjob slot
  if f.early.length < 64 then s.setFjob slot { f with early := f.early ++ [k] }
  else s.setFjob slot { f with brokenClaps := k.opId :: f.brokenClaps }

/-- A CLAP packet of a clap of the current epoch (R346). -/
def State.clapIn (s : State) (slot : Nat) (k : Packet) : State :=
  match s.clap slot k.opId with
  | none => s.keepEarly slot k
  | some c =>
    if c.broken then s
    else
      let h := k.tag * 65536 + k.src
      let s := s.setClap slot k.opId { c with heard := h :: c.heard.filter (· != h) }
      if c.sent = 0 then s else s.clapExchange slot k.opId

/-- A fabric clap has been set: the packets that came early count, and a number that a full early store has broken is BROKEN, with
a CLAP_BROKEN record (R346). -/
def State.clapEarly (s : State) (slot n : Nat) : State :=
  let f := s.fjob slot
  let mine := f.early.filter fun k => k.opId == n
  let bad := f.brokenClaps.contains n
  let s := s.setFjob slot { f with
    early := f.early.filter fun k => k.opId != n, brokenClaps := f.brokenClaps.filter (· != n) }
  let s := mine.foldl (fun s k => s.clapIn slot k) s
  match s.clap slot n with
  | some c => if bad then (s.setClap slot n { c with broken := true }).clapBrokenRecord slot n else s
  | none => s

end Sys2Proof.Machine
end

