-- ==== Sys2Proof/Machine/MapOps.lean ====
section
/-! DEFINITION. Page tables as they are edited (R252, R253, R257, R258, R269): leaves, tables, table pools, shootdowns; and the
key-value pools and sequences that an edit must respect (R281, R284, R292). -/

namespace Sys2Proof.Machine

/-! ## Pools and sequences -/

def State.kvPool (s : State) (slot : Nat) : KvPool := s.attn.pools.get {} slot

def State.setKvPool (s : State) (slot : Nat) (x : KvPool) : State :=
  { s with attn := { s.attn with pools := s.attn.pools.insert slot x } }

def State.kvSeq (s : State) (id : Nat) : KvSeq := s.attn.seqs.get {} id

def State.setKvSeq (s : State) (id : Nat) (x : KvSeq) : State :=
  { s with attn := { s.attn with seqs := s.attn.seqs.insert id x } }

/-- Usable and free pages of a pool. -/
def KvPool.usable (x : KvPool) : Nat := x.pages - x.descPages
def KvPool.free (x : KvPool) : Nat := x.usable - x.inUse.length

/-- The pool page of the job that holds a physical address. -/
def KvPool.pageOf (x : KvPool) (pa : Nat) : Option Nat :=
  if x.valid && x.base ≤ pa && pa < x.base + x.pages * x.pageBytes then some ((pa - x.base) / x.pageBytes) else none

/-- Bytes of an element of a format (R282). -/
def elementBytes (fmt : Nat) : Nat := if fmt = 3 || fmt = 4 then 2 else 1

/-- PAGE_BYTES, PAGE_TOKENS, PPH and the length of a sequence's range (R281, R283). -/
def State.seqPageBytes (s : State) (x : KvSeq) : Nat := if (s.kvPool x.slot).valid then (s.kvPool x.slot).pageBytes else 65536
def State.pageTokens (s : State) (x : KvSeq) : Nat := s.seqPageBytes x / (2 * x.dim * elementBytes x.fmt)
def State.pagesPerHead (s : State) (x : KvSeq) : Nat := ceilDiv x.maxTokens (s.pageTokens x)
def State.seqBytes (s : State) (x : KvSeq) : Nat := x.layers * x.kvHeads * s.pagesPerHead x * s.seqPageBytes x

/-- The address of a page of a sequence. -/
def State.seqPage (s : State) (x : KvSeq) (layer head page : Nat) : Nat :=
  x.va + ((layer * x.kvHeads + head) * s.pagesPerHead x + page) * s.seqPageBytes x

/-- The sequences of a job. -/
def State.jobSeqs (s : State) (slot : Nat) : List (Nat × KvSeq) :=
  s.attn.seqs.filter fun e => e.2.valid && e.2.slot == slot

/-- Whether two ranges meet. -/
def meets (a n b m : Nat) : Bool := a < b + m && b < a + n

/-! ## Entries -/

/-- The level of a page size: 0 64 KiB, 1 2 MiB, 2 1 GiB. -/
def pageShift (page : Nat) : Nat := if page = 0 then 16 else if page = 1 then 21 else 30

/-- A leaf entry (Table 11.5). -/
def leafEntry (pa : Nat) (write : Bool) : Nat := pa + 4 * b2n write + 3

/-- The levels down to the one whose leaves map pages of 2^shift bytes. -/
def levelsTo (shift : Nat) : List (Nat × Nat × Nat) := walkLevels.filter fun l => shift ≤ l.2.1

/-- The valid leaf that maps an address: its shift, its entry, and where the entry lies. -/
def State.leafWalk (s : State) (va : Nat) : List (Nat × Nat × Nat) → Nat → Option (Nat × Nat × Nat)
  | [], _ => none
  | (_, shift, width) :: rest, table =>
    let a := entryAddr table va shift width
    let e := s.entryAt a
    if !bitAt e 0 then none
    else if bitAt e 1 then some (shift, e, a)
    else s.leafWalk va rest (entryTarget e)

def State.leafOf (s : State) (slot va : Nat) : Option (Nat × Nat × Nat) :=
  if (s.map slot).valid then s.leafWalk va walkLevels (s.map slot).pool else none

/-- An entry is written; every access reads the whole old entry or the whole new one (R257). -/
def State.putEntry (s : State) (a e : Nat) : State :=
  { s with memory := { s.memory with bytes := putBytes s.memory.bytes a (le 8 e) } }

/-- A table is taken from the pool: 4 KiB upwards, 256 bytes downwards; none where the pool is too small. -/
def State.takeTable (s : State) (slot bytes : Nat) : Option (Nat × State) :=
  let m := s.map slot
  if m.top256 < m.next4k + bytes then none
  else
    let a := if bytes = 256 then m.top256 - 256 else m.next4k
    let m := if bytes = 256 then { m with top256 := a } else { m with next4k := m.next4k + 4096 }
    some (a, (s.setMap slot m).memZero a bytes)

/-- POOL_FREE_KIB (Table 11.9). -/
def MapInfo.freeKib (m : MapInfo) : Nat := if m.valid then (m.top256 - m.next4k) / 1024 else 0

/-- Whether a valid leaf, of any size, lies in the page of 2^shift bytes at an address. -/
def State.leafIn (s : State) (slot va shift : Nat) : Bool :=
  (List.range (2 ^ (shift - 16))).any fun i => (s.leafOf slot (va + 65536 * i)).isSome

/-- The entry of a page of 2^shift bytes takes a value; tables are made on the way. The failure is the DETAIL of R269: 0x0028 where
a larger page is in the way or smaller ones stand where the leaf goes, 0x0071 where the pool is too small. -/
def State.putLeaf (s : State) (slot va shift e : Nat) : List (Nat × Nat × Nat) → Nat → Except (Nat × Nat) State
  | [], _ => .error (stBadParam, 0x28)
  | (_, sh, width) :: rest, table =>
    let a := entryAddr table va sh width
    let old := s.entryAt a
    if sh = shift then
      if bitAt old 0 && !bitAt old 1 && s.leafIn slot va shift then .error (stBadParam, 0x28) else .ok (s.putEntry a e)
    else if bitAt old 0 then
      if bitAt old 1 then .error (stBadParam, 0x28) else s.putLeaf slot va shift e rest (entryTarget old)
    else
      match s.takeTable slot (if sh = 21 then 256 else 4096) with
      | none => .error (stNoResource, 0x71)
      | some (t, s) => (s.putEntry a (t + 1)).putLeaf slot va shift e rest t

/-- Bytes mapped change by a page (MAPPED_64K). -/
def State.countMapped (s : State) (slot shift : Nat) (add : Bool) : State :=
  let m := s.map slot
  let n := 2 ^ (shift - 16)
  s.setMap slot { m with mapped64k := if add then m.mapped64k + n else m.mapped64k - n }

/-- A page is mapped at an address. -/
def State.mapPage (s : State) (slot va shift pa : Nat) (write : Bool) : Except (Nat × Nat) State :=
  let had := (s.leafOf slot va).isSome
  match s.putLeaf slot va shift (leafEntry pa write) walkLevels (s.map slot).pool with
  | .error x => .error x
  | .ok s => .ok (if had then s else s.countMapped slot shift true)

/-- The leaf that maps an address goes. -/
def State.unmapPage (s : State) (slot va : Nat) : State :=
  match s.leafOf slot va with
  | some (shift, _, a) => (s.putEntry a 0).countMapped slot shift false
  | none => s

/-! ## What an edit must respect -/

/-- The table pools and key-value pools of all jobs, and the command pool region (R32): (base, bytes). -/
def State.ownedRanges (s : State) : List (Nat × Nat) :=
  (s.memory.maps.filter fun e => e.2.valid).map (fun e => (e.2.pool, e.2.poolBytes)) ++
    [(Config.capWord uQmgr 0, 2 ^ 27)]

def State.kvRanges (s : State) : List (Nat × Nat) :=
  (s.attn.pools.filter fun e => e.2.valid).map fun e => (e.2.base, e.2.pages * e.2.pageBytes)

/-- Whether a physical range lies in HBM on stacks that are ACTIVE. -/
def State.hbmActive (s : State) (pa n : Nat) : Bool :=
  pa + n ≤ 0x008000000000 &&
    (List.range 4).all fun k => !meets pa n (k * 2 ^ 37) (2 ^ 37) || s.active (uHbm k)

/-- Whether a physical range may be mapped (R269): within HBM or within the far tier, on no RETIRED stack, and outside the table
pools and the command pool region. -/
def State.mappable (s : State) (pa n : Nat) : Bool :=
  let inHbm := pa + n ≤ 0x008000000000 &&
    (List.range 4).all fun k => !meets pa n (k * 2 ^ 37) (2 ^ 37) || (s.xentry (uHbm k)).state != 3
  let inFar := farBase ≤ pa && pa + n ≤ farBase + 12 * 2 ^ 37
  (inHbm || inFar) && s.ownedRanges.all fun r => !meets pa n r.1 r.2

/-- Whether a range meets the job's reel window (R195): 16 MiB at REEL_VA while a reel is configured. -/
def State.meetsReel (s : State) (slot va n : Nat) : Bool :=
  let r := s.reelJob slot
  r.phase != .none && meets va n r.reelVa (2 ^ 24)

/-- Whether a leaf maps a page of the job's key-value pool (R284). -/
def State.poolLeaf (s : State) (slot e : Nat) : Option Nat := (s.kvPool slot).pageOf (entryTarget e)

/-! ## `map_edit` -/

/-- The effect of a `map_edit` on the tables, all of it or none (R257, R269): the state, the pages changed, and whether a valid leaf
was removed or changed. -/
def State.mapEdit (s : State) (c : Command) (slot : Nat) : Except (Nat × Nat) (State × Nat × Bool) :=
  let op := c.u8 0
  let shift := pageShift (c.u8 1)
  let n := c.u64 0x18 / 2 ^ shift
  let replace := c.ex (c.u8 0x20) 0 == 1
  (List.range n).foldlM (fun (acc : State × Nat × Bool) i =>
    let (s, k, hit) := acc
    let va := c.u64 8 + i * 2 ^ shift
    let old := s.leafOf slot va
    let pooled := old.any fun o => (s.poolLeaf slot o.2.1).isSome
    if pooled then .error (stBadParam, 0x30)
    else if op = 1 then
      match old with
      | some (sh, e, _) =>
        if sh != shift || !replace then .error (stBadParam, 0x28)
        else match s.mapPage slot va shift (c.u64 0x10 + i * 2 ^ shift) (c.u8 2 == 1) with
          | .error x => .error (x.1, if x.1 = stBadParam then 0x28 else x.2)
          | .ok s => .ok (s, k + 1, hit || e != leafEntry (c.u64 0x10 + i * 2 ^ shift) (c.u8 2 == 1))
      | none =>
        match s.mapPage slot va shift (c.u64 0x10 + i * 2 ^ shift) (c.u8 2 == 1) with
        | .error x => .error x
        | .ok s => .ok (s, k + 1, hit)
    else
      match old with
      | none => if s.leafIn slot va shift then .error (stBadParam, 0x21) else .ok (s, k, hit)
      | some (sh, e, a) =>
        if sh != shift then .error (stBadParam, 0x21)
        else if op = 3 && leafEntry (entryTarget e) (c.u8 2 == 1) == e then .ok (s, k, hit)
        else if op = 2 then .ok (s.unmapPage slot va, k + 1, true)
        else .ok (s.putEntry a (leafEntry (entryTarget e) (c.u8 2 == 1)), k + 1, true)) (s, 0, false)

/-! ## Shootdowns (R258) -/

/-- A shootdown starts. -/
def State.startShoot (s : State) (x : Shoot) : State :=
  { s with memory := { s.memory with shoots := s.memory.shoots ++ [x] } }

/-- A pool page with no reference, no pin and no shootdown to wait for returns to the free list (R292). -/
def State.freePage (s : State) (slot page : Nat) : State :=
  let x := s.kvPool slot
  let g := x.inUse.get {} page
  if g.ref = 0 && g.pin = 0 && g.waits = 0 then
    let x := { x with inUse := x.inUse.erase page }
    s.setKvPool slot { x with below := x.below && x.free ≤ x.lowWater }
  else s

/-- A free count below LOW_WATER is reported once (R292, R301). -/
def State.poolLow (s : State) (slot : Nat) : State :=
  let x := s.kvPool slot
  if x.valid && !x.below && x.free < x.lowWater then
    let s := s.setKvPool slot { x with below := true }
    match x.cmd with
    | some h => s.recordCmd h 0x7001 stOk (le 1 slot ++ le 3 0 ++ le 4 x.free ++ le 8 s.now)
    | none => s
  else s

def State.editPage (s : State) (slot page : Nat) (f : KvPage → KvPage) : State :=
  let x := s.kvPool slot
  s.setKvPool slot { x with inUse := x.inUse.insert page (f (x.inUse.get {} page)) }

/-- SHOOTDOWN_COMPLETE (R258, R259, R292): the edit ends; pool pages that waited for it alone return; the command is answered, by
DEFERRED_DONE if it has been deferred. -/
def execShootdownComplete (i : Nat) (s : State) : Result := s.live fun s =>
  match s.memory.shoots[i]? with
  | none => s
  | some x =>
    let s := { s with memory := { s.memory with shoots := s.memory.shoots.eraseIdx i } }
    let s := s.bump uMmu 0x020 15 0 1
    let before := (s.kvPool x.slot).free
    let s := x.pages.foldl (fun s g => (s.editPage x.slot g fun k => { k with waits := k.waits - 1 }).freePage x.slot g) s
    let pool := s.kvPool x.slot
    let still := (x.pages.filter fun g => pool.inUse.any fun e => e.1 == g).length
    match x.cmd with
    | none => s
    | some c =>
      if x.answered then s.deferredDone c.hdr stOk 0
      else if x.kind = 0 then
        s.finish c stOk 0 (le 4 x.changed ++ le 4 (s.map x.slot).freeKib ++ le 8 s.now)
      else if x.kind = 1 then
        s.finish c stOk 0 (le 4 x.changed ++ le 4 (pool.free - before) ++ le 4 still ++ le 4 pool.free)
      else s.finish c stOk 0 (le 4 x.changed ++ le 4 (pool.free - before) ++ le 8 0)

end Sys2Proof.Machine
end

