-- ==== Sys2Proof/Machine/KvEdits.lean ====
section
/-! DEFINITION. Edits of a job's map, of a sequence's pages, and their deferral while a sequence is walked (R257-R259, R269, R281,
R289-R299). -/

namespace Sys2Proof.Machine

/-! ## What an edit does -/

/-- The outcome of an edit: leaves or pages changed, whether a shootdown must follow, the pool pages concerned, and the form of its
result (0 `map_edit`, 1 the key-value commands, 2 DESTROY). -/
structure EditOut where
  changed : Nat
  shoot : Bool
  pages : List Nat
  kind : Nat
  deriving DecidableEq, Repr, Inhabited

/-- The leaves that a command of the key-value cache names: the addresses of the pages `first`, … of every named layer and head. -/
def State.kvLeaves (s : State) (x : KvSeq) (layer head first n : Nat) : List Nat :=
  let layers := if layer = 0xFFFF then List.range x.layers else [layer]
  let heads := if head = 0xFFFF then List.range x.kvHeads else [head]
  layers.flatMap fun l => heads.flatMap fun h => (List.range n).map fun p => s.seqPage x l h (first + p)

/-- The lowest free page of a pool. -/
def KvPool.firstFree (x : KvPool) : Option Nat :=
  ((List.range x.usable).map (x.descPages + ·)).find? fun g => !(x.inUse.any fun e => e.1 == g)

/-- A free page is taken with REF 1. -/
def State.takePage (s : State) (slot : Nat) : Option (Nat × State) :=
  let x := s.kvPool slot
  match x.firstFree with
  | none => none
  | some g => some (g, (s.setKvPool slot { x with inUse := x.inUse.insert g { ref := 1, pin := 0, waits := 0 } }).poolLow slot)

/-- The shift of a sequence's pages. -/
def State.seqShift (s : State) (x : KvSeq) : Nat := if s.seqPageBytes x = 65536 then 16 else 21

/-- `kv_page_map` (R299): a page with REF 1 for each named leaf, all of which must be invalid. -/
def State.kvMap (s : State) (c : Command) (slot : Nat) : Except (Nat × Nat) (State × EditOut) :=
  let x := s.kvSeq (c.u16 0)
  let ls := s.kvLeaves x (c.u16 2) (c.u16 4) (c.u32 8) (c.u32 0xC)
  if (s.kvPool slot).free < ls.length then .error (stNoResource, 0x80)
  else
    (ls.foldlM (fun (acc : State × EditOut) va =>
      let (s, o) := acc
      if (s.leafOf slot va).isSome then .error (stBadParam, 0x28)
      else match s.takePage slot with
        | none => .error (stNoResource, 0x80)
        | some (g, s) =>
          let pa := (s.kvPool slot).base + g * (s.kvPool slot).pageBytes
          let s := if c.ex (c.u8 0x10) 0 = 1 then s.memZero pa (s.kvPool slot).pageBytes else s
          match s.mapPage slot va (s.seqShift x) pa false with
          | .error e => .error e
          | .ok s => .ok (s, { o with changed := o.changed + 1, pages := o.pages ++ [g] })) (s, ⟨0, false, [], 1⟩))

/-- `kv_page_share` (R299): destination leaves map the source's pool pages; the named layers' lengths rise to TOKENS. -/
def State.kvShare (s : State) (c : Command) (slot : Nat) : Except (Nat × Nat) (State × EditOut) :=
  let a := s.kvSeq (c.u16 0)
  let id := c.u16 2
  let b := s.kvSeq id
  let src := s.kvLeaves a (c.u16 4) (c.u16 6) (c.u32 8) (c.u32 0xC)
  -- the layers named are the source's: the destination may have more
  let dst := s.kvLeaves { b with layers := a.layers } (c.u16 4) (c.u16 6) (c.u32 8) (c.u32 0xC)
  let share (acc : State × EditOut) (va : Nat × Nat) : Except (Nat × Nat) (State × EditOut) :=
    let (s, o) := acc
    match (s.leafOf slot va.1).bind fun l => s.poolLeaf slot l.2.1 with
    | none => .error (stBadParam, 0x28)
    | some g =>
      if (s.leafOf slot va.2).isSome then .error (stBadParam, 0x28)
      else if 65535 ≤ ((s.kvPool slot).inUse.get {} g).ref then .error (stNoResource, 0x82)
      else
        let s := s.editPage slot g fun k => { k with ref := k.ref + 1 }
        match s.mapPage slot va.2 (s.seqShift b) ((s.kvPool slot).base + g * (s.kvPool slot).pageBytes) false with
        | .error e => .error e
        | .ok s => .ok (s, { o with changed := o.changed + 1, pages := o.pages ++ [g] })
  match (src.zip dst).foldlM share (s, ⟨0, false, [], 1⟩) with
  | .error e => .error e
  | .ok (s, o) =>
    let layers := if c.u16 4 = 0xFFFF then List.range a.layers else [c.u16 4]
    let b := s.kvSeq id
    .ok (s.setKvSeq id { b with
      lengths := layers.foldl (fun m l => m.set 0 l (max (m.get 0 l) (c.u32 0x10))) b.lengths }, o)

/-- Leaves are removed from a map: pool pages lose a reference and wait for the shootdown (R290, R292). `ordinary`: ordinary
leaves go too; otherwise one refuses the edit. -/
def State.dropLeaves (s : State) (slot : Nat) (ls : List Nat) (ordinary : Bool) (kind : Nat) :
    Except (Nat × Nat) (State × EditOut) :=
  ls.foldlM (fun (acc : State × EditOut) va =>
    let (s, o) := acc
    match s.leafOf slot va with
    | none => .ok (s, o)
    | some l =>
      match s.poolLeaf slot l.2.1 with
      | some g =>
        let s := (s.unmapPage slot va).editPage slot g fun k => { k with ref := k.ref - 1, waits := k.waits + 1 }
        .ok (s, { o with changed := o.changed + 1, shoot := true, pages := o.pages ++ [g] })
      | none =>
        if ordinary then .ok (s.unmapPage slot va, { o with shoot := true }) else .error (stBadParam, 0x28))
    (s, ⟨0, false, [], kind⟩)

/-- `kv_page_free` (R299): the pool leaves in the range go; over every layer and head the lengths fall with them. -/
def State.kvFree (s : State) (c : Command) (slot : Nat) : Except (Nat × Nat) (State × EditOut) :=
  let id := c.u16 0
  let x := s.kvSeq id
  let n := if c.u32 0xC = 0 then s.pagesPerHead x - c.u32 8 else c.u32 0xC
  match s.dropLeaves slot (s.kvLeaves x (c.u16 2) (c.u16 4) (c.u32 8) n) false 1 with
  | .error e => .error e
  | .ok (s, o) =>
    let x := s.kvSeq id
    let cap := c.u32 8 * s.pageTokens x
    .ok (if c.u16 2 = 0xFFFF && c.u16 4 = 0xFFFF then
        s.setKvSeq id { x with lengths := (List.range x.layers).foldl (fun m l => m.set 0 l (min (m.get 0 l) cap)) x.lengths }
      else s, o)

/-- `seq_create` DESTROY (R298): every leaf of the range goes, and the id is released. -/
def State.seqDrop (s : State) (c : Command) (slot : Nat) : Except (Nat × Nat) (State × EditOut) :=
  let id := c.u16 2
  let x := s.kvSeq id
  let n := s.seqBytes x / 65536
  match s.dropLeaves slot ((List.range n).map fun i => x.va + 65536 * i) true 2 with
  | .error e => .error e
  | .ok (s, o) => .ok (s.setKvSeq id {}, o)

/-- The effect of an edit command, all of it or none. -/
def State.editEffect (s : State) (c : Command) (slot : Nat) : Except (Nat × Nat) (State × EditOut) :=
  if c.hdr.opcode = 0x1002 then
    match s.mapEdit c slot with
    | .error e => .error e
    | .ok (s, n, hit) => .ok (s, ⟨n, hit, [], 0⟩)
  else if c.hdr.opcode = 0x7002 then s.kvMap c slot
  else if c.hdr.opcode = 0x7003 then s.kvShare c slot
  else if c.hdr.opcode = 0x7004 then s.kvFree c slot
  else s.seqDrop c slot

/-- The virtual ranges of the pages that an edit command names. -/
def State.editRanges (s : State) (c : Command) : List (Nat × Nat) :=
  if c.hdr.opcode = 0x1002 then [(c.u64 8, c.u64 0x18)]
  else if c.hdr.opcode = 0x7001 then
    let x := s.kvSeq (c.u16 2)
    [(x.va, s.seqBytes x)]
  else
    let share := c.hdr.opcode == 0x7003
    let x := s.kvSeq (c.u16 (if share then 2 else 0))
    let src := s.kvSeq (c.u16 0)
    let layer := if share then c.u16 4 else c.u16 2
    let head := if share then c.u16 6 else c.u16 4
    let n := if c.hdr.opcode = 0x7004 && c.u32 0xC = 0 then s.pagesPerHead x - c.u32 8 else c.u32 0xC
    (s.kvLeaves { x with layers := if share then src.layers else x.layers } layer head (c.u32 8) n).map fun va =>
      (va, s.seqPageBytes x)

/-! ## Deferral (R294, R296) -/

def rangesMeet (a b : List (Nat × Nat)) : Bool := a.any fun x => b.any fun y => meets x.1 x.2 y.1 y.2

/-- Whether a sequence that the ranges touch has a walker. -/
def State.walked (s : State) (slot : Nat) (rs : List (Nat × Nat)) : Bool :=
  (s.jobSeqs slot).any fun e => !e.2.walkers.isEmpty && rangesMeet rs [(e.2.va, s.seqBytes e.2)]

/-- Whether an edit must wait: a sequence that it edits is walked, or an earlier edit of those pages waits. -/
def State.editWaits (s : State) (slot : Nat) (rs : List (Nat × Nat)) (earlier : List HeldEdit) : Bool :=
  s.walked slot rs || earlier.any fun h => h.slot == slot && rangesMeet h.ranges rs

/-- Whether an edit of a sequence is pending (R294). -/
def State.editPending (s : State) (x : KvSeq) : Bool :=
  s.attn.held.any fun h => h.slot == x.slot && rangesMeet h.ranges [(x.va, s.seqBytes x)]

/-- The result of an edit that has ended, or of its ST_DEFERRED (R269, R298, R299). -/
def State.editResult (s : State) (slot : Nat) (o : EditOut) (deferred : Bool) (ended : Nat) : List Byte :=
  let pool := s.kvPool slot
  let back := (o.pages.filter fun g => !(pool.inUse.any fun e => e.1 == g)).length
  let still := (o.pages.filter fun g => pool.inUse.any fun e => e.1 == g).length
  if o.kind = 0 then le 4 o.changed ++ le 4 (s.map slot).freeKib ++ le 8 ended
  else if o.kind = 1 then
    le 4 o.changed ++ le 4 (if deferred then 0 else back) ++ le 4 (if deferred then 0 else still) ++ le 4 pool.free
  else le 4 o.changed ++ le 4 (if deferred then 0 else back) ++ le 8 0

/-- An edit takes effect: the tables change; where a valid leaf went or changed, a shootdown follows (R258). `answered`: the command
has been answered ST_DEFERRED already. -/
def State.applyEdit (s : State) (c : Command) (slot : Nat) (answered : Bool) : State :=
  match s.editEffect c slot with
  | .error (status, detail) => if answered then s.deferredDone c.hdr status detail else s.finish c status detail []
  | .ok (s, o) =>
    if o.shoot then
      let noWait := c.hdr.opcode == 0x1002 && c.ex (c.u8 0x21) 0 == 1
      let s := s.startShoot ⟨some c, slot, o.kind, o.changed, o.pages, answered || noWait⟩
      if noWait && !answered then s.defer c 0x0701 (s.editResult slot o true 0) else s
    else if answered then s.deferredDone c.hdr stOk 0
    else s.finish c stOk 0 (s.editResult slot o false 0)

/-- An edit command is carried out: checked in full; deferred where it must wait (R294, R296). -/
def State.runEdit (s : State) (c : Command) (slot : Nat) : State :=
  match s.editEffect c slot with
  | .error (status, detail) => s.finish c status detail []
  | .ok (t, o) =>
    let rs := s.editRanges c
    if s.editWaits slot rs s.attn.held then
      { s with attn := { s.attn with held := s.attn.held ++ [({ cmd := c, slot := slot, ranges := rs } : HeldEdit)] } }.defer c 0x0701 (t.editResult slot o true 0)
    else s.applyEdit c slot false

/-- The first held edit that need not wait any longer. -/
def State.nextEdit (s : State) : Option Nat :=
  (List.range s.attn.held.length).find? fun i =>
    match s.attn.held[i]? with
    | some h => !s.editWaits h.slot h.ranges (s.attn.held.take i)
    | none => false

/-- Held edits take effect in dispatch order, at most `fuel` of them. -/
def State.applyHeld : Nat → State → State
  | 0, s => s
  | fuel + 1, s =>
    match s.nextEdit with
    | none => s
    | some i =>
      match s.attn.held[i]? with
      | none => s
      | some h =>
        State.applyHeld fuel
          ({ s with attn := { s.attn with held := s.attn.held.eraseIdx i } }.applyEdit h.cmd h.slot true)

end Sys2Proof.Machine
end

