-- ==== Sys2Proof/Machine/Attention.lean ====
section
/-! DEFINITION. The attention sequencers and the commands of the key-value cache (spec/12). -/

namespace Sys2Proof.Machine

/-- The first non-zero byte of the fields that an OP does not use (R5). -/
def unusedBad (c : Command) (ranges : List (Nat × Nat)) : Check :=
  match (List.range c.params.length).find? fun i =>
    ranges.any (fun r => r.1 ≤ i && i < r.1 + r.2) && c.params.getD i 0 != 0 with
  | some i => some (stBadParam, 0x20 + i)
  | none => none

/-! ## `seq_create` and the page commands -/

/-- The checks of SEQ_CREATE_POOL (R289, R298). -/
def State.seqCreatePoolChecks (s : State) (c : Command) : List Check :=
  let slot := s.cmdSlot c.hdr
  let base := c.u64 0x10
  let bytes := c.u64 0x18
  [unusedBad c [(2, 2), (4, 1), (5, 1), (6, 2), (8, 2), (0xC, 4)],
   failIf (s.kvPool slot).valid stBadParam 0x20,
   badIf (1 < c.u8 1) 1,
   badIf (base % 2 ^ 21 != 0) 0x10,
   badIf (bytes % 2 ^ 21 != 0 || bytes < 2 ^ 22 || 2 ^ 36 < bytes) 0x18,
   failIf (!s.hbmActive base bytes || (s.ownedRanges ++ s.kvRanges).any (fun r => meets base bytes r.1 r.2)) stBadParam 0x20]

/-- SEQ_CREATE_POOL (R289, R298). -/
def execSeqCreatePool (c : Command) (s : State) : Result := s.live fun s =>
  let slot := s.cmdSlot c.hdr
  let base := c.u64 0x10
  let bytes := c.u64 0x18
  let page := if c.u8 1 = 1 then 2 ^ 21 else 2 ^ 16
  let pages := bytes / page
  let desc := ceilDiv (pages * 8) page
  let low := c.ex (c.u32 0x20) 0
  s.checked c (s.seqCreatePoolChecks c)
    fun s =>
      let s := s.memZero base (desc * page)
      let s := s.setKvPool slot
        { valid := true, pageBytes := page, base := base, pages := pages, descPages := desc, lowWater := low
          cmd := some c.hdr }
      s.finish c stOk 0 (le 4 (pages - desc) ++ le 4 desc ++ le 8 0)

/-- The checks of SEQ_CREATE_SEQUENCE (R281, R298). -/
def State.seqCreateSequenceChecks (s : State) (c : Command) : List Check :=
  let slot := s.cmdSlot c.hdr
  let named := c.u16 2
  let pick := (List.range 1024).find? fun i => !(s.kvSeq i).valid
  let x : KvSeq :=
    { valid := true, slot := slot, va := c.u64 0x10, maxTokens := c.u32 0xC, kvHeads := c.u16 6, layers := c.u16 8,
      fmt := c.u8 4, dim := c.u8 5 }
  let bytes := s.seqBytes x
  let taken := (s.jobSeqs slot).any fun e => meets x.va bytes e.2.va (s.seqBytes e.2)
  let mapped := (List.range (bytes / 65536)).any fun i => (s.leafOf slot (x.va + 65536 * i)).isSome
  [unusedBad c [(1, 1), (0x18, 8), (0x20, 4)],
   badIf (named != 0xFFFF && (1023 < named || (s.kvSeq named).valid)) 2,
   badIf (x.fmt < 1 || 4 < x.fmt) 4,
   badIf (x.dim != 64 && x.dim != 128) 5,
   badIf (x.kvHeads == 0 || 64 < x.kvHeads) 6,
   badIf (x.layers == 0 || 255 < x.layers) 8,
   badIf (x.maxTokens == 0 || 1048576 < x.maxTokens) 0xC,
   badIf (x.va % 2 ^ 21 != 0 || 2 ^ 57 < x.va + bytes || taken || s.meetsReel slot x.va bytes || mapped) 0x10,
   failIf (named == 0xFFFF && pick.isNone) stNoResource 0x80]

/-- SEQ_CREATE_SEQUENCE (R281, R298). -/
def execSeqCreateSequence (c : Command) (s : State) : Result := s.live fun s =>
  let slot := s.cmdSlot c.hdr
  let named := c.u16 2
  let pick := (List.range 1024).find? fun i => !(s.kvSeq i).valid
  let x : KvSeq :=
    { valid := true, slot := slot, va := c.u64 0x10, maxTokens := c.u32 0xC, kvHeads := c.u16 6, layers := c.u16 8,
      fmt := c.u8 4, dim := c.u8 5 }
  let bytes := s.seqBytes x
  s.checked c (s.seqCreateSequenceChecks c)
    fun s =>
      let id := if named = 0xFFFF then pick.getD 0 else named
      (s.setKvSeq id x).finish c stOk 0 (le 2 id ++ le 2 (s.pageTokens x) ++ le 4 (s.pagesPerHead x) ++ le 8 bytes)

/-- Whether an id names a sequence of the command's job. -/
def State.seqNamed (s : State) (c : Command) (id : Nat) : Bool :=
  id < 1024 && (s.kvSeq id).valid && (s.kvSeq id).slot == s.cmdSlot c.hdr

/-- The checks of SEQ_DESTROY (R298, R294). -/
def State.seqDestroyChecks (s : State) (c : Command) : List Check :=
  [unusedBad c [(1, 1), (4, 1), (5, 1), (6, 2), (8, 2), (0xC, 4), (0x10, 8), (0x18, 8), (0x20, 4)],
   badIf (!s.seqNamed c (c.u16 2)) 2]

/-- SEQ_DESTROY (R298, R294). -/
def execSeqDestroy (c : Command) (s : State) : Result := s.live fun s =>
  s.checked c (s.seqDestroyChecks c) fun s => s.runEdit c (s.cmdSlot c.hdr)

/-- The checks on LAYER, KV_HEAD, FIRST_PAGE and PAGES of a page command (Table 12.6), from the offset of LAYER. -/
def State.pageChecks (s : State) (c : Command) (x : KvSeq) (off : Nat) (zeroOk : Bool) : List Check :=
  let pph := s.pagesPerHead x
  let n := c.u32 0xC
  [badIf (c.u16 off != 0xFFFF && x.layers ≤ c.u16 off) off,
   badIf (c.u16 (off + 2) != 0xFFFF && x.kvHeads ≤ c.u16 (off + 2)) (off + 2),
   badIf (pph ≤ c.u32 8) 8,
   badIf ((n == 0 && !zeroOk) || pph < c.u32 8 + n) 0xC]

/-- The checks of KV_PAGE_MAP (R299). -/
def State.kvPageMapChecks (s : State) (c : Command) : List Check :=
  let x := s.kvSeq (c.u16 0)
  (badIf (!s.seqNamed c (c.u16 0)) 0 :: s.pageChecks c x 2 false ++
    [badIf (1 < c.ex (c.u8 0x10) 0) 0x10, failIf (!(s.map (s.cmdSlot c.hdr)).valid) stBadParam 0xC])

/-- KV_PAGE_MAP (R299). -/
def execKvPageMap (c : Command) (s : State) : Result := s.live fun s =>
  s.checked c (s.kvPageMapChecks c)
    fun s => s.runEdit c (s.cmdSlot c.hdr)

/-- The checks of KV_PAGE_SHARE (R299). -/
def State.kvPageShareChecks (s : State) (c : Command) : List Check :=
  let a := s.kvSeq (c.u16 0)
  let b := s.kvSeq (c.u16 2)
  ([badIf (!s.seqNamed c (c.u16 0)) 0,
    badIf (!s.seqNamed c (c.u16 2) || a.fmt != b.fmt || a.dim != b.dim || a.kvHeads != b.kvHeads ||
      a.maxTokens != b.maxTokens || b.layers < a.layers) 2] ++ s.pageChecks c a 4 false ++
   [badIf (a.maxTokens < c.u32 0x10) 0x10])

/-- KV_PAGE_SHARE (R299). -/
def execKvPageShare (c : Command) (s : State) : Result := s.live fun s =>
  s.checked c (s.kvPageShareChecks c)
    fun s => s.runEdit c (s.cmdSlot c.hdr)

/-- The checks of KV_PAGE_FREE (R299). -/
def State.kvPageFreeChecks (s : State) (c : Command) : List Check :=
  (badIf (!s.seqNamed c (c.u16 0)) 0 :: s.pageChecks c (s.kvSeq (c.u16 0)) 2 true)

/-- KV_PAGE_FREE (R299). -/
def execKvPageFree (c : Command) (s : State) : Result := s.live fun s =>
  s.checked c (s.kvPageFreeChecks c)
    fun s => s.runEdit c (s.cmdSlot c.hdr)

/-! ## Patterns and tiles (R278, R279, R286) -/

namespace AttnRun
def layer (x : AttnRun) : Nat := x.cmd.u16 4
def firstRow (x : AttnRun) : Nat := x.cmd.u8 6
def rows (x : AttnRun) : Nat := x.cmd.u8 7
def heads (x : AttnRun) : Nat := x.cmd.u16 0xA
def causal (x : AttnRun) : Bool := x.cmd.u8 0xD == 1
def ringLine (x : AttnRun) : Nat := x.cmd.u16 0xE
def ringSlots (x : AttnRun) : Nat := x.cmd.u8 0x10
def window (x : AttnRun) : Nat := x.cmd.u32 0x14
def qFirst (x : AttnRun) : Nat := x.cmd.u32 0x18
def qCount (x : AttnRun) : Nat := x.cmd.u32 0x1C
def append (x : AttnRun) : Nat := x.cmd.u32 0x38
/-- The global ranges, none in the basic form. -/
def globals (x : AttnRun) : List (Nat × Nat) :=
  (List.range (x.cmd.ex (x.cmd.u8 0x50) 0)).map fun g => (x.cmd.u32 (0x58 + 8 * g), x.cmd.u32 (0x5C + 8 * g))
/-- Query tiles of each head. -/
def queryTiles (x : AttnRun) : Nat := ceilDiv x.qCount 128
/-- Whether a key lies in a global range. -/
def isGlobal (x : AttnRun) (k : Nat) : Bool := x.globals.any fun r => r.1 ≤ k && k < r.2
/-- The pattern of R286. -/
def allowed (x : AttnRun) (q k : Nat) : Bool :=
  if x.length ≤ k then false
  else if x.causal && q < k then false
  else if x.window = 0 then true
  else (if x.causal then q - k < x.window else (q - k) + (k - q) < x.window) || x.isGlobal k
/-- The positions of a query tile. -/
def tileQueries (x : AttnRun) (i : Nat) : List Nat :=
  (List.range (min 128 (x.qCount - 128 * i))).map fun r => x.qFirst + 128 * i + r
/-- The valid keys of the key tile at a base. -/
def tileKeys (x : AttnRun) (base : Nat) : List Nat := (List.range (min 128 (x.length - base))).map (base + ·)
/-- The key tiles that a task of query tile i receives, with MASK, ascending (R286). -/
def tiles (x : AttnRun) (i : Nat) : List (Nat × Bool) :=
  ((List.range (ceilDiv x.length 128)).map (128 * ·)).filterMap fun base =>
    let pairs := (x.tileQueries i).flatMap fun q => (x.tileKeys base).map fun k => x.allowed q k
    if pairs.any id then some (base, !(pairs.all id)) else none
/-- Row, query head and key-value head of a head of the run (R277). -/
def headRow (x : AttnRun) (j : Nat) : Nat := x.firstRow + j % x.rows
def queryHead (x : AttnRun) (j : Nat) : Nat := x.cmd.u16 8 + j
def kvHead (x : AttnRun) (j : Nat) : Nat := x.queryHead j / x.cmd.u8 0xC
end AttnRun

/-- Elements of a sequence's row, in bytes: D × eb. -/
def KvSeq.rowBytes (x : KvSeq) : Nat := x.dim * elementBytes x.fmt

/-- SLOT_LINES (Table 12.1): D × eb lines of keys and as many of values follow the header. -/
def KvSeq.slotLines (x : KvSeq) : Nat := 1 + 2 * x.rowBytes

/-- The address of a token's key row in a layer and head; its value row lies half a page further (R283). -/
def State.keyVa (s : State) (x : KvSeq) (layer head t : Nat) : Nat :=
  s.seqPage x layer head (t / s.pageTokens x) + t % s.pageTokens x * x.rowBytes

/-- The header of a tile (Table 12.2). -/
def AttnRun.header (x : AttnRun) (base : Nat) (mask last : Bool) (t : Nat) : List Byte :=
  let keys := x.tileKeys base
  le 8 base ++ le 2 keys.length ++ le 1 (b2n mask) ++ le 1 (b2n last) ++ le 4 t ++
    le 16 ((List.range keys.length).foldl (fun m k => putBit m k (x.isGlobal (base + k))) 0) ++ List.replicate 96 0

/-- The lines of a tile: the header, the keys, the values; rows beyond KEYS are zero (R279). -/
def State.tileData (s : State) (run : AttnRun) (x : KvSeq) (j base : Nat) (mask last : Bool) (t : Nat) :
    List (List Byte × Bool) :=
  let keys := (run.tileKeys base).length
  let va := s.keyVa x run.layer (run.kvHead j) base
  let part (va : Nat) : List (List Byte × Bool) :=
    (List.range x.rowBytes).map fun i =>
      let n := min 128 (keys * x.rowBytes - 128 * i)
      match s.vread run.slot (va + 128 * i) n with
      | .ok d => (d.1 ++ List.replicate (128 - n) 0, d.2)
      | .error _ => (List.replicate 128 0, false)
  (run.header base mask last t, false) :: part va ++ part (va + s.seqPageBytes x / 2)

/-! ## Rings and rows (R277, R279) -/

/-- The logical cores of a row that lie in the job's allotment. -/
def State.rowCores (s : State) (slot row : Nat) : List Nat :=
  (s.jobCores slot).filter fun c => 12 * row ≤ c && c < 12 * row + 12

/-- The rows of a run. -/
def AttnRun.rowList (x : AttnRun) : List Nat := (List.range x.rows).map (x.firstRow + ·)

/-- The physical cores of a run's rows. -/
def State.runCores (s : State) (x : AttnRun) : List Nat :=
  x.rowList.flatMap fun r => (s.rowCores x.slot r).filterMap fun c => s.physOf c

/-- The lowest free turnout and the lowest disabled take region of a core. -/
def State.freeTurnout (s : State) (p : Nat) : Option Nat := (List.range 16).find? fun t => !(s.turnout p t).accepting
def State.freeTake (s : State) (p : Nat) : Option Nat :=
  (List.range 16).find? fun n => !bitAt (s.reg (uSpad p) (0x300 + 8 * n)) 63

/-- Whether lines of a core meet an open turnout or an enabled take region. -/
def State.ringTaken (s : State) (p line n : Nat) : Bool :=
  (List.range 16).any fun t =>
    ((s.turnout p t).accepting && meets line n (s.turnout p t).base (s.turnout p t).lines) ||
      (let r := s.reg (uSpad p) (0x300 + 8 * t); bitAt r 63 && meets line n (bits r 15 0) (bits r 31 16))

/-- A ring opens on a core: a turnout in COUNT mode and a take region over its lines, which are emptied (R279). -/
def State.openRing (s : State) (x : AttnRun) (p : Nat) : State × (Nat × Nat) :=
  let t := (s.freeTurnout p).getD 0
  let n := (s.freeTake p).getD 0
  let lines := x.ringSlots * (s.kvSeq x.seq).slotLines
  let s := s.setEmptyRange p x.ringLine lines
  let s := s.setTurnout p t
    { phase := .opened, byCount := true, placement := (s.job x.slot).placement, epoch := (s.fjob x.slot).epoch
      slot := x.slot, base := x.ringLine, lines := lines, expect := 0xFFFFFFFF, openCmd := some x.cmd.hdr }
  (s.setReg (uSpad p) (0x300 + 8 * n) (2 ^ 63 + lines * 2 ^ 16 + x.ringLine), (t, n))

/-- A ring closes: its turnout in close-now mode, its take region disabled. -/
def State.closeRing (s : State) (x : AttnRun) (p t n : Nat) : State :=
  (s.closeTurnout p t (s.logicalOf p) 1 (some x.cmd.hdr) stOk stCancelled 0).setFld (uSpad p) (0x300 + 8 * n) 63 63 0

/-! ## Starting a run (R280, R285, R291, R293) -/

/-- The tokens that a run appends. -/
def State.appendTokens (s : State) (x : AttnRun) : List Nat :=
  let l := (s.kvSeq x.seq).lengths.get 0 x.layer
  (List.range x.append).map (l + ·)

/-- The pages that the append writes: (head, page, address). -/
def State.appendPages (s : State) (x : AttnRun) : List (Nat × Nat × Nat) :=
  let q := s.kvSeq x.seq
  let ps := ((s.appendTokens x).map fun t => t / s.pageTokens q).eraseDups
  (List.range q.kvHeads).flatMap fun h => ps.map fun p => (h, p, s.seqPage q x.layer h p)

/-- The first page that the append cannot write: unmapped, or an ordinary leaf without WRITE (R285). -/
def State.appendFault (s : State) (x : AttnRun) : Option VFault :=
  (s.appendPages x).findSome? fun g =>
    match s.translate x.slot g.2.2 false, s.leafOf x.slot g.2.2 with
    | .error f, _ => some f
    | .ok _, some l =>
      if (s.poolLeaf x.slot l.2.1).isNone && !bitAt l.2.1 2 then some ⟨(if l.1 = 16 then 1 else if l.1 = 21 then 2 else 3), 2, g.2.2⟩
      else none
    | .ok _, none => none

/-- The pages that must be copied before the append: pool pages with more than one reference (R291). -/
def State.copyPages (s : State) (x : AttnRun) : List (Nat × Nat) :=
  (s.appendPages x).filterMap fun g =>
    (s.leafOf x.slot g.2.2).bind fun l => (s.poolLeaf x.slot l.2.1).bind fun p =>
      if 1 < ((s.kvPool x.slot).inUse.get {} p).ref then some (g.2.2, p) else none

/-- One copy-on-write (R291): a free page takes the contents, the leaf maps it, the old page loses a reference and waits for the
shootdown. -/
def State.copyOnWrite (s : State) (x : AttnRun) (va old : Nat) : State :=
  match s.takePage x.slot with
  | none => s
  | some (g, s) =>
    let pool := s.kvPool x.slot
    let src := pool.base + old * pool.pageBytes
    let dst := pool.base + g * pool.pageBytes
    let s := (List.range (pool.pageBytes / 64)).foldl (fun s i =>
      s.memWrite (dst + 64 * i) (s.memBytes (src + 64 * i) 64) (s.memPoison (src + 64 * i) 64)) (s.memTouch src pool.pageBytes)
    match s.mapPage x.slot va (s.seqShift (s.kvSeq x.seq)) dst false with
    | .error _ => s
    | .ok s =>
      let s := s.editPage x.slot old fun k => { k with ref := k.ref - 1, waits := k.waits + 1 }
      s.startShoot ⟨none, x.slot, 0, 1, [old], false⟩

/-- The append (R285): the new rows of every head go into the pages, and the layer's length rises. -/
def State.appendRows (s : State) (x : AttnRun) : State :=
  let q := s.kvSeq x.seq
  let l := q.lengths.get 0 x.layer
  let rb := q.rowBytes
  let put (s : State) (src dst : Nat) : State :=
    let s := s.vtouch x.slot src rb
    match s.vread x.slot src rb, s.translate x.slot dst false with
    | .ok d, .ok pa => s.memWrite pa d.1 d.2
    | _, _ => s
  let s := (List.range q.kvHeads).foldl (fun s h => (List.range x.append).foldl (fun s m =>
    let off := (h * x.append + m) * rb
    let dst := s.keyVa q x.layer h (l + m)
    put (put s (x.cmd.u64 0x40 + off) dst) (x.cmd.u64 0x48 + off) (dst + s.seqPageBytes q / 2)) s) s
  s.setKvSeq x.seq { q with lengths := q.lengths.set 0 x.layer (l + x.append) }

/-- The addresses of the pages that a run's tiles lie in (R293). -/
def State.walkPages (s : State) (x : AttnRun) : List Nat :=
  let q := s.kvSeq x.seq
  let heads := ((List.range x.heads).map fun j => x.kvHead j).eraseDups
  let bases := (((List.range x.queryTiles).flatMap fun i => (x.tiles i).map (·.1)).eraseDups)
  let ps := (bases.map fun b => b / s.pageTokens q).eraseDups
  heads.flatMap fun h => ps.map fun p => s.seqPage q x.layer h p

/-- The argument record of a task (Table 12.1), without the user bytes. -/
def State.attnArgs (s : State) (x : AttnRun) (j i : Nat) : List Byte :=
  let q := s.kvSeq x.seq
  let row := j * x.qCount + 128 * i
  le 8 (x.qFirst + 128 * i) ++ le 2 (x.tileQueries i).length ++ le 2 (x.queryHead j) ++ le 2 (x.kvHead j) ++
    le 2 x.layer ++ le 4 (x.tiles i).length ++ le 2 x.ringLine ++ le 1 x.ringSlots ++ le 1 (b2n x.causal) ++
    le 4 x.window ++ le 2 q.slotLines ++ le 2 0 ++ le 8 (x.cmd.u64 0x20 + row * q.rowBytes) ++
    le 8 (x.cmd.u64 0x28 + row * q.dim * 4) ++ le 8 x.length ++ le 8 0

/-- The tasks of a run: heads ascending, and query tiles ascending within a head, each on the cores of its head's row (R278). -/
def State.attnTasks (s : State) (x : AttnRun) (user : List Byte) : List Task :=
  (List.range x.heads).flatMap fun j => (List.range x.queryTiles).map fun i =>
    { cmd := x.cmd.hdr, order := x.order, slot := x.slot, headgate := x.headgate, kernel := x.cmd.u16 2
      index := j * x.queryTiles + i, cores := s.rowCores x.slot (x.headRow j), argVa := 0, argSize := 0
      args := s.attnArgs x j i ++ user, kind := .attn x.order, readyAt := s.now }

def State.attnRun (s : State) (order : Nat) : Option AttnRun := s.attn.runs.find? fun x => x.order == order

def State.setAttnRun (s : State) (x : AttnRun) : State :=
  { s with attn := { s.attn with runs := s.attn.runs.map fun y => if y.order = x.order then x else y } }

def State.dropAttnRun (s : State) (order : Nat) : State :=
  { s with attn := { s.attn with runs := s.attn.runs.filter fun y => y.order != order } }

/-- A run fails before any task of it is placed. -/
def State.failRun (s : State) (x : AttnRun) (status detail : Nat) : State :=
  let s := s.dropAttnRun x.order
  let s := { s with sched := { s.sched with runs := s.sched.runs.filter fun y => y.order != x.order } }
  (x.rowList.foldl (fun s r => s.bump (uAttn r) 0x020 15 0 1) s).finish x.cmd status detail []

/-- Whether a run comes before another in waiting for a row (R277). -/
def State.runBefore (s : State) (a b : AttnRun) : Bool :=
  let hg (x : AttnRun) : Bool := x.headgate && s.fld (uAttn x.firstRow) 0x040 0 0 == 1
  (hg a && !hg b) || (hg a == hg b && a.order < b.order)

/-- Whether a waiting run may start now: its rows are free and it is the first to wait for each of them; its sequence has no
pending edit and no appending walker, and no walker at all where it appends (R277, R294, R296). -/
def State.runMayStart (s : State) (x : AttnRun) : Bool :=
  let q := s.kvSeq x.seq
  let shares (y : AttnRun) : Bool := y.rowList.any fun r => x.rowList.contains r
  !x.walking && (s.attn.runs.all fun y => y.order == x.order || !shares y || (!y.walking && s.runBefore x y)) &&
    !s.editPending q && !q.exclusive && (x.append == 0 || q.walkers.isEmpty)

/-- Pin-store entries in use. -/
def State.pinsUsed (s : State) : Nat := (s.attn.runs.map (·.pinned)).sum

/-- A run that may start does so: copies, append, pins, rings, and its tasks become ready; or it fails; or it goes on waiting for
pin entries. -/
def State.startRun (s : State) (x : AttnRun) : State :=
  let q := s.kvSeq x.seq
  let lines := x.ringSlots * q.slotLines
  let cores := s.runCores x
  let user := s.vread x.slot (x.cmd.u64 0x30) (x.cmd.u8 0x11)
  let after := { x with length := q.lengths.get 0 x.layer + x.append }
  let newVa := [x.cmd.u64 0x40, x.cmd.u64 0x48]
  let readFault := newVa.findSome? fun a => s.vcheck x.slot a (q.kvHeads * x.append * q.rowBytes) false
  let page (s : State) (f : VFault) : State := (s.vfault x.cmd.hdr x.slot (uAttn x.firstRow) f).failRun x stPageFault f.detail
  let pages := s.walkPages after
  let unit := x.rowList.find? fun r => (s.xentry (uAttn r)).state == 3
  if unit.isSome then s.failRun x stRetired (uAttn (unit.getD 0))
  else if after.length < x.qFirst + x.qCount then s.failRun x stBadParam 0x3C
  else if q.maxTokens < after.length then s.failRun x stBadParam 0x58
  else if cores.any fun p => s.ringTaken p x.ringLine lines then s.failRun x stBadParam 0x2E
  else if cores.any fun p => (s.freeTurnout p).isNone || (s.freeTake p).isNone then s.failRun x stNoResource 0x84
  else match (if x.append = 0 then none else (readFault.orElse fun _ => s.appendFault x)), user with
  | some f, _ => page s f
  | none, .error f => page s f
  | none, .ok u =>
    let copies := s.copyPages x
    if (s.kvPool x.slot).free < copies.length then s.failRun x stNoResource 0x81
    else if s.fld (uAttn x.firstRow) 0x040 63 32 < pages.length then s.failRun x stNoResource 0x83
    else if 65536 < s.pinsUsed + pages.length then s
    else
      let s := copies.foldl (fun s g => s.copyOnWrite x g.1 g.2) s
      let s := if copies.isEmpty then s else s.bump (uAttn x.firstRow) 0x020 31 16 copies.length
      let s := if x.append = 0 then s else s.appendRows x
      match pages.findSome? fun va => s.vcheck x.slot va 1 false with
      | some f => page s f
      | none =>
        let pins := pages.filterMap fun va => (s.leafOf x.slot va).bind fun l => s.poolLeaf x.slot l.2.1
        let s := pins.foldl (fun s g => s.editPage x.slot g fun k => { k with pin := k.pin + 1 }) s
        let q := s.kvSeq x.seq
        let s := s.setKvSeq x.seq { q with walkers := q.walkers ++ [x.order], exclusive := 0 < x.append }
        let (s, rings) := cores.foldl (fun (acc : State × TMap (Nat × Nat)) p =>
          let (s, r) := acc.1.openRing x p
          (s, acc.2.insert p r)) (s, [])
        let skipped : Nat := -- of one head
          ((List.range after.queryTiles).map fun i => ceilDiv after.length 128 - (after.tiles i).length).sum
        let s := (List.range x.heads).foldl (fun s j => s.bump (uAttn (x.headRow j)) 0x018 31 0 skipped) s
        let run := { after with
          walking := true, pins := pins, pinned := pages.length, rings := rings, copied := copies.length
          tilesSkipped := x.heads * skipped }
        let s := s.setAttnRun run
        { s with sched := { s.sched with ready := s.sched.ready ++ s.attnTasks run u.1 } }

/-- Waiting runs start in their order, at most `fuel` of them. -/
def State.attnPump : Nat → State → State
  | 0, s => s
  | fuel + 1, s =>
    match s.attn.runs.find? fun x => s.runMayStart x with
    | none => s
    | some x =>
      let t := s.startRun x
      if decide (t.attn.runs = s.attn.runs) then s else State.attnPump fuel t

def State.pumpRuns (s : State) : State := s.attnPump s.attn.runs.length

/-- The checks of ATTN_RUN (R300). -/
def State.attnRunChecks (s : State) (c : Command) : List Check :=
  let slot := s.cmdSlot c.hdr
  let q := s.kvSeq (c.u16 0)
  let n := c.ex (c.u8 0x50) 0
  let x : AttnRun := { cmd := c, order := s.sched.nextOrder, slot := slot, seq := c.u16 0, headgate := (s.queue c.hdr.qkey).headgate }
  let badGlobal := (List.range 16).find? fun g =>
    if g < n then c.u32 (0x5C + 8 * g) ≤ c.u32 (0x58 + 8 * g) else c.u64 (0x58 + 8 * g) != 0
  [badIf (!s.seqNamed c (c.u16 0)) 0,
   badIf ((s.kernel slot (c.u16 2)).isNone) 2,
   badIf (q.layers ≤ c.u16 4) 4,
   badIf (11 < c.u8 6) 6,
   badIf (c.u8 7 == 0 || 12 < c.u8 6 + c.u8 7) 7,
   badIf (c.u8 0xC == 0 || 16 < c.u8 0xC) 0xC,
   badIf (c.u16 0xA == 0 || 1024 < c.u16 0xA || q.kvHeads * c.u8 0xC < c.u16 8 + c.u16 0xA) 0xA,
   badIf (1 < c.u8 0xD) 0xD,
   badIf (c.u8 0x10 < 2 || 16 < c.u8 0x10) 0x10,
   badIf (24576 < c.u16 0xE + c.u8 0x10 * q.slotLines) (if 24576 ≤ c.u16 0xE then 0xE else 0x10),
   badIf (192 < c.u8 0x11 || c.u8 0x11 % 16 != 0) 0x11,
   badIf (c.u32 0x1C == 0 || 1048576 < c.u32 0x1C) 0x1C,
   badIf (c.u64 0x20 % 128 != 0) 0x20,
   badIf (c.u8 0x11 == 0 && c.u64 0x30 != 0) 0x30,
   badIf (65536 < c.u32 0x38) 0x38,
   badIf (c.u32 0x38 == 0 && c.u64 0x40 != 0) 0x40,
   badIf (c.u32 0x38 == 0 && c.u64 0x48 != 0) 0x48,
   badIf (16 < n) 0x50,
   badIf (c.hdr.expert && badGlobal.isSome) (0x58 + 8 * badGlobal.getD 0),
   failIf (x.rowList.any fun r => (s.rowCores slot r).isEmpty) stBadParam 0x26]

/-- ATTN_RUN (R300). -/
def execAttnRun (c : Command) (s : State) : Result := s.live fun s =>
  let slot := s.cmdSlot c.hdr
  let x : AttnRun := { cmd := c, order := s.sched.nextOrder, slot := slot, seq := c.u16 0, headgate := (s.queue c.hdr.qkey).headgate }
  s.checked c (s.attnRunChecks c)
    fun s =>
      let total := x.heads * x.queryTiles
      let run : TaskRun :=
        { cmd := c, order := x.order, slot := slot, total := total, unplaced := total, running := 0, ended := 0, faulted := 0
          firstFault := none, maxCores := 0, trace := false, traceBuf := 0, lastEnd := 0 }
      { s with
        sched := { s.sched with nextOrder := s.sched.nextOrder + 1, runs := s.sched.runs ++ [run] }
        attn := { s.attn with runs := s.attn.runs ++ [x] } }.pumpRuns

/-! ## While a run walks, and its end -/

/-- ATTN_TILE_SEND (R279): the next tile of the task on a core goes into its ring slot, once every line of the slot is empty. -/
def execAttnTileSend (p : Nat) (s : State) : Result := s.live fun s =>
  match (s.core p).task with
  | none => s
  | some t =>
    match t.kind with
    | .attn order =>
      match s.attnRun order with
      | none => s
      | some x =>
        let q := s.kvSeq x.seq
        let k := x.sent.get 0 t.index
        let tiles := x.tiles (t.index % x.queryTiles)
        let line := x.ringLine + k % x.ringSlots * q.slotLines
        match tiles[k]? with
        | none => s
        | some (base, mask) =>
          s.onlyIf ((List.range q.slotLines).all fun i => !s.isFull p (line + i)) fun s =>
            let j := t.index / x.queryTiles
            let data := s.tileData x q j base mask (k + 1 == tiles.length) k
            let ring := s.turnout p (x.rings.get (0, 0) p).1
            let s := (packets line data.length).foldl (fun s g =>
              (s.remoteWrite p g.1 ((data.drop (g.1 - line)).take g.2) x.slot ring.placement ring.epoch).2) s
            let s := s.bump (uAttn (x.headRow j)) 0x018 63 32 1
            s.setAttnRun { x with sent := x.sent.insert t.index (k + 1), tilesSent := x.tilesSent + 1 }
    | _ => s

/-- A run ends (R300): its rings close, its pins are released, its sequence loses a walker, and the command completes. -/
def State.endRun (s : State) (order : Nat) : State :=
  match s.attnRun order, s.sched.runs.find? fun r => r.order == order with
  | some x, some r =>
    let s := x.rings.foldl (fun s e => s.closeRing x e.1 e.2.1 e.2.2) s
    let s := x.pins.foldl (fun s g => (s.editPage x.slot g fun k => { k with pin := k.pin - 1 }).freePage x.slot g) s
    let q := s.kvSeq x.seq
    let s := s.setKvSeq x.seq { q with walkers := q.walkers.filter (· != order), exclusive := false }
    let s := x.rowList.foldl (fun s k => (if r.firstFault.isSome then s.bump (uAttn k) 0x020 15 0 1
      else s.bump (uAttn k) 0x020 63 32 1).setReg (uAttn k) 0x038 s.now) s
    let s := s.dropAttnRun order
    let s := { s with sched := { s.sched with runs := s.sched.runs.filter fun y => y.order != order } }
    let (status, detail) := if r.cancelled then (stCancelled, 0) else r.firstFault.getD (stOk, 0)
    (s.finish x.cmd status detail
      (le 4 r.total ++ le 4 x.tilesSent ++ le 4 x.tilesSkipped ++ le 2 x.copied ++ le 2 0 ++ le 8 s.now)).pumpRuns
  | _, _ => s

/-- A task of a run has ended: after a fault the tasks not yet placed are dropped; after the last the run ends (R300). -/
def State.attnTaskEnd (s : State) (order : Nat) (fault : Bool) : State :=
  let s := if fault then
    { s with sched := { s.sched with
      ready := s.sched.ready.filter fun t => t.kind != .attn order
      runs := s.sched.runs.map fun (r : TaskRun) => if r.order = order then { r with unplaced := 0 } else r } }
    else s
  match s.sched.runs.find? fun r => r.order == order with
  | some r => if r.unplaced = 0 && r.running = 0 then s.endRun order else s
  | none => s

/-- DEFERRED_EDIT_APPLY (R294, R296): at a sequence's kernel boundary the pending edits take effect in dispatch order; held runs
start after that. -/
def execDeferredEditApply (id : Nat) (s : State) : Result := s.live fun s =>
  let x := s.kvSeq id
  s.onlyIf (x.valid && x.walkers.isEmpty && s.editPending x) fun s => (s.applyHeld s.attn.held.length).pumpRuns

end Sys2Proof.Machine
end

