-- ==== Sys2Proof/Machine/Decodes.lean ====
section
/-! DEFINITION. The decodes on the queues of the intake engines, as streams, jobs and the diagnosis unit end them (R487). -/

namespace Sys2Proof.Machine

def State.decodes (s : State) (e : Nat) : List Decode := s.hostPort.decodes.get [] e

def State.setDecodes (s : State) (e : Nat) (l : List Decode) : State :=
  { s with hostPort := { s.hostPort with decodes := s.hostPort.decodes.set [] e l } }

/-- Decodes are named by a cancel: a running one ends with the frame in progress, a waiting one completes at once (R487). -/
def State.cancelDecodes (s : State) (named : Decode → Bool) : State :=
  (List.range 4).foldl (fun s e =>
    match s.decodes e with
    | [] => s
    | d :: rest =>
      let d := if named d then { d with cancelled := true } else d
      let s := s.setDecodes e (d :: rest.filter fun x => !named x)
      (rest.filter named).foldl (fun s x => s.finish x.cmd stCancelled 0 []) s) s

/-- The stream that a decode feeds (R488). -/
def Decode.stream (d : Decode) : Nat := d.cmd.ex (d.cmd.u16 0x30) 0xFFFF

/-- The decodes of a retired engine complete with ST_RETIRED (R487). -/
def State.retireDecodes (s : State) (e : Nat) : State :=
  (s.decodes e).foldl (fun s d => s.finish d.cmd stRetired (uIntake e) []) (s.setDecodes e [])

end Sys2Proof.Machine
end

