-- ==== Sys2Proof/Machine/Streams.lean ====
section
/-! DEFINITION. Streams, pools, sluice credits and the reservoir (spec/08). -/

namespace Sys2Proof.Machine

/-! ## Pools and slots (R165-R168) -/

abbrev poolKey (slot pool : Nat) : Nat := slot * 4 + pool

def State.pool (s : State) (slot pool : Nat) : Pool := s.streams.pools.get {} (poolKey slot pool)

def State.setPool (s : State) (slot pool : Nat) (x : Pool) : State :=
  { s with streams := { s.streams with pools := s.streams.pools.insert (poolKey slot pool) x } }

def State.stream (s : State) (id : Nat) : Stream := s.streams.streams.get {} id

def State.setStream (s : State) (id : Nat) (x : Stream) : State :=
  { s with streams := { s.streams with streams := s.streams.streams.insert id x } }

/-- The open streams of a job's pool. -/
def State.poolStreams (s : State) (slot pool : Nat) : List (Nat × Stream) :=
  s.streams.streams.filter fun e => e.2.isOpen && e.2.slot == slot && e.2.pool == pool

def Stream.sources (x : Stream) : List Nat :=
  (List.range x.stages.length).filter fun k => ((x.stages[k]?).map (·.kind)) == some 1 || ((x.stages[k]?).map (·.kind)) == some 2
def Stream.stores (x : Stream) : List Nat :=
  (List.range x.stages.length).filter fun k => ((x.stages[k]?).map (·.kind)) == some 4
def Stream.stage (x : Stream) (k : Nat) : Stage := x.stages.getD k default
def Stream.kernelStage (x : Stream) : Stage := (x.stages.find? fun g => g.kind == 3).getD default

/-- The logical core of a lane (R162). -/
def Stream.laneCore (x : Stream) (lane : Nat) : Nat := x.firstCore + lane

/-- Whether a stream has a lane on a logical core. -/
def Stream.onCore (x : Stream) (c : Nat) : Bool := x.firstCore ≤ c && c < x.firstCore + x.lanes

/-- Slots held by a source ring of a lane (R168). -/
def Stream.heldBy (x : Stream) (lane stage : Nat) : Nat :=
  (x.granted.filter fun g => g.lane == lane && g.stage == stage).length

/-- Output slots in use on a lane for a STORE stage. -/
def Stream.outsOf (x : Stream) (lane stage : Nat) : Nat :=
  ((x.placed.flatMap (·.outs)).filter fun g => g.lane == lane && g.stage == stage).length

/-- The streams of a pool with a lane on a core. -/
def State.onPool (s : State) (slot pool c : Nat) : List (Nat × Stream) :=
  (s.poolStreams slot pool).filter fun e => e.2.onCore c

/-- Slots that source rings hold on a core. -/
def State.heldSlots (s : State) (slot pool c : Nat) : Nat :=
  ((s.onPool slot pool c).map fun e => (e.2.granted.filter fun g => e.2.laneCore g.lane == c).length).sum

/-- Free slots of a pool on a core: those neither held by a source ring nor set aside for STORE stages (R168). -/
def State.poolFreeSlots (s : State) (slot pool c : Nat) : Nat :=
  (s.pool slot pool).slots - s.heldSlots slot pool c - ((s.onPool slot pool c).map fun e => 2 * e.2.stores.length).sum

/-- Slot numbers in use on a core. -/
def State.usedIndexes (s : State) (slot pool c : Nat) : List Nat :=
  (s.onPool slot pool c).flatMap fun e =>
    ((e.2.granted ++ e.2.placed.flatMap (·.outs)).filter fun g => e.2.laneCore g.lane == c).map (·.index)

/-- The lowest slot number not in use on a core. -/
def State.freeIndex (s : State) (slot pool c : Nat) : Option Nat :=
  (List.range (s.pool slot pool).slots).find? fun i => !(s.usedIndexes slot pool c).contains i

/-- First line of a slot. -/
def Pool.line (x : Pool) (index : Nat) : Nat := x.base + index * x.slotLines

/-- The number of slots owed to reserves on a core (R168). -/
def State.owed (s : State) (slot pool c : Nat) : Nat :=
  ((s.onPool slot pool c).map fun e =>
    ((e.2.sources).map fun k => 2 - e.2.heldBy (c - e.2.firstCore) k).sum).sum

/-- The iteration that a source ring of a lane fetches next: the lowest of the run that it has not been granted and that is
neither placed nor completed. -/
def Stream.nextIter (x : Stream) (lane stage : Nat) : Option Nat :=
  match x.runs.head? with
  | none => none
  | some r =>
    (((List.range r.iterations).map (r.first + ·)).filter fun i => i % x.lanes == lane).find? fun i =>
      !(x.granted.any fun g => g.stage == stage && g.iter == i) && !(x.placed.any fun q => q.iter == i) && !x.done.contains i

/-- The demand iteration of a lane: the oldest of the run whose task has not ended (R170). -/
def Stream.demand (x : Stream) (lane : Nat) : Option Nat :=
  match x.runs.head? with
  | none => none
  | some r =>
    (((List.range r.iterations).map (r.first + ·)).filter fun i => i % x.lanes == lane).find? fun i =>
      !x.done.contains i && !(x.placed.any fun q => q.iter == i && q.ended)

/-- The address of a FETCH or STORE stage in an iteration (R163). -/
def Stage.address (g : Stage) (i lanes : Nat) : Nat := g.addr + (if g.shared then i / lanes else i) * g.stride

/-- The base of the translation page of an address; of its 64 KiB page where it does not translate. -/
def State.pageBase (s : State) (slot va : Nat) : Nat :=
  match s.translate slot va false with
  | .error _ => va - va % 65536
  | .ok _ =>
    match walkLevels.findSome? fun l =>
      let base := va - va % 2 ^ l.2.1
      -- a leaf at this level maps the whole page
      if l.1 ≤ 3 && (s.translate slot base false).isOk &&
        (match s.translate slot base false, s.translate slot va false with
         | .ok a, .ok b => b == a + va % 2 ^ l.2.1
         | _, _ => false) then some base else none with
    | some b => b
    | none => va - va % 65536

/-- The pages that a fetch of an iteration reads. -/
def State.fetchPages (s : State) (slot : Nat) (g : Stage) (i lanes : Nat) : List Nat :=
  ((List.range (g.bytes / 128)).map fun k => s.pageBase slot (g.address i lanes + 128 * k)).eraseDups

/-- Whether a fetch is allowed by R170 and R171. -/
def State.fetchAllowed (s : State) (id iter k : Nat) : Bool :=
  let x := s.stream id
  let g := x.stage k
  match x.demand (iter % x.lanes) with
  | none => false
  | some d =>
    if iter = d then true
    else
      (x.runAheadMax == 0 || iter ≤ d + x.runAheadMax) &&
        (g.kind == 2 ||
         (s.fetchPages x.slot g iter x.lanes).all fun pg =>
           g.pages.contains pg || (s.fetchPages x.slot g d x.lanes).contains pg)

/-- The rings of a pool on a core that wait for a slot, in ascending stream id and source index (R168): (id, stage). -/
def State.waitingRings (s : State) (slot pool c : Nat) : List (Nat × Nat) :=
  (s.onPool slot pool c).flatMap fun e =>
    let x := e.2
    if x.phase != .running || x.ending.isSome then []
    else x.sources.filterMap fun k =>
      match x.nextIter (c - x.firstCore) k with
      | some i => if s.fetchAllowed e.1 i k then some (e.1, k) else none
      | none => none

/-- `grant_one` of R168: the ring that takes the next slot. -/
def State.grantOne (s : State) (slot pool c : Nat) : Option (Nat × Nat) :=
  let w := s.waitingRings slot pool c
  let free := s.poolFreeSlots slot pool c
  let held (q : Nat × Nat) : Nat := (s.stream q.1).heldBy (c - (s.stream q.1).firstCore) q.2
  match w.find? fun q => held q < 2 && 0 < free with
  | some q => some q
  | none => w.find? fun q => held q < 2 + (s.stream q.1).borrowMax && s.owed slot pool c + 1 ≤ free

/-- Slots that a stream has borrowed: held beyond 2 in each ring. -/
def Stream.borrowed (x : Stream) : Nat :=
  ((List.range x.lanes).map fun l => (x.sources.map fun k => x.heldBy l k - 2).sum).sum

/-- A source slot of a pool on a core has been filled or returned (R181). -/
def State.noteProgress (s : State) (slot pool c : Nat) : State :=
  { s with streams := { s.streams with progress := s.streams.progress.insert (c * 256 + poolKey slot pool) s.now } }

/-- The placement number and epoch under which the job's writes go out. -/
def State.jobEpoch (s : State) (slot : Nat) : Nat := (s.fjob slot).epoch

/-! ## The reservoir (R174-R177) -/

/-- The set of a line. -/
def resvSet (pa : Nat) : Nat := pa / 256 % 24576

/-- The generation of the granule of an address, if it is tracked (R173). -/
def State.genOf (s : State) (pa : Nat) : Nat := s.streams.gens.get 0 (pa / 65536)

/-- A granule is tracked from now on, if there is room for it (R173). -/
def State.track (s : State) (pa : Nat) : State :=
  let g := pa / 65536
  if s.streams.gens.any fun e => e.1 == g then s
  else if s.streams.gens.length < 4096 then
    { s with streams := { s.streams with gens := s.streams.gens.insert g 0 } }
  else s.bump uResv 0x038 31 16 1

/-- Lines that headgate streams have filled. -/
def State.headgateLines (s : State) : Nat := (s.streams.lines.filter (·.headgate)).length

/-- A line is filled (R175): an invalid way, else the least recently used way with a count of 0; else the fill bypasses. -/
def State.resvFill (s : State) (pa slot stream count : Nat) (headgate : Bool) (data : List Byte) (poison : Bool) : State :=
  let set := s.streams.lines.filter fun l => resvSet l.pa == resvSet pa
  let room := !headgate || s.headgateLines < s.fld uResv 0x040 63 56 * 4096
  let clock := s.streams.useClock + 1
  let new : ResvLine := ⟨pa, slot, stream, headgate, count, clock, data, poison, s.genOf pa⟩
  let victims := set.filter fun l => l.count == 0 && (headgate || !l.headgate)
  let victim := victims.foldl (fun (acc : Option ResvLine) l => match acc with
    | none => some l
    | some a => if l.used < a.used then some l else some a) none
  if !room then s.bump uResv 0x020 31 0 1
  else if set.length + s.streams.disabledWays.get 0 (resvSet pa) < 16 then
    { s with streams := { s.streams with lines := s.streams.lines ++ [new], useClock := clock } }
  else
    match victim with
    | some v => { s with streams := { s.streams with
        lines := (s.streams.lines.filter fun l => !decide (l = v)) ++ [new], useClock := clock } }
    | none => s.bump uResv 0x020 31 0 1

/-- A WEIGHT fetch requests a line of the reservoir: the data with its poison, and the generation it was read under. -/
def State.resvRead (s : State) (pa slot stream count : Nat) (headgate : Bool) : (List Byte × Bool × Nat) × State :=
  match s.streams.lines.find? fun l => l.pa == pa && l.slot == slot with
  | some l =>
    let clock := s.streams.useClock + 1
    ((l.data, l.poison, l.gen),
      { s.bump uResv 0x018 63 0 1 with streams := { s.streams with
        useClock := clock
        lines := s.streams.lines.map fun x => if x = l then { x with count := x.count - 1, used := clock } else x } })
  | none =>
    let s := (s.bump uResv 0x020 63 32 1).memTouch pa 256
    let d := s.memBytes pa 256
    let q := s.memPoison pa 256
    ((d, q, s.genOf pa), s.resvFill pa slot stream (count - 1) headgate d q)

/-- RESV_SCRUB (R176): the scrubber reads a line; one wrong bit is corrected and tested, more invalidate the line. -/
def execResvScrub (line errors : Nat) (passEnd : Bool) (s : State) : Result := s.live fun s =>
  s.onlyIf (line < 393216 && s.fld uResv 0x040 0 0 == 1) fun s =>
    let hit (x : Injected) : Bool := x.unit == uResv && x.sub == line
    let inj := (s.diag.injected.filter hit).head?
    let s := { s with diag := { s.diag with injected := s.diag.injected.filter fun x => !hit x } }
    let found (s : State) (errors flags : Nat) : State :=
      if errors = 0 then s
      else if errors = 1 then
        (s.bump uResv 0x028 63 32 1).logError { type := 0x22, cls := 0, unit := uResv, sub := line, flags := flags }
      else
        let s := { s with streams := { s.streams with lines :=
          ((s.streams.lines.zipIdx.filter fun (e : ResvLine × Nat) => e.2 != line).map fun (e : ResvLine × Nat) => e.1) } }
        (s.bump uResv 0x028 31 16 1).logError { type := 0x22, cls := 1, unit := uResv, sub := line, flags := flags }
    let s := match inj with
      | some x => found s x.bits 1
      | none => s
    let s := found s errors 0
    if passEnd then s.setReg uResv 0x048 s.now else s

/-! ## Fetches (R163, R170, R171, R488) -/

/-- Whether a stream keeps write generations (R173). -/
def State.debugs (s : State) (x : Stream) : Bool :=
  s.fld uResv 0x040 1 1 == 1 || (s.streams.streams.any fun e => e.2.isOpen && e.2.slot == x.slot && e.2.debug)

/-- A STREAM_HAZARD record (R173, Table 8.9). -/
def State.hazard (s : State) (id stage where_ iter granule old new : Nat) : State :=
  let s := s.bump uResv 0x038 31 16 1
  match (s.stream id).openCmd with
  | some h => s.recordCmd h 0x3002 stOk
      (le 2 id ++ le 1 stage ++ le 1 where_ ++ le 4 0 ++ le 8 iter ++ le 8 granule ++ le 2 old ++ le 2 new ++ le 4 0 ++
        le 8 s.now)
  | none => s

/-- The bytes of a FETCH stage as its lines of 128 bytes with their poison, or the first translation fault. A WEIGHT stage
reads through the reservoir. The granules read come back with their generations. -/
def State.fetchData (s : State) (id iter k : Nat) : Except VFault (List (List Byte × Bool) × List (Nat × Nat)) × State :=
  let x := s.stream id
  let g := x.stage k
  let a := g.address iter x.lanes
  match s.vcheck x.slot a g.bytes false with
  | some f => (.error f, s)
  | none =>
    let debug := s.debugs x
    let step (acc : (List (List Byte × Bool) × List (Nat × Nat)) × State) (i : Nat) :
        (List (List Byte × Bool) × List (Nat × Nat)) × State :=
      let (out, s) := acc
      match s.translate x.slot (a + 128 * i) false with
      | .error _ => acc
      | .ok pa =>
        let s := if debug then s.track pa else s
        if g.weight then
          let line := pa / 256 * 256
          let first := i = 0 || pa % 256 = 0
          let count := if g.shared then x.lanes else 1
          let hitGen := ((s.streams.lines.find? fun l => l.pa == line && l.slot == x.slot).map (·.gen))
          let ((d, q, gen), s) :=
            if first then s.resvRead line x.slot id count x.headgate
            else match s.streams.lines.find? fun l => l.pa == line && l.slot == x.slot with
              | some l => ((l.data, l.poison, l.gen), s)
              | none => ((s.memBytes line 256, s.memPoison line 256, s.genOf line), s)
          let s := if debug && first && (hitGen.any fun h => h != s.genOf pa)
            then s.hazard id k 1 iter (pa / 65536 * 65536) gen (s.genOf pa) else s
          ((out.1 ++ [((d.drop (pa % 256)).take 128, q)], (out.2 ++ [(pa / 65536, gen)]).eraseDups), s)
        else
          let s := s.memTouch pa 128
          ((out.1 ++ [(s.memBytes pa 128, s.memPoison pa 128)], (out.2 ++ [(pa / 65536, s.genOf pa)]).eraseDups), s)
    let (r, s) := (List.range (g.bytes / 128)).foldl step (([], []), s)
    (.ok r, s)

/-- Decoded bytes of an INTAKE stage for an iteration: units beyond the output, and the rest of a partial one, are zero
(R488); none where no decode for the stage has been run. -/
def Stream.intakeUnit (x : Stream) (iter k : Nat) : Option (List (List Byte × Bool)) :=
  (x.intake.find? fun e => e.1 == k).map fun e =>
    let g := x.stage k
    let part := (e.2.drop (iter * g.bytes)).take g.bytes
    let full := part ++ List.replicate (g.bytes - part.length) 0
    (List.range (g.bytes / 128)).map fun i => ((full.drop (128 * i)).take 128, false)

/-- Lines arrive in a slot under the turnout test, in packets of up to 4 lines within a 512-byte block (R128, R167). -/
def State.fillSlot (s : State) (slot c line : Nat) (data : List (List Byte × Bool)) : State :=
  match s.physOf c with
  | none => s
  | some p =>
    (data.zipIdx.foldl (fun s d =>
      (s.remoteWrite p (line + d.2) [d.1] slot (s.job slot).placement (s.jobEpoch slot)).2) s)

/-- A STREAM_FAULT record (Table 8.9). -/
def State.streamFaultRecord (s : State) (id stage iter va status : Nat) : State :=
  match (s.stream id).openCmd with
  | some h => s.recordCmd h 0x3003 status
      (le 2 id ++ le 1 stage ++ le 1 0 ++ le 4 0 ++ le 8 iter ++ le 8 va ++ le 8 s.now)
  | none => s

/-- Every source slot of a stream that no placed task reads is marked empty and returned; iterations with no placed task are
dropped (R180). The numbers of slots emptied and of iterations dropped are kept. -/
def State.dropUnplaced (s : State) (id : Nat) : State :=
  let x := s.stream id
  let reading (g : SlotUse) : Bool := x.placed.any fun q => q.iter == g.iter && !q.ended
  let gone := x.granted.filter fun g => !reading g
  let pl := s.pool x.slot x.pool
  let s := gone.foldl (fun s g =>
    match s.physOf (x.laneCore g.lane) with
    | some p => (s.setEmptyRange p (pl.line g.index) pl.slotLines).noteProgress x.slot x.pool (x.laneCore g.lane)
    | none => s) s
  let total := (x.runs.head?).elim 0 (·.iterations)
  s.setStream id { x with
    granted := x.granted.filter reading, emptied := gone.length, waiting := []
    dropped := total - x.done.length - x.placed.length }

/-- The result of `stream_run` (R187). -/
def Stream.runResult (x : Stream) : List Byte :=
  le 4 x.done.length ++ le 4 x.suppressed ++ le 2 x.peakBorrowed ++ le 6 0 ++ le 8 x.lastDone

/-- The result of `stream_cancel` (R188). -/
def Stream.cancelResult (x : Stream) : List Byte :=
  le 4 (x.drainedAt - x.cancelAt) ++ le 4 x.discarded ++ le 4 x.emptied ++ le 4 x.dropped ++ le 8 x.drainedAt

/-- A stream goes: its slots, its id, and the reservoir lines that its WEIGHT stages filled (R177, R188). -/
def State.freeStream (s : State) (id : Nat) : State :=
  let s := { s with streams := { s.streams with lines := s.streams.lines.filter fun l => l.stream != id } }
  { s with streams := { s.streams with streams := s.streams.streams.erase id } }

/-- After a run: the next run starts, or the stream idles; a pending close is carried out after the last run (R187, R188). -/
def State.nextRun (s : State) (id : Nat) (faulted : Bool) : State :=
  let x := s.stream id
  let runs := x.runs.drop 1
  let fresh (ph : StreamPhase) : Stream := { x with
    runs := runs, phase := ph, done := [], placed := [], suppressed := 0, peakBorrowed := 0, ending := none,
    cancelCmd := none, drained := false, discarded := 0, emptied := 0, dropped := 0, waiting := [], deadlockAt := none }
  if faulted then
    let s := runs.foldl (fun s r => s.finish r.cmd stBadParam 0x20 []) s
    let s := s.setStream id { fresh .faulted with runs := [] }
    match x.closeCmd with
    | some c => (s.freeStream id).deferredDone c.hdr stOk 0
    | none => s
  else if runs.isEmpty then
    match x.closeCmd with
    | some c => (s.freeStream id).deferredDone c.hdr stOk 0
    | none => s.setStream id (fresh (if x.standby then .standby else .idle))
  else s.setStream id (fresh .running)

/-- A run that is to end does so once its last placed task has ended (R180, R187): with a cancel pending, after the last
discarded read as well; the run replies first, then the cancel. -/
def State.tryEndRun (s : State) (id : Nat) : State :=
  let x := s.stream id
  match x.ending, x.runs.head? with
  | some (status, detail), some r =>
    if x.placed.any (fun q => !q.ended) then s
    else
      match x.cancelCmd with
      | some cc =>
        if !x.drained then s
        else
          let s := s.finish r.cmd status detail x.runResult
          let s := s.finish cc stOk 0 x.cancelResult
          s.nextRun id false
      | none =>
        let s := s.finish r.cmd status detail x.runResult
        s.nextRun id (status != stCreditDeadlock && status != stCancelled)
  | _, _ => s

/-- A run completes when every iteration's last stage has (R187). -/
def State.tryCompleteRun (s : State) (id : Nat) : State :=
  let x := s.stream id
  match x.runs.head? with
  | some r =>
    if x.ending.isNone && x.done.length = r.iterations then
      (s.finish r.cmd stOk 0 x.runResult).nextRun id false
    else s
  | none => s

/-- The run is stopped with a status: what is unplaced goes, placed tasks run to their END (R171, R180, R187). -/
def State.stopRun (s : State) (id status detail : Nat) : State :=
  let x := s.stream id
  if x.ending.isSome then s
  else
    let s := s.setStream id { x with ending := some (status, detail) }
    (s.dropUnplaced id).tryEndRun id

/-- An iteration's last stage has completed; END_CLAP takes an arrival when it was its lane's last (R182). -/
def State.iterDone (s : State) (id iter : Nat) : State :=
  let x := s.stream id
  let x' := { x with placed := x.placed.filter fun q => q.iter != iter, done := x.done ++ [iter], lastDone := s.now }
  let s := s.setStream id x'
  let s := match x.runs.head? with
    | some r =>
      let lane := iter % x.lanes
      let left := ((List.range r.iterations).map (r.first + ·)).any fun i => i % x.lanes == lane && !x'.done.contains i
      if r.endClap < 64 && !left then s.arrive x.slot r.endClap else s
    | none => s
  s.tryCompleteRun id

/-- A ring waits for a grant, since now unless it waited already (R181). -/
def Stream.wait (x : Stream) (ring now : Nat) : Stream :=
  if x.waiting.any (fun e => e.1 == ring) then x else { x with waiting := x.waiting.insert ring now }

/-- STREAM_FETCH (R163, R168, R170, R171): the ring that R168 grants its next slot takes it and its fetch leaves; a granted slot
whose run-ahead fetch was suppressed is fetched again as demand. -/
def execStreamFetch (id iter stage : Nat) (s : State) : Result := s.live fun s =>
  let x := s.stream id
  let g := x.stage stage
  let lane := iter % x.lanes
  let c := x.laneCore lane
  let pl := s.pool x.slot x.pool
  let demand := x.demand lane == some iter
  let again := x.granted.find? fun u => u.stage == stage && u.iter == iter && !u.filled
  let fill (s : State) (u : SlotUse) : State :=
    let line := pl.line u.index
    let put (s : State) (data : List (List Byte × Bool)) (gens : List (Nat × Nat)) : State :=
      let s := s.fillSlot x.slot c line data
      let y := s.stream id
      (s.setStream id { y with granted := y.granted.map fun w =>
        if w.stage == stage && w.iter == iter then { w with filled := true, gens := gens } else w }).noteProgress x.slot x.pool c
    if g.kind = 2 then
      match x.intakeUnit iter stage with
      | some data => put s data []
      | none => s
    else
      match s.fetchData id iter stage with
      | (.ok (data, gens), s) => put s data gens
      | (.error f, s) =>
        if demand then
          match x.runs.head? with
          | some r =>
            let s := s.vfault r.cmd.hdr x.slot (uFlume 12) f
            ((s.streamFaultRecord id stage iter f.va stPageFault)).stopRun id stPageFault f.detail
          | none => s
        else
          let y := s.stream id
          (s.setStream id { y with suppressed := y.suppressed + 1 }).bump uResv 0x038 63 32 1
  s.onlyIf (x.isOpen && x.phase == .running && x.ending.isNone && x.sources.contains stage && !s.closing x.slot) fun s =>
    match again with
    | some u => if demand || g.kind = 2 then fill s u else s
    | none =>
      match s.freeIndex x.slot x.pool c with
      | some idx =>
        if s.grantOne x.slot x.pool c == some (id, stage) && x.nextIter lane stage == some iter then
          let u : SlotUse := ⟨lane, stage, iter, idx, false, []⟩
          let y := { x with granted := x.granted ++ [u], waiting := x.waiting.erase (lane * 8 + stage) }
          fill (s.setStream id { y with peakBorrowed := max y.peakBorrowed y.borrowed }) u
        else s.setStream id (x.wait (lane * 8 + stage) s.now)
      | none => s.setStream id (x.wait (lane * 8 + stage) s.now)

/-- WARM_FETCH (R179): lines of a WEIGHT stage fill the reservoir and no slot: of the stream that a run names in WARM_STREAM, or
of an idle STANDBY stream. -/
def execWarmFetch (id iter stage : Nat) (s : State) : Result := s.live fun s =>
  let x := s.stream id
  let g := x.stage stage
  let byRun := s.streams.streams.any fun e => match e.2.runs.head? with
    | some r => e.2.phase == .running && r.warmStream == id && r.warmFirst ≤ iter && iter < r.warmFirst + r.warmIters
    | none => false
  let byStandby := x.standby && x.phase == .standby && iter < x.warmIters
  s.onlyIf (x.isOpen && g.kind == 1 && g.weight && (byRun || byStandby) && !s.closing x.slot) fun s =>
    let a := g.address iter x.lanes
    (List.range (g.bytes / 128)).foldl (fun s i =>
      match s.translate x.slot (a + 128 * i) false with
      | .error _ => s
      | .ok pa =>
        let line := pa / 256 * 256
        if s.streams.lines.any fun l => l.pa == line && l.slot == x.slot then s
        else
          let s := s.memTouch line 256
          s.resvFill line x.slot id (if byStandby then 0xFFFF else if g.shared then x.lanes else 1) x.headgate
            (s.memBytes line 256) (s.memPoison line 256)) s

/-- The argument record of an iteration (R165). -/
def State.streamArgs (s : State) (x : Stream) (iter : Nat) (outs : List SlotUse) (user : List Byte) : List Byte :=
  let pl := s.pool x.slot x.pool
  let src := x.sources.map fun k => match x.granted.find? fun u => u.stage == k && u.iter == iter with
    | some u => pl.line u.index
    | none => 0xFFFF
  let padTo (n : Nat) (l : List Nat) : List Nat := l ++ List.replicate (n - l.length) 0xFFFF
  le 8 iter ++ le 2 (iter % x.lanes) ++ le 2 x.sources.length ++ le 4 0 ++
    (padTo 5 src).flatMap (le 2) ++ (padTo 2 (outs.map fun u => pl.line u.index)).flatMap (le 2) ++ le 2 0 ++ user

/-- The output slots that an iteration would take: one for each STORE stage (R164, R168). -/
def State.outSlots (s : State) (x : Stream) (iter : Nat) : Option (List SlotUse) :=
  let lane := iter % x.lanes
  let free := (List.range (s.pool x.slot x.pool).slots).filter fun i =>
    !(s.usedIndexes x.slot x.pool (x.laneCore lane)).contains i
  if x.stores.all (fun k => x.outsOf lane k < 2) && x.stores.length ≤ free.length then
    some (x.stores.zipIdx.map fun k => ⟨lane, k.1, iter, free.getD k.2 0, false, []⟩)
  else none

/-- STREAM_TASK_PLACE (R164, R165). -/
def execStreamTaskPlace (id iter : Nat) (s : State) : Result := s.live fun s =>
  let x := s.stream id
  let lane := iter % x.lanes
  let c := x.laneCore lane
  match x.runs.head?, s.physOf c, s.outSlots x iter with
  | some r, some p, some outs =>
    let inRun := r.first ≤ iter && iter < r.first + r.iterations
    let granted := x.sources.all fun k => x.granted.any fun u => u.stage == k && u.iter == iter && u.filled
    let t : Task := ⟨r.cmd.hdr, 0, x.slot, x.headgate, x.kernelStage.kernel, iter, [c], 0, 0, [], .stream id iter 0, s.now⟩
    s.onlyIf (x.phase == .running && x.ending.isNone && inRun && granted && x.demand lane == some iter &&
        !(x.placed.any fun q => q.iter == iter) && s.coreFree p && s.mayRun t c &&
        (x.headgate || (s.tailwaterOk x.slot && s.turnFits t && (s.pickTask c).all fun q => !q.headgate))) fun s =>
      let ks := x.kernelStage
      let user := match s.vread x.slot ks.addr ks.bytes with
        | .ok d => d.1
        | .error _ => []
      let args := s.streamArgs x iter outs user
      let s := if s.debugs x then
        (x.granted.filter fun u => u.iter == iter).foldl (fun s u => u.gens.foldl (fun s g =>
          if s.streams.gens.get 0 g.1 ≠ g.2 then s.hazard id u.stage 0 iter (g.1 * 65536) g.2 (s.streams.gens.get 0 g.1)
          else s) s) s else s
      let s := s.setStream id { s.stream id with placed := (s.stream id).placed ++ [⟨iter, false, outs⟩] }
      if ks.bytes ≠ 0 && (s.vcheck x.slot ks.addr ks.bytes false).isSome then
        match s.vcheck x.slot ks.addr ks.bytes false with
        | some f =>
          let s := s.vfault r.cmd.hdr x.slot uResv f
          let s := s.setStream id { s.stream id with placed := (s.stream id).placed.filter fun q => q.iter != iter }
          (s.streamFaultRecord id 0 iter f.va stPageFault).stopRun id stPageFault f.detail
        | none => s
      else s.startTask p t args
  | _, _, _ => s

/-- The task of an iteration has ended: its source slots return (R166); a fault ends the run (R187). -/
def State.streamTaskEnd (s : State) (id iter : Nat) (fault : Option (Nat × Nat)) : State :=
  let x := s.stream id
  let gone := x.granted.filter fun g => g.iter == iter
  let s := s.setStream id { x with
    granted := x.granted.filter fun g => g.iter != iter
    placed := x.placed.map fun q => if q.iter == iter then { q with ended := true } else q }
  let s := if gone.isEmpty then s else s.noteProgress x.slot x.pool (x.laneCore (iter % x.lanes))
  match fault with
  | some (status, detail) =>
    let s := s.setStream id { s.stream id with placed := (s.stream id).placed.filter fun q => q.iter != iter }
    if x.ending.isSome then s.tryEndRun id else s.stopRun id status detail
  | none =>
    if x.ending.isSome then
      -- its output is not stored (R180)
      (s.setStream id { s.stream id with placed := (s.stream id).placed.filter fun q => q.iter != iter }).tryEndRun id
    else if x.stores.isEmpty then s.iterDone id iter
    else s

/-- Lines go to virtual memory in ascending order, up to the first translation fault. -/
def State.storeOut (s : State) (p slot line a n : Nat) : State × Option VFault :=
  (List.range n).foldl (fun (acc : State × Option VFault) i =>
    match acc.2 with
    | some _ => acc
    | none =>
      let w := acc.1.vwrite slot (a + 128 * i) (acc.1.line p (line + i)) (acc.1.isPoisoned p (line + i))
      (w.1, w.2.2)) (s, none)

/-- STREAM_STORE (R163, R166): an output slot moves to virtual memory, is set empty and becomes free. -/
def execStreamStore (id iter stage : Nat) (s : State) : Result := s.live fun s =>
  let x := s.stream id
  let g := x.stage stage
  let c := x.laneCore (iter % x.lanes)
  match s.physOf c, (x.placed.find? fun q => q.iter == iter && q.ended), x.runs.head? with
  | some p, some q, some r =>
    match q.outs.find? fun u => u.stage == stage with
    | none => s
    | some u =>
      let line := (s.pool x.slot x.pool).line u.index
      let a := g.address iter x.lanes
      let s := s.spadTouch p x.slot ((List.range (g.bytes / 128)).map (line + ·))
      let (s, f) := s.storeOut p x.slot line a (g.bytes / 128)
      let s := s.setEmptyRange p line (s.pool x.slot x.pool).slotLines
      let y := s.stream id
      let rest := q.outs.filter fun w => w.stage != stage
      let s := s.setStream id { y with placed := y.placed.map fun z => if z.iter == iter then { z with outs := rest } else z }
      match f with
      | some f =>
        let s := s.vfault r.cmd.hdr x.slot (uFlume 12) f
        let s := if f.detail = 3 then
          (match s.guardHit x.slot f.va 128 with | some k => s.guardRefused k x.slot (uFlume 12) f.va false | none => s) else s
        let s := s.setStream id { s.stream id with placed := (s.stream id).placed.filter fun z => z.iter != iter }
        (s.streamFaultRecord id stage iter f.va stPageFault).stopRun id stPageFault f.detail
      | none => if rest.isEmpty then s.iterDone id iter else s
  | _, _, _ => s

/-- CREDIT_WATCHDOG (R181). -/
def execCreditWatchdog (id lane stage : Nat) (s : State) : Result := s.live fun s =>
  let x := s.stream id
  let c := x.laneCore lane
  let w := s.fld uResv 0x040 55 40 * usec
  let last := s.streams.progress.get 0 (c * 256 + poolKey x.slot x.pool)
  match (x.waiting.find? fun e => e.1 == lane * 8 + stage) with
  | none => s
  | some e =>
    s.onlyIf (x.isOpen && x.phase == .running && e.2 + w ≤ s.now && last + w ≤ s.now &&
        (x.deadlockAt.all fun t => t < last)) fun s =>
      let holder := (s.onPool x.slot x.pool c).foldl (fun (acc : Option (Nat × Nat)) h =>
        let n := (h.2.sources.map fun k => h.2.heldBy (c - h.2.firstCore) k - 2).sum
        match acc with
        | none => some (h.1, n)
        | some a => if a.2 < n then some (h.1, n) else some a) none
      let (hid, hb) := holder.getD (id, 0)
      let (st, s) := s.stamp uResv
      let s := s.bump uResv 0x038 15 8 1
      let s := s.setStream id { s.stream id with deadlockAt := some s.now }
      let s := match x.openCmd with
        | some h => s.recordCmd h 0x3001 stCreditDeadlock
            (le 2 id ++ le 2 hid ++ le 2 c ++ le 1 x.pool ++ le 1 stage ++ le 4 ((s.now - e.2) / usec) ++ le 2 hb ++ le 2 0 ++
              st.bytes)
        | none => s
      if x.stallAction = 1 then s.stopRun id stCreditDeadlock 0 else s

/-! ## Commands (R186-R189) -/

/-- The stages of a `stream_open` block. -/
def readStages (c : Command) (n : Nat) : List Stage :=
  (List.range n).map fun k =>
    let o := 0x10 + 32 * k
    ⟨c.u8 o, bitAt (c.u8 (o + 1)) 0, bitAt (c.u8 (o + 1)) 1, c.u16 (o + 2), c.u32 (o + 4), c.u64 (o + 8), c.u64 (o + 0x10), []⟩

/-- Whether the kinds come in the order of R162 at stage `k`. -/
def stageOrderBad (kinds : List Nat) (k : Nat) : Bool :=
  let n := kinds.length
  let src := (kinds.takeWhile fun x => x == 1 || x == 2).length
  let kind := kinds.getD k 0
  if kind = 0 || 4 < kind then true
  else if k < src then 5 ≤ k
  else if k = src then kind != 3 || src == 0
  else kind != 4 || src + 3 ≤ k || n < src + 1

/-- The checks of one stage, in the order of its fields (Table 8.5, R186). -/
def State.stageChecks (s : State) (c : Command) (slot : Nat) (pl : Pool) (kinds : List Nat) (k : Nat) (g : Stage) : List Check :=
  let o := 0x10 + 32 * k
  let sf := c.u8 (o + 1)
  let data := g.kind != 3
  [badIf (stageOrderBad kinds k || (k + 1 == kinds.length && (kinds.takeWhile fun x => x == 1 || x == 2).length == kinds.length)) o,
   badIf (3 < sf || (bitAt sf 0 && g.kind != 1)) (o + 1),
   badIf (if data then g.kernel != 0 else match s.kernel slot g.kernel with
     | some q => q.unloading.isSome || 32 + g.bytes < q.argMin
     | none => true) (o + 2),
   badIf (if data then g.bytes < 128 || pl.slotLines * 128 < g.bytes || g.bytes % 128 != 0
     else 224 < g.bytes || g.bytes % 16 != 0) (o + 4),
   badIf ((g.kind == 2 && g.addr != 0) || (data && g.addr % 128 != 0)) (o + 8),
   badIf (g.stride % 128 != 0) (o + 0x10),
   badIf (g.kind != 1 && c.u64 (o + 0x18) != 0) (o + 0x18)]

/-- A PAGE_LIST: up to 64 addresses ending in 0 (R171). -/
def State.pageList (s : State) (slot a : Nat) : List Nat :=
  if a = 0 then []
  else match s.vread slot a 512 with
    | .ok d => ((List.range 64).map fun i => leAt d.1 (8 * i) 8).takeWhile (· != 0)
    | .error _ => ((List.range 64).map fun i => match s.vread slot (a + 8 * i) 8 with
        | .ok d => ofLe d.1
        | .error _ => 0).takeWhile (· != 0)

/-- The physical cores of the command's job. -/
def State.cmdPhys (s : State) (c : Command) : List Nat := (s.jobCores (s.cmdSlot c.hdr)).filterMap s.physOf

/-- The lowest turnout that accepts writes on none of some cores, and the lowest take region that is disabled on all of them. -/
def State.freePoolTurnout (s : State) (ps : List Nat) : Option Nat :=
  (List.range 16).find? fun t => ps.all fun p => !(s.turnout p t).accepting
def State.freeTakeRegion (s : State) (ps : List Nat) : Option Nat :=
  (List.range 16).find? fun k => ps.all fun p => !bitAt (s.reg (uSpad p) (0x300 + 8 * k)) 63

/-- The checks of `stream_open` of a pool (R167, R186). -/
def State.openPoolChecks (s : State) (c : Command) : List Check :=
  let slot := s.cmdSlot c.hdr
  let base := c.u16 6
  let lines := c.u16 2 * c.u16 4
  let ps := s.cmdPhys c
  let clash (p : Nat) : Bool :=
    ((List.range 16).any fun t => (s.turnout p t).accepting && (s.turnout p t).base < base + lines &&
      base < (s.turnout p t).base + (s.turnout p t).lines) ||
    ((List.range 16).any fun k =>
      let r := s.reg (uSpad p) (0x300 + 8 * k)
      bitAt r 63 && bits r 15 0 < base + lines && base < bits r 15 0 + bits r 31 16)
  [badIf (c.u8 0 != 1) 0,
   badIf (3 < c.u8 1 || (s.pool slot (c.u8 1)).valid) 1,
   badIf (c.u16 2 == 0 || 4096 < c.u16 2) 2,
   badIf (c.u16 4 < 4 || 255 < c.u16 4) 4,
   badIf (24576 < base + lines || ps.any clash) 6,
   failIf ((s.freePoolTurnout ps).isNone || (s.freeTakeRegion ps).isNone) stNoResource 0x52]

/-- STREAM_OPEN_POOL (R167, R186): on every core of the allotment, a turnout and a take region over the pool's lines. -/
def execStreamOpenPool (c : Command) (s : State) : Result := s.live fun s =>
  let slot := s.cmdSlot c.hdr
  let base := c.u16 6
  let ps := s.cmdPhys c
  let lines := c.u16 2 * c.u16 4
  s.checked c (s.openPoolChecks c)
    fun s =>
      let t := (s.freePoolTurnout ps).getD 0
      let k := (s.freeTakeRegion ps).getD 0
      let s := ps.foldl (fun s p =>
        let s := s.setEmptyRange p base lines
        let s := s.setTurnout p t
          { phase := .opened, byCount := true, expect := 0xFFFFFFFF, slot := slot,
            placement := (s.job slot).placement, epoch := s.jobEpoch slot, base := base, lines := lines, openCmd := some c.hdr }
        s.setReg (uSpad p) (0x300 + 8 * k) (2 ^ 63 + lines * 2 ^ 16 + base)) s
      let s := s.setPool slot (c.u8 1) ⟨true, base, c.u16 2, c.u16 4, t, k⟩
      s.finish c stOk 0 (le 1 t ++ le 1 k ++ le 6 0)

/-- The first logical core of a stream's lanes (R162, R186). -/
def State.firstLane (s : State) (c : Command) : Nat :=
  if c.u16 6 = 0xFFFF then ((s.jobCores (s.cmdSlot c.hdr)).head?).getD 0 else c.u16 6

/-- The lowest stream id that is not open. -/
def State.idleStream (s : State) : Option Nat := (List.range 256).find? fun i => !(s.stream i).isOpen

/-- The checks of `stream_open` (Tables 8.4 and 8.5, R186). -/
def State.streamOpenChecks (s : State) (c : Command) : List Check :=
  let slot := s.cmdSlot c.hdr
  let n := c.u8 1
  let e := 0x10 + 32 * n
  let stages := readStages c n
  let kinds := stages.map (·.kind)
  let pool := c.u8 4
  let pl := s.pool slot pool
  let lanes := c.u8 5
  let cores := s.jobCores slot
  let named := c.u16 2
  let standby := bitAt (c.u8 9) 0
  let srcs := (kinds.filter fun k => k == 1 || k == 2).length
  let sto := (kinds.filter fun k => k == 4).length
  let usedOn (l : Nat) : Nat := ((s.onPool slot pool l).map fun x => 2 * x.2.sources.length + 2 * x.2.stores.length).sum
  let allLanes := (List.range lanes).map (s.firstLane c + ·)
  let absent := allLanes.findSome? fun l => if (s.allot (s.job slot).allotment).cores.contains l then s.absentUnit l else none
  [badIf (c.u8 0 != 0) 0,
   badIf (n < 2 || 8 < n) 1,
   badIf (named != 0xFFFF && (255 < named || (s.stream named).isOpen)) 2,
   badIf (3 < pool || !pl.valid) 4,
   badIf (lanes == 0 || 144 < lanes) 5,
   (match absent with | some u => some (stRetired, u) | none => none),
   badIf (allLanes.any fun l => !cores.contains l) 6,
   badIf (251 < c.u8 8) 8,
   badIf (1 < c.u8 9 || (standby && !(s.queue c.hdr.qkey).headgate)) 9,
   badIf (if standby then c.u16 0xA == 0 || 1024 < c.u16 0xA else c.u16 0xA != 0) 0xA] ++
  (stages.zipIdx.flatMap fun g => s.stageChecks c slot pl kinds g.2 g.1) ++
  [badIf (1 < c.ex (c.u8 e) 0) e,
   badIf (1 < c.ex (c.u8 (e + 1)) 0) (e + 1),
   failIf (named == 0xFFFF && s.idleStream.isNone) stNoResource 0x51,
   failIf (allLanes.any fun l => pl.slots < usedOn l + 2 * srcs + 2 * sto) stNoResource 0x50]

/-- STREAM_OPEN (R162, R168, R186). -/
def execStreamOpen (c : Command) (s : State) : Result := s.live fun s =>
  let slot := s.cmdSlot c.hdr
  let n := c.u8 1
  let e := 0x10 + 32 * n
  let pool := c.u8 4
  let lanes := c.u8 5
  let first := s.firstLane c
  let standby := bitAt (c.u8 9) 0
  s.checked c (s.streamOpenChecks c)
    fun s =>
      let id := if c.u16 2 = 0xFFFF then s.idleStream.getD 0 else c.u16 2
      let stages := (readStages c n).zipIdx.map fun g =>
        { g.1 with pages := if g.1.kind = 1 then s.pageList slot (c.u64 (0x10 + 32 * g.2 + 0x18)) else [] }
      let s := s.setStream id {
        isOpen := true, phase := if standby then .standby else .idle, slot := slot, pool := pool, lanes := lanes,
        firstCore := first, stages := stages, borrowMax := c.u8 8, standby := standby, headgate := (s.queue c.hdr.qkey).headgate,
        warmIters := c.u16 0xA, debug := c.ex (c.u8 e) 0 == 1, stallAction := c.ex (c.u8 (e + 1)) 0,
        runAheadMax := c.ex (c.u32 (e + 4)) 0, openCmd := some c.hdr }
      s.finish c stOk 0 (le 2 id ++ le 2 first ++ le 1 lanes ++ le 1 pool ++ le 2 0)

/-- Whether an id names an open stream of the command's job. -/
def State.streamNamed (s : State) (c : Command) (id : Nat) : Bool :=
  id < 256 && (s.stream id).isOpen && (s.stream id).slot == s.cmdSlot c.hdr

/-- STREAM_RUN (R187): runs of one stream execute in dispatch order, one at a time. -/
def execStreamRun (c : Command) (s : State) : Result := s.live fun s =>
  let id := c.u16 0
  let x := s.stream id
  s.checked c
    [badIf (!s.streamNamed c id || x.phase == .cancelling || x.phase == .faulted) 0,
     badIf (64 ≤ c.u8 2 && c.u8 2 != 0xFF) 2,
     badIf (c.u32 4 == 0 || 16777215 < c.u32 4) 4,
     badIf (c.u16 0x10 != 0xFFFF && !s.streamNamed c (c.u16 0x10)) 0x10,
     badIf (1024 < c.u16 0x12) 0x12]
    fun s =>
      let r : StreamRun := ⟨c, c.u32 4, c.u64 8, c.u8 2, c.u16 0x10, c.u16 0x12, c.ex (c.u64 0x18) 0⟩
      s.setStream id { x with runs := x.runs ++ [r], phase := .running }

/-- STREAM_CANCEL (R180, R188). -/
def execStreamCancel (c : Command) (s : State) : Result := s.live fun s =>
  let id := c.u16 0
  let x := s.stream id
  s.checked c [badIf (!s.streamNamed c id || x.phase == .cancelling) 0] fun s =>
    let s := s.cancelDecodes fun d => d.slot == s.cmdSlot c.hdr && d.stream == id
    if x.runs.isEmpty then s.finish c stOk 0 (le 24 0)
    else
      let s := s.bump uResv 0x038 7 0 1
      let s := s.setStream id { x with
        phase := .cancelling, ending := some (stCancelled, 0), cancelCmd := some c, cancelAt := s.now, drainedAt := s.now }
      let s := s.dropUnplaced id
      (x.runs.drop 1).foldl (fun s r => s.finish r.cmd stCancelled 0 []) (s.setStream id { s.stream id with runs := x.runs.take 1 })

/-- STREAM_CLOSE (R188). -/
def execStreamClose (c : Command) (s : State) : Result := s.live fun s =>
  let op := c.u8 2
  let id := c.u16 0
  let slot := s.cmdSlot c.hdr
  let pool := c.u8 3
  let x := s.stream id
  if op = 0 then
    s.checked c [badIf (!s.streamNamed c id || x.closeCmd.isSome) 0, badIf (pool != 0) 3] fun s =>
      if x.runs.isEmpty then (s.freeStream id).finish c stOk 0 []
      else (s.setStream id { x with closeCmd := some c }).defer c 0 []
  else
    s.checked c
      [badIf (id != 0) 0, badIf (op != 1 || !(s.poolStreams slot pool).isEmpty) 2,
       badIf (3 < pool || !(s.pool slot pool).valid) 3] fun s =>
      let pl := s.pool slot pool
      let s := (s.jobCores slot).foldl (fun s l => match s.physOf l with
        | some p => (s.closeTurnout p pl.turnout l 1 (some c.hdr) stOk stCancelled 0).setFld (uSpad p) (0x300 + 8 * pl.take) 63 63 0
        | none => s) s
      (s.setPool slot pool {}).finish c stOk 0 []

/-- READ_DRAIN_COMPLETE of a cancelled stream (R180, R188). -/
def State.streamDrained (s : State) (id discarded : Nat) : State :=
  let x := s.stream id
  if x.cancelCmd.isSome && !x.drained then
    (s.setStream id { x with drained := true, discarded := discarded, drainedAt := s.now }).tryEndRun id
  else s

/-- CLAP_SET (R189). MEMBERS 0 removes the clap. -/
def execClapSet (c : Command) (s : State) : Result := s.live fun s =>
  let n := c.u8 0
  let slot := s.cmdSlot c.hdr
  let old := s.clap slot n
  let members := c.u16 2
  let limit := if c.hdr.expert then c.u32 8 else s.fld uResv 0x040 39 24
  s.checked c
    [badIf (63 < n) 0, badIf (1 < c.u8 1) 1,
     badIf (288 < members || (old.any fun k => !k.broken && k.arrived != 0)) 2,
     badIf (1 < c.u8 4) 4,
     badIf (c.hdr.expert && (limit < 10 || 4000000 < limit)) 8,
     failIf (c.u8 1 == 1 && (s.fjob slot).recut.isSome) stEpochBusy 1,
     failIf (old.isNone && members != 0 && 1024 ≤ s.streams.claps.length) stNoResource 0x53]
    fun s =>
      let gen := (old.map (·.generation)).getD 0
      let s :=
        if members = 0 then { s with streams := { s.streams with claps := s.streams.claps.erase (clapKey slot n) } }
        else s.setClap slot n
          { broken := false, fabric := c.u8 1 == 1, flush := c.u8 4 == 1, members := members, limitUs := limit,
            generation := gen, hdr := c.hdr }
      let s := if members != 0 && c.u8 1 == 1 then s.clapEarly slot n else s
      s.finish c stOk 0 (le 4 gen ++ le 4 0)

end Sys2Proof.Machine
end

