-- ==== Sys2Proof/Machine/CoreOps.lean ====
section
/-! DEFINITION. Cores between tasks: the MRAM record's repairs (R417, R466), spare rows and their repair hold (R102-R105), spare
cores and absent ones (R106, R423), pools and reels on a core, and what a task boundary applies. -/

namespace Sys2Proof.Machine

/-! ## The field section of the MRAM record (R466, R467) -/

/-- The copy in force: the valid one of the higher generation. -/
def Security.current (x : Security) : Option FieldCopy :=
  match x.copyA, x.copyB with
  | some a, some b => some (if a.generation < b.generation then b else a)
  | some a, none => some a
  | none, b => b

/-- A commit writes the copy that is not in force, with GENERATION raised by 1. -/
def State.mramCommit (s : State) (f : FieldCopy → FieldCopy) : State :=
  let x := s.security
  let cur := x.current.getD ⟨0, 0, 0, [], []⟩
  let new := { f cur with generation := cur.generation + 1 }
  let toB := match x.copyA, x.copyB with
    | some a, some b => b.generation < a.generation || a.generation == b.generation
    | some _, none => true
    | none, _ => false
  { s with security := if toB then { x with copyB := some new } else { x with copyA := some new } }

/-- A permanent retirement is written to the record, unless an injection caused it (R417). -/
def State.mramRepair (s : State) (unit kind sub : Nat) (injected : Bool) : State :=
  if injected then s else s.mramCommit fun f => { f with repairs := f.repairs ++ [⟨unit, kind, sub⟩] }

/-! ## Rows of an outer-product engine (R102) -/

/-- The physical rows that are not retired, in ascending order. -/
def liveRows (retired : List Nat) : List Nat := (List.range 130).filter fun r => !retired.contains r

/-- Whether logical row `r` has trim on. -/
def trimOn (retired : List Nat) (r : Nat) : Bool := (liveRows retired).getD r 0 / 16 != r / 16

/-- The trims of the 64 logical rows from `first`. -/
def trimMask (retired : List Nat) (first : Nat) : Nat :=
  maskOf ((List.range 64).filter fun i => trimOn retired (first + i))

def trimCount (retired : List Nat) : Nat := ((List.range 128).filter (trimOn retired)).length

/-- OPE_SPARE_MAP (Table 5.10). -/
def spareMap (retired : List Nat) : Nat :=
  trimCount retired * 2 ^ 40 + retired.length * 2 ^ 32 + retired.getD 1 0xFF * 2 ^ 24 + retired.getD 0 0xFF * 2 ^ 16 +
    (2 - retired.length)

/-- The 24-byte result of `ope_repair` (R114). -/
def opeMap (retired : List Nat) : List Byte := le 8 (spareMap retired) ++ le 8 (trimMask retired 0) ++ le 8 (trimMask retired 64)

/-- OPE_REPAIRED (Table 5.15). -/
def State.opeRepaired (s : State) (p row status : Nat) : State :=
  let c := s.core p
  s.recordAll 0x2002 status
    (le 2 (uOpe p) ++ le 1 row ++ le 1 (2 - c.retiredRows.length) ++ le 1 (trimCount c.retiredRows) ++ le 3 0 ++
      le 8 (trimMask c.retiredRows 0) ++ le 8 (trimMask c.retiredRows 64) ++ le 8 c.holdStart ++ le 4 400 ++ le 4 0)

/-- A repair that a command asked for is answered (R114). -/
def State.repairReply (s : State) (p : Nat) (r : RowRepair) (status detail : Nat) : State :=
  let result := if status = stOk then opeMap (s.core p).retiredRows else []
  match r.cmd with
  | none => s
  | some c =>
    if r.deferred then s.deferredDoneWith c.hdr status (le 2 detail ++ le 6 0 ++ result) else s.finish c status detail result

/-- The pending repairs of an idle awake core: those that change nothing are answered; the next that retires a row begins the
hold (R103, R114). An automatic repair with no spare row left makes the core fail (R104). -/
def State.nextRepair : Nat → State → Nat → State
  | 0, s, _ => s
  | fuel + 1, s, p =>
    let c := s.core p
    match c.repairs with
    | [] => s
    | r :: rest =>
      if c.retiredRows.contains r.row then
        State.nextRepair fuel ((s.setCore p { c with repairs := rest }).repairReply p r stOk 0) p
      else if 2 ≤ c.retiredRows.length then
        if r.cmd.isSome then
          State.nextRepair fuel ((s.setCore p { c with repairs := rest }).repairReply p r stNoResource 0x20) p
        else s.setCore p { c with repairs := rest, failing := true, failInjected := r.injected }
      else s.setCore p { c with
        phase := .repairHold, holdStart := s.now, repairTc := s.now, holds := satAdd 16 c.holds 1 }

/-! ## Frames, pools and reels of a core -/

/-- A job's frames on a core are invalidated (R151, R160). -/
def State.dropFrames (s : State) (p slot : Nat) : State :=
  let w := s.window p slot
  (List.range w.count).foldl (fun s i =>
    s.setFrameTag p (w.base + i) { s.frameTag p (w.base + i) with valid := false }) s

/-- A job's window on a core changes (R160). -/
def State.applyWindow (s : State) (p slot : Nat) (w : FrameWindow) : State :=
  let s := s.dropFrames p slot
  { s with conts := { s.conts with windows := s.conts.windows.set {} (windowKey p slot) w } }

/-- The valid pools of a job. -/
def State.jobPools (s : State) (slot : Nat) : List (Nat × Pool) :=
  (List.range 4).filterMap fun n => if (s.pool slot n).valid then some (n, s.pool slot n) else none

/-- A pool is opened on a core: its turnout, under the job's placement and epoch, and its take region (R167, R184). -/
def State.openPoolOn (s : State) (p slot : Nat) (x : Pool) (keepTags : Bool) (h : Option CmdHdr) : State :=
  let lines := x.slotLines * x.slots
  let s := if keepTags then s else s.setEmptyRange p x.base lines
  let s := s.setTurnout p x.turnout
    { phase := .opened, byCount := true, expect := 0xFFFFFFFF, slot := slot,
      placement := (s.job slot).placement, epoch := s.jobEpoch slot, base := x.base, lines := lines, openCmd := h }
  s.setReg (uSpad p) (0x300 + 8 * x.take) (2 ^ 63 + lines * 2 ^ 16 + x.base)

/-- The command that opened a pool, as its turnouts keep it. -/
def State.poolOpener (s : State) (slot : Nat) (x : Pool) : Option CmdHdr :=
  (s.jobCores slot).findSome? fun c => (s.physOf c).bind fun p => (s.turnout p x.turnout).openCmd

/-- A pool's turnout on a core closes in close-now mode and its take region is disabled. -/
def State.closePoolOn (s : State) (p c : Nat) (x : Pool) : State :=
  (s.closeTurnout p x.turnout c 1 none stOk stOk 0).setFld (uSpad p) (0x300 + 8 * x.take) 63 63 0

/-- The reel unit of a logical core. -/
def State.reel (s : State) (c : Nat) : Reel := s.reels.cores.get {} c

def State.setReel (s : State) (c : Nat) (x : Reel) : State :=
  { s with reels := { s.reels with cores := s.reels.cores.insert c x } }

/-- The reel of a logical core is cleared: no depth, no markers, no held frames, every ring line empty (R209 step 5). -/
def State.clearReel (s : State) (slot c : Nat) : State :=
  let x := s.reel c
  if x.slot = some slot then
    let j := s.reelJob slot
    let s := match s.physOf c with
      | some p => s.setEmptyRange p j.ringBase j.ringLines
      | none => s
    s.setReel c { x with depth := 0, low := 0, marks := [], held := [], reading := none, promised := 0 }
  else s

/-- A core joins an allotment, or a spare takes a logical id: the windows, the empty reels and the pools of the jobs apply to it
(R106, R201, R367). -/
def State.joinCore (s : State) (a p c : Nat) (from_ : Option Nat) : State :=
  ((List.range 64).filter fun j => (s.job j).phase != .free && (s.job j).allotment == a).foldl (fun s j =>
    let other := from_.orElse fun _ => (s.jobCores j).findSome? fun d => if d = c then none else s.physOf d
    let s := match other with
      | some q => s.applyWindow p j (s.window q j)
      | none => s
    let s := if (s.reelJob j).ringLines ≠ 0 then
        (s.setEmptyRange p (s.reelJob j).ringBase (s.reelJob j).ringLines).setReel c { slot := some j }
      else s
    let s := (s.jobPools j).foldl (fun s x => s.openPoolOn p j x.2 false (s.poolOpener j x.2)) s
    { s with cores := { s.cores with kernels := s.cores.kernels.map fun (e : Nat × Kernel) =>
      if e.1 / 256 = j && !e.2.cores.contains p then (e.1, { e.2 with cores := e.2.cores ++ [p] }) else e } }) s

/-! ## Retirement of a core (R106, R423) -/

/-- DEVICE_DEGRADED (Table 17.8). -/
def State.degradedRecord (s : State) (unit kind logical : Nat) : State :=
  s.recordAll 0xF003 stRetired
    (le 2 unit ++ le 1 kind ++ le 1 s.diag.absent.length ++ le 2 logical ++ le 2 0 ++ le 8 s.now)

/-- The four units of a physical core. -/
def coreUnits (p : Nat) : List Nat := [uCore p, uOpe p, uCont p, uSpad p]

/-- A core with no task is retired: its turnouts close, the spare of its row takes its logical id, or the id becomes absent. -/
def State.retireIdle (s : State) (p : Nat) (injected : Bool) : State :=
  let l := s.logicalOf p
  let s := s.setCore p { s.core p with phase := .gated, failing := false, repairs := [] }
  let s := (List.range 16).foldl (fun s t =>
    if (s.turnout p t).accepting then s.closeTurnout p t l 3 none stRetired stRetired (uCore p) else s) s
  let s := s.mramRepair (uCore p) 5 0 injected
  let gone : List (Nat × XEntry) := (coreUnits p).map fun u =>
    (u, { s.xentry u with state := 3, logical := if u = uCore p then 0xFFFF else (s.xentry u).logical })
  let spare := if l < 144 then
      (List.range 13).find? fun k => (s.xentry (uCore (p / 13 * 13 + k))).state == 2 && p / 13 * 13 + k != p
    else none
  match spare with
  | some k =>
    let q := p / 13 * 13 + k
    let taken : List (Nat × XEntry) := (coreUnits q).map fun u =>
      (u, { s.xentry u with state := 1, logical := if u = uCore q then l else (s.xentry u).logical })
    let pairs := if p < q then gone.zip taken else taken.zip gone
    let s := s.xancaChange (pairs.flatMap fun e => [e.1, e.2])
    let s := s.setCore q { s.core q with phase := .waking, wokeAt := s.now }
    let s := match s.allotmentOf l with
      | some a => s.joinCore a q l (some p)
      | none => s
    s.recordAll 0x2003 stOk (le 2 (uCore p) ++ le 2 (uCore q) ++ le 2 l ++ le 2 0 ++ le 8 s.now)
  | none =>
    let s := s.xancaChange gone
    if l < 144 then
      ({ s with diag := { s.diag with absent := s.diag.absent.insert l (uCore p) } }).degradedRecord (uCore p) 1 l
    else s

/-! ## What a task boundary applies -/

/-- A leaving core leaves its allotment (R367). -/
def State.leaveCore (s : State) (a p c : Nat) : State :=
  let s := ((List.range 64).filter fun j => (s.job j).phase != .free && (s.job j).allotment == a).foldl (fun s j =>
    let s := s.applyWindow p j {}
    let s := s.clearReel j c
    let s := if (s.reel c).slot = some j then s.setReel c {} else s
    (s.jobPools j).foldl (fun s x => s.closePoolOn p c x.2) s) s
  let al := s.sched.allotments.get {} a
  let left := al.leaving.filter (· != c)
  let next : Allotment :=
    { al with cores := al.cores.filter (· != c), leaving := left, cmds := if left.isEmpty then [] else al.cmds }
  let s := { s with sched := { s.sched with allotments := s.sched.allotments.insert a next } }
  if left.isEmpty then al.cmds.foldl (fun s k => s.deferredDone k.hdr stOk 0) s else s

/-- Every allotment that a core is leaving lets it go. -/
def State.leaveAll (s : State) (p : Nat) : State :=
  (List.range 16).foldl (fun s a =>
    if (s.sched.allotments.get {} a).leaving.contains (s.logicalOf p) then s.leaveCore a p (s.logicalOf p) else s) s

/-- Windows that wait for a core are applied to it; the command whose last core it was is done (R160). -/
def State.applyPending (s : State) (p : Nat) : State :=
  let mine := s.conts.pending.filter fun w => w.cores.contains p
  let s := mine.foldl (fun s w => s.applyWindow p w.slot w.win) s
  let rest := s.conts.pending.map fun (w : PendingWindow) => { w with cores := w.cores.filter (· != p) }
  let s := { s with conts := { s.conts with pending := rest.filter fun w => !w.cores.isEmpty } }
  (rest.filter fun w => w.cores.isEmpty).foldl (fun s w => s.deferredDone w.cmd.hdr stOk 0) s

/-- Scratchpad lines found failing are remapped; a bank with no spare line makes the core fail (R137). -/
def State.remapLines (s : State) (p : Nat) : State :=
  let mine := s.spads.toRemap.filter fun x => x.1 == p
  let s := { s with spads := { s.spads with toRemap := s.spads.toRemap.filter fun x => x.1 != p } }
  mine.foldl (fun s x =>
    let k := p * 16 + x.2.1 % 16
    let used := s.spads.sparesUsed.get 0 k
    if used < 16 then
      let s := { s with spads := { s.spads with sparesUsed := s.spads.sparesUsed.insert k (used + 1) } }
      ((s.bump (uSpad p) 0x388 31 16 1).setFld (uSpad p) 0x388 15 0 x.2.1).mramRepair (uSpad p) 2 x.2.1 x.2.2
    else s.setCore p { s.core p with failing := true, failInjected := x.2.2 }) s

/-- Store lines found failing are remapped; a store with no spare line makes the core fail (R156). -/
def State.remapStore (s : State) (p : Nat) : State :=
  let mine := s.conts.toRemap.filter fun x => x.1 == p
  let s := { s with conts := { s.conts with toRemap := s.conts.toRemap.filter fun x => x.1 != p } }
  mine.foldl (fun s x =>
    let used := s.conts.sparesUsed.get 0 p
    if used < 8 then
      let s := { s with conts := { s.conts with sparesUsed := s.conts.sparesUsed.insert p (used + 1) } }
      (s.bump (uCont p) 0x028 7 0 1).mramRepair (uCont p) 3 x.2.1 x.2.2
    else s.setCore p { s.core p with failing := true, failInjected := x.2.2 }) s

/-- A core that must fail and has no task is retired; else a screen test that waited for the core starts, and its repairs. -/
def State.boundaryTests (s : State) (p : Nat) : State :=
  if (s.core p).failing then s.retireIdle p (s.core p).failInjected
  else
    let started (t : Screen) : Screen :=
      if t.unit = uCore p && !t.running then { t with running := true, startedAt := s.now } else t
    let s := { s with diag := { s.diag with screens := s.diag.screens.map started } }
    if (s.core p).phase = .idle then
      let s := s.nextRepair ((s.core p).repairs.length + 1) p
      if (s.core p).failing then s.retireIdle p (s.core p).failInjected else s
    else s

/-- A task boundary of a core (R100): what waits for one takes effect. -/
def State.boundary (s : State) (p : Nat) : State :=
  ((((s.leaveAll p).applyPending p).remapLines p).remapStore p).boundaryTests p

/-! ## The program stores (R110, R111) -/

/-- FREE_BUNDLES of a core. -/
def State.freeBundles (s : State) (p : Nat) : Nat :=
  4096 - ((s.cores.kernels.filter fun e => e.2.cores.contains p).map fun e => e.2.bundles.length).sum

end Sys2Proof.Machine
end

