-- ==== Sys2Proof/Machine/TaskEnd.lean ====
section
/-! DEFINITION. The end of a task: TASK_FAULT (R115), what the end means for the command that placed it (R112, R158, R166, R300), the
task boundary (R100), broken claps (R183), aborted steps (R209) and damaged ones (R428). -/

namespace Sys2Proof.Machine

/-- Why a task ends before its END: the cause, the status with its DETAIL, and the frame that a statistics or reel fault names. -/
structure TaskFault where
  cause : Nat
  status : Nat
  detail : Nat := 0
  id : Nat := 0
  deriving DecidableEq, Repr, Inhabited

/-- The counters of causes (Tables 5.10, 7.6, 9.7, 15.2). -/
def State.countCause (s : State) (p cause : Nat) : State :=
  if cause = 3 then s.setCore p { s.core p with bankFaults := satAdd 16 (s.core p).bankFaults 1 }
  else if cause = 7 then s.bump (uCont p) 0x020 15 8 1
  else if cause = 12 then s.bump uMmu 0x5B00 31 16 1
  else if cause = 13 || cause = 14 then s.bump uMmu 0x5B00 15 0 1
  else if cause = 17 then { s with sched := { s.sched with watchdogs := satAdd 16 s.sched.watchdogs 1 } }
  else s

/-- The TASK_FAULT record (Table 5.15). -/
def State.faultRecord (s : State) (p : Nat) (t : Task) (f : TaskFault) : State :=
  let (st, s) := s.stamp (uCore p)
  let s := { s with sched := { s.sched with
    taskFaults := s.sched.taskFaults.insert t.slot (s.sched.taskFaults.get 0 t.slot + 1) } }
  s.recordCmd t.cmd 0x2001 f.status
    (le 4 t.index ++ le 2 (s.logicalOf p) ++ le 2 (uCore p) ++ le 2 (s.core p).pc ++ le 2 f.cause ++ le 4 0 ++ st.bytes)

/-! ## Commands that place tasks -/

/-- A `kernel_run` or `cont_run` completes once no task of it is placed or to be placed (R112, R158). -/
def State.tryFinishRun (s : State) (h : CmdHdr) : State :=
  match s.runOf h with
  | none => s
  | some r =>
    if (h.opcode = 0x2002 || h.opcode = 0x2020) && r.unplaced = 0 && r.running = 0 then
      let s := { s with sched := { s.sched with runs := s.sched.runs.filter fun x => !decide (x.cmd.hdr = h) } }
      let (status, detail) := if r.cancelled then (stCancelled, 0) else r.firstFault.getD (stOk, 0)
      let result :=
        if h.opcode = 0x2002 then le 4 r.ended ++ le 4 r.faulted ++ le 8 r.lastEnd
        else le 4 (s.conts.rowsDone.get 0 r.order) ++ le 4 (s.conts.rowsCounted.get 0 r.order) ++ le 8 r.lastEnd
      let s := { s with conts := { s.conts with
        rowsDone := s.conts.rowsDone.erase r.order, rowsCounted := s.conts.rowsCounted.erase r.order } }
      (s.finish r.cmd status detail result).tryUnloads
    else s

/-- The task trace (Table 5.13): the stamps of the first issue and of the end. -/
def State.writeTrace (s : State) (p : Nat) (t : Task) (r : TaskRun) : State :=
  if r.trace then
    let (st, s) := s.stamp (uCore p)
    let w := s.vwrite t.slot (r.traceBuf + 32 * t.index) (((s.core p).startStamp.getD st).bytes ++ st.bytes) false
    match w.2.2 with
    | some f => w.1.vfault t.cmd t.slot (uCore p) f
    | none => w.1
  else s

/-- The run of a task counts its end. -/
def State.countEnd (s : State) (t : Task) (fault : Option TaskFault) : State :=
  let upd (r : TaskRun) : TaskRun :=
    if r.cmd.hdr = t.cmd then
      match fault with
      | none => { r with running := r.running - 1, ended := r.ended + 1, lastEnd := s.now }
      | some f => { r with
          running := r.running - 1, faulted := r.faulted + 1
          firstFault := r.firstFault.orElse fun _ => some (f.status, f.detail) }
    else r
  { s with sched := { s.sched with runs := s.sched.runs.map upd } }

/-- What the end of a task means for what placed it. -/
def State.placerTold (s : State) (t : Task) (fault : Option TaskFault) : State :=
  match t.kind with
  | .stream id iter _ => s.streamTaskEnd id iter (fault.map fun f => (f.status, f.detail))
  | .attn order => s.attnTaskEnd order fault.isSome
  | .kernel | .cont _ => s.tryFinishRun t.cmd

/-! ## An aborted step, steps 4 to 6 (R209) -/

/-- Whether tasks of a `kernel_run` or `cont_run` of the job are still placed. -/
def State.stepTasks (s : State) (slot : Nat) : Bool :=
  s.sched.runs.any fun r => r.slot == slot && (r.cmd.hdr.opcode == 0x2002 || r.cmd.hdr.opcode == 0x2020)

/-- After the last END: undispatched commands are answered, the reels and the ledger are cleared, STEP_ABORTED is issued. -/
def State.tryFinishAbort (s : State) (slot : Nat) : State :=
  let j := s.reelJob slot
  match j.aborting with
  | none => s
  | some a =>
    if s.stepTasks slot then s
    else
      let s := (s.jobQueues (s.job slot).tag).foldl (fun s q => s.flushQueue q) s
      let s := (s.jobCores slot).foldl (fun s c => s.clearReel slot c) s
      let s := s.setReelJob slot { j with openIds := [], closedIds := [], aborting := none }
      let body := le 1 slot ++ le 1 a.trigger ++ le 2 a.core ++ le 4 j.step ++ le 4 a.expected ++ le 4 a.found ++ le 2 a.id ++
        le 6 0 ++ a.stamp.bytes
      (s.recordAll 0x3020 stStaleGather body).recordCmd a.hdr 0x3020 stStaleGather body

/-! ## The end of a task -/

/-- A task ends, at END or with a fault; its core is at a task boundary. -/
def State.taskDone (s : State) (p : Nat) (fault : Option TaskFault) : State :=
  let c := s.core p
  match c.task with
  | none => s
  | some t =>
    let s := match fault with
      | some f => (s.countCause p f.cause).faultRecord p t f
      | none => s
    let s := match c.stall with
      | some (.clap n _) => match s.clap t.slot n with
        | some k => s.setClap t.slot n { k with waiting := k.waiting.filter fun w => w.1 != p }
        | none => s
      | _ => s
    let s := match s.runOf t.cmd with
      | some r => s.writeTrace p t r
      | none => s
    let s := match t.kind with
      | .cont _ => s.setEmptyRange p 22528 2048
      | _ => s
    let s := s.setCore p { s.core p with
      phase := .idle, task := none, stall := none, idleSince := s.now, tasksDone := satAdd 32 c.tasksDone 1 }
    let s := (s.countEnd t fault).boundary p
    let s := match fault with
      | some f => if f.status = stFaultHw || f.status = stRetired || f.status = stPoisoned then s.damage t.slot else s
      | none => s
    (s.placerTold t fault).tryFinishAbort t.slot

/-! ## Claps that break (R183) -/

/-- A set clap breaks: every waiting member ends with cause 11, and CLAP_BROKEN follows. -/
def State.breakClap (s : State) (slot n : Nat) : State :=
  match s.clap slot n with
  | none => s
  | some k =>
    if k.broken then s
    else
      let s := s.setClap slot n { k with broken := true }
      let s := k.waiting.foldl (fun s w => s.taskDone w.1 (some ⟨11, stCancelled, 0, 0⟩)) s
      s.clapBrokenRecord slot n

/-- CLAP_LIMIT (R183): a core has waited LIMIT_US at a clap. -/
def execClapLimit (slot n : Nat) (s : State) : Result := s.live fun s =>
  s.onlyIf ((s.clap slot n).any fun k => !k.broken && k.waiting.any fun w => w.2 + k.limitUs * usec ≤ s.now) fun s =>
    s.breakClap slot n

/-! ## Cancelling the work of a job (R209 steps 2 and 3, R378) -/

/-- Every open stream of the job is cancelled (R180). -/
def State.cancelStreams (s : State) (slot : Nat) : State :=
  (s.streams.streams.filter fun e => e.2.isOpen && e.2.slot == slot).foldl (fun s e =>
    let x := s.stream e.1
    let s := s.cancelDecodes fun d => d.slot == slot && d.stream == e.1
    if x.runs.isEmpty then s
    else
      let s := (x.runs.drop 1).foldl (fun s r => s.finish r.cmd stCancelled 0 []) s
      (s.setStream e.1 { s.stream e.1 with runs := x.runs.take 1 }).stopRun e.1 stCancelled 0) s

/-- Every set clap of the job breaks. -/
def State.breakClaps (s : State) (slot : Nat) : State :=
  (List.range 64).foldl (fun s n => s.breakClap slot n) s

/-- The unplaced tasks of the job's running `kernel_run` and `cont_run` commands are dropped. -/
def State.dropTasks (s : State) (slot : Nat) : State :=
  let mine (r : TaskRun) : Bool := r.slot == slot && (r.cmd.hdr.opcode == 0x2002 || r.cmd.hdr.opcode == 0x2020)
  let rs := s.sched.runs.filter mine
  let cut (r : TaskRun) : TaskRun := if mine r then { r with unplaced := 0, cancelled := true } else r
  let s := { s with sched := { s.sched with
    runs := s.sched.runs.map cut
    ready := s.sched.ready.filter fun t => !(rs.any fun r => decide (r.cmd.hdr = t.cmd)) } }
  rs.foldl (fun s r => s.tryFinishRun r.cmd.hdr) s

/-- Steps 2 and 3 of R209. -/
def State.cancelWork (s : State) (slot : Nat) : State := ((s.cancelStreams slot).breakClaps slot).dropTasks slot

/-- A step is aborted (R209). -/
def State.abortStep (s : State) (slot : Nat) (a : Abort) : State :=
  let j := s.reelJob slot
  if s.inStep slot then
    let s := match j.gateCmd with
      | some g => s.deferredDone g.hdr stCancelled 0
      | none => s
    let s := s.setReelJob slot { j with phase := .aborted, aborts := satAdd 16 j.aborts 1, gateCmd := none, aborting := some a }
    (s.cancelWork slot).tryFinishAbort slot
  else s

/-- A task ends; with ST_STALE_GATHER in a step, the step is aborted. -/
def State.endTask (s : State) (p : Nat) (fault : Option TaskFault) : State :=
  match (s.core p).task, fault with
  | some t, some f =>
    let c := s.logicalOf p
    let s := s.taskDone p fault
    if f.status = stStaleGather then
      let (st, s) := s.stamp (uCore p)
      s.abortStep t.slot ⟨if f.cause = 7 then 2 else 3, c, 0, 0, f.id, st, t.cmd⟩
    else s
  | _, _ => s.taskDone p fault

/-- A task ends with a fault. -/
abbrev State.failTask (s : State) (p cause status detail : Nat) : State := s.endTask p (some ⟨cause, status, detail, 0⟩)

/-- A core is retired: the task that runs on it ends with cause 5 (R107). -/
def State.retireCore (s : State) (p : Nat) (injected : Bool) : State :=
  (s.failTask p 5 stRetired (uCore p)).retireIdle p injected

end Sys2Proof.Machine
end

