-- ==== Sys2Proof/Machine/Collectives.lean ====
section
/-! DEFINITION. Collectives and gathers in canonical order (R340-R345): the reduction tree, what a device sends and receives of it,
the ledger and the tags of gathers (R205). -/

namespace Sys2Proof.Machine

/-- The resilience data of a slot. -/
def State.rjob (s : State) (slot : Nat) : ResJob := s.resil.jobs.get ({} : ResJob) slot

def State.setRjob (s : State) (slot : Nat) (r : ResJob) : State :=
  { s with resil := { s.resil with jobs := s.resil.jobs.insert slot r } }

/-! ## The tree of R239 over S leaves, slice by slice -/

/-- Nodes of a level. -/
def treeNodes (n k : Nat) : Nat := ceilDiv n (2 ^ k)

/-- The leaf that forms node `i` of level `k` for slice `t`. For a power of two it is leaf i × 2^k + (t mod 2^k): recursive
halving (R343). -/
def keeper (n : Nat) : Nat → Nat → Nat → Nat
  | 0, i, _ => i
  | k + 1, i, t => keeper n k (if bitAt t k && 2 * i + 1 < treeNodes n k then 2 * i + 1 else 2 * i) t

/-- The leaf that forms the root for slice `t`. -/
def treeTop (n t : Nat) : Nat := keeper n (clog2 n) 0 t

/-- A value that goes from one leaf to another in the reduction of a slice: the level and number of the node it is of. Gathering
goes along the same edges backwards. -/
structure TreeEdge where
  level : Nat
  node : Nat
  sender : Nat
  receiver : Nat
  deriving DecidableEq, Repr, Inhabited

/-- The edges of slice `t`, lowest level first. -/
def treeEdges (n t : Nat) : List TreeEdge :=
  (List.range (clog2 n)).flatMap fun k => (List.range (treeNodes n (k + 1))).filterMap fun i =>
    if 2 * i + 1 < treeNodes n k then
      let first := bitAt t k
      let send := if first then 2 * i else 2 * i + 1
      let keep := if first then 2 * i + 1 else 2 * i
      some ⟨k, send, keeper n k send t, keeper n k keep t⟩
    else none

/-- Element-wise sums of two FP32 arrays. -/
def addArrays (a b : List Byte) : List Byte :=
  (List.range (a.length / 4)).flatMap fun i =>
    le 4 (fadd (BitVec.ofNat 32 (leAt a (4 * i) 4)) (BitVec.ofNat 32 (leAt b (4 * i) 4))).toNat

/-! ## A collective on this device -/

/-- Bytes of a slice. -/
def Collective.slice (c : Collective) : Nat := c.len / c.part.length

/-- Whether a leaf is held by device `me`. -/
def Collective.mine (c : Collective) (me leaf : Nat) : Bool := c.part[leaf]? == some me

/-- The leaves that the device holds. -/
def Collective.held (c : Collective) (me : Nat) : List Nat := (List.range c.part.length).filter (c.mine me)

/-- The other members of the part. -/
def Collective.others (c : Collective) (me : Nat) : List Nat :=
  (c.part.foldl (fun (m : TMap Unit) e => m.insert e ()) []).map (·.1) |>.filter (· != me)

def pieceKey (level leaf x : Nat) : Nat := (level * 65536 + leaf) * 2 ^ 40 + x

/-- What has been received of a key. -/
def pieceAt (m : TMap (List Byte)) (k : Nat) : Option (List Byte) := (m.find? fun e => e.1 == k).map (·.2)

/-- The device's own bytes of a leaf. -/
def Collective.ownBytes (c : Collective) (leaf x n : Nat) : Option (List Byte) :=
  (c.own.find? fun e => e.1 == leaf).map fun e => (e.2.drop x).take n

/-- The value of node `i` of a level for the `n` bytes at `x` of slice `t`, where this device forms it and knows it. -/
def Collective.value (c : Collective) (me : Nat) : Nat → Nat → Nat → Nat → Nat → Option (List Byte)
  | 0, i, _, x, n => c.ownBytes i x n
  | k + 1, i, t, x, n =>
    let side (j : Nat) : Option (List Byte) :=
      let h := keeper c.part.length k j t
      if c.mine me h then c.value me k j t x n else pieceAt c.received (pieceKey k h x)
    if 2 * i + 1 < treeNodes c.part.length k then
      match side (2 * i), side (2 * i + 1) with
      | some a, some b => some (addArrays a b)
      | _, _ => none
    else side (2 * i)

/-- A piece of the result, where this device knows it. -/
def Collective.final (c : Collective) (me t x n : Nat) : Option (List Byte) :=
  let s := c.part.length
  let top := treeTop s t
  let root := if c.mine me top then c.value me (clog2 s) 0 t x n else none
  if c.op = 0 then (if c.mine me top then root else pieceAt c.received (pieceKey (clog2 s) top x))
  else if c.op = 2 then root.orElse fun _ => pieceAt c.gathered x
  else if c.mine me t then c.ownBytes t (x - t * c.slice) n
  else pieceAt c.gathered x

/-- The pieces of a slice: (offset in the N bytes, bytes). A packet carries at most 4,096. -/
def Collective.pieces (c : Collective) (t : Nat) : List (Nat × Nat) :=
  (List.range (ceilDiv c.slice 4096)).map fun j => (t * c.slice + 4096 * j, min 4096 (c.slice - 4096 * j))

/-- Something to be sent. -/
structure CollSend where
  dst : Nat
  level : Nat
  offset : Nat
  x : Nat
  payload : Option (List Byte)
  deriving DecidableEq, Repr, Inhabited

/-- What this device sends of a piece: reduced values up the tree, results down it, and across where the root of a slice is formed
by another leaf than its own. -/
def Collective.sendsOf (c : Collective) (me t x n : Nat) : List CollSend :=
  let s := c.part.length
  let es := treeEdges s t
  let top := treeTop s t
  let dev (leaf : Nat) : Nat := c.part.getD leaf 0
  let up := if c.op = 1 then [] else
    (es.filter fun e => c.mine me e.sender && !c.mine me e.receiver).map fun e =>
      (⟨dev e.receiver, e.level, e.sender * c.len + x, x, c.value me e.level e.node t x n⟩ : CollSend)
  let down := if c.op = 0 then [] else
    (es.filter fun e => c.mine me e.receiver && !c.mine me e.sender).map fun e =>
      (⟨dev e.sender, 16 + e.level, x, x, c.final me t x n⟩ : CollSend)
  let across :=
    if top = t then []
    else if c.op = 0 && c.mine me top && !c.mine me t then
      [(⟨dev t, clog2 s, top * c.len + x, x, c.value me (clog2 s) 0 t x n⟩ : CollSend)]
    else if c.op = 1 && c.mine me t && !c.mine me top then
      [(⟨dev top, 16 + clog2 s, x, x, c.final me t x n⟩ : CollSend)]
    else []
  up ++ down ++ across

/-- Every piece: (slice, offset, bytes). -/
def Collective.allPieces (c : Collective) : List (Nat × Nat × Nat) :=
  (List.range c.part.length).flatMap fun t => (c.pieces t).map fun q => (t, q.1, q.2)

/-- Every send of the operation. -/
def Collective.sends (c : Collective) (me : Nat) : List CollSend :=
  c.allPieces.flatMap fun q => c.sendsOf me q.1 q.2.1 q.2.2

/-- The key of a send among those made. -/
def CollSend.key (w : CollSend) : Nat := pieceKey w.level w.dst w.offset

/-- The pieces that DST takes on this device, with their offsets in DST (R341). -/
def Collective.target (c : Collective) (me : Nat) : List (Nat × Nat × Nat × Nat) :=
  if c.op = 0 then
    (c.held me).zipIdx.flatMap fun e => (c.pieces e.1).map fun q => (e.1, q.1, q.2, e.2 * c.slice + (q.1 - e.1 * c.slice))
  else c.allPieces.map fun q => (q.1, q.2.1, q.2.2, q.2.1)

/-- The devices whose data is missing (R343). -/
def Collective.missing (c : Collective) (me : Nat) : List Nat :=
  let s := c.part.length
  let dev (leaf : Nat) : Nat := c.part.getD leaf 0
  let data := c.allPieces.flatMap fun q =>
    let (t, x, n) := q
    let es := treeEdges s t
    let top := treeTop s t
    let up := if c.op = 1 then [] else
      (es.filter fun e => c.mine me e.receiver && !c.mine me e.sender &&
        (pieceAt c.received (pieceKey e.level e.sender x)).isNone).map fun e => dev e.sender
    let down := if c.op = 0 || (c.final me t x n).isSome then [] else
      (es.filter fun e => c.mine me e.sender && !c.mine me e.receiver).map fun e => dev e.receiver
    let across :=
      if top = t || (c.final me t x n).isSome then []
      else if c.op = 0 && c.mine me t && !c.mine me top then [dev top]
      else if c.op = 1 && c.mine me top && !c.mine me t then [dev t]
      else []
    up ++ down ++ across
  let side := if c.nonfinite || c.auxCount != 0 then (c.others me).filter fun o => !c.heardFrom.contains o else []
  data ++ side

/-! ## The operations of a device -/

/-- The operation of a job with an id. -/
def State.collective (s : State) (slot : Nat) (gather : Bool) (id : Nat) : Option Collective :=
  s.fabric.collectives.find? fun c => c.slot == slot && c.gather == gather && c.id == id

def State.setCollective (s : State) (c : Collective) : State :=
  let put (x : Collective) : Collective := if x.slot = c.slot && x.gather = c.gather && x.id = c.id then c else x
  { s with fabric := { s.fabric with collectives := s.fabric.collectives.map put } }

/-- Whether a frame of the operation waits to be sent or acknowledged (R343). -/
def State.collOutstanding (s : State) (c : Collective) : Bool :=
  let own (k : Packet) : Bool := k.src == s.fabricId && k.jobTag == c.cmd.hdr.jobTag && k.opId == c.id &&
    k.epoch == c.epoch && k.type == (if c.gather then 2 else 1)
  (s.fabric.ports.any fun e => (e.2.unacked.any fun u => own u.2) || e.2.txQueue.any own) ||
    s.fabric.waiting.any fun k => own k.1

/-- `n` bytes of free values, at most 1 KiB a draw. -/
def State.freeBytes (s : State) (n : Nat) : List Byte × State :=
  (List.range (ceilDiv n 1024)).foldl (fun (acc : List Byte × State) i =>
    let (v, s) := acc.2.draw
    (acc.1 ++ le (min 1024 (n - 1024 * i)) v, s)) ([], s)

/-- The contents of a far range are undefined from now on: every byte that can be written there holds a free value. -/
def State.undefineFar (s : State) (slot a n : Nat) : State :=
  let (data, s) := s.freeBytes n
  match farPlace a with
  | .bad => s
  | .virtual va =>
    (pieces va n).foldl (fun s q =>
      match s.translate slot (va + q.1) true with
      | .ok pa => s.memWrite pa ((data.drop q.1).take q.2) false
      | .error _ => s) s
  | .window c off =>
    match s.physOf c with
    | some p => { s with spads := { s.spads with bytes := putBytes s.spads.bytes (byteKey p off) data } }
    | none => s

/-- The bytes of DST. -/
def Collective.dstBytes (c : Collective) (me : Nat) : Nat :=
  if c.op = 0 then (c.held me).length * c.slice else c.len

/-- An operation completes (R343, R354): its ledger entry closes (R205), AUX is written back, and the reduced flag is kept for the
step's slate (R383). DST is undefined unless all of it has been written. -/
def State.endCollective (s : State) (c : Collective) (status detail : Nat) : State :=
  let s := { s with fabric := { s.fabric with
    collectives := s.fabric.collectives.filter fun x => !(x.slot == c.slot && x.gather == c.gather && x.id == c.id) } }
  let s := if status = stOk then s else s.undefineFar c.slot c.dst (c.dstBytes s.fabricId)
  let j := s.reelJob c.slot
  let s := if c.gather && c.pass = 1 && c.ledgerStep = some j.step then
      s.setReelJob c.slot { j with openIds := j.openIds.filter (· != c.id), closedIds := c.id :: j.closedIds }
    else s
  let s := if status = stOk && c.nonfinite && c.orFlag then s.setRjob c.slot { s.rjob c.slot with skip := true } else s
  s.finish c.cmd status detail
    (le 1 (b2n (c.nonfinite && c.orFlag)) ++ le 3 0 ++ le 4 (c.held s.fabricId).length ++ le 8 c.bytesSent ++ le 8 s.now)

/-- A failure of a write or a read ends an operation (R329). -/
def State.collFail (s : State) (c : Collective) (src : Nat) (f : FarFail) : State :=
  (s.farFault c.cmd.hdr c.slot src f).endCollective c f.status f.detail

/-- The pieces of the result that have become known are written, in ascending order up to the first failure. -/
def State.collWrites (s : State) (c : Collective) : State × Option FarFail :=
  (c.target s.fabricId).foldl (fun (acc : State × Option FarFail) q =>
    match acc.2, acc.1.collective c.slot c.gather c.id with
    | none, some c =>
      if c.written.contains q.2.1 then acc
      else match c.final acc.1.fabricId q.1 q.2.1 q.2.2.1 with
        | none => acc
        | some data =>
          let s := acc.1
          let (s, _, f) := s.farWrite c.slot (c.dst + q.2.2.2) data false (s.job c.slot).placement c.epoch true
          match f with
          | some f => (s, some f)
          | none => (s.setCollective { c with written := q.2.1 :: c.written }, none)
    | _, _ => acc) (s, none)

/-- What can be sent is sent. -/
def State.collSends (s : State) (c : Collective) : State :=
  (c.sends s.fabricId).foldl (fun s w =>
    match s.collective c.slot c.gather c.id, w.payload with
    | some x, some data =>
      if x.sent.contains w.key then s
      else
        let s := s.setCollective { x with sent := w.key :: x.sent, bytesSent := x.bytesSent + data.length }
        s.originate c.slot (if c.gather then 2 else 1) (b2n (s.queue c.cmd.hdr.qkey).headgate) w.dst
          (if c.gather then 0xFF else w.level) (if c.gather then c.pass else 0) c.id
          (if c.gather then c.tags.get 0xFFFFFFFF w.x else 0) w.offset c.epoch data
    | _, _ => s) s

/-- An operation completes when DST is written, every send is made and acknowledged, and every member has been heard (R343). -/
def State.collTry (s : State) (slot : Nat) (gather : Bool) (id : Nat) : State :=
  match s.collective slot gather id with
  | none => s
  | some c =>
    let me := s.fabricId
    let wrote := (c.target me).all fun q => c.written.contains q.2.1
    let sent := (c.sends me).all fun w => c.sent.contains w.key
    let side := !(c.nonfinite || c.auxCount != 0) || (c.others me).all fun o => c.heardFrom.contains o
    if wrote && sent && side && !s.collOutstanding c then
      let aux := c.aux.flatMap fun w => le 4 w.toNat
      let (s, _, f) := if c.auxCount = 0 then (s, 0, none) else s.vwrite slot c.auxVa aux false
      match f with
      | some f => s.collFail c (uLink 0) ⟨stPageFault, f.detail, some f⟩
      | none => s.endCollective c stOk 0
    else s

/-- An operation goes as far as it can. `src`: the unit that a failed write names. -/
def State.collAdvance (s : State) (slot : Nat) (gather : Bool) (id src : Nat) : State :=
  match s.collective slot gather id with
  | none => s
  | some c =>
    let (s, f) := s.collWrites c
    match f, s.collective slot gather id with
    | some f, some c => s.collFail c src f
    | none, some c => (s.collSends c).collTry slot gather id
    | _, none => s

/-- Frames have been acknowledged: operations that waited for that complete. -/
def State.collAcked (s : State) : State :=
  s.fabric.collectives.foldl (fun s c => s.collTry c.slot c.gather c.id) s

/-! ## Arriving data -/

/-- A packet of the side exchange (R342): the non-finite flag and the AUX array of a member. -/
def Collective.hearSide (c : Collective) (k : Packet) : Collective :=
  if c.heardFrom.contains k.src then c
  else { c with
    heardFrom := k.src :: c.heardFrom, orFlag := c.orFlag || bitAt k.flags 1
    aux := c.aux.zipIdx.map fun (e : Word32 × Nat) => fmax e.1 (BitVec.ofNat 32 (leAt k.payload (4 * e.2) 4)) }

/-- A COLL packet is placed by its level and OFFSET. -/
def Collective.hear (c : Collective) (k : Packet) : Collective :=
  if k.level = 0xFF then c.hearSide k
  else if k.level < 16 then
    { c with received := c.received.insert (pieceKey k.level (k.offset / c.len) (k.offset % c.len)) k.payload }
  else { c with gathered := c.gathered.insert k.offset k.payload, tags := c.tags.insert k.offset k.tag }

/-- A data packet whose operation has not begun here is kept for it. -/
def State.keepData (s : State) (slot : Nat) (k : Packet) : State :=
  let f := s.fjob slot
  s.setFjob slot { f with earlyData := f.earlyData ++ [k] }

/-- A gather ends with ST_STALE_GATHER, and its step is aborted (R205, R209). -/
def State.staleGather (s : State) (c : Collective) (tag : Nat) : State :=
  let (st, s) := s.stamp (uLink 0)
  let s := (s.bump uMmu 0x5B00 63 48 1).endCollective c stStaleGather (tag % 65536)
  s.abortStep c.slot ⟨1, 0xFFFF, (s.reelJob c.slot).step, tag, c.id, st, c.cmd.hdr⟩

/-- A COLL packet or a GATHER piece of the current epoch (R205, R340, R345). -/
def State.dataIn (s : State) (slot src : Nat) (k : Packet) : State :=
  let gather := k.type == 2
  match s.collective slot gather k.opId with
  | none => s.keepData slot k
  | some c =>
    if gather && c.ledgerStep.any fun n => k.tag != n then s.staleGather c k.tag
    else
      let c := if gather then
          { c with gathered := c.gathered.insert k.offset k.payload, tags := c.tags.insert k.offset k.tag }
        else c.hear k
      (s.setCollective c).collAdvance slot gather k.opId src

/-- The packets that came before an operation began are taken now. -/
def State.takeEarly (s : State) (slot : Nat) (gather : Bool) (id : Nat) : State :=
  let f := s.fjob slot
  let mine (k : Packet) : Bool := k.opId == id && (k.type == 2) == gather
  (f.earlyData.filter mine).foldl (fun s k => s.dataIn slot (uLink 0) k)
    (s.setFjob slot { f with earlyData := f.earlyData.filter fun k => !mine k })

/-! ## Commands -/

/-- The device's part of a group: the fabric id of each of its leaves; none where the device holds no leaf of it. -/
def Layout.partOf (l : Layout) (g me : Nat) : Option (List Nat) :=
  match l.groups[g]? with
  | none => none
  | some q => ((List.range q.parts).map fun i => (l.entries.drop (q.first + i * q.size)).take q.size).find? fun p => p.contains me

/-- Whether a far address is a window that cannot be used. -/
def State.windowBad (s : State) (slot a : Nat) : Option FarFail :=
  match farPlace a with
  | .bad => some ⟨stBadParam, 0, none⟩
  | .virtual _ => none
  | .window c _ => match s.windowCore slot c true with
    | .error f => some f
    | .ok _ => none

/-- The refusal of a window at a block offset. -/
def State.windowCheck (s : State) (slot a off : Nat) : Check :=
  (s.windowBad slot a).map fun f => (f.status, if f.status = stBadParam then 0x20 + off else f.detail)

/-- The checks that a `collective_run` and a `gather_run` share (R354, R338): its epoch. -/
def State.epochCheck (s : State) (slot e : Nat) : List Check :=
  let f := s.fjob slot
  [failIf (f.recut.isSome && e == f.epoch) stEpochBusy 1,
   failIf (f.epoch != 0 && e < f.epoch) stEpochBusy 4,
   badIf (f.epoch == 0 || e != f.epoch) 4]

/-- The TAG of a piece: of the shard range that contains it, else all ones (R345). -/
def State.tagAt (s : State) (slot va : Nat) : Nat :=
  (((List.range 16).find? fun k =>
    let x := s.shard k
    x.valid && x.slot == slot && x.base ≤ va && va < x.base + x.len).map fun k => (s.shard k).tag).getD 0xFFFFFFFF

/-- A dispatched operation reads its contribution, sends what it can, and takes what has come early. -/
def State.startCollective (s : State) (c : Collective) : State :=
  let me := s.fabricId
  let each := if c.op = 1 then c.slice else c.len
  let held := c.held me
  match s.farRead c.slot c.src (held.length * each) true with
  | .error f => (s.farFault c.cmd.hdr c.slot (uLink 0) f).finish c.cmd f.status
      (if f.status = stBadParam then 0x30 else f.detail) []
  | .ok (data, poison) =>
    let s := s.farTouch c.slot c.src (held.length * each)
    if poison then s.finish c.cmd stPoisoned (s.farUnit c.slot c.src) []
    else match (if c.auxCount = 0 then .ok ([], false) else s.vread c.slot c.auxVa (4 * c.auxCount)) with
      | .error f => (s.vfault c.cmd.hdr c.slot (uLink 0) f).finish c.cmd stPageFault f.detail []
      | .ok (aux, auxPoison) =>
        if auxPoison then s.finish c.cmd stPoisoned (s.farUnit c.slot c.auxVa) []
        else
          let own := held.zipIdx.map fun (e : Nat × Nat) => (e.1, (data.drop (e.2 * each)).take each)
          let tags : TMap Nat := if c.gather then
              held.zipIdx.foldl (fun (m : TMap Nat) (e : Nat × Nat) => (c.pieces e.1).foldl (fun m q =>
                m.insert q.1 (s.tagAt c.slot (c.src + e.2 * each + (q.1 - e.1 * c.slice)))) m) []
            else []
          let flag := (List.range 156).any fun p => s.conts.nonfinite.get false (p * 64 + c.slot)
          let c := { c with
            own := own, tags := tags, orFlag := c.nonfinite && flag
            aux := (List.range c.auxCount).map fun i => BitVec.ofNat 32 (leAt aux (4 * i) 4) }
          let s := { s with fabric := { s.fabric with collectives := s.fabric.collectives ++ [c] } }
          let s := if c.nonfinite || c.auxCount != 0 then
              (c.others me).foldl (fun s o =>
                s.originate c.slot 1 (b2n (s.queue c.cmd.hdr.qkey).headgate + 2 * b2n c.orFlag) o 0xFF 0 c.id 0 0 c.epoch
                  (aux ++ List.replicate ((128 - aux.length % 128) % 128) 0)) s
            else s
          (s.takeEarly c.slot c.gather c.id).collAdvance c.slot c.gather c.id (uLink 0)

/-- The checks of COLLECTIVE_RUN (R340-R343, R354). -/
def State.collectiveRunChecks (s : State) (c : Command) : List Check :=
  let slot := s.cmdSlot c.hdr
  let op := c.u8 0
  let id := c.u16 2
  let len := c.u64 8
  let part := ((s.fjob slot).layout.bind fun l => l.partOf (c.u8 1) s.fabricId)
  let n := (part.getD []).length
  let limit := if c.expert then c.u32 0x34 else s.fld (uLink 0) 0xF10 63 32
  let chunk := c.ex (c.u16 0x30) 256
  ([badIf (2 < op) 0, badIf ((s.fjob slot).layout.isSome && part.isNone) 1,
    badIf (s.collective slot false id).isSome 2] ++ s.epochCheck slot (c.u32 4) ++
   [badIf (len % (256 * n) != 0 || 2 ^ 36 < len) 8, s.windowCheck slot (c.u64 0x10) 0x10, s.windowCheck slot (c.u64 0x18) 0x18,
    badIf (c.u64 0x20 % 128 != 0) 0x20, badIf (512 < c.u16 0x28) 0x28, badIf (1 < c.u8 0x2A) 0x2A,
    badIf (chunk < 64 || 4096 < chunk) 0x30, badIf (limit = 0) 0x34])

/-- COLLECTIVE_RUN (R340-R343, R354). -/
def execCollectiveRun (c : Command) (s : State) : Result := s.live fun s =>
  let slot := s.cmdSlot c.hdr
  let op := c.u8 0
  let id := c.u16 2
  let len := c.u64 8
  let part := ((s.fjob slot).layout.bind fun l => l.partOf (c.u8 1) s.fabricId)
  let limit := if c.expert then c.u32 0x34 else s.fld (uLink 0) 0xF10 63 32
  s.checked c (s.collectiveRunChecks c)
    fun s => s.startCollective
      { (default : Collective) with
        cmd := c, slot := slot, gather := false, op := op, id := id, epoch := c.u32 4, len := len, src := c.u64 0x10,
        dst := c.u64 0x18, auxVa := c.u64 0x20, auxCount := if c.u64 0x20 = 0 then 0 else c.u16 0x28,
        nonfinite := c.u8 0x2A == 1, part := part.getD [], limitAt := s.now + limit * msec }

/-- The checks of GATHER_RUN (R205, R345, R355). -/
def State.gatherRunChecks (s : State) (c : Command) : List Check :=
  let slot := s.cmdSlot c.hdr
  let id := c.u16 0
  let pass := c.u8 2
  let len := c.u64 8
  let part := ((s.fjob slot).layout.bind fun l => l.partOf (c.u8 3) s.fabricId)
  let n := (part.getD []).length
  let limit := if c.expert then c.u32 0x24 else s.fld (uLink 0) 0xF10 63 32
  let chunk := c.ex (c.u16 0x20) 256
  let j := s.reelJob slot
  let stepping := s.inStep slot
  let entered := j.openIds.contains id || j.closedIds.contains id
  ([badIf (stepping && pass == 0 && entered) 0, badIf (stepping && pass == 1 && !j.openIds.contains id) 0,
    badIf (1 < pass) 2, badIf (s.collective slot true id).isSome 2,
    badIf ((s.fjob slot).layout.isSome && part.isNone) 3] ++ s.epochCheck slot (c.u32 4) ++
   [badIf (len % (256 * n) != 0 || 2 ^ 36 < len) 8, s.windowCheck slot (c.u64 0x10) 0x10, s.windowCheck slot (c.u64 0x18) 0x18,
    badIf (chunk < 64 || 4096 < chunk) 0x20, badIf (limit = 0) 0x24,
    failIf (stepping && pass == 0 && 1024 ≤ j.openIds.length + j.closedIds.length) stNoResource 0x60])

/-- GATHER_RUN (R205, R345, R355). -/
def execGatherRun (c : Command) (s : State) : Result := s.live fun s =>
  let slot := s.cmdSlot c.hdr
  let id := c.u16 0
  let pass := c.u8 2
  let len := c.u64 8
  let part := ((s.fjob slot).layout.bind fun l => l.partOf (c.u8 3) s.fabricId)
  let limit := if c.expert then c.u32 0x24 else s.fld (uLink 0) 0xF10 63 32
  let j := s.reelJob slot
  let stepping := s.inStep slot
  s.checked c (s.gatherRunChecks c)
    fun s =>
      let s := if stepping && pass == 0 then s.setReelJob slot { j with openIds := id :: j.openIds } else s
      s.startCollective
        { (default : Collective) with
          cmd := c, slot := slot, gather := true, op := 1, id := id, epoch := c.u32 4, len := len, src := c.u64 0x10,
          dst := c.u64 0x18, pass := pass, part := part.getD [], limitAt := s.now + limit * msec
          ledgerStep := if stepping then some j.step else none }

/-- COLLECTIVE_LIMIT (R343). -/
def execCollectiveLimit (slot : Nat) (gather : Bool) (id : Nat) (s : State) : Result := s.live fun s =>
  match s.collective slot gather id with
  | none => s
  | some c =>
    let m := c.missing s.fabricId
    s.onlyIf (c.limitAt ≤ s.now && !m.isEmpty) fun s => s.endCollective c stPeerSilent (m.foldl min 0xFFFF)

end Sys2Proof.Machine
end

