-- ==== Sys2Proof/Machine/Fabric.lean ====
section
/-! DEFINITION. The optical fabric (spec/14): link control frames, training and the loss of light, arriving packets, port maps,
layouts and recuts. -/

namespace Sys2Proof.Machine

/-! ## Link control frames (R326, R327) -/

/-- The identity of a port's peer has been seen: CHECK decides by the active map (R330). -/
def State.checkPeer (s : State) (p : Nat) : State :=
  let s := s.portPhase p .check
  let x := s.port p
  if s.fabric.activeMap.isNone || (x.peer == s.expectPeer p && x.peerPort == s.expectPort p) then s.portUpNow p
  else s.portPhase p .miswired

/-- LCF (R326): acknowledgements, credits, the exchange of timecodes; a MISWIRED port whose peer has changed is checked again. -/
def execLcf (port : Nat) (l : LinkControl) (s : State) : Result := s.live fun s =>
  let x := s.port port
  let ph := x.phase
  s.onlyIf (port < 16 && (ph == .up || ph == .recutting || ph == .miswired)) fun s =>
    let s := s.setPort port { x with
      echo := (l.stamp, s.now), credit := x.credit + l.credits, peer := l.peer, peerPort := l.peerPort }
    if ph == .miswired then (if l.peer ≠ x.peer || l.peerPort ≠ x.peerPort then s.checkPeer port else s)
    else
      let s := s.linkAck port l.ack
      let s := match l.nack with
        | some n => s.linkNack port n
        | none => s
      let s := if (s.port port).phase == .up then (s.kickPort port).tcExchange port l else s
      s.collAcked

/-- The link control frame that a port sends now. -/
def State.makeLcf (s : State) (p : Nat) : LinkControl :=
  let x := s.port p
  let t := s.timecode
  let root := if t.phase == .locked then t.rootId else 0xFFFF
  ⟨(x.rxSeq + 4095) % 4096, x.nackDue, x.toGrant, s.fabricId, p, s.now, x.echo.1, x.echo.2, root, t.hopDepth⟩

/-- A port sends an LCF. -/
def State.sendLcf (s : State) (p : Nat) : State :=
  let l := s.makeLcf p
  (s.setPort p { s.port p with ackDue := false, nackDue := none, toGrant := 0, lastLcf := s.now }).emit (.linkControl p l)

/-- LCF_TRANSMIT (R326): at least every 1 µs, and at once when an acknowledgement or a NACK is due. -/
def execLcfTransmit (port : Nat) (s : State) : Result := s.live fun s =>
  let x := s.port port
  s.onlyIf (port < 16 && (x.phase == .up || x.phase == .recutting || x.phase == .miswired) &&
      (x.ackDue || x.nackDue.isSome || x.lastLcf + usec ≤ s.now)) fun s => s.sendLcf port

/-! ## Training and light (R330, R508) -/

/-- A port begins to train. -/
def State.trainPort (s : State) (p : Nat) : State :=
  (s.setPort p { s.port p with trainingSince := s.now }).portPhase p .training

/-- LIGHT_DETECTED (R330). -/
def execLightDetected (port : Nat) (s : State) : Result := s.live fun s =>
  s.onlyIf (port < 16) fun s =>
    let s := s.setPort port { s.port port with light := true }
    if (s.port port).phase == .down && s.fld (uLink port) 0x040 0 0 == 1 then s.trainPort port else s

/-- Port lanes that work: every one that still has an engine lane (R323). -/
def Port.working (x : Port) : Nat := if x.lanes.isEmpty then 4 else (x.lanes.filter (· != 0xFF)).length

/-- TRAINING_COMPLETE (R323, R330): the peer's identity, and the width that the peer offers. -/
def execTrainingComplete (port peer peerPort width : Nat) (s : State) : Result := s.live fun s =>
  let x := s.port port
  s.onlyIf (port < 16 && x.phase == .training) fun s =>
    (s.setPort port { x with peer := peer, peerPort := peerPort, width := min x.working width }).checkPeer port

/-- TRAINING_TIMEOUT (R330): not trained within 200 ms. -/
def execTrainingTimeout (port : Nat) (s : State) : Result := s.live fun s =>
  let x := s.port port
  s.onlyIf (port < 16 && x.phase == .training && x.trainingSince + 200 * msec ≤ s.now) fun s => s.portLost port .down

/-- TRAINING_RETRY (R330): every 1 s a DOWN port with light trains again. -/
def execTrainingRetry (port : Nat) (s : State) : Result := s.live fun s =>
  let x := s.port port
  s.onlyIf (port < 16 && x.phase == .down && x.light && s.fld (uLink port) 0x040 0 0 == 1 && x.downSince + 1000 * msec ≤ s.now)
    fun s => s.trainPort port

/-- LOSS_OF_LIGHT (R330): an UP port goes DOWN and is tested. -/
def execLossOfLight (port : Nat) (s : State) : Result := s.live fun s =>
  s.onlyIf (port < 16) fun s =>
    let s := (s.setPort port { s.port port with light := false }).bump (uOptic (port / 4)) 0x020 31 0 1
    if (s.port port).phase == .up then
      (s.portLost port .down).logError { type := 0x40, cls := 2, unit := uLink port, sub := port }
    else s

/-- CONNECTOR_REMOVAL (R508): all lanes of an engine lose light within 1 ms; nothing is tested or retired. -/
def execConnectorRemoval (engine : Nat) (s : State) : Result := s.live fun s =>
  s.onlyIf (engine < 4) fun s =>
    let s := s.bump (uOptic engine) 0x020 31 0 1
    (List.range 4).foldl (fun s i =>
      let p := 4 * engine + i
      let s := s.setPort p { s.port p with light := false }
      let ph := (s.port p).phase
      if ph == .down || ph == .failed then s else s.portLost p .down) s

/-! ## Arriving packets (R335, R340, R345, R346) -/

/-- COLL_PACKET (R340). -/
def execCollPacket (f : Frame) (s : State) : Result := s.live fun s =>
  s.frameIn f 1 fun s slot => s.epochIn slot f id fun s => s.dataIn slot (uLink f.port) f.packet

/-- GATHER_PIECE (R205, R345). -/
def execGatherPiece (f : Frame) (s : State) : Result := s.live fun s =>
  s.frameIn f 2 fun s slot => s.epochIn slot f id fun s => s.dataIn slot (uLink f.port) f.packet

/-! ## Port maps (R332, R348, R352) -/

/-- The entry of a port in a map; a port that carries no traffic has no peer port. -/
def PortMap.entry (m : PortMap) (p : Nat) : Nat × Nat :=
  let e := m.peers.getD p (0xFFFF, 0xFF)
  if e.1 = 0xFFFF then (0xFFFF, 0xFF) else e

def State.mapSlot (s : State) (n : Nat) : PortMap := s.fabric.maps.get ⟨[], []⟩ n

/-- The entry of a port in the active map. -/
def State.activeEntry (s : State) (p : Nat) : Nat × Nat :=
  match s.fabric.activeMap with
  | some m => (s.mapSlot m).entry p
  | none => (0xFFFF, 0xFF)

/-- Ports whose entry differs from the active map's. -/
def State.differs (s : State) (m : PortMap) : List Nat := (List.range 16).filter fun p => m.entry p != s.activeEntry p

/-- Whether a fabric id can name a device of this fabric (R347). -/
def State.idValid (s : State) (id : Nat) : Bool := id % 2 ^ 15 ≤ 8191 && (id < 2 ^ 15 || s.fabric.twinConfig)

/-- A port map record (Table 14.3); none where it is refused (R352). -/
def State.parseMap (s : State) (b : List Byte) : Option PortMap :=
  let peers := (List.range 16).map fun p => (leAt b (8 + 8 * p) 2, leAt b (10 + 8 * p) 1)
  let reserved := leAt b 0 8 != 0 || leAt b 0x88 56 != 0 || (List.range 16).any fun p => leAt b (0xB + 8 * p) 5 != 0
  let bad := peers.any fun e => e.1 != 0xFFFF && (!s.idValid e.1 || e.1 == s.fabricId || 15 < e.2)
  if reserved || bad then none
  else some ⟨peers, (List.range 16384).foldl (fun (m : TMap Nat) d => m.set 0 d (leAt b (0xC0 + 2 * d) 2)) []⟩

/-- A record that a command reads from memory: the command fails on a translation fault or on poison, else goes on. -/
def State.readRecord (s : State) (c : Command) (src va n : Nat) (f : List Byte → State → State) : State :=
  let slot := s.cmdSlot c.hdr
  match s.vread slot va n with
  | .error e => (s.vfault c.hdr slot src e).finish c stPageFault e.detail []
  | .ok (b, poison) =>
    let s := s.vtouch slot va n
    if poison then s.finish c stPoisoned (s.poisonUnit slot va n) [] else f b s

/-- The checks of PORT_MAP_SET (R332, R338, R352). -/
def State.portMapSetChecks (s : State) (c : Command) : List Check :=
  let m := c.u8 0
  let pending := s.fabric.jobs.any fun e => e.2.recut.any fun r => r.map == m
  [badIf (7 < m || s.fabric.activeMap == some m || pending) 0, badIf (c.u64 8 % 64 != 0) 8]

/-- PORT_MAP_SET (R332, R338, R352). -/
def execPortMapSet (c : Command) (s : State) : Result := s.live fun s =>
  let m := c.u8 0
  s.checked c (s.portMapSetChecks c) fun s =>
    s.readRecord c (uLink 0) (c.u64 8) 32960 fun b s =>
      match s.parseMap b with
      | none => s.badParam c 8
      | some x =>
        let n := (s.differs x).length
        ({ s with fabric := { s.fabric with maps := s.fabric.maps.insert m x } }).finish c stOk 0
          (le 2 n ++ le 2 0 ++ le 4 x.routes.length)

/-- The checks of FABRIC_ID_SET (R24, R347, R351). -/
def State.fabricIdSetChecks (s : State) (c : Command) : List Check :=
  let id := c.u16 0
  let twin := c.u8 2
  let layouts := s.fabric.jobs.any fun e => e.2.layout.isSome
  [badIf (8191 < id % 2 ^ 15 || (2 ^ 15 ≤ id && twin == 0) || (layouts && id != s.fabricId)) 0,
   badIf (1 < twin || (twin == 1 && !s.sched.allotmentMode)) 2]

/-- FABRIC_ID_SET (R24, R347, R351). -/
def execFabricIdSet (c : Command) (s : State) : Result := s.live fun s =>
  let id := c.u16 0
  let twin := c.u8 2
  s.checked c (s.fabricIdSetChecks c)
    fun s =>
      let old := s.fabricId
      let s := { s with
        timecode := { s.timecode with twin := id / 2 ^ 15, device := id % 2 ^ 15 }
        fabric := { s.fabric with twinConfig := twin == 1 } }
      s.tcReselect.finish c stOk 0 (le 2 old ++ le 6 0)

/-! ## Layouts (R334) -/

/-- A layout record (Table 14.4) of `epoch`; none where it breaks the table or does not name device `me`. -/
def parseLayout (b : List Byte) (epoch me : Nat) : Option Layout :=
  let n := leAt b 4 1
  let entries := leAt b 8 4
  let groups : List Group := (List.range n).map fun g => ⟨leAt b (0x10 + 8 * g) 4, leAt b (0x14 + 8 * g) 2, leAt b (0x16 + 8 * g) 2⟩
  let ids := (List.range entries).map fun i => leAt b (0x90 + 2 * i) 2
  let groupBad (g : Group) : Bool :=
    g.size == 0 || 16384 < g.size || g.parts == 0 || 16384 < g.parts || entries < g.first + g.size * g.parts
  let total := (groups.map fun g => g.size * g.parts).sum
  if leAt b 0 4 ≠ epoch || n = 0 || 16 < n || leAt b 5 3 ≠ 0 || leAt b 0xC 4 ≠ 0 || entries = 0 || 65536 < entries ||
      groups.any groupBad || total ≠ entries || !(ids.contains me) then none
  else
    let parts (g : Group) : List (List Nat) := (List.range g.parts).map fun q => (ids.drop (g.first + q * g.size)).take g.size
    let twice (g : Group) : Bool :=
      ids.eraseDups.any fun id => 1 < ((parts g).filter fun p => p.contains id).length
    if groups.any twice then none else some ⟨epoch, groups, ids⟩

/-- The layout record at an address is read and checked; `off` is the offset of its field. -/
def State.readLayout (s : State) (c : Command) (va epoch off : Nat) (f : Layout → State → State) : State :=
  s.readRecord c (uLink 0) va 0x90 fun h s =>
    if 65536 < leAt h 8 4 then s.badParam c off
    else s.readRecord c (uLink 0) va (0x90 + 2 * leAt h 8 4) fun b s =>
      match parseLayout b epoch s.fabricId with
      | none => s.badParam c off
      | some l => f l s

/-! ## Recuts (R336-R339) -/

/-- ACTIVE (R336): collectives and gathers not completed, and fabric clap generations with an arrival or a message. -/
def State.activeCount (s : State) (slot : Nat) : Nat :=
  (s.fabric.collectives.filter fun c => c.slot == slot).length +
    (s.streams.claps.filter fun e => e.1 / 64 == slot && e.2.fabric && !e.2.broken &&
      (e.2.arrived != 0 || !e.2.heard.isEmpty)).length

/-- The fabric state of a job with no recut. -/
def FabricJob.settled (f : FabricJob) : FState := if f.layout.isSome then .active else .none

/-- SPREAD_DONE (Table 16.9). -/
def State.spreadDone (s : State) (slot : Nat) (status : Nat) (release : Nat) : State :=
  match (s.rjob slot).spread with
  | none => s
  | some x =>
    let s := s.recordCmd x.cmd.hdr 0x5006 status
      (le 1 slot ++ le 1 x.failed.length ++ le 2 x.leaves ++ le 4 (s.fjob slot).epoch ++ le 4 x.resumeStep ++ le 4 x.abandoned ++
        le 8 release ++ le 8 0)
    let r := s.rjob slot
    s.setRjob slot { r with spread := none, phase := if r.phase = .spreading then .running else r.phase }

/-- A recut ends: RECUT_DONE, SPREAD_DONE where `spread_apply` ran it, then DEFERRED_DONE (R336, R338, R402). -/
def State.endRecut (s : State) (slot status detail : Nat) : State :=
  let f := s.fjob slot
  match f.recut with
  | none => s
  | some r =>
    let s := s.setFjob slot { f with recut := none, fstate := f.settled }
    let released := r.releasedAt.getD 0
    let down := (r.changed.filter fun p => (s.port p).phase == .down).length
    let since (a b : Option Nat) : Nat := match a, b with
      | some a, some b => b - a
      | _, _ => 0
    let s := s.recordCmd r.cmd 0x4004 status
      (le 1 slot ++ le 1 (b2n r.abandon) ++ le 1 (if r.releasedAt.isSome then r.changed.length else 0) ++ le 1 down ++
        le 4 r.epoch ++ le 4 (since (some r.acceptedAt) r.clapAt) ++ le 4 (since r.clapAt r.releasedAt) ++
        le 4 (since r.darkAt (some s.now)) ++ le 4 r.cancelled ++ le 8 released)
    let s := if r.bySpread then s.spreadDone slot status released else s
    s.deferredDone r.cmd status detail

/-- A released recut ends once every changed port is UP (R336). -/
def State.tryEndRecut (s : State) (slot : Nat) : State :=
  match (s.fjob slot).recut with
  | some r => if r.releasedAt.isSome && r.changed.all fun p => (s.port p).phase == .up then s.endRecut slot stOk 0 else s
  | none => s

/-- The pools of a job close and reopen on every core that they are open on, under the new epoch (R184). -/
def State.reopenPools (s : State) (slot : Nat) : State :=
  (s.jobCores slot).foldl (fun s c => match s.physOf c with
    | none => s
    | some p => (s.jobPools slot).foldl (fun s x =>
        let h := (s.turnout p x.2.turnout).openCmd
        (s.closePoolOn p c x.2).openPoolOn p slot x.2 true h) s) s

/-- A port map becomes active (R336, R339): MISWIRED ports are checked again. -/
def State.activateMap (s : State) (m : Nat) : State :=
  let s := { s with fabric := { s.fabric with activeMap := some m } }
  let s := s.csApply s.xanca.ready s.xanca.failed
  ((List.range 16).filter fun p => (s.port p).phase == .miswired).foldl (fun s p => s.checkPeer p) s

/-- A packet of the job's epoch that was held, or has just come (R335). -/
def State.takePacket (s : State) (slot : Nat) (f : Frame) : State :=
  if f.packet.type = 3 then s.clapIn slot f.packet else s.dataIn slot (uLink f.port) f.packet

/-- The boundary clap is released (R336 step 4): the new epoch and layout, pools reopened, changed ports recutting, held packets
accepted; a spread's job is RECOVERING (R402). -/
def State.releaseRecut (s : State) (slot : Nat) : State :=
  let f := s.fjob slot
  match f.recut with
  | none => s
  | some r =>
    let changed := if r.map = 0xFF || s.fabric.activeMap = some r.map then [] else s.differs (s.mapSlot r.map)
    let held := f.heldPackets
    let s := s.setFjob slot { f with
      epoch := r.epoch, layout := some r.layout, recutTc := s.now, fstate := .switching, heldPackets := []
      early := f.early.filter fun k => k.opId != 0xFFFF
      earlyData := f.earlyData.filter fun k => r.epoch ≤ k.epoch
      recut := some { r with releasedAt := some s.now, changed := changed } }
    let s := s.reopenPools slot
    let s := (changed.filter fun p => (s.port p).phase == .up).foldl (fun s p => s.portPhase p .recutting) s
    let s := if r.map = 0xFF then s else s.activateMap r.map
    let s := held.foldl (fun s h => s.takePacket slot h) s
    let s := if r.bySpread then s.setRjob slot { s.rjob slot with phase := .recovering } else s
    s.tryEndRecut slot

/-- The rounds of the boundary clap over the new layout's members, as far as they go (R346). -/
def State.boundaryRounds : Nat → State → Nat → State
  | 0, s, _ => s
  | fuel + 1, s, slot =>
    match (s.fjob slot).recut with
    | none => s
    | some r =>
      let ms := r.layout.members
      let d := ms.length
      let me := rankIn ms s.fabricId
      if r.sent ≠ 0 && !(r.heard.contains (memberAt ms ((me + d - 2 ^ (r.sent - 1) % d) % d))) then s
      else if clog2 d ≤ r.sent then s.releaseRecut slot
      else
        let s := s.setFjob slot { s.fjob slot with recut := some { r with sent := r.sent + 1 } }
        let s := s.originate slot 3 (b2n (s.queue r.cmd.qkey).headgate) (memberAt ms ((me + 2 ^ r.sent) % d)) 0xFF 0 0xFFFF 0 0
          r.epoch []
        State.boundaryRounds fuel s slot

/-- The device arrives at the boundary clap (R336 step 3). -/
def State.arriveBoundary (s : State) (slot : Nat) : State :=
  let f := s.fjob slot
  match f.recut with
  | none => s
  | some r =>
    let early := (f.early.filter fun k => k.opId == 0xFFFF && k.epoch == r.epoch).map (·.src)
    let s := s.setFjob slot { f with
      fstate := .clapping, early := f.early.filter fun k => k.opId != 0xFFFF
      recut := some { r with clapAt := some s.now, heard := early } }
    State.boundaryRounds 18 s slot

/-- A boundary packet of the next epoch (R335, R346). -/
def State.boundaryIn (s : State) (slot : Nat) (k : Packet) : State :=
  let f := s.fjob slot
  match f.recut with
  | some r =>
    if r.clapAt.isSome && r.epoch = k.epoch then
      if r.releasedAt.isSome then s
      else State.boundaryRounds 18 (s.setFjob slot { f with recut := some { r with heard := k.src :: r.heard } }) slot
    else s.keepEarly slot k
  | none => s.keepEarly slot k

/-- CLAP_PACKET (R335, R346). -/
def execClapPacket (f : Frame) (s : State) : Result := s.live fun s =>
  s.frameIn f 3 fun s slot =>
    s.epochIn slot f (fun s => s.boundaryIn slot f.packet) fun s => s.clapIn slot f.packet

/-- The work of the current epoch is abandoned (R337): collectives end with ST_CANCELLED, fabric claps break. The number of
operations cancelled comes back with it. -/
def State.abandonEpoch (s : State) (slot : Nat) : State × Nat :=
  let cs := s.fabric.collectives.filter fun c => c.slot == slot
  let s := cs.foldl (fun s c => s.endCollective c stCancelled 0) s
  let ks := (s.streams.claps.filter fun e => e.1 / 64 == slot && e.2.fabric).map fun e => e.1 % 64
  (ks.foldl (fun s n => s.breakClap slot n) s, cs.length)

/-- A recut is accepted: the job is DRAINING, or, in ABANDON mode, goes on to the boundary clap (R336, R337), once an abort of the
step that comes before it is complete (R402). -/
def State.acceptRecut (s : State) (slot : Nat) (r : Recut) : State :=
  let f := s.fjob slot
  let s := s.setFjob slot { f with recut := some r, latestRecut := some r.cmd, fstate := .draining }
  if r.abandon then
    let (s, n) := s.abandonEpoch slot
    let f := s.fjob slot
    let s := s.setFjob slot { f with recut := some { r with cancelled := n } }
    if (s.reelJob slot).aborting.isSome then s else s.arriveBoundary slot
  else s

/-- The limit of a recut, ms. -/
def State.recutLimit (s : State) (c : Command) (off : Nat) : Nat := if c.expert then c.u32 off else s.fld (uLink 0) 0xF10 31 0

/-- The checks of `recut` (R336, R338, R353). -/
def State.recutChecks (s : State) (c : Command) (mode : Nat) : List Check :=
  let f := s.fjob (s.cmdSlot c.hdr)
  let limit := s.recutLimit c 0x18
  let m := c.u8 4
  [failIf f.recut.isSome stEpochBusy 2, badIf (c.u32 0 != f.epoch + 1) 0,
   badIf (m != 0xFF && (7 < m || !(s.fabric.maps.any fun e => e.1 == m))) 4, badIf (1 < mode) 5,
   badIf (c.expert && (limit = 0 || 600000 < limit)) 0x18]

/-- `recut` (R336, R338, R353). -/
def State.recut (s : State) (c : Command) (mode : Nat) : State :=
  let slot := s.cmdSlot c.hdr
  let f := s.fjob slot
  let limit := s.recutLimit c 0x18
  let m := c.u8 4
  s.checked c (s.recutChecks c mode)
    fun s => s.readLayout c (c.u64 8) (f.epoch + 1) 8 fun l s =>
      let s := s.defer c 0x0401 (le 4 f.epoch ++ le 4 (s.activeCount slot) ++ le 8 s.now)
      s.acceptRecut slot
        { cmd := c.hdr, epoch := f.epoch + 1, map := m, abandon := mode == 1, layout := l, switchTc := c.u64 0x10
          limitAt := s.now + limit * msec, acceptedAt := s.now, clapAt := none, releasedAt := none, darkAt := none
          cancelled := 0, changed := [], dark := [], heard := [], sent := 0, bySpread := false }

/-- RECUT_DRAIN (R336): `recut` with MODE 0, or with a MODE that R353 refuses. -/
def execRecutDrain (c : Command) (s : State) : Result := s.live fun s => s.recut c (c.u8 5)

/-- RECUT_ABANDON (R337). -/
def execRecutAbandon (c : Command) (s : State) : Result := s.live fun s => s.recut c (c.u8 5)

/-- RECUT_DRAINED (R336). -/
def execRecutDrained (slot : Nat) (s : State) : Result := s.live fun s =>
  s.onlyIf ((s.fjob slot).fstate == .draining && (s.fjob slot).recut.isSome && s.activeCount slot == 0 &&
      (s.reelJob slot).aborting.isNone) fun s =>
    s.arriveBoundary slot

/-- The job whose released recut a port belongs to. -/
def State.recutOf (s : State) (p : Nat) : Option (Nat × Recut) :=
  (List.range 64).findSome? fun j => match (s.fjob j).recut with
    | some r => if r.releasedAt.isSome && r.changed.contains p then some (j, r) else none
    | none => none

/-- PORT_DARK (R339): at the later of release and SWITCH_TC, with its replay buffer acknowledged, a changed port sends a last LCF
and goes dark. -/
def execPortDark (port : Nat) (s : State) : Result := s.live fun s =>
  match s.recutOf port with
  | none => s
  | some (j, r) =>
    let x := s.port port
    s.onlyIf (x.phase == .recutting && !r.dark.contains port && r.switchTc ≤ s.now && x.unacked.isEmpty) fun s =>
      let s := s.sendLcf port
      let s := s.setPort port { s.port port with light := false, peer := 0xFFFF, peerPort := 0xFF, credit := 0 }
      let at_ := r.darkAt.orElse fun _ => some s.now
      s.setFjob j { s.fjob j with recut := some { r with dark := port :: r.dark, darkAt := at_ } }

/-- PORT_RELOCK (R336, R339): a dark port verifies its new peer. -/
def execPortRelock (port peer peerPort width : Nat) (s : State) : Result := s.live fun s =>
  match s.recutOf port with
  | none => s
  | some (j, r) =>
    let x := s.port port
    s.onlyIf (x.phase == .recutting && r.dark.contains port && (peer, peerPort) == s.activeEntry port) fun s =>
      let s := s.setPort port { x with light := true, peer := peer, peerPort := peerPort, width := min x.working width }
      (s.portUpNow port).tryEndRecut j

/-- RECUT_LIMIT (R336, R338). -/
def execRecutLimit (slot : Nat) (s : State) : Result := s.live fun s =>
  match (s.fjob slot).recut with
  | none => s
  | some r =>
    s.onlyIf (r.limitAt ≤ s.now) fun s =>
      if r.releasedAt.isSome then
        let s := (r.changed.filter fun p => (s.port p).phase == .recutting).foldl (fun s p => s.portLost p .down) s
        s.endRecut slot stOk 0
      else s.endRecut slot stEpochBusy 3

/-! ## Registers of the links (Table 14.6) -/

/-- LINK_PORT_LANES: the engine lane of each port lane. -/
def State.physLanes (s : State) (p : Nat) : List Nat :=
  let x := s.port p
  if x.lanes.isEmpty then (List.range 4).map (p % 4 * 4 + ·) else x.lanes

/-- The registers of a port from 0x010 to 0x050, as they read. -/
def State.linkReg (s : State) (p off : Nat) : Nat :=
  let x := s.port p
  if off = 0x010 then x.phase.code * 2 ^ 60 + x.width * 2 ^ 56 + x.peer * 2 ^ 32 + x.peerPort * 2 ^ 24 +
    (s.activeEntry p).2 * 2 ^ 16 + (s.activeEntry p).1
  else if off = 0x018 then ((s.physLanes p).zipIdx.map fun e => e.1 * 256 ^ e.2).sum
  else if off = 0x050 then x.tc
  else s.reg (uLink p) off

/-- The checks of LINK_STATUS (R356). -/
def State.linkStatusChecks (_s : State) (c : Command) : List Check :=
  let p := c.u8 0
  [badIf (15 < p && p != 0xFF) 0]

/-- LINK_STATUS (R356). -/
def execLinkStatus (c : Command) (s : State) : Result := s.live fun s =>
  let p := c.u8 0
  s.checked c (s.linkStatusChecks c) fun s =>
    let ports := if p = 0xFF then List.range 16 else [p]
    s.finish c stOk 0 (ports.flatMap fun p => (List.range 9).flatMap fun i => le 8 (s.linkReg p (0x010 + 8 * i)))

end Sys2Proof.Machine
end

