-- ==== Sys2Proof/Machine/Flume.lean ====
section
/-! DEFINITION. The Flume engines: channels, descriptors, events, timers and their commands (spec/13). -/

namespace Sys2Proof.Machine

/-! ## Channels and event sources (R302, R311, R312) -/

/-- The event id of a channel. -/
abbrev flumeKey (e n : Nat) : Nat := e * 16 + n

def State.channel (s : State) (k : Nat) : FlumeChannel := s.flume.channels.get {} k

def State.setChannel (s : State) (k : Nat) (x : FlumeChannel) : State :=
  { s with flume := { s.flume with channels := s.flume.channels.insert k x } }

def State.timer (s : State) (t : Nat) : FlumeTimer := s.flume.timers.get {} t

def State.setTimer (s : State) (t : Nat) (x : FlumeTimer) : State :=
  { s with flume := { s.flume with timers := s.flume.timers.insert t x } }

/-- The user of an engine: CAP0 [1:0] (R302). -/
def State.flumeUse (s : State) (e : Nat) : Nat := s.flume.uses.get (if e < 10 then 0 else if e < 12 then 1 else 2) e

/-- The owner and the counter of an event source. -/
def State.eventSource (s : State) (id : Nat) : Option Nat × Nat :=
  if id < 256 then ((s.channel id).owner, (s.channel id).counter)
  else if id < 0x110 then ((s.timer (id - 256)).owner, (s.timer (id - 256)).counter)
  else (none, 0)

/-- Whether a wait is over (R312). -/
def waitMet (counter value : Nat) : Bool := (counter + 2 ^ 32 - value) % 2 ^ 32 < 2 ^ 31

/-! ## Descriptors (Table 13.1) -/

/-- A descriptor. -/
structure Descriptor where
  op : Nat
  flags : Nat
  shape : Nat
  reserved3 : Nat
  waitEvent : Nat
  reserved6 : Nat
  waitValue : Nat
  rows : Nat
  src : Nat
  dst : Nat
  rowBytes : Nat
  srcPitch : Nat
  dstPitch : Nat
  status : Nat
  deriving DecidableEq, Repr, Inhabited

def parseDescriptor (b : List Byte) : Descriptor :=
  ⟨leAt b 0 1, leAt b 1 1, leAt b 2 1, leAt b 3 1, leAt b 4 2, leAt b 6 2, leAt b 8 4, leAt b 0xC 4, leAt b 0x10 8, leAt b 0x18 8,
    leAt b 0x20 4, leAt b 0x24 4, leAt b 0x28 4, leAt b 0x38 8⟩

/-- Bytes from the first to past the last of a strided range. -/
def strided (rows bytes pitch : Nat) : Nat := (rows - 1) * pitch + bytes

/-- Width code, element bits and SHIFT of a SKEW (R308). -/
def Descriptor.skewWidth (d : Descriptor) : Nat := match d.shape % 4 with | 0 => 128 | 1 => 256 | 2 => 96 | _ => 64
def Descriptor.skewShift (d : Descriptor) : Nat := match d.shape % 4 with | 0 => 1 | 1 => 0 | _ => 2
def Descriptor.skewMx (d : Descriptor) : Bool := bitAt d.shape 2

/-- Packed rows of a SKEW, and the lines that they take. -/
def Descriptor.skewRows (d : Descriptor) : Nat := d.rows + 7 * d.skewShift
def Descriptor.skewLines (d : Descriptor) : Nat := ceilDiv (d.skewRows * d.skewWidth) 128

/-- Lines of the source tile of a SKEW; its scale lines follow. -/
def Descriptor.tileBytes (d : Descriptor) : Nat := strided d.rows d.rowBytes d.srcPitch

/-- The field checks of an OP, as (bad, offset), in the order of the fields (R307-R309). -/
def Descriptor.opChecks (d : Descriptor) : List (Bool × Nat) :=
  let overlap (n m : Nat) : Bool := d.src < d.dst + m && d.dst < d.src + n
  let far (a : Nat) : Bool := a % 128 != 0 || decide (farPlace a = .bad)
  let pitch (p n : Nat) : Bool := if d.rows = 1 then p != 0 else p % 128 != 0 || p < n
  if d.op = 0 || d.op = 1 then
    let size := d.rowBytes < 128 || d.rowBytes % 128 != 0 || 2 ^ 26 < d.rowBytes || 2 ^ 36 < d.rows * d.rowBytes
    [(d.shape != 0, 2), (d.rows = 0 || 65536 < d.rows, 0xC), (d.op == 0 && far d.src, 0x10),
     (far d.dst || d.op == 0 && overlap (strided d.rows d.rowBytes d.srcPitch) (strided d.rows d.rowBytes d.dstPitch), 0x18),
     (size, 0x20), (if d.op = 1 then d.srcPitch != 0 else pitch d.srcPitch d.rowBytes, 0x24), (pitch d.dstPitch d.rowBytes, 0x28)]
  else if d.op = 2 then
    [(7 < d.shape, 2),
     (d.rows = 0 || 128 < d.rows || (d.skewMx && d.rows % 32 != 0), 0xC), (decide (farPlace d.src = .bad), 0x10), (far d.dst, 0x18),
     (d.rowBytes != d.skewWidth, 0x20), (d.srcPitch % 32 != 0 || d.srcPitch < d.skewWidth, 0x24), (d.dstPitch != 0, 0x28)]
  else if d.op = 3 then
    let e := d.shape
    let cols := d.rowBytes / (max 1 e)
    [(!(e == 1 || e == 2 || e == 4), 2), (d.rows = 0 || 65536 < d.rows || d.rows * e % 128 != 0, 0xC), (far d.src, 0x10),
     (far d.dst || overlap (strided d.rows d.rowBytes d.srcPitch) (strided cols (d.rows * e) d.dstPitch), 0x18),
     (cols = 0 || 65536 < cols || d.rowBytes % 128 != 0 || 2 ^ 30 < d.rows * d.rowBytes, 0x20),
     (d.srcPitch % 128 != 0 || d.srcPitch < d.rowBytes, 0x24), (d.dstPitch % 128 != 0 || d.dstPitch < d.rows * e, 0x28)]
  else
    [(d.shape != 0, 2), (d.rows != 0, 0xC), (if d.op = 5 then d.src % 64 != 0 else d.src != 0, 0x10), (d.dst != 0, 0x18),
     (d.rowBytes != 0, 0x20), (d.srcPitch != 0, 0x24), (d.dstPitch != 0, 0x28)]

/-- The first invalid field of a descriptor of a job, by its offset (R307, R311). -/
def State.descriptorBad (s : State) (slot : Nat) (d : Descriptor) : Option Nat :=
  let waitBad := d.waitEvent != 0xFFFF && (s.eventSource d.waitEvent).1 != some slot
  let all : List (Bool × Nat) := [(decide (6 < d.op), 0), (decide (3 < d.flags), 1), (d.reserved3 != 0, 3), (waitBad, 4),
    (d.reserved6 != 0, 6), (d.waitEvent == 0xFFFF && d.waitValue != 0, 8)]
  let l := all ++ (if 6 < d.op then [] else d.opChecks)
  (l.filter (·.1)).foldl (fun (m : Option Nat) x => match m with
    | some a => some (min a x.2)
    | none => some x.2) none

/-- A window that SRC or DST names and that the chain cannot use: BAD with ST_BAD_PARAM and the field's offset (R310), or with
ST_RETIRED where its core is absent (R423). -/
def State.descriptorWindow (s : State) (slot : Nat) (d : Descriptor) : Option (Nat × Nat) :=
  let check (a off : Nat) : Option (Nat × Nat) :=
    (s.windowBad slot a).map fun f => (f.status, if f.status = stBadParam then off else f.detail)
  if 3 < d.op then none
  else (if d.op = 1 then none else check d.src 0x10).orElse fun _ => check d.dst 0x18

/-- Whether a far address is a window of a core. -/
def isWindow (a : Nat) : Bool := match farPlace a with
  | .window _ _ => true
  | _ => false

/-! ## Chains: reading, starting, ending (R305, R306, R316, R319, R320) -/

/-- A chain ends: FLUME_CHAIN_END, then DEFERRED_DONE, and the reply of the stop that ended it. -/
def State.endChain (s : State) (k how next status detail discarded : Nat) : State :=
  let x := s.channel k
  let s := s.setChannel k { x with
    phase := .idle, cmd := none, stopping := 0, stop := none, ahead := none, held := [], discarding := false, result := {} }
  let s := match x.cmd with
    | none => s
    | some c =>
      let s := s.recordCmd c.hdr 0x8003 status
        (le 1 (k / 16) ++ le 1 (k % 16) ++ le 1 how ++ le 1 0 ++ le 4 x.ran ++ le 4 x.ranBad ++ le 4 0 ++ le 8 next ++ le 8 s.now)
      s.deferredDone c.hdr status detail
  match x.stop with
  | some t => s.finish t.cmd stOk 0 (le 8 next ++ le 4 (s.now - t.since) ++ le 4 discarded ++ le 8 s.now)
  | none => s

/-- The status with which a stop ends a chain. -/
def FlumeChannel.stopStatus (x : FlumeChannel) (k : Nat) : Nat × Nat :=
  if x.stopping = 6 then (stRetired, uFlume (k / 16)) else (stCancelled, 0)

/-- A descriptor with OWN set has been read: it is checked, waits for its event, or starts; when it starts, the one that follows it
is read (R306, R307, R312). -/
def State.takeDescriptor (s : State) (k : Nat) (b : List Byte) : State :=
  let x := s.channel k
  let slot := x.owner.getD 0
  let d := parseDescriptor b
  let x := { x with held := b, placement := (s.job slot).placement, epoch := s.fjob slot |>.epoch, result := {} }
  let bad (status detail : Nat) : State :=
    s.setChannel k { x with phase := .draining, result := { bad := true, status := status, detail := detail } }
  match s.descriptorBad slot d with
  | some off => bad stBadParam off
  | none => match s.descriptorWindow slot d with
    | some (status, detail) => bad status detail
    | none =>
      if d.waitEvent ≠ 0xFFFF && !waitMet (s.eventSource d.waitEvent).2 d.waitValue then
        s.setChannel k { x with phase := .waitEvent }
      else if s.closing slot && isWindow d.dst then s.setChannel k { x with phase := .reading, ahead := some b }
      else
        let ahead := if 4 < d.op then none else match s.vread slot (x.desc + 64) 64 with
          | .ok (n, poison) => if !poison && bitAt (leAt n 0x38 8) 63 then some n else none
          | .error _ => none
        let s := if 4 < d.op then s else s.vtouch slot (x.desc + 64) 64
        s.setChannel k { x with phase := .moving, ahead := ahead }

/-- A channel reads its descriptor (R306, R316). -/
def State.readDescriptor (s : State) (k : Nat) : State :=
  let x := s.channel k
  let slot := x.owner.getD 0
  match x.ahead with
  | some b => (s.setChannel k { x with ahead := none }).takeDescriptor k b
  | none => match s.vread slot x.desc 64 with
    | .error f =>
      let s := match x.cmd with
        | some c => s.vfault c.hdr slot (uFlume (k / 16)) f
        | none => s
      s.endChain k 3 x.desc stPageFault f.detail 0
    | .ok (b, poison) =>
      let s := s.vtouch slot x.desc 64
      if poison then s.endChain k 3 x.desc stPoisoned (s.poisonUnit slot x.desc 64) 0
      else if bitAt (leAt b 0x38 8) 63 then s.takeDescriptor k b
      else s.setChannel k { x with phase := .waitOwn, polledAt := s.now }

/-- DESCRIPTOR_READ (R306, R316). -/
def execDescriptorRead (engine channel : Nat) (s : State) : Result := s.live fun s =>
  let k := flumeKey engine channel
  s.onlyIf (channel < 16 && (s.channel k).phase == .reading) fun s => s.readDescriptor k

/-- OWN_POLL (R306). -/
def execOwnPoll (engine channel : Nat) (s : State) : Result := s.live fun s =>
  let k := flumeKey engine channel
  let x := s.channel k
  s.onlyIf (channel < 16 && x.phase == .waitOwn && x.polledAt + s.fld (uFlume engine) 0x040 63 48 ≤ s.now) fun s =>
    s.readDescriptor k

/-- EVENT_WAIT_RELEASE (R312). -/
def execEventWaitRelease (engine channel : Nat) (s : State) : Result := s.live fun s =>
  let k := flumeKey engine channel
  let x := s.channel k
  let d := parseDescriptor x.held
  s.onlyIf (channel < 16 && x.phase == .waitEvent && waitMet (s.eventSource d.waitEvent).2 d.waitValue) fun s =>
    s.takeDescriptor k x.held

/-- An event counter advances (R311). -/
def State.flumeSignal (s : State) (k : Nat) : State :=
  let x := s.channel k
  s.setChannel k { x with counter := (x.counter + 1) % 2 ^ 32 }

/-- The STATUS quadword (Table 13.3). -/
def FlumeDone.quad (r : FlumeDone) : Nat :=
  b2n r.bad * 2 ^ 62 + b2n r.poison * 2 ^ 61 + 2 ^ 60 + r.status % 65536 * 2 ^ 32 + r.detail % 65536 * 2 ^ 16

/-- A descriptor is written back (R306): LINES_DONE and DONE_TC, then STATUS; then the event and the record; then the chain goes on
or ends (R315, R319, R320). -/
def State.flumeWriteBack (s : State) (k discarded : Nat) : State :=
  let x := s.channel k
  let slot := x.owner.getD 0
  let d := parseDescriptor x.held
  let r := x.result
  match x.cmd with
  | none => s
  | some c =>
    let put (s : State) (off : Nat) (b : List Byte) : State :=
      let w := s.vwrite slot (x.desc + off) b false
      match w.2.2 with
      | some f => w.1.vfault c.hdr slot (uFlume (k / 16)) f
      | none => w.1
    let s := put s 0x2C (le 4 r.lines ++ le 8 s.now)
    let s := put s 0x38 (le 8 r.quad)
    let u := uFlume (k / 16)
    let s := s.bump u 0x018 63 32 1
    let s := if r.bad then s.bump u 0x018 31 16 1 else s
    let s := if r.poison then s.bump u 0x018 15 0 1 else s
    let y := s.channel k
    let s := s.setChannel k { y with
      doneCount := satAdd 32 y.doneCount 1, badCount := satAdd 32 y.badCount (b2n r.bad)
      ran := y.ran + 1, ranBad := y.ranBad + b2n r.bad }
    let s := if bitAt d.flags 0 then s.flumeSignal k else s
    let s := if bitAt d.flags 1 && !r.bad then s.recordCmd c.hdr 0x8001 r.status
        (le 1 (k / 16) ++ le 1 (k % 16) ++ le 2 0 ++ le 4 (s.channel k).counter ++ le 8 x.desc ++ le 8 s.now) else s
    let s := if r.bad then
        let (st, s) := s.stamp u
        s.recordCmd c.hdr 0x8002 r.status
          (le 1 (k / 16) ++ le 1 (k % 16) ++ le 2 r.detail ++ le 4 r.lines ++ le 8 x.desc ++ le 8 r.faultVa ++ st.bytes)
      else s
    let next := if d.op = 5 && !r.bad then d.src % 2 ^ 57 else x.desc + 64
    let (st, dt) := x.stopStatus k
    if d.op = 6 && !r.bad then s.endChain k 0 next stOk 0 0
    else if x.stopping ≠ 0 then s.endChain k x.stopping next st dt discarded
    else if r.bad && x.stopOnBad then s.endChain k 5 next stCancelled 0 0
    else
      let y := s.channel k
      s.setChannel k { y with phase := .reading, desc := next, held := [], result := {} }

/-- DESCRIPTOR_WRITE_BACK (R306, R315). -/
def execDescriptorWriteBack (engine channel : Nat) (s : State) : Result := s.live fun s =>
  let k := flumeKey engine channel
  let x := s.channel k
  s.onlyIf (channel < 16 && x.phase == .draining && !x.discarding) fun s => s.flumeWriteBack k 0

/-! ## Moving data (R307-R310, R314) -/

/-- One destination line: its far address, and what makes it up: pieces of the source by address, or constant bytes. -/
structure FlumeLine where
  dst : Nat
  parts : List (Option Nat × List Byte)
  deriving DecidableEq, Repr, Inhabited

/-- A piece of `n` bytes of the source. -/
def srcPart (a n : Nat) : Option Nat × List Byte := (some a, List.replicate n 0)

/-- COPY: row by row. -/
def Descriptor.copyLines (d : Descriptor) : List FlumeLine :=
  (List.range d.rows).flatMap fun r => (List.range (d.rowBytes / 128)).map fun i =>
    ⟨d.dst + r * d.dstPitch + 128 * i, [srcPart (d.src + r * d.srcPitch + 128 * i) 128]⟩

/-- FILL: the 64-bit pattern. -/
def Descriptor.fillLines (d : Descriptor) : List FlumeLine :=
  let line := (List.range 16).flatMap fun _ => le 8 d.src
  (List.range d.rows).flatMap fun r => (List.range (d.rowBytes / 128)).map fun i =>
    ⟨d.dst + r * d.dstPitch + 128 * i, [(none, line)]⟩

/-- Byte `b` of packed row `c` of a SKEW: the source address, or nothing where the row has none (`skew` of R308). -/
def Descriptor.skewByte (d : Descriptor) (c b : Nat) : Option Nat :=
  let g := b / (d.skewWidth / 8)
  let before := g * d.skewShift
  if before ≤ c && c - before < d.rows then some (d.src + (c - before) * d.srcPitch + b) else none

/-- SKEW: the packed rows, padded to whole lines; with MX, the 4 scale lines that follow the tile. -/
def Descriptor.skewAll (d : Descriptor) : List FlumeLine :=
  let w := d.skewWidth
  let rows := (List.range d.skewLines).map fun l =>
    (⟨d.dst + 128 * l, (List.range 128).map fun i =>
      let b := 128 * l + i
      match (if b < d.skewRows * w then d.skewByte (b / w) (b % w) else none) with
      | some a => srcPart a 1
      | none => (none, [0#8])⟩ : FlumeLine)
  let scales := if d.skewMx then
      (List.range 4).map fun i =>
        (⟨d.dst + 128 * (d.skewLines + i), [srcPart (d.src + d.tileBytes + 128 * i) 128]⟩ : FlumeLine)
    else []
  rows ++ scales

/-- TRANSPOSE: element (i, j) of the source becomes element (j, i). -/
def Descriptor.transposeLines (d : Descriptor) : List FlumeLine :=
  let e := d.shape
  (List.range (d.rowBytes / e)).flatMap fun j => (List.range (d.rows * e / 128)).map fun l =>
    ⟨d.dst + j * d.dstPitch + 128 * l,
      (List.range (128 / e)).map fun i => srcPart (d.src + (128 / e * l + i) * d.srcPitch + j * e) e⟩

/-- The lines of a moving descriptor, in destination order. -/
def Descriptor.lines (d : Descriptor) : List FlumeLine :=
  if d.op = 0 then d.copyLines else if d.op = 1 then d.fillLines else if d.op = 2 then d.skewAll else d.transposeLines

/-- The data of a line with its poison by granule of 64 bytes, and the first unit that holds poison; or why it cannot be read. -/
def State.lineData (s : State) (slot : Nat) (l : FlumeLine) : Except FarFail (List Byte × List Bool × Option Nat) :=
  l.parts.foldlM (fun (acc : List Byte × List Bool × Option Nat) q =>
    match q.1 with
    | none => .ok (acc.1 ++ q.2, acc.2.1 ++ q.2.map (fun _ => false), acc.2.2)
    | some a =>
      let halves := if q.2.length = 128 then [(a, 64), (a + 64, 64)] else [(a, q.2.length)]
      halves.foldlM (fun (acc : List Byte × List Bool × Option Nat) h =>
        match s.farRead slot h.1 h.2 true with
        | .error f => .error f
        | .ok (b, poison) => .ok (acc.1 ++ b, acc.2.1 ++ b.map (fun _ => poison),
            if poison then acc.2.2.orElse (fun _ => some (s.farUnit slot h.1)) else acc.2.2)) acc) ([], [], none)

/-- Reads of a line are counted and find what they find. -/
def State.touchLine (s : State) (slot : Nat) (l : FlumeLine) : State :=
  l.parts.foldl (fun s q => match q.1 with
    | some a => s.farTouch slot a q.2.length
    | none => s) s

/-- The controller of a virtual destination whose memory is gone (R251). -/
def State.deadAt (s : State) (slot a : Nat) : Option Nat :=
  match farPlace a with
  | .virtual va => match s.translate slot va true with
    | .ok pa => if (s.writeSides pa).any s.dead then controllerOf pa else none
    | .error _ => none
  | _ => none

/-- A line is written; the write of a dead controller is dropped and fails the descriptor. -/
def State.writeLine (s : State) (slot : Nat) (x : FlumeChannel) (l : FlumeLine) (data : List Byte) (poison : List Bool) :
    State × Option FarFail :=
  let gone := s.deadAt slot l.dst
  let any := poison.any id
  let half (i : Nat) : Bool := ((poison.drop (64 * i)).take 64).any id
  let (s, f) := match farPlace l.dst with
    | .window _ _ =>
      let (s, _, f) := s.farWrite slot l.dst data any x.placement x.epoch true
      (s, f)
    | _ =>
      let (s, _, f) := s.farWrite slot l.dst (data.take 64) (half 0) x.placement x.epoch true
      match f with
      | some f => (s, some f)
      | none =>
        let (s, _, f) := s.farWrite slot (l.dst + 64) (data.drop 64) (half 1) x.placement x.epoch true
        (s, f)
  match f, gone with
  | some f, _ => (s, some f)
  | none, some u => (s, some ⟨stRetired, u, none⟩)
  | none, none => (s, none)

/-- The progress of a descriptor: the lines of its prefix, its failure, and the first unit with poison. -/
structure FlumeRun where
  lines : Nat := 0
  fail : Option FarFail := none
  va : Nat := 0
  unit : Option Nat := none
  deriving DecidableEq, Repr, Inhabited

/-- One line. After a failure other than of a window, a later line may or may not be written: `after` decides (R314). -/
def State.moveLine (s : State) (slot : Nat) (x : FlumeChannel) (l : FlumeLine) (after : Bool) (r : FlumeRun) : State × FlumeRun :=
  let stopped := r.fail.any fun f => f.status == stWindowClosed
  if r.fail.isSome && (stopped || !after) then (s, r)
  else match s.lineData slot l with
    | .error f => (s, { r with fail := r.fail.orElse fun _ => some f, va := if r.fail.isSome then r.va else (match f.fault with
        | some v => v.va
        | none => 0) })
    | .ok (data, poison, unit) =>
      let s := s.touchLine slot l
      let (s, f) := s.writeLine slot x l data poison
      match f with
      | some f => (s, { r with fail := r.fail.orElse fun _ => some f, va := if r.fail.isSome then r.va else l.dst })
      | none => (s, if r.fail.isSome then r else { r with lines := r.lines + 1, unit := r.unit.orElse fun _ => unit })

/-- A descriptor moves its data (R307-R310, R314); its write-back is due. -/
def State.moveData (s : State) (k op : Nat) : State :=
  let x := s.channel k
  let d := parseDescriptor x.held
  if x.phase ≠ .moving || x.discarding || d.op ≠ op then s
  else
    let slot := x.owner.getD 0
    let (v, s) := s.draw
    let (s, r) := d.lines.zipIdx.foldl (fun (acc : State × FlumeRun) e =>
      acc.1.moveLine slot x e.1 (bitAt v e.2) acc.2) (s, {})
    let s := s.bump (uFlume (k / 16)) 0x020 63 0 (128 * r.lines)
    let done : FlumeDone := match r.fail with
      | some f => { bad := true, poison := r.unit.isSome, status := f.status, detail := f.detail, lines := r.lines, faultVa := r.va }
      | none => { poison := r.unit.isSome, status := if r.unit.isSome then stPoisoned else stOk, detail := r.unit.getD 0
                  lines := r.lines }
    let s := match r.fail, x.cmd with
      | some f, some c => s.farFault c.hdr slot (uFlume (k / 16)) f
      | _, _ => s
    s.setChannel k { s.channel k with phase := .draining, result := done }

/-- COPY. -/
def execCopyDescriptor (engine channel : Nat) (s : State) : Result := s.live fun s =>
  s.onlyIf (channel < 16) fun s => s.moveData (flumeKey engine channel) 0

/-- FILL. -/
def execFillDescriptor (engine channel : Nat) (s : State) : Result := s.live fun s =>
  s.onlyIf (channel < 16) fun s => s.moveData (flumeKey engine channel) 1

/-- SKEW (R308). -/
def execSkewDescriptor (engine channel : Nat) (s : State) : Result := s.live fun s =>
  s.onlyIf (channel < 16) fun s => s.moveData (flumeKey engine channel) 2

/-- TRANSPOSE (R309). -/
def execTransposeDescriptor (engine channel : Nat) (s : State) : Result := s.live fun s =>
  s.onlyIf (channel < 16) fun s => s.moveData (flumeKey engine channel) 3

/-- A descriptor that moves nothing is written back at once. -/
def State.moveNothing (s : State) (engine channel op : Nat) : State :=
  let k := flumeKey engine channel
  let x := s.channel k
  s.onlyIf (channel < 16 && x.phase == .moving && !x.discarding && (parseDescriptor x.held).op == op) fun s => s.flumeWriteBack k 0

/-- EVENT (R306). -/
def execEventDescriptor (engine channel : Nat) (s : State) : Result := s.live fun s => s.moveNothing engine channel 4

/-- LINK (R306). -/
def execLinkDescriptor (engine channel : Nat) (s : State) : Result := s.live fun s => s.moveNothing engine channel 5

/-- STOP (R319). -/
def execStopChain (engine channel : Nat) (s : State) : Result := s.live fun s => s.moveNothing engine channel 6

/-! ## Stops (R314, R320, R378, R425) -/

/-- A running descriptor is ended as MODE 1 ends it (R314): a prefix of its lines has been written, and later ones may have been.
Its reads in flight are still to be discarded. -/
def State.cutDescriptor (s : State) (k : Nat) : State :=
  let x := s.channel k
  let slot := x.owner.getD 0
  let ls := (parseDescriptor x.held).lines
  let (n, s) := s.draw
  let (v, s) := s.draw
  let prefix_ := n % (ls.length + 1)
  let (s, r) := ls.zipIdx.foldl (fun (acc : State × FlumeRun) e =>
    if e.2 < prefix_ || bitAt v e.2 then acc.1.moveLine slot x e.1 (bitAt v e.2) acc.2 else acc) (s, {})
  let s := s.bump (uFlume (k / 16)) 0x020 63 0 (128 * min prefix_ r.lines)
  let done : FlumeDone := { bad := true, poison := r.unit.isSome, status := stCancelled, lines := min prefix_ r.lines }
  s.setChannel k { s.channel k with phase := .draining, result := done, discarding := true }

/-- A chain is stopped: a waiting channel at once; else after its running descriptor, which MODE 1 (`how` 2, 4 or 6) cuts. -/
def State.stopChain (s : State) (k how : Nat) (t : Option FlumeStop) : State :=
  let x := s.channel k
  let x := { x with stopping := how, stop := t }
  let s := s.setChannel k x
  let (st, dt) := x.stopStatus k
  match x.phase with
  | .idle => s.setChannel k { x with stopping := 0, stop := none }
  | .reading | .waitEvent | .waitOwn => s.endChain k how x.desc st dt 0
  | .moving => if how = 1 || 3 < (parseDescriptor x.held).op then s else s.cutDescriptor k
  | .draining => s

/-- READ_DRAIN_COMPLETE of a MODE 1 stop: the last read has been discarded, and the descriptor is written back (R314, R320). -/
def State.chainDrained (s : State) (k discarded : Nat) : State :=
  let x := s.channel k
  if x.discarding then (s.setChannel k { x with discarding := false }).flumeWriteBack k discarded else s

/-! ## Commands -/

/-- Whether a channel can be claimed. -/
def State.idleChannel (s : State) (k : Nat) : Bool := (s.channel k).phase == .idle

/-- Whether jobs may use an engine. -/
def State.jobEngine (s : State) (e : Nat) : Bool := e < 16 && s.flumeUse e == 0 && s.active (uFlume e)

/-- The checks of FLUME_CHAIN_START (R311, R312, R319). -/
def State.flumeChainStartChecks (s : State) (c : Command) : List Check :=
  let e := c.u8 1
  let n := c.u8 2
  let engines := if e = 0xFF then (List.range 16).filter s.jobEngine else [e]
  let channels := if n = 0xFF then List.range 16 else [n]
  let free := (engines.flatMap fun e => channels.map fun n => flumeKey e n).find? s.idleChannel
  [badIf (c.u8 0 != 0) 0, badIf (e != 0xFF && !s.jobEngine e) 1,
   badIf (n != 0xFF && (15 < n || (e != 0xFF && free.isNone))) 2, badIf (c.u32 4 != 0) 4,
   badIf (c.u64 8 % 64 != 0) 8, badIf (c.u64 0x10 != 0) 0x10, badIf (1 < c.ex (c.u8 0x18) 0) 0x18,
   badIf (1 < c.ex (c.u8 0x19) 0) 0x19, failIf free.isNone stNoResource 0x90]

/-- FLUME_CHAIN_START (R311, R312, R319): OP CHAIN; an OP that Table 13.7 does not give is refused. -/
def execFlumeChainStart (c : Command) (s : State) : Result := s.live fun s =>
  let slot := s.cmdSlot c.hdr
  let e := c.u8 1
  let n := c.u8 2
  let engines := if e = 0xFF then (List.range 16).filter s.jobEngine else [e]
  let channels := if n = 0xFF then List.range 16 else [n]
  let free := (engines.flatMap fun e => channels.map fun n => flumeKey e n).find? s.idleChannel
  s.checked c (s.flumeChainStartChecks c)
    fun s =>
      let k := free.getD 0
      let x := s.channel k
      let counter := if c.ex (c.u8 0x19) 0 = 1 then x.counter else 0
      let s := s.setChannel k { x with
        phase := .reading, owner := some slot, headgate := (s.queue c.hdr.qkey).headgate
        stopOnBad := c.ex (c.u8 0x18) 0 == 1, cmd := some c, desc := c.u64 8, held := [], ahead := none, counter := counter
        ran := 0, ranBad := 0, result := {}, stopping := 0, stop := none, discarding := false }
      s.defer c 0 (le 1 (k / 16) ++ le 1 (k % 16) ++ le 2 0 ++ le 4 counter ++ le 8 s.now)

/-- The checks of FLUME_TIMER_SET (R311, R313, R319). -/
def State.flumeTimerSetChecks (s : State) (c : Command) : List Check :=
  let slot := s.cmdSlot c.hdr
  let t := c.u8 1
  let period := c.u32 4
  let x := s.timer t
  [badIf (c.u8 0 != 1) 0, badIf (15 < t) 1, badIf (c.u8 2 != 0) 2,
   badIf (period != 0 && (period < 100 || 4000000000 < period)) 4, badIf (c.u64 8 != 0) 8,
   unusedBad c [(0x18, 2)], failIf (x.period != 0 && x.owner.any fun o => o != slot) stNoResource 0x91]

/-- FLUME_TIMER_SET (R311, R313, R319): OP TIMER. -/
def execFlumeTimerSet (c : Command) (s : State) : Result := s.live fun s =>
  let slot := s.cmdSlot c.hdr
  let t := c.u8 1
  let period := c.u32 4
  let start := c.u64 0x10
  s.checked c (s.flumeTimerSetChecks c)
    fun s =>
      let first :=
        if period = 0 then 0
        else if start = 0 then (s.now / period + 1) * period
        else if s.now ≤ start then start
        else start + ((s.now - start) / period + 1) * period
      let s := s.setTimer t { owner := some slot, period := period, nextAt := first, counter := 0 }
      s.finish c stOk 0 (le 1 t ++ le 1 0 ++ le 2 0 ++ le 4 0 ++ le 8 s.now)

/-- TIMER_TICK (R313). -/
def execTimerTick (t : Nat) (s : State) : Result := s.live fun s =>
  let x := s.timer t
  s.onlyIf (t < 16 && x.period != 0 && x.nextAt ≤ s.now) fun s =>
    s.setTimer t { x with counter := (x.counter + 1) % 2 ^ 32, nextAt := x.nextAt + x.period }

/-- The checks of FLUME_CHAIN_STOP (R320). -/
def State.flumeChainStopChecks (s : State) (c : Command) : List Check :=
  let slot := s.cmdSlot c.hdr
  let e := c.u8 0
  let n := c.u8 1
  let k := flumeKey e n
  let x := s.channel k
  [badIf (15 < e) 0, badIf (15 < n) 1,
   badIf (x.phase == .idle || x.owner != some slot || x.stopping != 0) 0, badIf (1 < c.u8 2) 2]

/-- FLUME_CHAIN_STOP (R320). -/
def execFlumeChainStop (c : Command) (s : State) : Result := s.live fun s =>
  let e := c.u8 0
  let n := c.u8 1
  let k := flumeKey e n
  s.checked c (s.flumeChainStopChecks c)
    fun s => s.stopChain k (1 + c.u8 2) (some ⟨c, s.now⟩)

/-- The four registers of a channel (Table 13.6) as they read for a job; for another job's channel only STATE. -/
def State.channelRegs (s : State) (k : Nat) (viewer : Option Nat) : List Nat :=
  let x := s.channel k
  let d := parseDescriptor x.held
  let st := match x.phase with
    | .idle => 0 | .reading => 1 | .waitEvent => 2 | .waitOwn => 3 | .moving => 4 | .draining => 5
  let waiting := x.phase == .waitEvent
  if viewer.isSome && x.owner != viewer && x.owner.isSome then [st * 2 ^ 60, 0, 0, 0]
  else
    [st * 2 ^ 60 + x.owner.getD 0 * 2 ^ 54 + b2n x.headgate * 2 ^ 53 + b2n x.stopOnBad * 2 ^ 52 +
       ((x.cmd.map fun c => c.hdr.queue).getD 0) * 2 ^ 32 + (if waiting then d.waitEvent else 0xFFFF),
     x.desc % 2 ^ 57, (if waiting then d.waitValue else 0) * 2 ^ 32 + x.counter, x.doneCount * 2 ^ 32 + x.badCount]

/-- The checks of FLUME_STATUS (R321). -/
def State.flumeStatusChecks (_s : State) (c : Command) : List Check :=
  let e := c.u8 0
  let n := c.u8 1
  [badIf (15 < e) 0, badIf (15 < n && n != 0xFF) 1]

/-- FLUME_STATUS (R321). -/
def execFlumeStatus (c : Command) (s : State) : Result := s.live fun s =>
  let slot := s.cmdSlot c.hdr
  let e := c.u8 0
  let n := c.u8 1
  s.checked c (s.flumeStatusChecks c) fun s =>
    let ns := if n = 0xFF then List.range 16 else [n]
    s.finish c stOk 0 (ns.flatMap fun n => (s.channelRegs (flumeKey e n) (some slot)).flatMap fun v => le 8 v)

end Sys2Proof.Machine
end

