-- ==== Sys2Proof/Machine/MemCommands.lean ====
section
/-! DEFINITION. The map and memory commands, memory scrubbing, and the far tier's channels and chunks (spec/11). -/

namespace Sys2Proof.Machine

/-! ## Maps -/

/-- The checks of MAP_CREATE (R252, R268). -/
def State.mapCreateChecks (s : State) (c : Command) : List Check :=
  let slot := s.cmdSlot c.hdr
  let pa := c.u64 0
  let n := c.u64 8
  let w := c.ex (c.u16 0x18) 0
  let used := (s.memory.maps.map fun e => e.2.walkers).sum
  let sizeBad := n < 2 ^ 22 || 2 ^ 30 < n || n % 2 ^ 21 != 0 || (pa % 2 ^ 37 + n) > 2 ^ 37
  [failIf (s.map slot).valid stBadParam 0xC,
   badIf (pa % 2 ^ 21 != 0 || !s.hbmActive pa n || (s.ownedRanges ++ s.kvRanges).any (fun r => meets pa n r.1 r.2)) 0,
   badIf sizeBad 8,
   badIf (16 < w) 0x18,
   failIf (48 < used + w) stNoResource 0x70]

/-- MAP_CREATE (R252, R268). -/
def execMapCreate (c : Command) (s : State) : Result := s.live fun s =>
  let slot := s.cmdSlot c.hdr
  let pa := c.u64 0
  let n := c.u64 8
  let w := c.ex (c.u16 0x18) 0
  s.checked c (s.mapCreateChecks c)
    fun s =>
      let s := s.memZero pa (2 ^ 21)
      let m : MapInfo :=
        { valid := true, pool := pa, poolBytes := n, next4k := pa + 2 ^ 21, top256 := pa + n, walkers := w }
      (s.setMap slot m).finish c stOk 0 (le 8 pa ++ le 4 m.freeKib ++ le 4 0)

/-- The checks of MAP_EDIT (R257-R259, R269, R284, R294). -/
def State.mapEditChecks (s : State) (c : Command) : List Check :=
  let slot := s.cmdSlot c.hdr
  let op := c.u8 0
  let size := 2 ^ pageShift (c.u8 1)
  let va := c.u64 8
  let pa := c.u64 0x10
  let n := c.u64 0x18
  let names := (s.kvPool slot).valid && meets pa n (s.kvPool slot).base ((s.kvPool slot).pages * (s.kvPool slot).pageBytes)
  [failIf (!(s.map slot).valid || (s.map slot).destroyCmd.isSome) stBadParam 0xC,
   badIf (op < 1 || 3 < op) 0,
   badIf (2 < c.u8 1) 1,
   badIf (1 < c.u8 2 || (op == 2 && c.u8 2 != 0)) 2,
   badIf (va % size != 0) 8,
   badIf (if op = 1 then pa % size != 0 else pa != 0) 0x10,
   badIf (n == 0 || n % size != 0 || 2 ^ 41 < n || 2 ^ 57 < va + n) 0x18,
   badIf (1 < c.ex (c.u8 0x20) 0) 0x20,
   badIf (1 < c.ex (c.u8 0x21) 0) 0x21,
   badIf (s.meetsReel slot va n) 8,
   badIf (op == 1 && (!s.mappable pa n || names)) 0x10]

/-- MAP_EDIT (R257-R259, R269, R284, R294). -/
def execMapEdit (c : Command) (s : State) : Result := s.live fun s =>
  let slot := s.cmdSlot c.hdr
  s.checked c (s.mapEditChecks c)
    fun s => s.runEdit c slot

/-- The checks of MAP_DESTROY (R270). -/
def State.mapDestroyChecks (s : State) (c : Command) : List Check :=
  let slot := s.cmdSlot c.hdr
  let m := s.map slot
  let busy := (s.reelJob slot).phase != .none || (s.streams.streams.any fun e => e.2.isOpen && e.2.slot == slot) ||
    !(s.jobSeqs slot).isEmpty
  [failIf (busy || !m.valid || m.destroyCmd.isSome) stBadParam 0xC]

/-- MAP_DESTROY (R270). -/
def execMapDestroy (c : Command) (s : State) : Result := s.live fun s =>
  let slot := s.cmdSlot c.hdr
  let m := s.map slot
  s.checked c (s.mapDestroyChecks c) fun s =>
    (s.setMap slot { m with destroyCmd := some c }).defer c 0 []

/-- MAP_DESTROY_DONE (R270): no other command of the job runs, and every access under its map has completed. -/
def execMapDestroyDone (slot : Nat) (s : State) : Result := s.live fun s =>
  match (s.map slot).destroyCmd with
  | none => s
  | some d =>
    let running := (s.jobQueues (s.job slot).tag).any fun q =>
      (s.queue q).running.any fun c => !decide (c.hdr = d.hdr)
    s.onlyIf (!running) fun s => (s.setMap slot {}).deferredDone d.hdr stOk 0

/-! ## `mem_copy` and `mem_fill` -/

/-- Progress of a copy or fill: granules done before the first fault, that fault, poisoned granules, and the controller that held the
first of them. -/
structure MemRun where
  done : Nat := 0
  fault : Option VFault := none
  poisoned : Nat := 0
  unit : Option Nat := none
  deriving DecidableEq, Repr, Inhabited

/-- One granule of a copy or fill. After the first fault `after` says whether a later granule has been written (R272). -/
def State.memGranule (s : State) (slot i : Nat) (src : Option Nat) (dst : Nat) (fill : List Byte) (after : Bool) (r : MemRun) :
    State × MemRun :=
  let data : Except VFault (List Byte × Bool) := match src with
    | some a => s.vread slot (a + 64 * i) 64
    | none => .ok (fill, false)
  let unit := (src.bind fun a => (s.translate slot (a + 64 * i) false).toOption).bind controllerOf
  match data with
  | .error f => (s, { r with fault := r.fault.orElse fun _ => some f })
  | .ok d =>
    match s.translate slot (dst + 64 * i) true with
    | .error f => (s, { r with fault := r.fault.orElse fun _ => some f })
    | .ok pa =>
      if r.fault.isSome && !after then (s, r)
      else
        let s := match src with | some a => s.vtouch slot (a + 64 * i) 64 | none => s
        (s.memWrite pa d.1 d.2,
          if r.fault.isSome then r
          else { r with
            done := r.done + 1, poisoned := r.poisoned + b2n d.2
            unit := if d.2 then r.unit.orElse fun _ => unit else r.unit })

/-- A copy or fill of `n` bytes on the reserved Flume channels, and its completion (R271, R272). -/
def State.memRun (s : State) (c : Command) (src : Option Nat) (dst n : Nat) (fill : List Byte) : State :=
  let slot := s.cmdSlot c.hdr
  let (v, s) := s.draw
  let (s, r) := (List.range (n / 64)).foldl (fun (acc : State × MemRun) i =>
    acc.1.memGranule slot i src dst fill (bitAt v i) acc.2) (s, {})
  let result := le 8 (64 * r.done) ++ le 4 r.poisoned ++ le 4 0
  match r.fault with
  | some f => (s.farFault c.hdr slot (uFlume 0) ⟨stPageFault, f.detail, some f⟩).finish c stPageFault f.detail result
  | none =>
    if r.poisoned ≠ 0 then s.finish c stPoisoned (r.unit.getD 0) result else s.finish c stOk 0 result

/-- Whether a length is wrong for `mem_copy` and `mem_fill` (Table 11.14). -/
def memLengthBad (n : Nat) : Bool := n == 0 || n % 256 != 0 || 2 ^ 36 < n

/-- The checks of MEM_COPY (R271, R272). -/
def State.memCopyChecks (_s : State) (c : Command) : List Check :=
  let src := c.u64 0
  let dst := c.u64 8
  let n := c.u64 0x10
  [badIf (src % 256 != 0) 0, badIf (dst % 256 != 0 || meets src n dst n) 8, badIf (memLengthBad n) 0x10]

/-- MEM_COPY (R271, R272). -/
def execMemCopy (c : Command) (s : State) : Result := s.live fun s =>
  let src := c.u64 0
  let dst := c.u64 8
  let n := c.u64 0x10
  s.checked c (s.memCopyChecks c)
    fun s => s.memRun c (some src) dst n []

/-- The checks of MEM_FILL (R271, R272). -/
def State.memFillChecks (_s : State) (c : Command) : List Check :=
  let n := c.u64 8
  [badIf (c.u64 0 % 256 != 0) 0, badIf (memLengthBad n) 8]

/-- MEM_FILL (R271, R272). -/
def execMemFill (c : Command) (s : State) : Result := s.live fun s =>
  let n := c.u64 8
  s.checked c (s.memFillChecks c) fun s =>
    s.memRun c none (c.u64 0) n ((List.range 8).flatMap fun _ => le 8 (c.u64 0x10))

/-- MEMORY_SCRUB (R250): a controller reads the granule at an address and finds `errors` wrong symbols in it; `sub` is the SUB of
Table 17.3. A pass may end with it. -/
def execMemoryScrub (u addr errors sub : Nat) (passEnd : Bool) (s : State) : Result := s.live fun s =>
  s.onlyIf (controllerOf addr == some u && s.fld u 0x040 0 0 == 1) fun s =>
    let g := addr / 64 * 64
    let hit (x : Injected) : Bool := x.unit == u && x.addr / 64 == addr / 64
    let found := s.diag.injected.filter hit
    let s := { s with diag := { s.diag with injected := s.diag.injected.filter fun x => !hit x } }
    let s := found.foldl (fun s x => s.memFound g x.bits x.sub 1) s
    let s := s.memFound g errors sub 0
    if passEnd then s.setReg u 0x038 s.now else s

/-! ## The far tier -/

/-- Chunks of a channel in a phase. -/
def State.chunksIn (s : State) (c : Nat) (ps : List Nat) : Nat :=
  ((List.range 128).filter fun k => ps.contains (s.chunkPhase c k)).length

/-- Whether a chunk hosts a chunk of another channel. -/
def State.hosts (s : State) (pa : Nat) : Bool :=
  (List.range 12).any fun c => (List.range 128).any fun k =>
    (s.chunkPhase c k == 1 || s.chunkPhase c k == 2 || s.chunkPhase c k == 3) && meets (s.chunkDest c k) (2 ^ 30) pa (2 ^ 30)

/-- Chunks of other channels that a channel holds. -/
def State.hosted (s : State) (c : Nat) : Nat :=
  ((List.range 128).filter fun k => s.hosts (farBase + c * 2 ^ 37 + k * 2 ^ 30)).length

/-- A channel's STATE changes, with a FAR_STATE record (R276). -/
def State.setFarState (s : State) (c new : Nat) : State :=
  let old := s.farState c
  if old = new then s
  else
    (s.setFld (uFar c) 0x018 63 60 new).recordAll 0x1020 (if new = 4 then stFaultHw else stOk)
      (le 1 c ++ le 1 old ++ le 1 new ++ le 1 (s.chunksIn c [2, 3]) ++ le 1 (s.chunksIn c [4]) ++ le 3 0 ++ le 8 s.now)

/-- The chunks of a command. -/
def moveChunks (c : Command) : List Nat := (List.range (c.u8 3)).map (c.u8 2 + ·)

/-- Chunks of a channel that a move still has to copy. -/
def State.inMove (s : State) (ch k : Nat) : Bool := s.memory.moves.any fun m => m.channel == ch && m.left.contains k

/-- The address of a chunk. -/
def chunkPa (c k : Nat) : Nat := farBase + c * 2 ^ 37 + k * 2 ^ 30

/-- Whether a destination of OUT is wrong: it must lie in HBM on an ACTIVE stack or be a HOME chunk of another online channel; host
nothing; overlap no pool (R273). -/
def State.destBad (s : State) (ch d : Nat) : Bool :=
  let place := s.hbmActive d (2 ^ 30) ||
    (match farOf d with
     | some (c, k) => c != ch && s.farState c == 2 && s.chunkPhase c k == 0 && !s.inMove c k
     | none => false)
  !place || s.hosts d || (s.ownedRanges ++ s.kvRanges).any fun r => meets d (2 ^ 30) r.1 r.2

/-- The checks that the three OPs share (Table 11.15). -/
def moveChecks (c : Command) : List Check :=
  [badIf (11 < c.u8 0) 0, badIf (2 < c.u8 1) 1, badIf (127 < c.u8 2) 2, badIf (c.u8 3 == 0 || 128 < c.u8 2 + c.u8 3) 3,
   badIf (c.hdr.expert && (c.u16 0x10 == 0 || 64 < c.u16 0x10)) 0x10]

/-- A move's next chunk starts copying, where no earlier move of the channel copies (R261). -/
def State.nextChunk (s : State) (ch : Nat) : State :=
  match s.memory.moves.find? fun m => m.channel == ch with
  | none => s
  | some m =>
    match m.left.head? with
    | none => s
    | some k =>
      if m.back then s.setChunk ch k 3 (s.chunkDest ch k)
      else if s.chunkPhase ch k = 0 then s.setChunk ch k 1 (m.cmd.u64 8 + (k - m.cmd.u8 2) * 2 ^ 30) else s

def State.startMove (s : State) (c : Command) (back : Bool) : State :=
  let ch := c.u8 0
  ({ s with memory := { s.memory with moves := s.memory.moves ++ [FarMove.mk c ch back (moveChunks c) 0 0] } }.nextChunk ch).defer c 0 []

/-- The checks of FAR_MIGRATE_OUT (R273). -/
def State.migrateOutChecks (s : State) (c : Command) : List Check :=
  let ch := c.u8 0
  let dests := (List.range (c.u8 3)).map fun i => c.u64 8 + i * 2 ^ 30
  moveChecks c ++
   [badIf ((moveChunks c).any fun k => s.chunkPhase ch k != 0 || s.inMove ch k) 0,
    badIf (c.u64 8 % 2 ^ 30 != 0 || dests.any fun d => s.destBad ch d) 8]

/-- FAR_MIGRATE_OUT (R273). -/
def execFarMigrateOut (c : Command) (s : State) : Result := s.live fun s =>
  s.checked c (s.migrateOutChecks c) fun s => s.startMove c false

/-- The checks of FAR_MIGRATE_BACK (R273). -/
def State.migrateBackChecks (s : State) (c : Command) : List Check :=
  let ch := c.u8 0
  moveChecks c ++
   [badIf (s.farState ch != 2 || (moveChunks c).any fun k => s.chunkPhase ch k != 2 || s.inMove ch k) 0, badIf (c.u64 8 != 0) 8]

/-- FAR_MIGRATE_BACK (R273). -/
def execFarMigrateBack (c : Command) (s : State) : Result := s.live fun s =>
  s.checked c (s.migrateBackChecks c) fun s => s.startMove c true

/-- The checks of FAR_MIGRATE_RELEASE (R273). -/
def State.migrateReleaseChecks (s : State) (c : Command) : List Check :=
  let ch := c.u8 0
  moveChecks c ++
   [badIf ((moveChunks c).any fun k => s.chunkPhase ch k != 0 || s.inMove ch k) 0, badIf (c.u64 8 != 0) 8]

/-- FAR_MIGRATE_RELEASE (R273): HOME chunks become VACANT. -/
def execFarMigrateRelease (c : Command) (s : State) : Result := s.live fun s =>
  let ch := c.u8 0
  s.checked c (s.migrateReleaseChecks c)
    fun s =>
      let s := (moveChunks c).foldl (fun s k => s.setChunk ch k 4 0) s
      s.finish c stOk 0 (le 1 (c.u8 3) ++ le 1 (s.chunksIn ch [2, 3]) ++ le 2 0 ++ le 4 0 ++ le 8 s.now)

/-- The contents of one GiB go to another place, poison with them. -/
def State.copyChunk (s : State) (src dst : Nat) : State :=
  let n := 2 ^ 30
  let bs := (s.memory.bytes.filter fun e => src ≤ e.1 && e.1 < src + n).map fun e => (dst + (e.1 - src), e.2)
  let ps := (s.memory.poison.filter fun e => src ≤ 64 * e.1 && 64 * e.1 < src + n).map fun e => (dst / 64 + (e.1 - src / 64), e.2)
  let s := s.memZero dst n
  { s with memory := { s.memory with
    bytes := bs.foldl (fun m e => m.set 0 e.1 e.2) s.memory.bytes
    poison := ps.foldl (fun m e => m.set false e.1 e.2) s.memory.poison } }

/-- CHUNK_FLIP (R261-R263): the copy of a channel's chunk has ended; the chunk changes its state and the next one is copied. The
command ends with the last. -/
def execChunkFlip (channel : Nat) (s : State) : Result := s.live fun s =>
  match s.memory.moves.find? fun m => m.channel == channel with
  | none => s
  | some m =>
    match m.left.head? with
    | none => s
    | some k =>
      let home := chunkPa channel k
      let dest := s.chunkDest channel k
      let (src, dst) := if m.back then (dest, home) else (home, dest)
      let bad := (s.memory.poison.filter fun e => src ≤ 64 * e.1 && 64 * e.1 < src + 2 ^ 30).length
      let s := s.copyChunk src dst
      let s := if m.back then s.setChunk channel k 0 0 else s.setChunk channel k 2 dest
      let m' := { m with left := m.left.drop 1, moved := m.moved + 1, poisoned := m.poisoned + bad }
      let rest := s.memory.moves.filter fun x => !decide (x = m)
      if m'.left.isEmpty then
        let s := { s with memory := { s.memory with moves := rest } }
        (s.deferredDoneWith m.cmd.hdr stOk
          (le 2 0 ++ le 6 0 ++ le 1 m'.moved ++ le 1 (s.chunksIn channel [2, 3]) ++ le 2 0 ++ le 4 m'.poisoned ++
            le 8 s.now)).nextChunk channel
      else { s with memory := { s.memory with moves := s.memory.moves.map fun x => if x = m then m' else x } }.nextChunk channel

/-- The checks of FAR_OFFLINE (R263, R274). -/
def State.farOfflineChecks (s : State) (c : Command) : List Check :=
  let ch := c.u8 0
  let off := c.ex (c.u8 8) 1
  let bad := s.farState ch != 2 || s.chunksIn ch [1, 3] != 0 || s.hosted ch != 0 || s.memory.moves.any (fun m => m.channel == ch) ||
    (!c.hdr.force && s.chunksIn ch [0] != 0)
  [badIf (11 < ch) 0, badIf (1 < off) 8, badIf bad 0]

/-- FAR_OFFLINE (R263, R274). -/
def execFarOffline (c : Command) (s : State) : Result := s.live fun s =>
  let ch := c.u8 0
  let off := c.ex (c.u8 8) 1
  s.checked c (s.farOfflineChecks c) fun s =>
    let forced := s.chunksIn ch [0]
    let s := ((List.range 128).filter fun k => s.chunkPhase ch k == 0).foldl (fun s k => s.setChunk ch k 4 0) s
    let s := s.setFarState ch 3
    let s := (s.xancaChange [(uFar ch, { s.xentry (uFar ch) with state := 4 })]).csClearBits [20 + ch]
    let s := if off = 1 then
      { s with pins := { s.pins with farSlotEn := s.pins.farSlotEn.set 0 ch 0, slotOffAt := s.pins.slotOffAt.insert ch s.now } }
      else s
    s.finish c stOk 0 (le 1 (s.chunksIn ch [2, 3]) ++ le 1 forced ++ le 6 0)

/-- The checks of FAR_ONLINE (R264, R275). -/
def State.farOnlineChecks (s : State) (c : Command) : List Check :=
  let ch := c.u8 0
  [badIf (11 < ch || (s.farState ch != 3 && s.farState ch != 4)) 0]

/-- FAR_ONLINE (R264, R275). -/
def execFarOnline (c : Command) (s : State) : Result := s.live fun s =>
  let ch := c.u8 0
  s.checked c (s.farOnlineChecks c) fun s =>
    let s := s.setFarState ch 1
    { s with
      pins := { s.pins with farSlotEn := s.pins.farSlotEn.set 0 ch 1, slotPower := s.pins.slotPower.set 0 ch 1 }
      memory := { s.memory with bringups := s.memory.bringups ++ [(ch, c)] } }.defer c 0 []

/-- FAR_ONLINE_COMPLETE (R264, R275): channel bring-up has ended. `outcome` other than 0: training failed. The module's serial
number, capacity in GiB and rate in MT/s have been read from it. -/
def execFarOnlineComplete (channel outcome serial capacity rate trainMs : Nat) (s : State) : Result := s.live fun s =>
  match s.memory.bringups.find? fun b => b.1 == channel with
  | none => s
  | some b =>
    let s := { s with memory := { s.memory with bringups := s.memory.bringups.filter fun x => x.1 != channel } }
    let body (d : Nat) : List Byte := le 2 d ++ le 6 0 ++ le 4 serial ++ le 2 capacity ++ le 2 rate ++ le 4 trainMs ++ le 4 0
    if capacity < 128 || rate < 8800 then
      let s := s.setFarState channel 3
      { s with pins := { s.pins with
        farSlotEn := s.pins.farSlotEn.set 0 channel 0, slotOffAt := s.pins.slotOffAt.insert channel s.now } }.deferredDoneWith
        b.2.hdr stNoResource (body 0x72)
    else if outcome ≠ 0 then
      let s := s.setFarState channel 4
      let s := s.xancaChange [(uFar channel, { s.xentry (uFar channel) with state := 3 })]
      (s.logError { type := 0x33, cls := 2, unit := uFar channel, sub := channel }).deferredDoneWith b.2.hdr stFaultHw (body 0x33)
    else
      let s := s.memZero (farBase + channel * 2 ^ 37) (2 ^ 37)
      let s := ((List.range 128).filter fun k => s.chunkPhase channel k == 4).foldl (fun s k => s.setChunk channel k 0 0) s
      let s := s.setReg (uFar channel) 0x010 (capacity * 2 ^ 48 + rate % 65536 * 2 ^ 32 + serial % 2 ^ 32)
      let s := s.setFarState channel 2
      let s := s.xancaChange [(uFar channel, { s.xentry (uFar channel) with state := 1 })]
      (s.csSetBits [20 + channel]).deferredDoneWith b.2.hdr stOk (body 0)

/-- SLOT_POWER_FALL (R505): 60 ms after its enable has gone, SLOT_POWER reads 0. -/
def execSlotPowerFall (channel : Nat) (s : State) : Result := s.live fun s =>
  s.onlyIf (s.pins.farSlotEn.get 0 channel == 0 && s.pins.slotPower.get 0 channel == 1 &&
      s.pins.slotOffAt.get 0 channel + 60 * msec ≤ s.now) fun s =>
    { s with pins := { s.pins with slotPower := s.pins.slotPower.set 0 channel 0 } }

end Sys2Proof.Machine
end

