-- ==== Sys2Proof/Machine/Faults.lean ====
section
/-! DEFINITION. Screen tests, spares and retirement, the error log and injection, sweeps, and the control cores' watchdog
(spec/17). -/

namespace Sys2Proof.Machine

/-! ## Units and their tests (Table 17.4) -/

/-- The TYPE of the test that a unit has, and the unit that is tested; none for a unit without a screen test. -/
def unitTest (u : Nat) : Option (Nat × Nat) :=
  if u = 0 then none
  else if u ≤ 468 then some (0x11, uCore (unitInstance u))
  else if u ≤ 624 then some (0x20, u)
  else if u = uResv then some (0x22, u)
  else if u ≤ 641 then some (0x50, u)
  else if u ≤ 645 then some (0x32, u)
  else if u ≤ 657 then some (0x33, u)
  else if u = uMmu then some (0x34, u)
  else if u ≤ 674 then some (0x40, u)
  else if u ≤ 678 then some (0x41, u)
  else if u ≤ 690 then some (0x51, u)
  else if 698 ≤ u && u ≤ 701 then some (0x52, u)
  else none

/-- How long a test of a TYPE takes, where Table 17.4 gives a duration and no bound, ns. -/
def testNs (type : Nat) : Nat :=
  if 0x10 ≤ type && type ≤ 0x13 then 50 * usec
  else if type = 0x30 || type = 0x31 then 50 * usec
  else if type = 0x34 || (0x50 ≤ type && type ≤ 0x52) then 20 * usec
  else if type = 0x40 || type = 0x41 then 2 * msec
  else if type = 0x60 then 10 * usec
  else if type = 0x70 then 5 * msec
  else 0

/-- Whether a test is of a whole core. -/
def Screen.ofCore (t : Screen) : Bool := 1 ≤ t.unit && t.unit ≤ 156

/-! ## What a failed test does (R419, Table 17.4) -/

/-- A unit is RETIRED: its Xanca entry, the MRAM record, and the aggregates (R61, R64, R417). -/
def State.retireUnit (s : State) (u : Nat) (injected : Bool) : State :=
  ((s.xancaChange [(u, { s.xentry u with state := 3 })]).mramRepair u 6 0 injected).csRecompute

/-- A device fault (R426): the bits of the affected function are cleared. -/
def State.deviceFault (s : State) (u : Nat) (bs : List Nat) : State := (s.csClearBits bs).degradedRecord u 4 0xFFFF

/-- Whether a core's row has a spare core. -/
def State.rowHasSpare (s : State) (p : Nat) : Bool :=
  (List.range 13).any fun k => (s.xentry (uCore (p / 13 * 13 + k))).state == 2 && p / 13 * 13 + k != p

/-- A core is to be retired at its boundary: OUTCOME 3 where a spare core takes its place. -/
def State.failCore (s : State) (p : Nat) (injected : Bool) : Nat × State :=
  (if s.rowHasSpare p then 3 else 4, s.setCore p { s.core p with failing := true, failInjected := injected })

/-- One failing row of an outer-product engine (R102-R104). -/
def State.failRow (s : State) (p row : Nat) (injected : Bool) : Nat × State :=
  let c := s.core p
  if c.retiredRows.contains row || c.repairs.any (fun r => r.row == row) then (3, s)
  else if c.retiredRows.length + c.repairs.length < 2 then
    (3, s.setCore p { c with repairs := c.repairs ++ [⟨row, none, false, injected⟩] })
  else (s.opeRepaired p row stRetired).failCore p injected

/-- A core fails its test: rows of its engine are replaced, anything else retires it; with AUTO_REPAIR 0 nothing is replaced. -/
def State.coreVerdict (s : State) (p : Nat) (rows : List Nat) (injected : Bool) : Nat × State :=
  if s.fld (uOpe p) 0x038 0 0 = 0 then (6, s)
  else if rows.isEmpty then s.failCore p injected
  else rows.foldl (fun (acc : Nat × State) r =>
    let (oc, s) := acc.2.failRow p r injected
    (max oc acc.1, s)) (3, s)

/-- A failing line of a scratchpad or a continuity store is remapped at the boundary; without a spare line the core fails
(R137, R156). -/
def State.lineVerdict (s : State) (u : Nat) (lines : List Nat) (injected : Bool) : Nat × State :=
  let p := unitInstance u
  lines.foldl (fun (acc : Nat × State) l =>
    let s := acc.2
    if u ≤ 468 then
      let used := s.conts.sparesUsed.get 0 p + (s.conts.toRemap.filter fun x => x.1 == p).length
      let s := { s with conts := { s.conts with toRemap := s.conts.toRemap ++ [(p, l, injected)] } }
      (max acc.1 (if used < 8 || s.rowHasSpare p then 3 else 4), s)
    else
      let used := s.spads.sparesUsed.get 0 (p * 16 + l % 16) +
        (s.spads.toRemap.filter fun x => x.1 == p && x.2.1 % 16 == l % 16).length
      let s := { s with spads := { s.spads with toRemap := s.spads.toRemap ++ [(p, l, injected)] } }
      (max acc.1 (if used < 16 || s.rowHasSpare p then 3 else 4), s)) (3, s)

/-- A failing line of the reservoir: a spare line, else its way is disabled (R176, Table 17.4). -/
def State.resvVerdict (s : State) (line : Nat) (injected : Bool) : Nat × State :=
  if s.streams.sparesUsed < 1024 then
    (3, ({ s with streams := { s.streams with sparesUsed := s.streams.sparesUsed + 1 } }).mramRepair uResv 4 line injected)
  else
    let set := ((s.streams.lines[line]?).map fun l => resvSet l.pa).getD (line % 24576)
    (4, { s with streams := { s.streams with
      disabledWays := s.streams.disabledWays.insert set (s.streams.disabledWays.get 0 set + 1)
      lines := (s.streams.lines.zipIdx.filter fun (e : ResvLine × Nat) => e.2 != line).map fun (e : ResvLine × Nat) => e.1 } })

/-- A stack is RETIRED (R251); with none left this is a device fault (R426). -/
def State.retireStack (s : State) (u : Nat) (injected : Bool) : State :=
  let s := ((s.retireUnit u injected).csDrop (16 + (u - 642))).csRecompute
  let s := s.degradedRecord u 3 0xFFFF
  if (List.range 4).all fun k => (s.xentry (uHbm k)).state == 3 then s.deviceFault u [12] else s

/-- A far-tier channel is FAILED (R251, R275). -/
def State.failChannel (s : State) (u : Nat) : State :=
  let c := u - 646
  let s := s.setFarState c 4
  ((s.xancaChange [(u, { s.xentry u with state := 3 })]).csDrop (20 + c)).csRecompute

/-- A failing row of a stack or module: a row repair, else the row stays poisoned; at 64 such rows the stack or channel goes. -/
def State.rowVerdict (s : State) (u sub : Nat) (injected : Bool) : Nat × State :=
  let hbm := u ≤ 645
  let k := u * 65536 + (if hbm then 0 else sub / 65536)
  let used := s.diag.rowRepairs.get 0 k
  let left := if hbm then s.fld u 0x048 31 16 else 8 - used
  if 0 < left then
    let s := { s with diag := { s.diag with rowRepairs := s.diag.rowRepairs.insert k (used + 1) } }
    (3, if hbm then (s.setFld u 0x048 31 16 (left - 1)).bump u 0x048 15 0 1 else s)
  else
    let n := s.diag.badRows.get 0 u + 1
    let s := { s with diag := { s.diag with badRows := s.diag.badRows.insert u n } }
    (4, if n = 64 then (if hbm then s.retireStack u injected else s.failChannel u) else s)

/-- A lane of an optical engine fails: the spare lane takes its traffic, or its port narrows; a port with no lane left is FAILED
(R323). -/
def State.laneVerdict (s : State) (e lane : Nat) (injected : Bool) : Nat × State :=
  let o := s.fabric.optics.get {} e
  let port := if lane = 16 then o.sparePort else 4 * e + lane / 4
  let x := s.port port
  let lanes := s.physLanes port
  let spare := lane != 16 && o.spareFor == 0xFF && !bitAt o.failed 16 && s.fld (uOptic e) 0x030 0 0 == 1
  let o : Optic := { o with
    failed := putBit o.failed lane true, spareFor := if spare then lane else o.spareFor
    sparePort := if spare then port else o.sparePort, tc := s.now }
  let s := { s with fabric := { s.fabric with optics := s.fabric.optics.insert e o } }
  let s := s.mramRepair (uOptic e) 8 lane injected
  if 15 < port || !lanes.contains lane then (4, s)
  else
    let lanes := lanes.map fun l => if l = lane then (if spare then 16 else 0xFF) else l
    let working := (lanes.filter (· != 0xFF)).length
    let s := s.setPort port { x with lanes := lanes, width := min x.width working }
    let s := s.recordAll 0x4003 (if spare then stOk else stFaultHw)
      (le 1 e ++ le 1 lane ++ le 1 port ++ le 1 working ++ le 4 0 ++ le 8 s.now)
    let s := if working = 0 then (s.portLost port .failed).retireUnit (uLink port) injected else s
    (if spare then 3 else 4, s)

/-- A retired engine of 10 to 15 is replaced by an engine that jobs used (R425); with none left this is a device fault. -/
def State.takeOver (s : State) (e : Nat) : State :=
  match (List.range 10).reverse.find? fun t => s.active (uFlume t) && s.flumeUse t == 0 with
  | none => s.deviceFault (uFlume e) [9]
  | some t =>
    let s := (List.range 16).foldl (fun s n =>
      let k := flumeKey t n
      if (s.channel k).cmd.isSome then s.stopChain k 6 (s.channel k).stop else s) s
    let s := { s with flume := { s.flume with uses := s.flume.uses.insert t (s.flumeUse e) } }
    s.xancaChange [(uFlume t, { s.xentry (uFlume t) with cap0 := s.flumeUse t })]

/-- A Flume engine is RETIRED: its chains end ST_RETIRED; how their FLUME_CHAIN_END says so is a free value. -/
def State.retireEngine (s : State) (e : Nat) (injected : Bool) : State :=
  let s := s.retireUnit (uFlume e) injected
  let s := (List.range 16).foldl (fun s n =>
    let k := flumeKey e n
    if (s.channel k).cmd.isSome then
      let (v, s) := s.draw
      s.endChain k (v % 256) (s.channel k).desc stRetired (uFlume e) 0
    else s) s
  if e < 10 then s else s.takeOver e

/-- A control core is RETIRED (R431); with fewer than 2 left this is a device fault. -/
def State.retireControl (s : State) (n : Nat) (injected : Bool) : State :=
  let s := { s with
    diag := { s.diag with controlRetired := s.diag.controlRetired ++ [n] }
    power := { s.power with alive := putBit s.power.alive n false } }
  let s := (s.mramRepair uWmaster 7 n injected).degradedRecord uWmaster 2 0xFFFF
  if s.diag.controlRetired.length = 3 then s.deviceFault uWmaster [1] else s

/-- A failed test has its effect: the OUTCOME, and the state after it. `subs`: the sub-units found failing; `spare`: for a die-to-die
lane, whether its link had a lane left. -/
def State.verdict (s : State) (t : Screen) (subs : List Nat) (spare injected : Bool) : Nat × State :=
  let u := t.unit
  let lines := if subs.isEmpty then [t.sub] else subs
  if t.ofCore then s.coreVerdict (u - 1) subs injected
  else if t.type = 0x20 || t.type = 0x21 then s.lineVerdict u lines injected
  else if t.type = 0x22 then
    lines.foldl (fun (acc : Nat × State) l => let (oc, s) := acc.2.resvVerdict l injected; (max acc.1 oc, s)) (3, s)
  else if t.type = 0x30 || t.type = 0x31 then s.rowVerdict u t.sub injected
  else if t.type = 0x32 then (4, s.retireStack u injected)
  else if t.type = 0x33 then (4, s.failChannel u)
  else if t.type = 0x34 then (4, (s.setFld uMmu 0x010 47 32 (s.fld uMmu 0x010 47 32 - 1)).mramRepair uMmu 6 t.sub injected)
  else if t.type = 0x40 then
    let p := u - 659
    let own := (s.physLanes p).filter (· != 0xFF)
    let bad := if subs.isEmpty then own else subs.filterMap fun i => (s.physLanes p)[i]?
    bad.foldl (fun (acc : Nat × State) l => let (oc, s) := acc.2.laneVerdict (p / 4) l injected; (max acc.1 oc, s)) (3, s)
  else if t.type = 0x41 then
    let bad := if subs.isEmpty then [t.sub % 256] else subs
    bad.foldl (fun (acc : Nat × State) l => let (oc, s) := acc.2.laneVerdict (u - 675) l injected; (max acc.1 oc, s)) (3, s)
  else if t.type = 0x50 then (4, s.retireEngine (u - 626) injected)
  else if t.type = 0x51 then (4, s.retireUnit u injected)
  else if t.type = 0x52 then (4, (s.retireUnit u injected).retireDecodes (u - 698))
  else if t.type = 0x70 then (4, s.retireControl t.sub injected)
  else if t.type = 0x60 then (if spare then (3, s) else (4, s.deviceFault u ((csBitOf u).toList)))
  else (4, s)

/-! ## The end of a screen test (R418-R420) -/

/-- The body of SCREEN_DONE (Table 17.8). -/
def State.screenDone (s : State) (t : Screen) (outcome index : Nat) : List Byte :=
  le 2 t.unit ++ le 1 outcome ++ le 1 0 ++ le 4 index ++ le 4 (s.now - t.startedAt) ++ le 4 0 ++ le 8 s.now ++ le 8 0

/-- An entry takes the test's OUTCOME, with its SCREEN_DONE; one that the repeat rule has decided keeps its own. -/
def State.settle (s : State) (t : Screen) (outcome : Nat) (i : Nat) : State :=
  match s.diag.log.find? fun e => e.1 == i with
  | none => s
  | some e =>
    if e.2.outcome = 5 then s
    else
      let s := { s with diag := { s.diag with log := s.diag.log.insert i { e.2 with outcome := outcome } } }
      s.recordAll 0xF002 (if outcome = 2 then stOk else stFaultHw) (s.screenDone t outcome i)

/-- A `screen_test_run` hears of one of its tests; after the last it is done (R433). -/
def State.runTold (s : State) (t : Screen) (outcome : Nat) (h : CmdHdr) : State :=
  let status := if outcome = 2 then stOk else stFaultHw
  let body := s.screenDone t outcome 0xFFFFFFFF
  let s := (s.recordAll 0xF002 status body).recordCmd h 0xF002 status body
  match s.diag.runs.find? fun r => decide (r.cmd.hdr = h) with
  | none => s
  | some r =>
    let fail := r.firstFail.orElse fun _ => if outcome = 2 then none else some t.type
    let rest := s.diag.runs.filter fun x => !decide (x.cmd.hdr = h)
    if r.left ≤ 1 then
      let s := { s with diag := { s.diag with runs := rest } }
      match fail with
      | none => s.deferredDone h stOk 0
      | some ty => s.deferredDone h stFaultHw ty
    else { s with diag := { s.diag with runs := rest ++ [{ r with left := r.left - 1, firstFail := fail }] } }

/-- Rows of an engine that the entries of a core's test name: an accumulator row, or a row of a check pass. -/
def State.namedRows (s : State) (t : Screen) : List Nat :=
  (t.entries.filterMap fun i => (s.diag.log.find? fun e => e.1 == i).bind fun e =>
    if (e.2.type = 0x10 && e.2.sub / 65536 = 0) || (e.2.type = 0x11 && e.2.sub < 130) then some (e.2.sub % 65536) else none).eraseDups

/-- What follows a pass: the pass counts for the repeat rule, a function that was dropped for its test is ready again (R65), a
restarted control core takes work (R431). -/
def State.passed (s : State) (t : Screen) : State :=
  let named := t.entries.filterMap fun i => (s.diag.log.find? fun e => e.1 == i).map fun e => (e.2.unit, e.2.sub, s.now)
  let s := { s with diag := { s.diag with
    passes := s.diag.passes ++ (if named.isEmpty then [(t.unit, t.sub, s.now)] else named.eraseDups) } }
  if t.type = 0x32 || t.type = 0x33 then
    (match csBitOf t.unit with
     | some b => s.csSetBits [b]
     | none => s)
  else if t.type = 0x70 then { s with power := { s.power with alive := putBit s.power.alive t.sub true } }
  else s

/-- A test ends with its OUTCOME: entries and commands are told; a failing sweep or command test makes an entry of its own. -/
def State.endTest (s : State) (t : Screen) (outcome : Nat) : State :=
  let s := { s with diag := { s.diag with
    tests := satAdd 32 s.diag.tests 1, failedTests := satAdd 16 s.diag.failedTests (b2n (outcome != 2)) } }
  let s :=
    if outcome ≠ 2 && t.entries.isEmpty then
      let r : ErrorReport := { type := t.type, cls := 2, unit := t.unit, sub := t.sub, flags := if t.sweep then 2 else 4 }
      let (dtc, s) := s.stamp t.unit
      (s.countError r).logEntry r dtc outcome
    else s
  let s := t.entries.foldl (fun s i => s.settle t outcome i) s
  let s := if t.sweep && t.commands.isEmpty then
      s.recordAll 0xF002 (if outcome = 2 then stOk else stFaultHw) (s.screenDone t outcome 0xFFFFFFFF)
    else s
  t.commands.foldl (fun s h => s.runTold t outcome h) s

/-- SCREEN_TEST_COMPLETE (R419-R423, R425, R426): the test of a unit ends; `failed` and the sub-units found failing are what it
shows. -/
def execScreenTestComplete (unit sub type : Nat) (failed : Bool) (subs : List Nat) (spare : Bool) (s : State) : Result :=
  s.live fun s =>
  match s.diag.screens.find? fun t => t.unit == unit && t.sub == sub && t.type == type with
  | none => s
  | some t =>
    let p := unitInstance unit
    let outcomes := t.entries.map fun i => (s.diag.log.get default i).outcome
    let byRule := outcomes.contains 5
    let idle := (s.core p).task.isNone && (s.core p).phase != .repairHold
    s.onlyIf ((t.running || (t.ofCore && idle)) && (byRule || t.startedAt + testNs type ≤ s.now)) fun s =>
      let s := { s with diag := { s.diag with screens := s.diag.screens.filter fun x => !decide (x = t) } }
      if !failed && !t.mustFail then (s.passed t).endTest t 2
      else
        let flagged := t.entries.all fun i => bitAt (s.diag.log.get default i).flags 0
        let injected := !t.entries.isEmpty && flagged
        let subs := if t.ofCore && subs.isEmpty then s.namedRows t else subs
        let (outcome, s) :=
          if t.reportOnly && t.entries.isEmpty then (6, s) else s.verdict t subs spare injected
        let s := s.endTest t outcome
        if 1 ≤ unit && unit ≤ 624 && (s.core p).task.isNone && (s.core p).phase != .repairHold then s.boundary p else s

/-! ## Sweeps (R421) -/

/-- SWEEP (R421): a core test begins on a free logical core. -/
def execSweep (c : Nat) (s : State) : Result := s.live fun s =>
  let every := s.fld uDiag 0x050 63 32
  match s.allotmentOf c, s.physOf c with
  | some a, some p =>
    s.onlyIf (every != 0 && s.diag.lastSweep.get 0 c + every * 1000 * msec ≤ s.now && s.coreFree p &&
        (s.pickTask c).isNone && 2 ≤ (s.freeCores a).length) fun s =>
      let t : Screen := ⟨uCore p, 0, 0x11, s.now, true, [], [], false, true, false⟩
      { s with diag := { s.diag with lastSweep := s.diag.lastSweep.insert c s.now, screens := s.diag.screens ++ [t] } }
  | _, _ => s

/-! ## Commands (R433-R435) -/

/-- The checks of SCREEN_TEST_RUN (R433). -/
def State.screenTestRunChecks (s : State) (c : Command) : List Check :=
  let u := c.u16 0
  let all := c.hdr.expert && c.u16 8 != 0 && u == 0xFFFF
  let testless := if all then !(unitTypes.any fun t => t.1 == c.u16 8 && (unitTest t.2.1).isSome) else 703 < u || (unitTest u).isNone
  [badIf testless 0, badIf (1 < c.u8 2) 2, failIf (!all && (s.xentry u).state == 3) stRetired u]

/-- SCREEN_TEST_RUN (R433). -/
def execScreenTestRun (c : Command) (s : State) : Result := s.live fun s =>
  let u := c.u16 0
  let all := c.hdr.expert && c.u16 8 != 0 && u == 0xFFFF
  let named := if all then (List.range 704).filter fun v => unitType v == c.u16 8 && s.active v else [u]
  s.checked c (s.screenTestRunChecks c)
    fun s =>
      let targets := (named.filterMap unitTest).eraseDups
      let busy (t : Nat × Nat) : Bool := s.diag.screens.any fun x => x.unit == t.2
      let joined := targets.filter busy
      let s := s.defer c 0 (le 2 targets.length ++ le 2 joined.length ++ le 4 0)
      let join (x : Screen) : Screen :=
        if targets.any fun t => t.2 == x.unit then { x with commands := x.commands ++ [c.hdr] } else x
      let fresh := (targets.filter fun t => !busy t).map fun t =>
        (⟨t.2, 0, t.1, s.now, !(1 ≤ t.2 && t.2 ≤ 156), [], [c.hdr], c.u8 2 == 1, false, false⟩ : Screen)
      let joins := (s.diag.screens.filter fun x => targets.any fun t => t.2 == x.unit).length
      let s := { s with diag := { s.diag with screens := s.diag.screens.map join ++ fresh } }
      if targets.isEmpty then s.deferredDone c.hdr stOk 0
      else
        let run : ScreenRun := ⟨c, fresh.length + joins, none⟩
        let s := { s with diag := { s.diag with runs := s.diag.runs ++ [run] } }
        (fresh.filter Screen.ofCore).foldl (fun s t =>
          if (s.core (t.unit - 1)).task.isNone && (s.core (t.unit - 1)).phase != .repairHold then s.boundary (t.unit - 1) else s) s

/-- The checks of ERROR_LOG_READ (R434). -/
def State.errorLogReadChecks (_s : State) (c : Command) : List Check :=
  let n := c.u8 4
  [badIf (n == 0 || 63 < n) 4, badIf (3 < c.u8 5) 5]

/-- ERROR_LOG_READ (R434). -/
def execErrorLogRead (c : Command) (s : State) : Result := s.live fun s =>
  let first := c.u32 0
  let n := c.u8 4
  s.checked c (s.errorLogReadChecks c) fun s =>
    let held := s.diag.log.filter fun e => first ≤ e.1
    let hits := (held.filter fun e => c.u8 5 ≤ e.2.cls).take n
    let last := if hits.length = n then hits.getLast? else held.getLast?
    let next := (last.map fun e => e.1 + 1).getD first
    let oldest := (s.diag.log.head?.map (·.1)).getD s.diag.nextIndex
    let mark (e : Nat × ErrEntry) : Nat × ErrEntry := if hits.any fun h => h.1 == e.1 then (e.1, { e.2 with returned := true }) else e
    let s := { s with diag := { s.diag with log := s.diag.log.map mark } }
    s.finish c stOk 0 (le 4 next ++ le 2 hits.length ++ le 2 (min (oldest - first) 65535) ++ hits.flatMap fun e => e.2.bytes)

/-- Whether SUB or ADDR names a stored word of a unit: none where the unit has none, else the offset of a field out of range. -/
def storedWord (u sub addr : Nat) : Option (Option Nat) :=
  if (1 ≤ u && u ≤ 312) then some none
  else if 313 ≤ u && u ≤ 468 then some (if sub ≤ 511 then none else some 4)
  else if 469 ≤ u && u ≤ 624 then some (if sub ≤ 24575 then none else some 4)
  else if u = uResv then some (if sub < 393216 then none else some 4)
  else if 642 ≤ u && u ≤ 657 then some (if controllerOf addr = some u then none else some 8)
  else none

/-- The checks of ERROR_INJECT (R435). -/
def State.errorInjectChecks (s : State) (c : Command) : List Check :=
  let u := c.u16 0
  let mode := c.u8 2
  let word := storedWord u (c.u32 4) (c.u64 8)
  [failIf (s.fld uDiag 0x050 0 0 == 0) stAuthFail 2, badIf (703 < u || (mode ≤ 1 && word.isNone)) 0,
   badIf (2 < mode) 2, badIf (mode == 2 && (unitTest u).isNone) 0, failIf ((s.xentry u).state == 3) stRetired u,
   (if mode ≤ 1 then word.join.bind fun off => badIf true off else none)]

/-- ERROR_INJECT (R435). -/
def execErrorInject (c : Command) (s : State) : Result := s.live fun s =>
  let u := c.u16 0
  let mode := c.u8 2
  s.checked c (s.errorInjectChecks c)
    fun s =>
      if mode ≤ 1 then
        let w : Injected := ⟨u, c.u32 4, c.u64 8, 1 + mode⟩
        let s := { s with diag := { s.diag with injected := s.diag.injected ++ [w] } }
        s.finish c stOk 0 (le 4 0xFFFFFFFF ++ le 4 0)
      else
        let (type, target) := (unitTest u).getD (0, 0)
        let i := s.diag.nextIndex
        let s := s.logError { type := type, cls := 2, unit := u, sub := c.u32 4, addr := c.u64 8, flags := 1 }
        let s := { s with diag := { s.diag with screens := s.diag.screens.map fun (t : Screen) =>
          if t.unit = target && t.entries.contains i then { t with mustFail := true } else t } }
        let s := if 1 ≤ target && target ≤ 156 && (s.core (target - 1)).task.isNone &&
            (s.core (target - 1)).phase != .repairHold then s.boundary (target - 1) else s
        s.finish c stOk 0 (le 4 i ++ le 4 0)

/-! ## The control cores (R431) -/

/-- HEARTBEAT (R431). -/
def execHeartbeat (n : Nat) (s : State) : Result := s.live fun s =>
  s.onlyIf (n < 4 && !s.diag.controlRetired.contains n) fun s =>
    { s with diag := { s.diag with lastReport := s.diag.lastReport.insert n s.now } }

/-- CONTROL_HEARTBEAT_TIMEOUT (R431): the core is reset and tested; a second timeout within one hour retires it. -/
def execControlHeartbeatTimeout (n : Nat) (s : State) : Result := s.live fun s =>
  s.onlyIf (n < 4 && bitAt s.power.alive n && s.diag.lastReport.get 0 n + 10 * msec ≤ s.now) fun s =>
    let again := (s.diag.timeouts.find? fun e => e.1 == n).any fun e => s.now ≤ e.2 + 3600000 * msec
    let s := { s with
      power := { s.power with alive := putBit s.power.alive n false, timeouts := satAdd 32 s.power.timeouts 1 }
      diag := { s.diag with
        timeouts := s.diag.timeouts.insert n s.now, lastReport := s.diag.lastReport.insert n s.now } }
    if again then
      let r : ErrorReport := { type := 0x70, cls := 2, unit := uWmaster, sub := n }
      let (dtc, s) := s.stamp uWmaster
      ((s.countError r).logEntry r dtc 4).retireControl n false
    else s.logError { type := 0x70, cls := 2, unit := uWmaster, sub := n }

end Sys2Proof.Machine
end

