-- ==== Sys2Proof/Machine/Resilience.lean ====
section
/-! DEFINITION. Freezes, negatives, partners, the loss bound and the slate log (spec/16), as operations on the state of a job slot. -/

namespace Sys2Proof.Machine

abbrev mib : Nat := 2 ^ 20

/-! ## Records -/

/-- A record of spec/16 goes to the queue of the job's latest command of that chapter (R413). -/
def State.resRecord (s : State) (slot type status : Nat) (body : List Byte) : State :=
  match (s.rjob slot).latest with
  | some h => s.recordCmd h type status body
  | none => s

/-- FEED_TAG of the device (R394). -/
def State.feedTag (s : State) : Nat := s.fld uRes 0x018 15 0

/-- PARTNER_STATE (Table 16.9). -/
def State.partnerState (s : State) (slot event partner feed : Nat) : State :=
  s.recordAll 0x5004 (if event = 2 then stCofedRefused else if event = 3 then stPeerSilent else stOk)
    (le 1 slot ++ le 1 event ++ le 2 partner ++ le 2 feed ++ le 2 s.feedTag ++ le 8 s.now)

/-- A BULK message to another device (R393): its payload travels as a packet, which counts in RES_BULK. -/
def State.sendBulk (s : State) (slot dst : Nat) (m : Bulk) (offset : Nat) (payload : List Byte) : State :=
  let (opId, s) := s.draw
  let s := s.originate slot 4 0 dst 0xFF 0 (opId % 65536) 0 offset 0 payload
  (s.bump uRes 0x030 63 0 payload.length).emit (.bulk dst m)

/-! ## Snapshots (R389-R392) -/

/-- Bytes of a list of ranges. -/
def rangeBytes (l : List (Nat × Nat)) : Nat := (l.map (·.2)).sum

/-- The 64 KiB pages of ranges: (offset in their concatenation, address). -/
def rangePages (l : List (Nat × Nat)) : List (Nat × Nat) :=
  (l.foldl (fun (acc : List (Nat × Nat) × Nat) r =>
    (acc.1 ++ (List.range (r.2 / 65536)).map (fun i => (acc.2 + 65536 * i, r.1 + 65536 * i)), acc.2 + r.2)) ([], 0)).1

/-- The non-zero bytes of a physical page, at offsets from `at_`. -/
def State.pageImage (s : State) (pa at_ : Nat) : TMap Byte :=
  (s.memory.bytes.filter fun e => pa ≤ e.1 && e.1 < pa + 65536).map fun e => (e.1 - pa + at_, e.2)

/-- The poisoned granules of a physical page, as offsets in units of 64 bytes from `at_`. -/
def State.pagePoison (s : State) (pa at_ : Nat) : TMap Bool :=
  (s.memory.poison.filter fun e => pa ≤ 64 * e.1 && 64 * e.1 < pa + 65536).map fun e => (e.1 - pa / 64 + at_ / 64, e.2)

/-- The bytes of an image from an offset. -/
def imageBytes (m : TMap Byte) (off n : Nat) : List Byte := (List.range n).map fun i => m.get 0 (off + i)

/-- The CRC-32C of each block of 1 MiB. -/
def blockIndex (m : TMap Byte) (total : Nat) : List Nat :=
  (List.range (ceilDiv total mib)).map fun i => crc32c (imageBytes m (mib * i) (min mib (total - mib * i)))

def Snap.total (x : Snap) : Nat := rangeBytes x.header.ranges
def Snap.blocks (x : Snap) : Nat := ceilDiv x.total mib

/-- The image of ranges in memory; a page that no longer translates gives free values. -/
def State.imageOf (s : State) (slot : Nat) (ranges : List (Nat × Nat)) : (TMap Byte × TMap Bool) × State :=
  (rangePages ranges).foldl (fun (acc : (TMap Byte × TMap Bool) × State) q =>
    let s := acc.2
    match s.translate slot q.2 false with
    | .ok pa =>
      let r := s.readSide pa
      ((acc.1.1 ++ s.pageImage r q.1, acc.1.2 ++ s.pagePoison r q.1), s.vtouch slot q.2 65536)
    | .error _ =>
      let (v, s) := s.freeBytes 65536
      ((acc.1.1 ++ (v.zipIdx.filter fun e => e.1 != 0).map (fun e => (q.1 + e.2, e.1)), acc.1.2), s)) (([], []), s)

/-- The step of the job's next BEGIN (R389). -/
def State.nextStep (s : State) (slot : Nat) : Nat :=
  let j := s.reelJob slot
  let r := s.rjob slot
  if j.phase = .updated then j.step + 1
  else if j.phase = .aborted then j.step
  else match r.lastGated with
    | some g => g + 1
    | none => r.firstStep

/-- The step of the job's newest snapshot. -/
def ResJob.newestStep (r : ResJob) : Option Nat :=
  r.newest.bind fun n => (r.snaps.find? fun e => e.1 == n).map fun e => e.2.header.step

/-- Far-tier channels online. -/
def State.onlineChannels (s : State) : Nat := ((List.range 12).filter fun c => s.farState c == 2).length

/-- The bound of R390 on a stop, ns: 60 µs and the bytes at W. -/
def State.stopBound (s : State) (bytes : Nat) : Nat :=
  let c := s.onlineChannels
  60 * usec + (if 6 ≤ c then ceilDiv bytes 400 else if c = 0 then 0 else ceilDiv (10 * bytes) (667 * c))

/-! ## Negatives (R391-R393, R396, R398) -/

/-- Blocks of the snapshot that the negative in flight is of. -/
def ResJob.flightBlocks (r : ResJob) (n : Negative) : Nat :=
  ((r.snaps.find? fun e => e.1 == n.slot).map fun e => e.2.blocks).getD 0

/-- A block of a negative is sent, in packets of 4,096 bytes. -/
def State.sendBlock (s : State) (slot partner : Nat) (x : Snap) (b : Nat) : State :=
  let n := min mib (x.total - mib * b)
  (List.range (n / 4096)).foldl (fun s i =>
    s.sendBulk slot partner (.piece x.header.step) (mib * b + 4096 * i) (imageBytes x.bytes (mib * b + 4096 * i) 4096)) s

/-- The negative of a snapshot slot starts, or waits for the one in flight; without a live partner there is none. -/
def State.startNegative (s : State) (slot k : Nat) : State :=
  let r := s.rjob slot
  if r.partner = 0xFFFF || r.partnerLost then s
  else if r.negative.isSome then s.setRjob slot { r with negWaiting := some k }
  else match r.snaps.find? fun e => e.1 == k with
    | none => s
    | some e =>
      let x := e.2
      let s := s.setRjob slot { r with
        negative := some ⟨k, x.header.step, r.partner, r.cofed, [], [], s.now⟩
        negWaiting := if r.negWaiting = some k then none else r.negWaiting }
      let s := s.sendBulk slot r.partner (.header x.header) 0 []
      (List.range x.blocks).foldl (fun s b => s.sendBlock slot r.partner x b) s

/-- Bytes of a negative that have been acknowledged. -/
def ResJob.ackedBytes (r : ResJob) (n : Negative) : Nat :=
  match r.snaps.find? fun e => e.1 == n.slot with
  | some e => (n.acked.map fun b => min mib (e.2.total - mib * b)).sum
  | none => 0

/-- The negative in flight is abandoned (Table 16.9); one that waits starts. -/
def State.abandonNegative (s : State) (slot reason : Nat) : State :=
  let r := s.rjob slot
  match r.negative with
  | none => s
  | some n =>
    let s := s.setRjob slot { r with negative := none }
    let s := (s.bump uRes 0x020 15 0 1).resRecord slot 0x5003 (if reason = 3 then stPeerSilent else stCancelled)
      (le 1 slot ++ le 1 reason ++ le 2 n.partner ++ le 4 n.step ++ le 8 (r.ackedBytes n) ++ le 8 s.now)
    match r.negWaiting with
    | some k => s.startNegative slot k
    | none => s

/-- NEGATIVE_DONE (Table 16.9). -/
def State.negativeDone (s : State) (slot other step bytes : Nat) (cofed : Bool) : State :=
  let (st, s) := s.stamp uRes
  s.resRecord slot 0x5002 stOk (le 1 slot ++ le 1 (b2n cofed) ++ le 2 other ++ le 4 step ++ le 8 bytes ++ st.bytes)

/-- Whether every range of `a` lies within one of `b`. -/
def rangesWithin (a b : List (Nat × Nat)) : Bool :=
  a.all fun x => b.any fun y => y.1 ≤ x.1 && x.1 + x.2 ≤ y.1 + y.2

/-- Failed devices whose ranges a completed negative now covers: their holder is told to release them (R399). -/
def State.releaseInherited (s : State) (slot : Nat) (ranges : List (Nat × Nat)) : State :=
  let r := s.rjob slot
  let covered (x : Inherited) : Bool := !x.ranges.isEmpty && rangesWithin x.ranges ranges
  (r.inherited.filter fun e => covered e.2).foldl (fun s e => s.sendBulk slot e.2.holder (.release e.1) 0 [])
    (s.setRjob slot { r with inherited := r.inherited.filter fun e => !covered e.2 })

/-- The old partner is released once the new partner has a negative (R397). -/
def State.releaseOld (s : State) (slot : Nat) : State :=
  let r := s.rjob slot
  match r.oldPartner with
  | none => s
  | some (p, c) =>
    let s := s.setRjob slot { r with
      oldPartner := none, negatives := r.negatives.filter fun n => n.partner != p }
    let s := s.sendBulk slot p (.release s.fabricId) 0 []
    (s.partnerState slot 4 p 0).deferredDone c.hdr stOk 0

/-- Every block of the negative has been acknowledged (R393, R397). -/
def State.finishNegative (s : State) (slot : Nat) (n : Negative) : State :=
  let r := s.rjob slot
  let snap := (r.snaps.find? fun e => e.1 == n.slot).map (·.2)
  let bytes := (snap.map (·.total)).getD 0
  let s := s.setRjob slot { r with
    negative := none, negatives := ⟨n.step, n.partner, n.cofed⟩ :: r.negatives
    phase := if r.phase = .initial then .running else r.phase }
  let s := (s.bump uRes 0x020 31 16 1).negativeDone slot n.partner n.step bytes n.cofed
  let s := (s.releaseInherited slot ((snap.map (·.header.ranges)).getD [])).releaseOld slot
  match r.negWaiting with
  | some k => s.startNegative slot k
  | none => s

/-- A partner acknowledges a block, or refuses it: it is sent again, and after three failures the negative is abandoned (R393). -/
def State.blockAcked (s : State) (slot src step b : Nat) (ok : Bool) : State :=
  let r := s.rjob slot
  match r.negative with
  | none => s
  | some n =>
    if n.partner ≠ src || n.step ≠ step then s
    else if ok then
      let n := { n with acked := b :: n.acked.filter (· != b), sentAt := s.now }
      let s := s.setRjob slot { r with negative := some n }
      if r.flightBlocks n ≤ n.acked.length then s.finishNegative slot n else s
    else
      let fails := n.fails.get 0 b + 1
      let s := s.setRjob slot { r with negative := some { n with fails := n.fails.insert b fails } }
      if 3 ≤ fails then s.abandonNegative slot 6
      else match r.snaps.find? fun e => e.1 == n.slot with
        | some e => s.sendBlock slot src e.2 b
        | none => s

/-- The partner is lost (R398). -/
def State.losePartner (s : State) (slot reason : Nat) : State :=
  let r := s.rjob slot
  let p := r.partner
  let s := s.setRjob slot { r with
    partnerLost := true, negWaiting := none, mirrorSent := [], toMirror := []
    negatives := r.negatives.filter fun n => n.partner != p }
  (s.abandonNegative slot reason).partnerState slot 3 p r.partnerFeed

/-! ## The loss bound (R400) -/

/-- The newest step of a usable negative, None where there is none: the job's own, and every inherited owner's. -/
def ResJob.usable (r : ResJob) : Option Nat :=
  let own := (r.negatives.filter fun n => !n.cofed).foldl (fun (m : Option Nat) n => some (max (m.getD 0) n.step)) none
  r.inherited.foldl (fun m e => match m, e.2.newest with
    | some a, some b => some (min a b)
    | _, _ => none) own

/-- (BOUND, LIVE). -/
def ResJob.lossBound (r : ResJob) : Nat × Nat :=
  match r.usable with
  | none => (0xFFFFFFFF, 0xFFFFFFFF)
  | some c =>
    let live := match r.lastGated with
      | some g => g + 1 - c
      | none => 0
    if r.ringSlates < live then (0xFFFFFFFF, 0xFFFFFFFF) else (max r.interval live, live)

/-! ## The resilience area (R386) -/

/-- MiB that a job's ring and two slots take, and what it holds for others. -/
def ResJob.areaMib (r : ResJob) : Nat :=
  let inbound (i : Inbound) : Nat :=
    ((i.held.map fun h => ceilDiv h.1.total mib).sum) + ceilDiv (i.mirror.length * 4096) mib
  (if r.configured then 2 * ceilDiv (rangeBytes r.ranges) mib + ceilDiv (r.ringSlates * 4096) mib else 0) +
    (r.inbound.map inbound).sum

/-- FREE_MIB. -/
def State.freeMib (s : State) : Nat :=
  s.fld uRes 0x010 63 32 - (s.resil.jobs.map fun e => e.2.areaMib).sum

/-! ## A freeze (R389-R392) -/

/-- A freeze begins: the job is held (R390 step 1). -/
def State.beginFreeze (s : State) (slot : Nat) (f : Freeze) : State :=
  let r := s.rjob slot
  s.setRjob slot { r with
    freeze := some f, takeNext := if f.take.isSome then none else r.takeNext
    phase := if f.kind = 0 then .initial else if r.phase = .running then .freezing else r.phase }

/-- The new partner takes over at a freeze (R397). -/
def State.handOver (s : State) (slot : Nat) : State :=
  let r := s.rjob slot
  match r.nextPartner with
  | none => s
  | some x =>
    let s := s.abandonNegative slot 2
    let r := s.rjob slot
    let s := s.setRjob slot { r with
      nextPartner := none, oldPartner := some (r.partner, x.cmd), partner := x.partner, partnerFeed := x.feed, cofed := x.cofed
      partnerLost := false, negWaiting := none, mirrorSent := [] }
    s.partnerState slot 1 x.partner x.feed

/-- A job's commands that a freeze waits for: all that run but those of spec/16 (R390 step 2). -/
def State.quiescent (s : State) (slot : Nat) (f : Freeze) : Bool :=
  (s.jobQueues (s.job slot).tag).all fun q =>
    (s.queue q).running.all fun c => decide (c.hdr = f.cmd.hdr) || c.hdr.opcode / 0x1000 == 5

/-- The job stops at T0 and its state is copied into the slot that does not hold the newest snapshot (R390 step 3, R391). -/
def State.stopJob (s : State) (slot : Nat) (f : Freeze) : State :=
  let (t0, s) := s.stamp uRes
  let k := match (s.rjob slot).newest with
    | some 0 => 1
    | _ => 0
  let s := if (s.rjob slot).negative.any fun n => n.slot == k then s.abandonNegative slot 1 else s
  let s := s.handOver slot
  let r := s.rjob slot
  let ((bytes, poison), s) := s.imageOf slot r.ranges
  let tags : List (Nat × Nat × Nat) := (List.range 16).filterMap fun i =>
    let x := s.shard i
    if x.valid && x.slot == slot then some (x.base, x.len, x.tag) else none
  let h : NegHeader := ⟨(s.job slot).tag, f.step, (s.fjob slot).epoch, s.fabricId, s.feedTag, r.ranges, tags,
    blockIndex bytes (rangeBytes r.ranges)⟩
  let s := s.setRjob slot { r with
    snaps := r.snaps.insert k ⟨h, bytes, poison⟩, newest := some k, frozenFor := some f.step
    boundStop := s.stopBound (rangeBytes r.ranges)
    negWaiting := if r.negWaiting = some k then none else r.negWaiting
    freeze := some { f with stopped := some (t0, k) } }
  if f.kind = 0 then s.startNegative slot k else s

/-- FREEZE_STOP (R390, R391). -/
def execFreezeStop (slot : Nat) (s : State) : Result := s.live fun s =>
  match (s.rjob slot).freeze with
  | none => s
  | some f => s.onlyIf (f.stopped.isNone && s.quiescent slot f) fun s => s.stopJob slot f

/-! ## Slates (R383-R387) -/

/-- The entry of the log that a step's slate takes. -/
def ResJob.slate (r : ResJob) (step : Nat) : Option (List Byte) :=
  ((r.slates.find? fun e => e.1 == step % (max 1 r.ringSlates)).map (·.2)).filter fun b => leAt b 8 4 == step

/-- The newest step in the log. -/
def ResJob.newestLogged (r : ResJob) : Option Nat :=
  r.slates.foldl (fun (m : Option Nat) e => some (max (m.getD 0) (leAt e.2 8 4))) none

/-- The counts from which the dailies of a step are taken (R385). -/
def State.dailyCounts (s : State) : List Nat :=
  [s.diag.corrected, ((List.range 16).map fun p => s.fld (uLink p) 0x020 63 32).sum, s.fld uResv 0x038 63 32, s.sched.hgPlaced]

/-- The gate's half of a slate (R383): the loss terms and JOB_STATS of REPORT_VA, the dailies, the status; then its CRC. -/
def slateBytes (h : SlateHalf) (flags jobTag status : Nat) (gate : Stamp) (report dailies : List Byte) : List Byte :=
  let body (crc : Nat) : List Byte :=
    [0x53#8, 0x4C#8, 0x54#8, 0x31#8] ++ le 2 1 ++ le 2 flags ++ le 4 h.step ++ le 4 h.epoch ++ le 4 jobTag ++ le 2 h.fabric ++
      le 2 h.samples ++ le 8 h.seed ++ report.take 16 ++ le 4 (h.replay.getD h.epoch) ++ le 4 crc ++ le 2 status ++ le 6 0 ++
      h.begin.bytes ++ gate.bytes ++ le 160 0 ++ dailies ++ h.entries ++ le (3328 - h.entries.length) 0
  body (crc32c (body 0))

/-- The 512 bytes of the dailies (Table 16.2). -/
def State.dailies (s : State) (slot : Nat) (h : SlateHalf) (gateWait : Nat) (report : List Byte) : List Byte :=
  let now := s.dailyCounts
  let diff (i : Nat) : Nat := min (now.getD i 0 - h.counts.getD i 0) 0xFFFFFFFF
  let (bound, live) := (s.rjob slot).lossBound
  le 8 (s.now - h.begin.ns) ++ le 4 h.stopNs ++ le 4 gateWait ++ le 4 (diff 3) ++ le 4 (s.sched.stepMaxNs.get 0 slot) ++
    le 4 (diff 0) ++ le 4 (diff 1) ++ le 4 (diff 2) ++ le 4 (min (s.sched.taskFaults.get 0 slot) 0xFFFFFFFF) ++
    le 4 live ++ le 4 bound ++ le 80 0 ++ (report.drop 16).take 240 ++ le 144 0

/-- BEGIN's half of the slate (R383): what the staging buffer gives, and the counts at BEGIN. -/
def State.beginSlate (s : State) (slot step : Nat) (stage : List Byte) : State :=
  let r := s.rjob slot
  let (st, s) := s.stamp uRes
  let frozen := r.frozenFor == some step
  let replay := match r.replayTo with
    | some n => if step ≤ n then (r.slate step).map fun b => leAt b 0xC 4 else none
    | none => none
  let half : SlateHalf := ⟨leAt stage 0x18 8, leAt stage 0x16 2, (stage.drop 0x300).take (32 * leAt stage 0x16 2), step,
    (s.fjob slot).epoch, s.fabricId, st, frozen, replay, if frozen then r.lastStop else 0, s.dailyCounts⟩
  let s := s.setRjob slot { r with half := some half, skip := false }
  { s with sched := { s.sched with
    stepMaxNs := s.sched.stepMaxNs.insert slot 0, taskFaults := s.sched.taskFaults.insert slot 0 } }

/-- BEGIN of step n takes effect (R205, R214, R237, R383): the ledger is cleared, the job is IN_STEP, the non-finite flags of its
cores are cleared. `stage`: the staging buffer, where the job has a freeze configuration. -/
def State.enterStep (s : State) (slot step : Nat) (stage : Option (List Byte)) : State :=
  let s := s.setReelJob slot { s.reelJob slot with phase := .inStep, step := step, openIds := [], closedIds := [] }
  let s := (s.jobCores slot).foldl (fun s c => match s.physOf c with
    | some p => { s with conts := { s.conts with nonfinite := s.conts.nonfinite.set false (p * 64 + slot) false } }
    | none => s) s
  let r := s.rjob slot
  let s := s.setRjob slot { r with
    begun := step :: r.begun.filter (· != step), skip := false
    phase := if r.phase = .recovering then .running else r.phase }
  match stage with
  | some b => s.beginSlate slot step b
  | none => s

/-- The 16-byte result of `reel_config` (R212). -/
def State.reelResult (s : State) (slot cores : Nat) : List Byte :=
  let j := s.reelJob slot
  let code := match j.phase with
    | .none => 0 | .configured => 1 | .inStep => 2 | .gatePending => 3 | .updated => 4 | .aborted => 5
  le 4 j.step ++ le 1 code ++ le 1 0 ++ le 2 j.openIds.length ++ le 4 cores ++ le 4 0

/-- BEGIN goes on to its effect: the staging buffer is read and checked (R383), the step is entered, the command completes. -/
def State.runBegin (s : State) (c : Command) (slot : Nat) : State :=
  let step := c.u32 8
  let r := s.rjob slot
  let enter (s : State) (stage : Option (List Byte)) : State :=
    let s := s.enterStep slot step stage
    s.finish c stOk 0 (s.reelResult slot (s.jobCores slot).length)
  if r.configured then
    s.readRecord c uRes r.stageVa 4096 fun b s =>
      if 104 < leAt b 0x16 2 then s.finish c stBadParam 0x8016 [] else enter s (some b)
  else enter s none

/-! ## The end of a freeze -/

/-- FREEZE_RESUME (R390 step 4, R392): the copy has ended, and, for the initial freeze, its negative is complete. What the trigger
asked for goes on. -/
def execFreezeResume (slot : Nat) (s : State) : Result := s.live fun s =>
  let r := s.rjob slot
  match r.freeze with
  | none => s
  | some f => match f.stopped with
    | none => s
    | some (t0, k) =>
      s.onlyIf (f.kind != 0 || r.negatives.any fun n => n.step == f.step) fun s =>
        let (t1, s) := s.stamp uRes
        let stop := t1.ns - t0.ns
        let bytes := rangeBytes r.ranges
        let s := s.setRjob slot { s.rjob slot with
          freeze := none, lastStop := stop, phase := if r.phase = .freezing then .running else (s.rjob slot).phase }
        let s := s.bump uRes 0x020 63 32 1
        let s := s.resRecord slot 0x5001 stOk
          (le 1 slot ++ le 1 k ++ le 2 0 ++ le 4 f.step ++ le 4 stop ++ le 4 r.boundStop ++ le 8 bytes ++ t0.bytes ++ t1.bytes)
        let taken := le 4 f.step ++ le 4 stop ++ le 8 bytes ++ le 8 t1.ns
        let done (s : State) (c : Command) : State := s.deferredDoneWith c.hdr stOk (le 2 0 ++ le 6 0 ++ taken)
        let s := if f.kind = 0 then s else s.startNegative slot k
        let s := match f.take with
          | some c => done s c
          | none => s
        if f.kind = 0 then s.deferredDone f.cmd.hdr stOk 0
        else if f.kind = 1 then s.runBegin f.cmd slot
        else done s f.cmd

/-! ## The gate (R207, R383, R404) -/

/-- Whether the gate's condition holds: no open entry in the ledger, no gather of the step in flight (R207). -/
def State.gateReady (s : State) (slot : Nat) : Bool :=
  let j := s.reelJob slot
  j.openIds.isEmpty && !(s.fabric.collectives.any fun c => c.slot == slot && c.gather && c.ledgerStep == some j.step)

/-- The tags advance, the guard lifts, the job is UPDATED (R207). -/
def State.advanceTags (s : State) (slot : Nat) : State :=
  let j := s.reelJob slot
  let bumpTag (x : Shard) : Shard := if x.valid && x.slot = slot then { x with tag := (j.step + 1) % 2 ^ 32 } else x
  let s := { s with reels := { s.reels with shards := s.reels.shards.map fun (e : Nat × Shard) => (e.1, bumpTag e.2) } }
  let s := s.setReelJob slot { j with phase := .updated, gateCmd := none }
  s.setRjob slot { s.rjob slot with lastGated := some j.step }

/-- The slate of the step is written to the log (R383, R387). -/
def State.writeSlate (s : State) (slot gateWait : Nat) (report : List Byte) (status : Nat) (retake : Bool) : State :=
  let r := s.rjob slot
  match r.half with
  | none => s
  | some h =>
    let (st, s) := s.stamp uRes
    let flags := b2n h.frozen + 2 * b2n h.replay.isSome + 4 * b2n retake + 8 * b2n r.inheritor
    let bytes := slateBytes h flags (s.job slot).tag status st report (s.dailies slot h gateWait report)
    let more := match r.newestSlate with
      | some n => max n h.step
      | none => h.step
    s.setRjob slot { r with
      half := none, slates := r.slates.insert (h.step % (max 1 r.ringSlates)) bytes, newestSlate := some more
      toMirror := r.toMirror ++ [h.step] }

/-- RETAKE (Table 16.9). -/
def State.retakeRecord (s : State) (slot : Nat) (x : Retake) (detail : Nat) (found : List Byte) (status : Nat)
    (recStatus : Nat) : State :=
  s.resRecord slot 0x5005 recStatus
    (le 1 slot ++ le 1 detail ++ le 2 0 ++ le 4 x.step ++ x.loss ++ found ++ le 2 x.status ++ le 2 status ++ le 4 0 ++ le 8 s.now)

/-- The first loss term that differs, or 4 where only the status does (R404). -/
def divergence (x : Retake) (found : List Byte) (status : Nat) : Option Nat :=
  match (List.range 4).find? fun i => leAt x.loss (4 * i) 4 != leAt found (4 * i) 4 with
  | some i => some i
  | none => if x.status ≠ status then some 4 else none

/-- A gate command completes: with a reply, or with DEFERRED_DONE where it has been answered ST_DEFERRED. -/
def State.gateAnswer (s : State) (slot : Nat) (c : Command) (deferred : Bool) (status detail : Nat) : State :=
  if deferred then s.deferredDone c.hdr status detail else s.finish c status detail (s.reelResult slot (s.jobCores slot).length)

/-- The gate's condition holds: a retake is compared, the tags advance, the slate is written, the gate completes (R207, R404). -/
def State.openGate (s : State) (slot : Nat) (c : Command) (deferred : Bool) (gateWait : Nat) : State :=
  let r := s.rjob slot
  let j := s.reelJob slot
  let (report, s) : List Byte × State :=
    if r.half.isSome then
      match s.vread slot r.reportVa 256 with
      | .ok (b, _) => (b, s.vtouch slot r.reportVa 256)
      | .error f => (s.vfault c.hdr slot uRes f).freeBytes 256
    else ([], s)
  let status := if r.skip then stNonfiniteSkip else stOk
  let armed := r.retake.filter fun x => x.step == j.step
  let found := report.take 16
  let pass (s : State) (retake : Bool) : State :=
    (s.advanceTags slot).writeSlate slot gateWait report status retake
  match armed with
  | none => (pass s false).gateAnswer slot c deferred stOk 0
  | some x => match divergence x found status with
    | none =>
      let s := pass s true
      let s := s.setRjob slot { s.rjob slot with retake := none, lastOk := some j.step }
      let s := (s.bump uRes 0x028 31 16 1).retakeRecord slot x 0 found status stOk
      (s.deferredDone x.cmd.hdr stOk 0).gateAnswer slot c deferred stOk 0
    | some d =>
      let (st, s) := s.stamp uRes
      let s := s.setReelJob slot { s.reelJob slot with gateCmd := none }
      let s := s.abortStep slot ⟨5, 0xFFFF, 0, 0, 0, st, c.hdr⟩
      let s := s.gateAnswer slot c deferred stCancelled 0x0501
      let s := s.setRjob slot { s.rjob slot with retake := none, phase := .diverged, half := none }
      let s := (s.bump uRes 0x028 31 16 1).bump uRes 0x028 15 0 1
      (s.retakeRecord slot x d found status stReplayDiverged).deferredDone x.cmd.hdr stReplayDiverged d

/-! ## Data held for others (R388, R393, R396, R399) -/

/-- What the device holds for another device of the job; an entry is made for it while there is room for 4. -/
def State.inboundOf (s : State) (slot owner : Nat) : Option Inbound :=
  match (s.rjob slot).inbound.find? fun i => i.owner == owner with
  | some i => some i
  | none => if (s.rjob slot).inbound.length < 4 then some ⟨owner, [], [], none, [], []⟩ else none

def State.setInbound (s : State) (slot : Nat) (i : Inbound) : State :=
  let r := s.rjob slot
  let has := r.inbound.any fun x => x.owner == i.owner
  let l := if has then r.inbound.map fun x => if x.owner = i.owner then i else x else r.inbound ++ [i]
  s.setRjob slot { r with inbound := l }

/-- Pieces of a snapshot are complete for a block. -/
def blockFull (pieces : TMap Nat) (total b : Nat) : Bool :=
  (List.range (min mib (total - mib * b) / 4096)).all fun i => pieces.get 0 (mib * b + 4096 * i) != 0

/-- A piece of an image takes its place. -/
def Snap.put (x : Snap) (off : Nat) (data : List Byte) : Snap := { x with bytes := putBytes x.bytes off data }

/-- Whether a block of an image agrees with its entry of the block index. -/
def Snap.blockOk (x : Snap) (b : Nat) : Bool :=
  x.header.crcs.getD b 0 == crc32c (imageBytes x.bytes (mib * b) (min mib (x.total - mib * b)))

/-- A piece of an inbound negative (R393): a full block is checked and acknowledged, and the last one makes the negative complete. -/
def State.pieceIn (s : State) (slot src step off : Nat) (data : List Byte) : State :=
  match s.inboundOf slot src with
  | none => s
  | some i => match i.arriving with
    | none => s
    | some x =>
      if x.header.step ≠ step then s
      else
        let x := x.put off data
        let pieces := i.pieces.insert off 1
        let b := off / mib
        let s := s.setInbound slot { i with arriving := some x, pieces := pieces }
        if !blockFull pieces x.total b || i.verified.contains b then s
        else if !x.blockOk b then
          (s.setInbound slot { i with
            arriving := some x, pieces := pieces.filter fun e => e.1 / mib != b }).sendBulk slot src (.blockAck step b false) 0 []
        else
          let verified := b :: i.verified
          let s := (s.setInbound slot { i with arriving := some x, pieces := pieces, verified := verified }).sendBulk slot src
            (.blockAck step b true) 0 []
          if verified.length < x.blocks then s
          else
            let cofed := x.header.feed == s.feedTag
            let s := s.setInbound slot { i with arriving := none, pieces := [], verified := [], held := (x, cofed) :: i.held.take 1 }
            let s := s.negativeDone slot src step x.total cofed
            if cofed then s.partnerState slot 2 src x.header.feed else s

/-- Data held for a device is released (R399). -/
def State.dropInbound (s : State) (slot owner : Nat) : State :=
  let r := s.rjob slot
  s.setRjob slot { r with inbound := r.inbound.filter fun i => i.owner != owner }

/-- The snapshot of a step that the device holds of an owner: its own, or a complete negative. -/
def State.heldSnap (s : State) (slot owner step : Nat) : Option Snap :=
  let r := s.rjob slot
  if owner = s.fabricId then (r.snaps.find? fun e => e.2.header.step == step).map (·.2)
  else (r.inbound.find? fun i => i.owner == owner).bind fun i =>
    (i.held.find? fun h => h.1.header.step == step).map (·.1)

/-! ## Pairing (R395-R397) -/

/-- A pairing takes effect at once. -/
def State.pairNow (s : State) (slot : Nat) (x : Pairing) : State :=
  let r := s.rjob slot
  let s := s.setRjob slot { r with
    partner := x.partner, partnerFeed := x.feed, cofed := x.cofed, partnerLost := false, mirrored := none, mirrorSent := []
    phase := if r.phase = .none then .partnered else r.phase }
  s.partnerState slot 1 x.partner x.feed

/-- The 16-byte result of `partner_set` (R409). -/
def State.pairResult (s : State) (x : Pairing) (atOnce : Bool) : List Byte :=
  le 2 x.partner ++ le 2 x.feed ++ le 2 s.feedTag ++ le 1 (b2n x.cofed) ++ le 1 (b2n atOnce) ++ le 8 0

/-- The answer to a handshake (R395-R397). -/
def State.answered (s : State) (slot src feed twin : Nat) (holdsJob room : Bool) : State :=
  let r := s.rjob slot
  match r.handshake with
  | none => s
  | some x =>
    if x.partner ≠ src then s
    else
      let s := s.setRjob slot { r with handshake := none }
      let x := { x with feed := feed, cofed := feed == s.feedTag, answered := true }
      if feed = 0 || !holdsJob || (s.fabric.twinConfig && twin == s.timecode.twin) then s.badParam x.cmd 0
      else if !room then s.finish x.cmd stNoResource 0xB2 []
      else if x.cofed && !x.cmd.hdr.force then s.finish x.cmd stCofedRefused 0 []
      else if r.partner ≠ 0xFFFF && !r.partnerLost then
        (s.setRjob slot { s.rjob slot with nextPartner := some x }).defer x.cmd 0 (s.pairResult x false)
      else (s.pairNow slot x).finish x.cmd stOk 0 (s.pairResult x true)

end Sys2Proof.Machine
end

