-- ==== Sys2Proof/Machine/ReelCommands.lean ====
section
/-! DEFINITION. `reel_config` and the update gate (R204-R214), with what they begin and end of a step's slate (R383, R389). -/

namespace Sys2Proof.Machine

/-- Blocks of fields that an OP does not use must be zero (R5): offset and size of each. -/
abbrev reelUnused (c : Command) (l : List (Nat × Nat)) : Check := unusedBad c l

/-- The logical cores of the allotment with their physical cores. -/
def State.coresOf (s : State) (slot : Nat) : List (Nat × Nat) :=
  (s.jobCores slot).filterMap fun c => (s.physOf c).map fun p => (c, p)

/-- Whether every reel of the job is empty. -/
def State.reelsEmpty (s : State) (slot : Nat) : Bool :=
  s.reels.cores.all fun e => e.2.slot != some slot || e.2.depth == 0 && e.2.marks.isEmpty && e.2.held.isEmpty

/-- Whether a ring of lines meets an open turnout or an enabled take region of a core (R213). -/
def State.ringMeets (s : State) (p base lines : Nat) : Bool :=
  ((List.range 16).any fun t =>
    let x := s.turnout p t
    x.accepting && meets base lines x.base x.lines) ||
  (List.range 16).any fun t =>
    let v := s.reg (uSpad p) (0x300 + 8 * t)
    bitAt v 63 && meets base lines (bits v 15 0) (bits v 31 16)

/-- Whether a page of the spillway does not translate, or lies in the far tier where that is not allowed (R213). -/
def State.spillBad (s : State) (slot va n : Nat) (allowFar : Bool) : Bool :=
  (List.range (ceilDiv (va % 65536 + n) 65536)).any fun i =>
    let a := if i = 0 then va else va - va % 65536 + 65536 * i
    match s.translate slot a true with
    | .ok pa => !allowFar && (farOf pa).isSome
    | .error _ => true

/-- The checks of REEL_CONFIG (R213). -/
def State.reelConfigChecks (s : State) (c : Command) : List Check :=
  let slot := s.cmdSlot c.hdr
  let base := c.u16 2
  let lines := c.u16 4
  let spill := c.u32 0xC
  let cores := s.coresOf slot
  let check := c.ex (c.u8 0x20) 1
  let far := c.ex (c.u8 0x21) 0
  [badIf (c.u8 0 != 0) 0, reelUnused c [(1, 1), (6, 1), (8, 4), (0x24, 4)],
   badIf (s.inStep slot || !s.reelsEmpty slot) 0,
   badIf (lines != 0 && 24575 < base) 2, badIf (24576 < base + lines) 4, badIf (16777216 < spill) 0xC,
   badIf (c.u64 0x10 % 2 ^ 24 != 0 || 2 ^ 57 ≤ c.u64 0x10) 0x10, badIf (c.u64 0x18 % 128 != 0) 0x18,
   badIf (1 < check) 0x20, badIf (1 < far) 0x21,
   badIf (lines != 0 && cores.any fun x => s.ringMeets x.2 base lines) 2,
   failIf (cores.any fun x => (s.reel x.1).slot.any fun o => o != slot) stNoResource 0x63,
   badIf (lines != 0 && check == 1 && spill != 0 &&
     cores.any fun x => s.spillBad slot (c.u64 0x18 + x.1 * spill * 128) (128 * spill) (far == 1)) 0x18]

/-- REEL_CONFIG (R213): OP CONFIG; another value of OP than those of Table 9.8 is refused. -/
def execReelConfig (c : Command) (s : State) : Result := s.live fun s =>
  let slot := s.cmdSlot c.hdr
  let j := s.reelJob slot
  let base := c.u16 2
  let lines := c.u16 4
  let spill := c.u32 0xC
  let cores := s.coresOf slot
  s.checked c (s.reelConfigChecks c)
    fun s =>
      let s := if lines = 0 then
          let s := cores.foldl (fun s x => if (s.reel x.1).slot = some slot then s.setReel x.1 {} else s) s
          s.setReelJob slot { j with ringBase := 0, ringLines := 0, spillLines := 0, spillVa := 0, reelVa := 0
                                     phase := if j.phase = .configured then .none else j.phase }
        else
          let s := cores.foldl (fun s x => (s.setEmptyRange x.2 base lines).setReel x.1 { slot := some slot }) s
          s.setReelJob slot { j with ringBase := base, ringLines := lines, spillLines := spill, spillVa := c.u64 0x18
                                     reelVa := c.u64 0x10, phase := if j.phase = .none then .configured else j.phase }
      s.finish c stOk 0 (s.reelResult slot cores.length)

/-- Whether a BEGIN takes a freeze first, and the `freeze_take` that asked for it (R389, R407). -/
def State.freezeDue (s : State) (slot step : Nat) : Option (Option Command) :=
  let r := s.rjob slot
  if !r.configured || r.frozenFor == some step && r.newestStep == some step && r.takeNext.isNone then none
  else match r.takeNext with
    | some c => some (some c)
    | none =>
      if r.interval ≠ 0 && r.firstStep ≤ step && (step - r.firstStep) % r.interval == 0 && r.newestStep != some step then
        some none
      else none

/-- The checks of REEL_BEGIN (R205, R214, R383, R389). -/
def State.reelBeginChecks (s : State) (c : Command) : List Check :=
  let slot := s.cmdSlot c.hdr
  let j := s.reelJob slot
  let step := c.u32 8
  let ok := match j.phase with
    | .configured => true
    | .updated => step == j.step + 1
    | .aborted => step == j.step
    | _ => false
  [badIf (c.u8 0 != 1) 0, reelUnused c [(1, 1), (2, 2), (4, 2), (6, 1), (0xC, 4), (0x10, 8), (0x18, 8), (0x20, 2), (0x24, 4)],
   badIf (!s.reelsEmpty slot) 0, badIf (!ok) 8]

/-- REEL_BEGIN (R205, R214, R383, R389). -/
def execReelBegin (c : Command) (s : State) : Result := s.live fun s =>
  let slot := s.cmdSlot c.hdr
  let step := c.u32 8
  s.checked c (s.reelBeginChecks c)
    fun s => match s.freezeDue slot step with
      | some take =>
        let above : Bool := match s.vread slot (s.rjob slot).stageVa 4096 with
          | .ok (b, _) => decide (104 < leAt b 0x16 2)
          | .error _ => false
        if above then s.finish c stBadParam 0x8016 []
        else s.beginFreeze slot { kind := 1, cmd := c, take := take, step := step, stopped := none }
      | none => s.runBegin c slot

/-- The checks of REEL_UPDATE (R207, R214). -/
def State.reelUpdateChecks (s : State) (c : Command) : List Check :=
  let slot := s.cmdSlot c.hdr
  let j := s.reelJob slot
  let limit := if c.expert then c.u32 0x24 else s.fld uMmu 0x5B08 63 32
  [badIf (c.u8 0 != 2) 0, reelUnused c [(1, 1), (2, 2), (4, 2), (6, 1), (0xC, 4), (0x10, 8), (0x18, 8), (0x20, 2)],
   badIf (j.phase != .inStep) 0, badIf (c.u32 8 != j.step) 8, badIf (c.expert && (limit = 0 || 600000 < limit)) 0x24]

/-- REEL_UPDATE (R207, R214). -/
def execReelUpdate (c : Command) (s : State) : Result := s.live fun s =>
  let slot := s.cmdSlot c.hdr
  let j := s.reelJob slot
  let limit := if c.expert then c.u32 0x24 else s.fld uMmu 0x5B08 63 32
  s.checked c (s.reelUpdateChecks c)
    fun s =>
      if s.gateReady slot then s.openGate slot c false 0
      else
        let s := s.setReelJob slot { j with phase := .gatePending, gateCmd := some c, gateDue := s.now + limit * msec }
        s.defer c 0 (s.reelResult slot (s.jobCores slot).length)

/-- The command of a pending gate and when its answer ST_DEFERRED was sent: its limit less LIMIT_MS. -/
def State.gateSince (s : State) (slot : Nat) (c : Command) : Nat :=
  (s.reelJob slot).gateDue - (if c.expert then c.u32 0x24 else s.fld uMmu 0x5B08 63 32) * msec

/-- UPDATE_GATE_OPEN (R207). -/
def execUpdateGateOpen (slot : Nat) (s : State) : Result := s.live fun s =>
  let j := s.reelJob slot
  match j.gateCmd with
  | none => s
  | some c => s.onlyIf (j.phase == .gatePending && s.gateReady slot) fun s =>
      s.openGate slot c true (s.now - s.gateSince slot c)

/-- UPDATE_GATE_TIMEOUT (R207): the job stays IN_STEP. -/
def execUpdateGateTimeout (slot : Nat) (s : State) : Result := s.live fun s =>
  let j := s.reelJob slot
  match j.gateCmd with
  | none => s
  | some c => s.onlyIf (j.phase == .gatePending && j.gateDue ≤ s.now) fun s =>
      (s.setReelJob slot { j with phase := .inStep, gateCmd := none }).deferredDone c.hdr stCancelled 0x62

/-- The checks of REEL_SHARD (R204, R214). -/
def State.reelShardChecks (s : State) (c : Command) : List Check :=
  let slot := s.cmdSlot c.hdr
  let k := c.u8 1
  let valid := c.u8 6
  let base := c.u64 0x10
  let len := c.u64 0x18
  let x := s.shard k
  let overlap := (List.range 16).any fun i =>
    let y := s.shard i
    i != k && y.valid && y.slot == slot && meets base len y.base y.len
  [badIf (c.u8 0 != 3) 0, reelUnused c [(2, 2), (4, 2), (0xC, 4), (0x20, 2), (0x24, 4)],
   badIf (s.inStep slot) 0, badIf (15 < k || (x.valid && x.slot != slot)) 1, badIf (1 < valid) 6,
   badIf (valid == 1 && (base % 65536 != 0 || 2 ^ 57 ≤ base)) 0x10,
   badIf (valid == 1 && (len % 65536 != 0 || len = 0 || 2 ^ 57 < base + len)) 0x18, badIf (valid == 1 && overlap) 0x10]

/-- REEL_SHARD (R204, R214). -/
def execReelShard (c : Command) (s : State) : Result := s.live fun s =>
  let slot := s.cmdSlot c.hdr
  let k := c.u8 1
  let valid := c.u8 6
  let base := c.u64 0x10
  let len := c.u64 0x18
  let x := s.shard k
  s.checked c (s.reelShardChecks c)
    fun s =>
      let s := s.setShard k (if valid = 1 then
          { valid := true, slot := slot, base := base, len := len, tag := c.u32 8, lastRecord := x.lastRecord } else {})
      s.finish c stOk 0 (s.reelResult slot 0)

/-- The checks of REEL_CLEAR (R214). -/
def State.reelClearChecks (s : State) (c : Command) : List Check :=
  let slot := s.cmdSlot c.hdr
  [badIf (c.u8 0 != 4) 0,
   reelUnused c [(1, 1), (2, 2), (4, 2), (6, 1), (8, 4), (0xC, 4), (0x10, 8), (0x18, 8), (0x20, 2), (0x24, 4)],
   badIf (s.inStep slot) 0]

/-- REEL_CLEAR (R214). -/
def execReelClear (c : Command) (s : State) : Result := s.live fun s =>
  let slot := s.cmdSlot c.hdr
  s.checked c (s.reelClearChecks c)
    fun s =>
      let cs := s.jobCores slot
      let s := cs.foldl (fun s c => s.clearReel slot c) s
      s.finish c stOk 0 (s.reelResult slot cs.length)

end Sys2Proof.Machine
end

