-- ==== Sys2Proof/Machine/ResCommands.lean ====
section
/-! DEFINITION. The commands and events of the resilience unit (spec/16). -/

namespace Sys2Proof.Machine

/-- A command of spec/16 is the job's latest from its dispatch on (R413). -/
def State.latestRes (s : State) (c : Command) : State :=
  let slot := s.cmdSlot c.hdr
  s.setRjob slot { s.rjob slot with latest := some c.hdr }

/-! ## BULK packets -/

/-- A slate for the mirror of its sender (R388). -/
def State.mirrorIn (s : State) (slot src step : Nat) (data : List Byte) : State :=
  match s.inboundOf slot src with
  | none => s
  | some i =>
    let ring := (s.rjob slot).ringSlates
    let kept := i.mirror.filter fun e => ring = 0 || step < e.1 + ring
    (s.setInbound slot { i with mirror := TMap.insert kept step data }).sendBulk slot src (.slateAck step) 0 []

/-- A partner has acknowledged a slate (R388). -/
def State.mirrorAcked (s : State) (slot src step : Nat) : State :=
  let r := s.rjob slot
  if r.partner ≠ src then s
  else s.setRjob slot { r with
    mirrorSent := r.mirrorSent.erase step
    mirrored := match r.mirrored with
      | some m => some (max m step)
      | none => some step }

/-- The header of an inbound negative: it takes the older of the owner's two slots (R393). -/
def State.headerIn (s : State) (slot src : Nat) (h : NegHeader) : State :=
  match s.inboundOf slot src with
  | none => s
  | some i => s.setInbound slot { i with arriving := some ⟨h, [], []⟩, pieces := [], verified := [], held := i.held.take 1 }

/-- A holder is asked for a negative (R403): it sends its header and its blocks, or says that it does not hold it. -/
def State.loadAsked (s : State) (slot src owner step : Nat) : State :=
  match s.heldSnap slot owner step with
  | none => s.sendBulk slot src (.loadRefused 0) 0 []
  | some x =>
    let s := s.sendBulk slot src (.loadHeader x.header) 0 []
    (List.range (x.total / 4096)).foldl (fun s i =>
      s.sendBulk slot src (.loadPiece step) (4096 * i) (imageBytes x.bytes (4096 * i) 4096)) s

/-- Whether a `negative_load` in progress takes data from a device. -/
def ResJob.loadFrom (r : ResJob) (src : Nat) : Option Load := r.load.filter fun l => l.holder == src

/-- The next `negative_load` of the job starts (R403). -/
def State.startLoad (s : State) (slot : Nat) (c : Command) : State :=
  let r := s.rjob slot
  let owner := if c.u16 0 = 0xFFFF then s.fabricId else c.u16 0
  let dests := (List.range 16).map fun i => c.u64 (8 + 8 * i)
  let step := c.u32 4
  let l : Load := ⟨c, owner, c.u16 2, step, dests, none, [], []⟩
  if c.u16 2 = 0xFFFF || c.u16 2 = s.fabricId then
    match s.heldSnap slot owner step with
    | some x => s.setRjob slot { r with load := some { l with holder := s.fabricId, snap := some x } }
    | none => s.deferredDone c.hdr stNoNegative 0
  else (s.setRjob slot { r with load := some l }).sendBulk slot (c.u16 2) (.loadRequest owner step) 0 []

/-- A `negative_load` ends; the next one starts. -/
def State.endLoad (s : State) (slot status detail : Nat) (result : List Byte) : State :=
  let r := s.rjob slot
  match r.load with
  | none => s
  | some l =>
    let s := s.setRjob slot { r with load := none, loads := r.loads.drop 1 }
    let s := s.deferredDoneWith l.cmd.hdr status (le 2 detail ++ le 6 0 ++ result)
    match r.loads.head? with
    | some c => s.startLoad slot c
    | none => s

/-- A piece of a negative that is being loaded (R403): a block that fails its check three times ends the load. -/
def State.loadPieceIn (s : State) (slot src off : Nat) (data : List Byte) : State :=
  let r := s.rjob slot
  match r.loadFrom src with
  | none => s
  | some l => match l.snap with
    | none => s
    | some x =>
      let x := x.put off data
      let b := off / mib
      let got := off :: l.got.filter (· != off)
      let l := { l with snap := some x, got := got }
      let full := (List.range (min mib (x.total - mib * b) / 4096)).all fun i => got.contains (mib * b + 4096 * i)
      if !full || x.blockOk b then s.setRjob slot { r with load := some l }
      else
        let n := l.fails.get 0 b + 1
        let s := s.setRjob slot { r with load := some { l with
          got := got.filter fun o => o / mib != b, fails := l.fails.insert b n } }
        if 3 ≤ n then s.endLoad slot stNoNegative 1 [] else s.sendBulk slot src (.loadRequest l.owner l.step) 0 []

/-- BULK_PACKET (R388, R393, R395-R399, R403). A packet of a job that the device does not have is dropped (R328). -/
def execBulkPacket (f : Frame) (b : Bulk) (s : State) : Result := s.live fun s =>
  s.frameIn f 4 fun s slot =>
    let k := f.packet
    let s := s.acceptPacket slot k
    match b with
    | .slate step => s.mirrorIn slot k.src step k.payload
    | .slateAck step => s.mirrorAcked slot k.src step
    | .header h => s.headerIn slot k.src h
    | .piece step => s.pieceIn slot k.src step k.offset k.payload
    | .blockAck step b ok => s.blockAcked slot k.src step b ok
    | .release owner => (s.dropInbound slot owner).partnerState slot 4 owner 0
    | .loadRequest owner step => s.loadAsked slot k.src owner step
    | .loadHeader h => match (s.rjob slot).loadFrom k.src with
      | some l => s.setRjob slot { s.rjob slot with load := some { l with snap := some ⟨h, [], []⟩ } }
      | none => s
    | .loadPiece _ => s.loadPieceIn slot k.src k.offset k.payload
    | .loadRefused d => if ((s.rjob slot).loadFrom k.src).isSome then s.endLoad slot stNoNegative d [] else s
    | .answer feed twin holdsJob room => s.answered slot k.src feed twin holdsJob room
    | .handshake _ => s

/-- PARTNER_HANDSHAKE (R395): the device answers with its feed tag, its twin bit, whether it has a job of the tag, and whether it
has room. -/
def execPartnerHandshake (f : Frame) (feed : Nat) (s : State) : Result := s.live fun s =>
  s.frameAt f 4 fun s slot =>
    let k := f.packet
    let _ := feed
    let room := match slot with
      | some j => (s.inboundOf j k.src).isSome
      | none => false
    let s := match slot with
      | some j => s.acceptPacket j k
      | none => s
    let a : Bulk := .answer s.feedTag s.timecode.twin slot.isSome room
    match slot with
    | some j => s.sendBulk j k.src a 0 []
    | none =>
      let (v, s) := s.draw
      (s.sendPacket { k with dst := k.src, src := s.fabricId, opId := v % 65536, offset := 0, tc := default, payload := [] } 0).emit
        (.bulk k.src a)

/-! ## Partners (R395, R397, R398, R409) -/

/-- The checks of PARTNER_SET (R395, R397, R409). -/
def State.partnerSetChecks (s : State) (c : Command) : List Check :=
  let slot := s.cmdSlot c.hdr
  let p := c.u16 0
  let r := s.rjob slot
  let limit := if c.expert then c.u32 8 else s.fld uRes 0x040 31 16
  [badIf (s.feedTag == 0 || p == s.fabricId || r.handshake.isSome || r.nextPartner.isSome || r.oldPartner.isSome) 0,
   badIf (limit = 0) 8]

/-- PARTNER_SET (R395, R397, R409). -/
def execPartnerSet (c : Command) (s : State) : Result := s.live fun s =>
  let slot := s.cmdSlot c.hdr
  let s := s.latestRes c
  let p := c.u16 0
  let r := s.rjob slot
  let limit := if c.expert then c.u32 8 else s.fld uRes 0x040 31 16
  s.checked c (s.partnerSetChecks c)
    fun s =>
      let x : Pairing := ⟨c, p, 0, false, s.now, limit, false⟩
      (s.setRjob slot { r with handshake := some x }).sendBulk slot p (.handshake s.feedTag) 0 []

/-- PARTNER_HANDSHAKE_LIMIT (R395). -/
def execPartnerHandshakeLimit (slot : Nat) (s : State) : Result := s.live fun s =>
  let r := s.rjob slot
  match r.handshake with
  | none => s
  | some x => s.onlyIf (x.sentAt + x.limitMs * msec ≤ s.now) fun s =>
      (s.setRjob slot { r with handshake := none }).finish x.cmd stPeerSilent x.partner []

/-- PARTNER_LIMIT (R398). -/
def execPartnerLimit (slot : Nat) (s : State) : Result := s.live fun s =>
  let r := s.rjob slot
  let limit := s.fld uRes 0x040 31 16 * msec
  let late := (r.negative.any fun n => n.sentAt + limit ≤ s.now) || r.mirrorSent.any fun e => e.2 + limit ≤ s.now
  s.onlyIf (!r.partnerLost && late) fun s => s.losePartner slot 3

/-- The checks of FEED_TAG_SET (R394, R408). -/
def State.feedTagSetChecks (_s : State) (c : Command) : List Check :=
  [badIf (c.u16 0 = 0) 0]

/-- FEED_TAG_SET (R394, R408). -/
def execFeedTagSet (c : Command) (s : State) : Result := s.live fun s =>
  s.checked c (s.feedTagSetChecks c) fun s =>
    let old := s.feedTag
    (s.setFld uRes 0x018 15 0 (c.u16 0)).finish c stOk 0 (le 2 old ++ le 6 0)

/-! ## Freezes (R389, R406, R407) -/

/-- Whether a state range is refused (R406): every page must translate to HBM, and the range meets no other range, no reel window
and no sequence range. -/
def State.rangeRefused (s : State) (slot : Nat) (l : List (Nat × Nat)) (i : Nat) : Bool :=
  let r := l.getD i (0, 0)
  r.1 % 65536 != 0 || r.2 % 65536 != 0 || r.2 = 0 || 2 ^ 57 < r.1 + r.2 || s.meetsReel slot r.1 r.2 ||
    ((s.jobSeqs slot).any fun e => meets r.1 r.2 e.2.va (s.seqBytes e.2)) ||
    ((List.range l.length).any fun k => k != i && meets r.1 r.2 (l.getD k (0, 0)).1 (l.getD k (0, 0)).2) ||
    (List.range (r.2 / 65536)).any fun k => match s.translate slot (r.1 + 65536 * k) false with
      | .ok pa => (hbmOf pa).isNone
      | .error _ => true

/-- The checks of FREEZE_SET (R389, R392, R406). -/
def State.freezeSetChecks (s : State) (c : Command) : List Check :=
  let slot := s.cmdSlot c.hdr
  let r := s.rjob slot
  let n := c.u16 0
  let count := c.u16 2
  let least := max 4096 (2 * n + 2)
  let ring := if c.u32 8 = 0 then least else c.u32 8
  let range (i : Nat) : Nat × Nat := (c.u64 (0x20 + 16 * i), c.u64 (0x28 + 16 * i))
  let l := (List.range (min count 16)).map range
  let badRange := (List.range 16).find? fun i =>
    if i < count then s.rangeRefused slot l i else range i != (0, 0)
  let next := { r with
    configured := true, interval := n, firstStep := c.u32 4, ringSlates := ring, stageVa := c.u64 0x10, reportVa := c.u64 0x18
    ranges := l, negGbps := c.ex (c.u16 0x120) 0 }
  let area := s.fld uRes 0x010 63 32
  let others := (s.resil.jobs.map fun e => if e.1 = slot then 0 else e.2.areaMib).sum
  ([badIf (r.partner == 0xFFFF || s.inStep slot || (s.reelJob slot).phase == .aborted) 0, badIf (count = 0 || 16 < count) 2,
    badIf (ring < 2 * n + 2 || 1048576 < ring) 8, badIf (c.u64 0x10 % 4096 != 0) 0x10, badIf (c.u64 0x18 % 256 != 0) 0x18,
    badRange.bind fun i => badIf true (0x20 + 16 * i), badIf (400 < c.ex (c.u16 0x120) 0) 0x120,
    failIf (area < others + next.areaMib) stNoResource 0xB0])

/-- FREEZE_SET (R389, R392, R406). -/
def execFreezeSet (c : Command) (s : State) : Result := s.live fun s =>
  let slot := s.cmdSlot c.hdr
  let s := s.latestRes c
  let r := s.rjob slot
  let n := c.u16 0
  let count := c.u16 2
  let least := max 4096 (2 * n + 2)
  let ring := if c.u32 8 = 0 then least else c.u32 8
  let range (i : Nat) : Nat × Nat := (c.u64 (0x20 + 16 * i), c.u64 (0x28 + 16 * i))
  let l := (List.range (min count 16)).map range
  let next := { r with
    configured := true, interval := n, firstStep := c.u32 4, ringSlates := ring, stageVa := c.u64 0x10, reportVa := c.u64 0x18
    ranges := l, negGbps := c.ex (c.u16 0x120) 0 }
  s.checked c (s.freezeSetChecks c)
    fun s =>
      let bound := s.stopBound (rangeBytes l)
      let s := s.setRjob slot { next with boundStop := bound }
      let result := le 8 (rangeBytes l) ++ le 4 bound ++ le 4 s.freeMib
      if r.newest.isSome then s.finish c stOk 0 result
      else (s.beginFreeze slot { kind := 0, cmd := c, take := none, step := c.u32 4, stopped := none }).defer c 0 result

/-- The checks of FREEZE_TAKE (R389, R407). -/
def State.freezeTakeChecks (s : State) (c : Command) : List Check :=
  let slot := s.cmdSlot c.hdr
  let r := s.rjob slot
  let w := c.u8 0
  [badIf (!r.configured || r.takeNext.isSome || r.freeze.isSome || (w == 1 && s.inStep slot)) 0, badIf (1 < w) 0]

/-- FREEZE_TAKE (R389, R407). -/
def execFreezeTake (c : Command) (s : State) : Result := s.live fun s =>
  let slot := s.cmdSlot c.hdr
  let s := s.latestRes c
  let r := s.rjob slot
  let w := c.u8 0
  s.checked c (s.freezeTakeChecks c)
    fun s =>
      let s := if w = 0 then s.setRjob slot { r with takeNext := some c }
        else s.beginFreeze slot { kind := 2, cmd := c, take := none, step := s.nextStep slot, stopped := none }
      s.defer c 0 []

/-! ## The slate log (R388, R410) -/

/-- SLATE_MIRROR (R388): the oldest slate not yet sent goes to the partner. -/
def execSlateMirror (slot : Nat) (s : State) : Result := s.live fun s =>
  let r := s.rjob slot
  match r.toMirror with
  | [] => s
  | step :: rest =>
    s.onlyIf (r.partner != 0xFFFF && !r.partnerLost) fun s =>
      let s := s.setRjob slot { r with toMirror := rest }
      match r.slate step with
      | none => s
      | some b =>
        (s.setRjob slot { s.rjob slot with mirrorSent := r.mirrorSent.insert step s.now }).sendBulk slot r.partner (.slate step) 0 b

/-- The checks of SLATE_READ (R410). -/
def State.slateReadChecks (s : State) (c : Command) : List Check :=
  let slot := s.cmdSlot c.hdr
  let r := s.rjob slot
  let src := c.u16 0
  let count := c.u16 2
  let mirror := (r.inbound.find? fun i => i.owner == src).map (·.mirror)
  [badIf (src != 0xFFFF && mirror.isNone) 0, badIf (count = 0 || 1024 < count) 2, badIf (c.u64 8 % 4096 != 0) 8]

/-- A slate of the job's own log, or of the mirror that the device holds for another device (R388, R410). -/
def State.slateOf (s : State) (slot src n : Nat) : Option (List Byte) :=
  let r := s.rjob slot
  if src = 0xFFFF then r.slate n
  else ((r.inbound.find? fun i => i.owner == src).map (·.mirror)).bind fun m => (m.find? fun e => e.1 == n).map (·.2)

/-- Slates are written one after another, up to the first translation fault; how many have been. -/
def State.slatesOut (s : State) (slot va : Nat) (l : List (List Byte)) : State × Nat × Option VFault :=
  l.zipIdx.foldl (fun (acc : State × Nat × Option VFault) e => match acc.2.2 with
    | some _ => acc
    | none =>
      let (s, _, f) := acc.1.vwrite slot (va + 4096 * e.2) e.1 false
      (s, if f.isNone then acc.2.1 + 1 else acc.2.1, f)) (s, 0, none)

/-- The consecutive slates that the device has, of COUNT from FIRST. -/
def State.slatesFrom (s : State) (slot src first count : Nat) : List (List Byte) :=
  (((List.range count).map (first + ·)).map (s.slateOf slot src)).takeWhile (·.isSome) |>.map (·.getD [])

/-- SLATE_READ (R410). -/
def execSlateRead (c : Command) (s : State) : Result := s.live fun s =>
  let slot := s.cmdSlot c.hdr
  let s := s.latestRes c
  s.checked c (s.slateReadChecks c)
    fun s =>
      let l := s.slatesFrom slot (c.u16 0) (c.u32 4) (c.u16 2)
      let (s, done, f) := s.slatesOut slot (c.u64 8) l
      let miss := if l.length = c.u16 2 then 0xFFFFFFFF else c.u32 4 + l.length
      let result := le 4 done ++ le 4 miss ++ le 8 0
      match f with
      | some f => (s.farFault c.hdr slot uRes ⟨stPageFault, f.detail, some f⟩).finish c stPageFault f.detail result
      | none => s.finish c stOk 0 result

/-! ## Loading a negative (R403, R410) -/

/-- The checks of NEGATIVE_LOAD (R403, R410). -/
def State.negativeLoadChecks (s : State) (c : Command) : List Check :=
  let slot := s.cmdSlot c.hdr
  let owner := if c.u16 0 = 0xFFFF then s.fabricId else c.u16 0
  let here := c.u16 2 == 0xFFFF || c.u16 2 == s.fabricId
  [badIf (s.inStep slot) 0, badIf (400 < c.ex (c.u16 0x88) 0) 0x88,
   failIf (here && (s.heldSnap slot owner (c.u32 4)).isNone) stNoNegative 0]

/-- NEGATIVE_LOAD (R403, R410). -/
def execNegativeLoad (c : Command) (s : State) : Result := s.live fun s =>
  let slot := s.cmdSlot c.hdr
  let s := s.latestRes c
  let r := s.rjob slot
  s.checked c (s.negativeLoadChecks c)
    fun s =>
      let s := s.defer c 0 []
      if r.load.isSome then s.setRjob slot { r with loads := r.loads ++ [c] } else s.startLoad slot c

/-- Where each range of a snapshot goes: (offset in the image, address, bytes); skipped ones are left out. -/
def Load.targets (l : Load) (x : Snap) : List (Nat × Nat × Nat) :=
  (x.header.ranges.zipIdx.foldl (fun (acc : List (Nat × Nat × Nat) × Nat) e =>
    let d := l.dests.getD e.2 0
    let va := if d = 0 then e.1.1 else d
    (if d = 2 ^ 64 - 1 then acc.1 else acc.1 ++ [(acc.2, va, e.1.2)], acc.2 + e.1.2)) ([], 0)).1

/-- A range of an image is written, 4 KiB at a time, then its poisoned granules. -/
def State.writeImage (s : State) (slot : Nat) (x : Snap) (off va n : Nat) : State × Option VFault :=
  let (s, f) := (List.range (n / 4096)).foldl (fun (acc : State × Option VFault) i => match acc.2 with
    | some _ => acc
    | none =>
      let (s, _, f) := acc.1.vwrite slot (va + 4096 * i) (imageBytes x.bytes (off + 4096 * i) 4096) false
      (s, f)) (s, none)
  match f with
  | some f => (s, some f)
  | none =>
    let bad := x.poison.filter fun e => off ≤ 64 * e.1 && 64 * e.1 < off + n
    (bad.foldl (fun s e => (s.vwrite slot (va + (64 * e.1 - off)) (imageBytes x.bytes (64 * e.1) 64) true).1) s, none)

/-- The ranges of a load are written up to the first fault. The load of an aborted job enters the guarded ranges, because it
restores the shards and sets their TAGs (R403, R209). -/
def State.writeRanges (s : State) (slot : Nat) (x : Snap) (ts : List (Nat × Nat × Nat)) : State × Option VFault :=
  let aborted := (s.reelJob slot).phase == .aborted
  let s := if aborted then s.setReelJob slot { s.reelJob slot with phase := .configured } else s
  let w := ts.foldl (fun (acc : State × Option VFault) t => match acc.2 with
    | some _ => acc
    | none => acc.1.writeImage slot x t.1 t.2.1 t.2.2) (s, none)
  (if aborted then w.1.setReelJob slot { w.1.reelJob slot with phase := .aborted } else w.1, w.2)

/-- Whether a load's data is complete and may be written. -/
def Load.complete (l : Load) (me : Nat) : Bool :=
  match l.snap with
  | none => false
  | some x => l.holder == me || (List.range (x.total / 4096)).all fun i => l.got.contains (4096 * i)

/-- The ranges of a load have been written (R403): the tags, the last gated step, the reel state, the job's newest snapshot. -/
def State.loaded (s : State) (slot : Nat) (l : Load) (x : Snap) (ts : List (Nat × Nat × Nat)) : State :=
  let tag (e : Shard) : Shard :=
    if e.valid && e.slot = slot && (ts.any fun t => meets e.base e.len t.2.1 t.2.2) then { e with tag := l.step } else e
  let s := { s with reels := { s.reels with shards := s.reels.shards.map fun (e : Nat × Shard) => (e.1, tag e.2) } }
  let s := s.setReelJob slot { s.reelJob slot with phase := .configured }
  let r := s.rjob slot
  let r : ResJob := { r with
    lastGated := if l.step = 0 then none else some (l.step - 1), begun := [], half := none
    phase := if r.phase = .diverged then .recovering else r.phase }
  let r : ResJob :=
    if l.owner = s.fabricId then
      match r.snaps.find? fun e => e.2.header.step == l.step with
      | some e => { r with newest := some e.1 }
      | none =>
        let k := match r.newest with
          | some 0 => 1
          | _ => 0
        { r with snaps := r.snaps.insert k x, newest := some k }
    else { r with inherited := r.inherited.insert l.owner ⟨some l.step, l.holder, ts.map fun t => (t.2.1, t.2.2)⟩ }
  (s.setRjob slot r).bump uRes 0x028 63 32 1

/-- NEGATIVE_LOAD_DONE (R403). -/
def execNegativeLoadDone (slot : Nat) (s : State) : Result := s.live fun s =>
  match (s.rjob slot).load with
  | none => s
  | some l => match l.snap with
    | none => s
    | some x =>
      s.onlyIf (l.complete s.fabricId) fun s =>
        let h := x.header
        if h.jobTag ≠ (s.job slot).tag || h.step ≠ l.step || h.owner ≠ l.owner then s.endLoad slot stNoNegative 0 []
        else if !((List.range x.blocks).all x.blockOk) then s.endLoad slot stNoNegative 1 []
        else
          let ts := l.targets x
          let (s, f) := s.writeRanges slot x ts
          match f with
          | some f => (s.farFault l.cmd.hdr slot uRes ⟨stPageFault, f.detail, some f⟩).endLoad slot stPageFault f.detail []
          | none =>
            (s.loaded slot l x ts).endLoad slot stOk 0
              (le 8 ((ts.map fun t => t.2.2).sum) ++ le 4 ts.length ++ le 4 0)

/-! ## Failure spreading (R401, R402, R411) -/

/-- Whether two layouts are equivalent (R401). -/
def Layout.equivalent (a b : Layout) : Bool := decide (a.groups = b.groups) && a.entries.length == b.entries.length

/-- The checks of SPREAD_APPLY (R401, R402, R411). -/
def State.spreadApplyChecks (s : State) (c : Command) : List Check :=
  let slot := s.cmdSlot c.hdr
  let f := s.fjob slot
  let r := s.rjob slot
  let n := c.u8 0
  let m := c.u8 1
  let failed := (List.range (min n 8)).map fun i => c.u16 (0x18 + 2 * i)
  let limit := s.recutLimit c 0x28
  let old := f.layout.getD ⟨0, [], []⟩
  let stray := (List.range 8).find? fun i => n ≤ i && c.u16 (0x18 + 2 * i) != 0
  [failIf f.recut.isSome stEpochBusy 2, badIf (!(r.phase == .running || r.phase == .freezing) || f.layout.isNone) 0,
   badIf (n = 0 || 8 < n) 0, badIf (m != 0xFF && (7 < m || !(s.fabric.maps.any fun e => e.1 == m))) 1,
   badIf (c.u32 4 != f.epoch + 1) 4, badIf (failed.any fun d => !old.entries.contains d) 0x18,
   stray.bind fun i => badIf true (0x18 + 2 * i), badIf (c.expert && (limit = 0 || 600000 < limit)) 0x28]

/-- SPREAD_APPLY (R401, R402, R411). -/
def execSpreadApply (c : Command) (s : State) : Result := s.live fun s =>
  let slot := s.cmdSlot c.hdr
  let s := s.latestRes c
  let f := s.fjob slot
  let n := c.u8 0
  let m := c.u8 1
  let failed := (List.range (min n 8)).map fun i => c.u16 (0x18 + 2 * i)
  let limit := s.recutLimit c 0x28
  let old := f.layout.getD ⟨0, [], []⟩
  s.checked c (s.spreadApplyChecks c)
    fun s => s.readLayout c (c.u64 0x10) (f.epoch + 1) 0x10 fun l s =>
      if !(l.equivalent old) || l.entries.any fun e => failed.contains e then s.badParam c 0x10
      else
        let me := s.fabricId
        let taken := (l.entries.zip old.entries).filter fun e => e.1 == me && e.2 != me
        let s := s.defer c 0 (le 4 f.epoch ++ le 4 taken.length ++ le 8 0)
        let (st, s) := s.stamp uRes
        let s := s.abortStep slot ⟨4, 0xFFFF, 0, 0, 0, st, c.hdr⟩
        let r := s.rjob slot
        let toFailed := r.negative.any fun x => failed.contains x.partner
        let s := if toFailed then s.abandonNegative slot 4 else s
        let s := if failed.contains r.partner && !r.partnerLost then s.losePartner slot 3 else s
        let owners := (taken.map (·.2)).eraseDups.filter fun o => failed.contains o
        let r := s.rjob slot
        let s := s.setRjob slot { r with
          phase := .spreading, replayTo := r.newestLogged, inheritor := r.inheritor || !owners.isEmpty
          inherited := owners.foldl (fun (m : TMap Inherited) o => m.insert o {}) r.inherited
          spread := some ⟨c, c.u32 8, failed, taken.length, b2n toFailed⟩ }
        s.acceptRecut slot
          { cmd := c.hdr, epoch := f.epoch + 1, map := m, abandon := true, layout := l, switchTc := 0
            limitAt := s.now + limit * msec, acceptedAt := s.now, clapAt := none, releasedAt := none, darkAt := none
            cancelled := 0, changed := [], dark := [], heard := [], sent := 0, bySpread := true }

/-! ## Retakes (R404, R412) -/

/-- The checks of RETAKE_RUN (R404, R412). -/
def State.retakeRunChecks (s : State) (c : Command) : List Check :=
  let slot := s.cmdSlot c.hdr
  let r := s.rjob slot
  let step := c.u32 0
  let use := c.ex (c.u8 8) 0
  let own := r.slate step
  [badIf (!r.configured || r.retake.isSome || (r.lastGated.any fun g => step ≤ g) || r.begun.contains step ||
     (use == 0 && own.isNone)) 0,
   badIf (1 < use) 8, badIf (use == 1 && c.u16 0xA != stOk && c.u16 0xA != stNonfiniteSkip) 0xA]

/-- RETAKE_RUN (R404, R412). -/
def execRetakeRun (c : Command) (s : State) : Result := s.live fun s =>
  let slot := s.cmdSlot c.hdr
  let s := s.latestRes c
  let r := s.rjob slot
  let step := c.u32 0
  let use := c.ex (c.u8 8) 0
  let own := r.slate step
  s.checked c (s.retakeRunChecks c)
    fun s =>
      let x : Retake :=
        if use = 1 then ⟨c, step, (c.params.drop 0x10).take 16, c.u16 0xA⟩
        else ⟨c, step, ((own.getD []).drop 0x20).take 16, leAt (own.getD []) 0x38 2⟩
      (s.setRjob slot { r with retake := some x }).defer c 0 (le 4 step ++ le 4 0 ++ le 8 s.now)

end Sys2Proof.Machine
end

