-- ==== Sys2Proof/Machine/HostLink.lean ====
section
/-! DEFINITION. The host port beside Umauth: its link, Neighbour Discovery and echo, PFC, and RoCEv2 (spec/20: R477-R482, R493). -/

namespace Sys2Proof.Machine

/-! What leaves the port is `Output.network kind data`: 1 a neighbour advertisement, 2 an echo reply, 3 a REP, 4 a REJ, 5 a DREQ,
6 an acknowledgement, 7 a READ response, 8 a NAK (1 receiver not ready, 2 remote access, 3 remote operational, 4 invalid
request), 9 a congestion notification, 10 a DREP. -/

/-- The global address of the port (Table 20.3). -/
def State.hostAddress (s : State) : Nat := s.reg uHostport 0x018 * 2 ^ 64 + s.reg uHostport 0x020

/-- The MAC address. -/
def State.hostMac (s : State) : Nat := s.fld uHostport 0x010 47 0

/-- The link-local address derived from a MAC address. -/
def linkLocal (mac : Nat) : Nat :=
  0xFE80 * 2 ^ 112 + (mac / 2 ^ 24 ^^^ 0x020000) * 2 ^ 40 + 0xFFFE * 2 ^ 24 + mac % 2 ^ 24

/-- Whether an address is one of the port's. -/
def State.ownAddress (s : State) (a : Nat) : Bool := a == s.hostAddress || a == linkLocal s.hostMac

/-- NEIGHBOUR_DISCOVERY (R478): a solicitation for `target` from `src`. -/
def execNeighbourDiscovery (target src : Nat) (s : State) : Result := s.live fun s =>
  s.onlyIf s.hostUp fun s =>
    let s := s.rxBytes 0
    s.onlyIf (s.ownAddress target) fun s => s.emit (.network 1 [src, target, s.hostMac])

/-- ICMPV6_ECHO (R478). -/
def execIcmpv6Echo (dst src : Nat) (data : List Byte) (s : State) : Result := s.live fun s =>
  s.onlyIf s.hostUp fun s =>
    let s := s.rxBytes data.length
    s.onlyIf (s.ownAddress dst) fun s => s.emit (.network 2 ([src, dst] ++ data.map (·.toNat)))

/-- HOST_LINK_LOSS (R477, R62): the lanes train again; until they are up no frame arrives. -/
def execHostLinkLoss (s : State) : Result := s.live fun s =>
  s.onlyIf s.hostUp fun s => ((s.setFld uHostport 0x010 63 60 1).setFld uHostport 0x010 59 56 0).csDrop 2

/-- PFC_FRAME (R477): transmission pauses for `quanta` of 512 bit times at 800 Gbit/s; 0 resumes it. -/
def execPfcFrame (prio quanta : Nat) (s : State) : Result := s.live fun s =>
  s.onlyIf s.hostUp fun s =>
    let s := s.rxBytes 0
    let mine := s.fld uHostport 0x040 7 4
    s.onlyIf (prio == mine && mine ≤ 7) fun s =>
      { s with hostPort := { s.hostPort with pausedUntil := s.now + ceilDiv (quanta % 65536 * 64) 100 } }

/-! ## Queue pairs (R480, R493) -/

def State.qp (s : State) (n : Nat) : Option QueuePair := (s.hostPort.qps.find? fun e => e.1 == n).map (·.2)

def State.setQp (s : State) (n : Nat) (q : QueuePair) : State :=
  { s with hostPort := { s.hostPort with qps := s.hostPort.qps.insert n q } }

/-- A record goes to Q0 of the session named in the REQ, or of every open session once that one has ended. -/
def State.qpRecord (s : State) (q : QueuePair) (type status : Nat) (body : List Byte) : State :=
  if (s.session q.session).isOpen && (s.session q.session).inst == q.inst then
    s.postTo (q0Key q.session) (s.freeRecord 0 type status body)
  else s.recordAll type status body

/-- QP_STATE. -/
def State.qpState (s : State) (n : Nat) (q : QueuePair) (new cause status : Nat) : State :=
  s.qpRecord q 0xB001 status (le 4 n ++ le 1 new ++ le 1 cause ++ le 2 0 ++ le 4 q.jobTag ++ le 4 0 ++ le 8 s.now)

/-- Queue pairs connected. -/
def State.qpCount (s : State) : Nat := (s.hostPort.qps.filter fun e => e.2.connected).length

/-- The first of `base … base + n − 1`, counted from `start` round, that is not in use. -/
def pickUnused (base n start : Nat) (used : List Nat) : Nat :=
  (((List.range (used.length + 1)).map fun k => base + (start + k) % n).find? fun v => !used.contains v).getD base

/-- CM_REQ (R480): REP with the RKEY, or REJ with the first CODE that applies. -/
def execCmReq (r : CmReq) (s : State) : Result := s.live fun s =>
  s.onlyIf s.hostUp fun s =>
    let s := s.rxBytes r.privateData.length
    let tag := leAt r.privateData 0 4
    let n := leAt r.privateData 4 2
    let slots := leAt r.privateData 16 4
    let x := s.session n
    let bound := s.umauth.queues.any fun e =>
      1 ≤ e.1 && e.1 < 4096 && e.2.phase != .unbound && e.2.session == n && e.2.jobTag == tag
    let code :=
      if !(x.isOpen && x.addr == r.src) then 1
      else if !(bound && (s.slotOf tag).isSome) then 2
      else if s.fld uHostport 0x040 0 0 = 0 then 3
      else if 4096 < slots || leAt r.privateData 6 2 ≠ 0 || leAt r.privateData 20 4 ≠ 0 then 4
      else if 1024 ≤ s.qpCount then 5
      else 0
    if code ≠ 0 then s.emit (.network 4 [r.src, r.hostQpn, 28, code])
    else
      let (v, s) := s.draw
      let (w, s) := s.draw
      let qpn := pickUnused 2 (2 ^ 24 - 2) v (s.hostPort.qps.map (·.1))
      let q : QueuePair := {
        session := n, inst := x.inst, jobTag := tag, slot := (s.slotOf tag).getD 0, recvVa := leAt r.privateData 8 8,
        recvSlots := slots, rkey := pickUnused 0 (2 ^ 32) w (s.hostPort.qps.map fun e => e.2.rkey), hostQpn := r.hostQpn,
        hostAddr := r.src }
      ((s.setQp qpn q).emit (.network 3 [r.src, r.hostQpn, qpn, q.rkey])).qpState qpn q 1 0 stOk

/-- CM_DREQ (R493): the host closes a queue pair. -/
def execCmDreq (qpn : Nat) (s : State) : Result := s.live fun s =>
  s.onlyIf s.hostUp fun s =>
    let s := s.rxBytes 0
    match s.qp qpn with
    | none => s
    | some q =>
      let s := { s with hostPort := { s.hostPort with qps := s.hostPort.qps.erase qpn } }
      let s := s.emit (.network 10 [q.hostAddr, q.hostQpn])
      if q.gone then s else s.qpState qpn q 3 0 stOk

/-- Destroying a job puts its queue pairs into the error state and sends a DREQ for each (R480, R493). -/
def State.dropQps (s : State) (slot : Nat) : State :=
  (s.hostPort.qps.filter fun e => e.2.slot == slot && !e.2.gone).foldl (fun s e =>
    let q : QueuePair := { e.2 with connected := false, gone := true }
    let s := (s.setQp e.1 q).bump uHostport 0x030 47 32 (b2n e.2.connected)
    (s.qpState e.1 q 2 4 stCancelled).emit (.network 5 [q.hostAddr, q.hostQpn])) s

/-! ## Requests (R481, R482) -/

/-- A NAK is sent. -/
def State.nak (s : State) (q : QueuePair) (code : Nat) : State :=
  (s.emit (.network 8 [q.hostAddr, q.hostQpn, code])).bump uHostport 0x030 31 0 1

/-- A NAK that moves the queue pair to the error state. -/
def State.qpError (s : State) (n : Nat) (q : QueuePair) (code cause status : Nat) : State :=
  let q := { q with connected := false }
  (((s.nak q code).setQp n q).bump uHostport 0x030 47 32 1).qpState n q 2 cause status

/-- A RoCEv2 request for a connected queue pair; it ends a DOZE (R443). A request for another one is handled as RoCEv2 prescribes,
with no record and no count. -/
def State.request (s : State) (qpn bytes : Nat) (ecn : Bool) (f : QueuePair → State → State) : State :=
  s.onlyIf s.hostUp fun s =>
    let s := (s.rxBytes bytes).dozeExit 2
    match s.qp qpn with
    | none => s
    | some q =>
      if !q.connected then s
      else f q (if ecn then s.emit (.network 9 [q.hostAddr, q.hostQpn]) else s)

/-- A translation fault of a request: its TRANSLATION_FAULT record and the guard's count, then the NAK. -/
def State.accessFault (s : State) (n : Nat) (q : QueuePair) (f : VFault) : State :=
  let (body, s) := s.noteFault q.slot uHostport f
  let s := s.qpRecord q 0x1001 stPageFault body
  let s := if f.detail = 3 then (match s.guardHit q.slot f.va 1 with
    | some k => s.guardRefused k q.slot uHostport f.va false
    | none => s) else s
  s.qpError n q 2 1 stPageFault

/-- Receive slots that have been filled and not released: bytes 0-7 do not read zero. -/
def State.unreleased (s : State) (q : QueuePair) : List Nat :=
  q.filled.filter fun i => match s.vread q.slot (q.recvVa + 4096 * i) 8 with
    | .ok (b, _) => ofLe b != 0
    | .error _ => true

/-- RDMA_SEND (R481). -/
def execRdmaSend (qpn : Nat) (ecn : Bool) (data : List Byte) (s : State) : Result := s.live fun s =>
  s.request qpn data.length ecn fun q s =>
    let held := s.unreleased q
    match ((List.range q.recvSlots).map fun k => (q.nextSlot + k) % q.recvSlots).find? fun i => !held.contains i with
    | none => (s.setQp qpn { q with filled := held }).nak q 1
    | some i =>
      if 4096 < data.length then
        let (v, s) := s.draw
        s.qpError qpn q 4 (v % 256) (v / 256 % 65536)
      else
        let w := s.vwrite q.slot (q.recvVa + 4096 * i) data false
        match w.2.2 with
        | some f => w.1.accessFault qpn q f
        | none =>
          (w.1.setQp qpn { q with nextSlot := (i + 1) % q.recvSlots, filled := held ++ [i] }).emit
            (.network 6 [q.hostAddr, q.hostQpn])

/-- RDMA_WRITE (R481, R482): acknowledged once every byte has been accepted. -/
def execRdmaWrite (qpn : Nat) (ecn : Bool) (va rkey : Nat) (data : List Byte) (s : State) : Result := s.live fun s =>
  s.request qpn data.length ecn fun q s =>
    if rkey ≠ q.rkey then
      let (v, s) := s.draw
      s.qpError qpn q 2 1 (v % 65536)
    else
      let w := s.vwrite q.slot va data false
      match w.2.2 with
      | some f => w.1.accessFault qpn q f
      | none => w.1.emit (.network 6 [q.hostAddr, q.hostQpn])

/-- RDMA_READ (R481). -/
def execRdmaRead (qpn : Nat) (ecn : Bool) (va rkey n : Nat) (s : State) : Result := s.live fun s =>
  s.request qpn 0 ecn fun q s =>
    if rkey ≠ q.rkey then
      let (v, s) := s.draw
      s.qpError qpn q 2 1 (v % 65536)
    else match s.vread q.slot va n with
    | .error f => s.accessFault qpn q f
    | .ok (b, poison) =>
      let s := s.vtouch q.slot va n
      if poison then s.qpError qpn q 3 2 stPoisoned
      else s.emit (.network 7 ([q.hostAddr, q.hostQpn] ++ b.map (·.toNat)))

end Sys2Proof.Machine
end

