-- ==== Sys2Proof/Machine/Sequencer.lean ====
section
/-! DEFINITION. The sequencer (R97-R101): which bundles are legal, when a bundle issues, what each row of a COMPUTE bundle does, and
the SETUP, LOOP, WAIT_TAG, CLAP and END bundles. Each meaning acts on the bundle at which the core `p` stands. -/

namespace Sys2Proof.Machine

/-! ## Legality (R97, R124, R125, R145, R216) -/

/-- OPE slot of a COMPUTE bundle. -/
def opeSlotBad (b : Nat) : Bool :=
  let oop := bOop b
  let fmt := bFmt b
  (oop == 0 && bits b 111 72 != 0) || 5 < oop || 0xC < fmt || 0xC < bOutFmt b ||
    ((oop == 1 || oop == 5) && (fmt == 0 || (isMx fmt && (bTa b || bTb b)))) ||
    (oop == 1 && isMx fmt && bSteps b % 32 != 0) || (oop == 4 && 0xA < bOutFmt b)

/-- Vector slot: reserved operations, format codes and reserved bits of IMM (Tables 5.4 and 10.5). -/
def vecSlotBad (b : Nat) : Bool :=
  let imm := bImm b
  0x10 < bVop b || (bVop b == 8 && (!cvtCode (bits imm 13 10) || !cvtCode (bits imm 9 6) || bits imm 3 0 != 0)) ||
    (bVop b == 0x10 && bits imm 10 0 != 0)

/-- A LOOP at bundle `pc` of a kernel of `len` bundles. -/
def loopBad (c : Core) (len b : Nat) : Bool :=
  let last := c.pc + bits b 95 84
  bits b 111 96 == 0 || bits b 95 84 == 0 || bits b 83 0 != 0 || len ≤ last ||
    (c.loops.head?.any fun f => f.last < last) || 4 ≤ c.loops.length

/-- WAIT_TAG: mode, ranges, unused fields (R124). -/
def waitBad (b : Nat) : Bool :=
  let mode := bits b 111 110
  let line := bits b 109 95
  let n := bits b 94 80
  mode == 3 || bits b 43 0 != 0 ||
    (if mode == 1 then line != 0 || n != 0
     else bits b 79 76 != 0 || bits b 75 44 != 0 || n == 0 || 24576 < line + n)

/-- TRANSFER: operation, unused fields, line range (R126). -/
def transferBad (b : Nat) : Bool :=
  let xop := bits b 111 108
  2 < xop || bits b 72 0 != 0 || (xop == 2 && bits b 107 103 != 0) || bits b 87 73 == 0 ||
    24576 < bits b 102 88 + bits b 87 73

/-- Whether a bundle is illegal (cause 1). -/
def bundleBad (c : Core) (len b : Nat) : Bool :=
  match bKind b with
  | 0 => opeSlotBad b || vecSlotBad b || contSlotBad (bCont b)
  | 1 => transferBad b
  | 2 => bits b 91 0 != 0
  | 3 => loopBad c len b
  | 4 => waitBad b
  | 5 => bits b 104 0 != 0
  | 6 => bits b 111 0 != 0
  | _ => true

/-- A COMPUTE bundle with no operation in any slot. -/
def bundleEmpty (b : Nat) : Bool := bKind b == 0 && bOop b == 0 && bVop b == 0 && bCont b == 0 && !opeSlotBad b

/-! ## Issue -/

/-- COMPUTE bundles without an operation are issued on the way to the next bundle. -/
def skipEmpty (k : Kernel) : Nat → Core → Core
  | 0, c => c
  | fuel + 1, c =>
    match k.bundle c.pc with
    | some b => if bundleEmpty b then skipEmpty k fuel (c.advance b) else c
    | none => c

/-- The first issue of a task is stamped (Table 5.13). -/
def State.firstIssue (s : State) (p : Nat) : State :=
  if (s.core p).startStamp.isSome then s
  else
    let (st, s) := s.stamp (uCore p)
    s.setCore p { s.core p with startStamp := some st }

/-- A bundle command acts on the bundle at which a running, unstalled core stands: one beyond the kernel or an illegal one ends the
task with cause 1 (R97); otherwise `k` says what it does. -/
def State.issue (s : State) (p : Nat) (k : Task → Nat → State → State) : State :=
  match (s.core p).task with
  | none => s
  | some t =>
    match s.kernel t.slot t.kernel with
    | none => s
    | some kn =>
      s.onlyIf ((s.core p).phase == .running && (s.core p).stall.isNone && t.kind matches .kernel | .stream _ _ _ | .attn _) fun s =>
        let s := (s.setCore p (skipEmpty kn 4096 (s.core p))).firstIssue p
        match kn.bundle (s.core p).pc with
        | none => s.failTask p 1 stBadParam 0
        | some b => if bundleBad (s.core p) kn.bundles.length b then s.failTask p 1 stBadParam 0 else k t b s

/-- The bundle has been carried out. -/
def State.bundleDone (s : State) (p b : Nat) : State := s.setCore p ((s.core p).advance b)

/-- The sequencer stalls as a whole (R99). -/
def State.stallAt (s : State) (p : Nat) (why : Stall) : State :=
  s.setCore p { s.core p with stall := some why, stallSince := s.now }

/-! ## Words of a core's own stores (R414, R427, R435) -/

/-- Corrupted words that a bundle reads: the program store and the argument registers by every bundle, a bank by the operations that
read it, a vector register by those that name it. -/
def coreWordRead (b : Nat) (sub : Nat) : Bool :=
  let what := sub / 65536
  let n := sub % 65536
  if what = 2 || what = 3 then true
  else if bKind b ≠ 0 then false
  else if what = 0 then bOop b == 1 || bOop b == 4 || bOop b == 5
  else bVop b != 0 && (bVa b == n || bVb b == n || bVc b == n)

/-- The words that the bundle finds corrupted are logged; whether one was uncorrectable. -/
def State.coreWords (s : State) (p b : Nat) : Bool × State :=
  let hit (x : Injected) : Bool := (x.unit == uOpe p || x.unit == uCore p) && coreWordRead b x.sub
  let found := s.diag.injected.filter hit
  let s := { s with diag := { s.diag with injected := s.diag.injected.filter fun x => !hit x } }
  let job := ((s.core p).task.map (·.slot)).getD 0xFFFF
  (found.any fun x => x.bits != 1,
   found.foldl (fun s x => s.logError
     { type := 0x10, cls := if x.bits = 1 then 0 else 2, unit := x.unit, job := job, sub := x.sub, flags := 1 }) s)

/-! ## Errors of the continuity store (R156) -/

/-- A read or the scrubber finds errors in a store line: one bit is corrected; more poison the frame that holds it. -/
def State.contFound (s : State) (p line errors job flags : Nat) : State :=
  if errors = 0 then s
  else
    let r : ErrorReport := { type := 0x21, cls := if errors = 1 then 0 else 1, unit := uCont p, job := job, sub := line, flags := flags }
    if errors = 1 then (s.bump (uCont p) 0x028 63 32 1).logError r
    else
      let a := line / 8
      ((s.setFrameTag p a { s.frameTag p a with poison := true }).bump (uCont p) 0x028 31 16 1).logError r

/-- Reads of store lines find what `error_inject` has corrupted in them (R435). -/
def State.contTouch (s : State) (p job : Nat) (ls : List Nat) : State :=
  let hit (x : Injected) : Bool := x.unit == uCont p && ls.contains x.sub
  (s.diag.injected.filter hit).foldl (fun s x => s.contFound p x.sub x.bits job 1)
    { s with diag := { s.diag with injected := s.diag.injected.filter fun x => !hit x } }

/-- CONT_SCRUB (R156). -/
def execContScrub (p line errors : Nat) (passEnd : Bool) (s : State) : Result := s.live fun s =>
  let c := s.core p
  s.onlyIf (p < 156 && line < 512 && c.phase != .gated && c.phase != .waking && s.fld (uCont p) 0x300 0 0 == 1) fun s =>
    let s := (s.contTouch p 0xFFFF [line]).contFound p line errors 0xFFFF 0
    if passEnd then s.setReg (uCont p) 0x030 s.now else s

/-! ## COMPUTE bundles -/

/-- The lines that each slot reads: OPE, vector, continuity. -/
def State.slotReads (s : State) (p b slot : Nat) : List Nat :=
  let c := s.core p
  let of (e : Except Nat Plan) : List Nat := match e with | .ok pl => pl.reads | .error _ => []
  (if slot = 0 then of (c.opePlan b) else if slot = 1 then of (c.vecPlan b) else s.contReads p (bCont b)).eraseDups

/-- The lines of the OPE and vector slots, or the cause with which a malformed one ends the task. -/
def Core.computeLines (c : Core) (b : Nat) : Except Nat (List Nat) :=
  match c.opePlan b, c.vecPlan b with
  | .error e, _ => .error e
  | _, .error e => .error e
  | .ok x, .ok y => .ok (x.reads ++ x.writes ++ y.reads ++ y.writes)

/-- The footprint of R122. -/
def State.footprint (s : State) (p b : Nat) : List Nat :=
  (s.slotReads p b 0 ++ s.slotReads p b 1 ++ (s.slotReads p b 2).filter (· < 24576)).eraseDups

/-- The lines of the frame that a continuity slot reads, where it is a spill frame; and its number where it is in the store. -/
def State.frameRead (s : State) (p slot w : Nat) : Option (Nat × Option Nat) :=
  let o := cCop w
  if w ≠ 0 && (copBackward o || o == 5 || (o == 4 && !cFlag w)) then framePlace (s.window p slot) (cFrame w) else none

/-- Reading a slot's lines: what is wrong with them is found. -/
def State.readTouch (s : State) (p slot b : Nat) : State :=
  let s := s.spadTouch p slot (s.footprint p b)
  match s.frameRead p slot (bCont b) with
  | some (a, none) => s.contTouch p slot ((List.range 8).map (8 * a + ·))
  | some (_, some l) => s.spadTouch p slot ((List.range 8).map (l + ·))
  | none => s

/-- Whether a line that the bundle reads is poisoned. -/
def State.readPoison (s : State) (p slot b : Nat) : Bool :=
  (s.footprint p b).any (s.isPoisoned p) ||
    (match s.frameRead p slot (bCont b) with
     | some (_, some l) => (List.range 8).any fun i => s.isPoisoned p (l + i)
     | _ => false)

/-- The faults that the bundle ends with at issue, once its footprint is full, before any engine acts. -/
def State.computeFault (s : State) (p slot b : Nat) : Option TaskFault :=
  let c := s.core p
  let w := bCont b
  if (bOop b == 1 || bOop b == 2 || bOop b == 3 || bOop b == 5) && c.cycle < c.drainEnd.get 0 (bBank b) then
    some { cause := 3, status := stBadParam }
  else if w ≠ 0 && c.cycle < c.contFree then some { cause := 8, status := stBadParam }
  else if !c.portsOk b then some { cause := 6, status := stBadParam }
  else if s.readPoison p slot b then some { cause := 2, status := stPoisoned, detail := uSpad p }
  else if w ≠ 0 && cCop w ≠ 0x10 && 24576 ≤ cDesc w then some { cause := 9, status := stBadParam }
  else if w = 0 then none
  else
    match s.contFault p slot w with
    | none => none
    | some 2 => some { cause := 2, status := stPoisoned, detail := uCont p }
    | some 7 => some { cause := 7, status := stStaleGather, id := cFrame w }
    | some k => some { cause := k, status := stBadParam }

/-- Lines in a take region turn empty once the bundle has read them (R123). -/
def State.takeLines (s : State) (p : Nat) (ls : List Nat) : State :=
  ls.foldl (fun s l => if s.inTake p l then s.setEmpty p l else s) s

/-! ### Timing (R91, R93, R155, R515) -/

/-- The lines of a stored tile that a transposed operand is read from first (R125). -/
def transposeLead (b : Nat) : Nat :=
  max (if bTa b then rowBytes (rowCode (bFmt b)) else 0) (if bTb b then rowBytes (colCode (bFmt b)) else 0)

/-- An ACC or CONV of `dur` cycles. -/
def Core.timeAcc (c : Core) (b dur : Nat) : Core :=
  let first := max (c.cycle + 20 + transposeLead b) c.feederFree
  let e := first + dur + 13
  { c with
    feederFree := first + dur, accEnd := c.accEnd.insert (bBank b) (max e (c.accEnd.get 0 (bBank b)))
    engineEnd := max c.engineEnd e, ops := satAdd 32 c.ops 1 }

def Core.timeZero (c : Core) (b : Nat) : Core :=
  let e := max c.cycle (c.accEnd.get 0 (bBank b)) + 1
  { c with accEnd := c.accEnd.insert (bBank b) e, engineEnd := max c.engineEnd e }

def Core.timeLoad (c : Core) (b : Nat) : Core :=
  let st := c.outStart b
  { c with
    outReqs := lastRequests (c.outReqs ++ c.outRequests b)
    outFree := st + 128, accEnd := c.accEnd.insert (bBank b) (max (st + 148) (c.accEnd.get 0 (bBank b)))
    engineEnd := max c.engineEnd (st + 148) }

def Core.timeDrain (c : Core) (b : Nat) : Core :=
  let e := c.outStart b + 128 + b2n (bitAt (c.arg 31) 18)
  { c with
    outReqs := lastRequests (c.outReqs ++ c.outRequests b)
    outFree := e, drainEnd := c.drainEnd.insert (bBank b) e, engineEnd := max c.engineEnd e }

/-- Latency of a vector operation (Table 5.4). -/
def vecLatency (vop : Nat) : Nat :=
  if vop ≤ 3 then 4 else if vop ≤ 7 then 2 else if vop = 8 then 3 else if vop ≤ 0xC then 8
  else if vop ≤ 0xE then 21 else if vop = 0xF then 9 else 12

def Core.timeVec (c : Core) (b : Nat) : Core :=
  { c with
    vecReqs := lastRequests (c.vecReqs ++ c.vecRequests b), engineEnd := max c.engineEnd (c.cycle + vecLatency (bVop b)) }

/-! ### Rows -/

/-- The first slot of a COMPUTE bundle that holds an operation and has not been carried out: 0 OPE, 1 vector, 2 continuity. -/
def Core.nextSlot (c : Core) (b : Nat) : Option Nat :=
  [0, 1, 2].find? fun k => !bitAt c.slotsDone k && (if k = 0 then bOop b != 0 else if k = 1 then bVop b != 0 else bCont b != 0)

/-- A slot has been carried out; after the last one the sequencer goes on. -/
def State.slotDone (s : State) (p b slot : Nat) : State :=
  let c := { s.core p with slotsDone := putBit (s.core p).slotsDone slot true }
  let s := s.setCore p (if (c.nextSlot b).isNone then c.advance b else c)
  s.drainCheck p

/-- A row of a COMPUTE bundle: `slot` is the slot that it names, `mine` whether that slot holds its operation. At the bundle's first
row the bundle issues: interlock (R98), malformed operands, footprint (R122), and every fault of the whole bundle come before any
engine acts. -/
def State.computeRow (s : State) (p slot : Nat) (mine : Nat → Bool) (effect : Task → Nat → State → State) : State :=
  s.issue p fun t b s =>
    let c := s.core p
    if bKind b ≠ 0 || c.nextSlot b ≠ some slot || !mine b then s
    else
      let run (s : State) : State :=
        let reads := s.slotReads p b slot
        (effect t b (s.takeLines p reads)).slotDone p b slot
      if c.slotsDone ≠ 0 then run s
      else
        let s := s.setCore p { c with cycle := max c.cycle c.transferEnd }
        match (s.core p).computeLines b with
        | .error k => s.failTask p k stBadParam 0
        | .ok ls =>
          if ls.any (24576 ≤ ·) then s.failTask p 6 stBadParam 0
          else if (s.footprint p b).any fun l => !s.isFull p l then s.stallAt p .emptySlot
          else
            let (dead, s) := s.coreWords p b
            if dead then s.failTask p 18 stFaultHw 0x10
            else
              let s := s.readTouch p t.slot b
              match s.computeFault p t.slot b with
              | some f => s.endTask p (some f)
              | none => run s

/-- A row of the OPE slot. -/
def State.opeRow (s : State) (p oop : Nat) (effect : Nat → Nat → State → State) : State :=
  s.computeRow p 0 (fun b => bOop b == oop) fun t b s => effect t.slot b s

/-- OPE_ACC (R91, R93, R220). -/
def execOpeAcc (p : Nat) (s : State) : Result := s.live fun s =>
  s.opeRow p 1 fun _ b s => s.setCore p ((s.opeAcc p b).timeAcc b (stepCycles (bFmt b) (bSteps b)))

/-- OPE_ZERO (R91). -/
def execOpeZero (p : Nat) (s : State) : Result := s.live fun s =>
  s.opeRow p 2 fun _ b s => s.setCore p (((s.core p).opeZero b).timeZero b)

/-- OPE_LOAD (R91, R515). -/
def execOpeLoad (p : Nat) (s : State) : Result := s.live fun s =>
  s.opeRow p 3 fun _ b s => s.setCore p ((s.opeLoad p b).timeLoad b)

/-- OPE_DRAIN (R91, R223). -/
def execOpeDrain (p : Nat) (s : State) : Result := s.live fun s =>
  s.opeRow p 4 fun slot b s =>
    let s := s.opeDrain p b slot
    s.setCore p ((s.core p).timeDrain b)

/-- OPE_CONV (R95): SW of 2 to 4 takes SW cycles per step. -/
def execOpeConv (p : Nat) (s : State) : Result := s.live fun s =>
  s.opeRow p 5 fun _ b s =>
    let d := ((s.core p).generator (bAgA b) 1).getD []
    let sw := leAt d 0x1E 1
    s.setCore p ((s.opeConv p b).timeAcc b (if 2 ≤ sw then sw * convSteps d else stepCycles (bFmt b) (convSteps d)))

/-- A row of the vector slot, after which its time is counted. -/
def State.vecRow (s : State) (p : Nat) (vop : Nat) (effect : Nat → Nat → State → State) : State :=
  s.computeRow p 1 (fun b => bVop b == vop) fun t b s =>
    let s := effect t.slot b s
    s.setCore p ((s.core p).timeVec b)

/-- A vector operation lane by lane. -/
def State.vecLanes (s : State) (p vop : Nat) (f : Nat → Word32 → Word32 → Word32 → Word32) : State :=
  s.vecRow p vop fun _ b s => s.setCore p ((s.core p).lanewise b (f (bImm b)))

/-- VEC_FMA (R96, R227). -/
def execVecFma (p : Nat) (s : State) : Result := s.live fun s => s.vecLanes p 1 fun _ a b c => ffma a b c
/-- VEC_ADD. -/
def execVecAdd (p : Nat) (s : State) : Result := s.live fun s => s.vecLanes p 2 fun _ a b _ => fadd a b
/-- VEC_MUL. -/
def execVecMul (p : Nat) (s : State) : Result := s.live fun s => s.vecLanes p 3 fun _ a b _ => fmul a b
/-- VEC_MIN (R227). -/
def execVecMin (p : Nat) (s : State) : Result := s.live fun s => s.vecLanes p 4 fun _ a b _ => fmin a b
/-- VEC_MAX (R227). -/
def execVecMax (p : Nat) (s : State) : Result := s.live fun s => s.vecLanes p 5 fun _ a b _ => fmax a b
/-- VEC_CMP (R96): the spec names no result; a free function of IMM and the operands. -/
def execVecCmp (p : Nat) (s : State) : Result := s.live fun s => s.vecLanes p 6 fun imm a b _ => Config.compareLanes imm a b
/-- VEC_SEL (R96): takes VA or VB; by what is left free. -/
def execVecSel (p : Nat) (s : State) : Result := s.live fun s =>
  s.vecLanes p 7 fun imm a b c => if Config.selectFirst imm c then a else b
/-- VEC_CVT (R227). -/
def execVecCvt (p : Nat) (s : State) : Result := s.live fun s => s.vecRow p 8 fun slot b s => s.vecCvt p b slot
/-- VEC_EXP2 (R96). -/
def execVecExp2 (p : Nat) (s : State) : Result := s.live fun s => s.vecLanes p 9 fun _ a _ _ => Config.elementary 0 a
/-- VEC_LOG2 (R96). -/
def execVecLog2 (p : Nat) (s : State) : Result := s.live fun s => s.vecLanes p 0xA fun _ a _ _ => Config.elementary 1 a
/-- VEC_RCP (R96). -/
def execVecRcp (p : Nat) (s : State) : Result := s.live fun s => s.vecLanes p 0xB fun _ a _ _ => Config.elementary 2 a
/-- VEC_RSQRT (R96). -/
def execVecRsqrt (p : Nat) (s : State) : Result := s.live fun s => s.vecLanes p 0xC fun _ a _ _ => Config.elementary 3 a
/-- VEC_LOAD (R96). -/
def execVecLoad (p : Nat) (s : State) : Result := s.live fun s => s.vecRow p 0xD fun _ b s => s.setCore p (s.vecLoad p b)
/-- VEC_STORE (R96). -/
def execVecStore (p : Nat) (s : State) : Result := s.live fun s => s.vecRow p 0xE fun _ b s => s.vecStore p b
/-- VEC_LANE_SUM (R96). -/
def execVecLaneSum (p : Nat) (s : State) : Result := s.live fun s =>
  s.vecRow p 0xF fun _ b s => s.setCore p ((s.core p).vecLaneSum b)
/-- VEC_RNG (R230). -/
def execVecRng (p : Nat) (s : State) : Result := s.live fun s =>
  s.vecRow p 0x10 fun _ b s => s.setCore p ((s.core p).vecRng b)

/-- A row of the continuity slot (R144, R155). -/
def State.contRow (s : State) (p cop : Nat) : State :=
  s.computeRow p 2 (fun b => cCop (bCont b) == cop) fun t b s =>
    let w := bCont b
    let dur := contCycles w (RowDesc.read (s.line p (cDesc w)))
    let s := s.contOp p t.slot w
    let c := s.core p
    s.setCore p { c with contFree := c.cycle + dur, engineEnd := max c.engineEnd (c.cycle + dur) }

/-- LN_FWD (R146-R155). -/
def execLnFwd (p : Nat) (s : State) : Result := s.live fun s => s.contRow p 1
/-- RMS_FWD. -/
def execRmsFwd (p : Nat) (s : State) : Result := s.live fun s => s.contRow p 2
/-- SMAX_FWD. -/
def execSmaxFwd (p : Nat) (s : State) : Result := s.live fun s => s.contRow p 3
/-- SMAX_PART. -/
def execSmaxPart (p : Nat) (s : State) : Result := s.live fun s => s.contRow p 4
/-- SMAX_FIN. -/
def execSmaxFin (p : Nat) (s : State) : Result := s.live fun s => s.contRow p 5
/-- LN_BWD. -/
def execLnBwd (p : Nat) (s : State) : Result := s.live fun s => s.contRow p 9
/-- RMS_BWD. -/
def execRmsBwd (p : Nat) (s : State) : Result := s.live fun s => s.contRow p 0xA
/-- SMAX_BWD. -/
def execSmaxBwd (p : Nat) (s : State) : Result := s.live fun s => s.contRow p 0xB
/-- FRAME_RELEASE (R150). -/
def execFrameRelease (p : Nat) (s : State) : Result := s.live fun s => s.contRow p 0x10

/-- EMPTY_SLOT_STALL_RELEASE (R122): the last missing line has turned full; the bundle can issue. -/
def execEmptySlotStallRelease (p : Nat) (s : State) : Result := s.live fun s =>
  match s.bundleAt p with
  | none => s
  | some b =>
    let ls := if bKind b = 1 then (List.range (bits b 87 73)).map (bits b 102 88 + ·) else s.footprint p b
    s.onlyIf ((s.core p).stall == some .emptySlot && ls.all (s.isFull p)) fun s => s.endStall p

/-! ## SETUP, LOOP, WAIT_TAG, CLAP, END -/

/-- SETUP (R95, R514): a generator is loaded from a descriptor in scratchpad. -/
def execSetupGenerator (p : Nat) (s : State) : Result := s.live fun s =>
  s.issue p fun t b s =>
    if bKind b ≠ 2 then s
    else
      let off := 64 * bits b 107 92
      if 24576 * 128 ≤ off then s.failTask p 4 stBadParam 0
      else
        let s := s.spadTouch p t.slot [off / 128]
        let d := s.spadBytes p off 64
        if s.isPoisoned p (off / 128) then s.failTask p 2 stPoisoned (uSpad p)
        else if generatorBad d then s.failTask p 4 stBadParam 0
        else
          let c := s.core p
          s.setCore p ({ c with generators := c.generators.insert (bits b 111 108) d }.advance b)

/-- LOOP (R97). -/
def execLoopBundle (p : Nat) (s : State) : Result := s.live fun s =>
  s.issue p fun _ b s =>
    if bKind b ≠ 3 then s
    else
      let c := s.core p
      s.setCore p { c with
        pc := c.pc + 1, loops := ⟨c.pc + 1, c.pc + bits b 95 84, bits b 111 96⟩ :: c.loops
        cycle := c.cycle + 1 + bDelay b }

/-- The condition of a WAIT_TAG (Table 6.3). -/
def State.waitHolds (s : State) (p b : Nat) : Bool :=
  let ls := (List.range (bits b 94 80)).map (bits b 109 95 + ·)
  match bits b 111 110 with
  | 0 => ls.all (s.isFull p)
  | 1 => bits b 75 44 ≤ (s.turnout p (bits b 79 76)).gauge
  | _ => ls.all fun l => !s.isFull p l

/-- WAIT_TAG (R124). -/
def execWaitTag (p : Nat) (s : State) : Result := s.live fun s =>
  s.issue p fun _ b s =>
    if bKind b ≠ 4 then s
    else if bits b 111 110 = 1 && (s.turnout p (bits b 79 76)).phase = .free then s.failTask p 6 stBadParam 0
    else if s.waitHolds p b then s.bundleDone p b
    else s.stallAt p .waitTag

/-- WAIT_TAG_RELEASE (R124). -/
def execWaitTagRelease (p : Nat) (s : State) : Result := s.live fun s =>
  match s.bundleAt p with
  | none => s
  | some b =>
    s.onlyIf (bKind b == 4 && (s.core p).stall == some .waitTag && s.waitHolds p b) fun s => (s.endStall p).bundleDone p b

/-- CLAP (R182, R183): an arrival, with or without waiting for the release. -/
def execClapBundle (p : Nat) (s : State) : Result := s.live fun s =>
  s.issue p fun t b s =>
    if bKind b ≠ 5 then s
    else
      let n := bits b 111 106
      match s.clap t.slot n with
      | none => s.failTask p 10 stBadParam 0
      | some k =>
        if k.broken then s.failTask p 11 stCancelled 0
        else if bitAt b 105 then (s.bundleDone p b).arrive t.slot n
        else
          let s := (s.stallAt p (.clap n k.generation)).setClap t.slot n { k with waiting := k.waiting ++ [(p, s.now)] }
          s.arrive t.slot n

/-- One row task of a `cont_run` (R158): its rows are staged, the operation runs, its outputs go to virtual memory. -/
def State.contTask (s : State) (p : Nat) (t : Task) (order : Nat) : State :=
  match s.runOf t.cmd with
  | none => s.endTask p none
  | some r =>
    let c := r.cmd
    let o := c.u8 0
    let w := c.u16 4
    let fin := c.u8 1
    let fout := c.u8 2
    let first := 128 * t.index
    let rows := min 128 (c.u32 8 - first)
    let inBytes := ceilDiv (w * codeWidth fin / 8) 128 * 128
    let outBytes := ceilDiv (w * codeWidth fout / 8) 128 * 128
    let d : RowDesc := RowDesc.read (le 2 rows ++ le 2 w ++ le 1 fin ++ le 1 fout ++ le 2 0 ++ le 4 (c.u32 0x28) ++
      le 4 0x3F800000 ++ le 4 0x3F800000 ++ List.replicate 100 0)
    let fault (s : State) (f : VFault) : State := (s.vfault t.cmd t.slot (uCore p) f).failTask p 6 stPageFault f.detail
    let vec (a : Nat) : Except VFault (List Byte × Bool) :=
      if c.u64 0x20 = 0 then .ok ([], false) else s.vread t.slot a (4 * w)
    match s.vread t.slot (c.u64 0x10 + first * inBytes) (rows * inBytes),
        vec (c.u64 0x20), vec (if o = 1 then c.u64 0x20 + 4 * w else c.u64 0x20) with
    | .error f, _, _ => fault s f
    | _, .error f, _ => fault s f
    | _, _, .error f => fault s f
    | .ok (x, px), .ok (g, pg), .ok (be, pb) =>
      let s := s.vtouch t.slot (c.u64 0x10 + first * inBytes) (rows * inBytes)
      if px || pg || pb then s.failTask p 2 stPoisoned (uSpad p)
      else
        let words (bs : List Byte) : List Word32 := (List.range (bs.length / 4)).map fun j => BitVec.ofNat 32 (leAt bs (4 * j) 4)
        let row (i : Nat) : List Word32 :=
          (List.range w).map fun j => rn32 (decodeElement fin (elementAt ((x.drop (i * inBytes)).take inBytes) (codeWidth fin) j))
        let rs := (List.range rows).map fun i =>
          rowFormula o false w d.eps (words g) (if o = 1 then words be else []) (row i) [] (0, 0) none
        let out := rs.flatMap fun r =>
          let bs := packElements (codeWidth fout) (r.ys.map fun y => encodeElement fout .rne (val32 y))
          bs ++ List.replicate (outBytes - bs.length) 0
        let stats := rs.flatMap fun (r : RowResult) => le 4 r.a.toNat ++ le 4 r.b.toNat
        let sa := c.ex (c.u64 0x30) 0
        let bad := (rs.filter fun r => (sa != 0 && (nonfinite r.a || nonfinite r.b)) ||
          (r.ys.any fun y => codeNonfinite fout (encodeElement fout .rne (val32 y)))).length
        let w1 := s.vwrite t.slot (c.u64 0x18 + first * outBytes) out false
        let guard (s : State) (f : VFault) : State :=
          if f.detail = 3 then
            match s.guardHit t.slot f.va 128 with
            | some k => (s.guardRefused k t.slot (uCore p) f.va true).failTask p 15 stBadParam 0
            | none => s.failTask p 15 stBadParam 0
          else fault s f
        match w1.2.2 with
        | some f => guard w1.1 f
        | none =>
          let w2 := if sa = 0 then (w1.1, 0, none) else w1.1.vwrite t.slot (sa + 8 * first) stats false
          match w2.2.2 with
          | some f => guard w2.1 f
          | none =>
            let s := (w2.1.bump (uCont p) 0x020 31 16 bad).bump (uCont p) 0x020 63 32 1
            let s := { s with conts := { s.conts with
              rowsDone := s.conts.rowsDone.insert order (s.conts.rowsDone.get 0 order + rows)
              rowsCounted := s.conts.rowsCounted.insert order (s.conts.rowsCounted.get 0 order + bad) } }
            s.endTask p none

/-- END (R100): the task ends once its engines are idle. The END of a row task of a `cont_run` carries out its rows. -/
def execEndTask (p : Nat) (s : State) : Result := s.live fun s =>
  match (s.core p).task with
  | some t =>
    match t.kind with
    | .cont order => s.onlyIf ((s.core p).phase == .running) fun s => (s.firstIssue p).contTask p t order
    | _ => s.issue p fun _ b s =>
        if bKind b ≠ 6 then s
        else
          let c := s.core p
          (s.setCore p { c with cycle := max (max c.cycle c.engineEnd) c.transferEnd + 1 }).endTask p none
  | none => s

/-- TASK_WATCHDOG (R369). -/
def execTaskWatchdog (p : Nat) (s : State) : Result := s.live fun s =>
  let c := s.core p
  match c.task with
  | none => s
  | some t =>
    let limit := if (s.job t.slot).taskLimitUs = 0 then s.fld uSched 0x800 63 32 else (s.job t.slot).taskLimitUs
    let atClap := c.stall matches some (.clap _ _)
    let waited := c.clapNs + (if atClap then s.now - c.stallSince else 0)
    s.onlyIf (c.phase == .running && limit * usec + waited ≤ s.now - c.startedAt) fun s =>
      let s := if c.stall.isNone then
          s.logError { type := 0x12, cls := 2, unit := uCore p, job := t.slot, sub := c.pc }
        else s
      s.failTask p 17 stCancelled 0

end Sys2Proof.Machine
end

