-- ==== Sys2Proof/Machine/Transfers.lean ====
section
/-! DEFINITION. TRANSFER bundles (R126-R128) and the reel's operations (R194-R200). Each meaning acts on the bundle at which the core
`p` stands. -/

namespace Sys2Proof.Machine

abbrev tXop (b : Nat) : Nat := bits b 111 108
abbrev tLocal (b : Nat) : Nat := bits b 102 88
abbrev tLines (b : Nat) : Nat := bits b 87 73

/-- Where a TRANSFER's far address lies (R126, R195). -/
inductive FarSide where
  | bad (fault : TaskFault)
  | window (core line : Nat)
  | virt (va : Nat)
  | reel (port frame : Nat)
  | none
  deriving DecidableEq, Repr

/-- The far side of a TRANSFER bundle of a task. -/
def State.farSide (s : State) (p : Nat) (t : Task) (b : Nat) : FarSide :=
  let a := (s.core p).arg (bits b 107 103)
  let misuse : TaskFault := { cause := 6, status := stBadParam }
  if tXop b = 2 then .none
  else if a % 128 ≠ 0 then .bad misuse
  else if bitAt a 63 then
    let w := bits a 47 0
    let c := (w - spadBase) / 2 ^ 22
    let off := (w - spadBase) % 2 ^ 22
    if w < spadBase || 143 < c || 24576 * 128 < off + 128 * tLines b then .bad misuse
    else match s.absentUnit c with
      | some u => .bad { cause := 6, status := stRetired, detail := u }
      | none => .window c (off / 128)
  else
    let va := bits a 56 0
    let j := s.reelJob t.slot
    if j.ringLines ≠ 0 && j.reelVa / 2 ^ 24 = va / 2 ^ 24 then .reel (bits va 23 22) (bits va 21 7)
    else .virt va

/-- A TRANSFER row: the bundle issues (R98, R122) where `mine` says that the row is its own. PUT and PUSH read their local lines. -/
def State.transferRow (s : State) (p : Nat) (mine : Nat → FarSide → Bool) (effect : Task → Nat → FarSide → State → State) :
    State :=
  s.issue p fun t b s =>
    let far := s.farSide p t b
    if bKind b ≠ 1 || !mine b far then s
    else
      let c := s.core p
      let s := s.setCore p { c with cycle := max c.cycle c.engineEnd }
      match far with
      | .bad f => s.endTask p (some f)
      | _ =>
        let ls := (List.range (tLines b)).map (tLocal b + ·)
        if tXop b = 1 && ls.any (fun l => !s.isFull p l) then s.stallAt p .emptySlot
        else
          let (dead, s) := s.coreWords p b
          if dead then s.failTask p 18 stFaultHw 0x10
          else effect t b far (if tXop b = 1 then s.spadTouch p t.slot ls else s)

/-- The data movement of a TRANSFER has ended; the sequencer goes on. -/
def State.transferDone (s : State) (p b cycles : Nat) : State :=
  let c := s.core p
  (s.setCore p ({ c with transferEnd := max c.transferEnd (c.cycle + cycles) }.advance b)).drainCheck p

/-- A translation fault of a TRANSFER ends its task (R126, R256); a write into a guarded shard range with cause 15 (R208). -/
def State.transferFault (s : State) (p : Nat) (t : Task) (f : VFault) : State :=
  match (if f.detail = 3 then s.guardHit t.slot f.va 128 else none) with
  | some k => (s.guardRefused k t.slot (uCore p) f.va true).failTask p 15 stBadParam 0
  | none => (s.vfault t.cmd t.slot (uCore p) f).failTask p 6 stPageFault f.detail

/-- The lines of the local side with their poison. -/
def State.localLines (s : State) (p b : Nat) : List (List Byte × Bool) :=
  (List.range (tLines b)).map fun i => (s.line p (tLocal b + i), s.isPoisoned p (tLocal b + i))

/-- GET (R126, R127): from virtual memory every page is translated before any data moves; from a scratchpad window the lines come
with their poison, and their tags are neither checked nor changed. -/
def execGetLines (p : Nat) (s : State) : Result := s.live fun s =>
  s.transferRow p (fun b far => tXop b == 0 && !(far matches .reel _ _)) fun t b far s =>
    let n := tLines b
    let put (s : State) (data : List (List Byte × Bool)) : State :=
      (s.storeLines p (tLocal b) data).transferDone p b (ceilDiv n 2)
    match far with
    | .window c l =>
      match s.physOf c with
      | none => s.failTask p 6 stBadParam 0
      | some q =>
        let s := s.spadTouch q t.slot ((List.range n).map (l + ·))
        put s ((List.range n).map fun i => (s.line q (l + i), s.isPoisoned q (l + i)))
    | .virt va =>
      match s.vcheck t.slot va (128 * n) false with
      | some f => s.transferFault p t f
      | none =>
        let s := s.vtouch t.slot va (128 * n)
        put s ((List.range n).map fun i =>
          match s.vread t.slot (va + 128 * i) 128 with
          | .ok d => d
          | .error _ => ([], true))
    | _ => s

/-- PUT (R126-R128): to virtual memory every page is translated before any data moves; to a scratchpad window the lines leave as
packets that carry the sender's slot, placement and epoch. -/
def execPutLines (p : Nat) (s : State) : Result := s.live fun s =>
  s.transferRow p (fun b far => tXop b == 1 && !(far matches .reel _ _)) fun t b far s =>
    let n := tLines b
    let data := s.localLines p b
    let taken (s : State) : State := s.takeLines p ((List.range n).map (tLocal b + ·))
    match far with
    | .window c l =>
      let origin : MeshOrigin := ⟨t.cmd, (s.core p).pc, t.index, s.logicalOf p, s.spads.nextSerial⟩
      let ks : List MeshPacket := (packets l n).map fun g =>
        { target := c, first := g.1, lines := (data.drop (g.1 - l)).take g.2, slot := t.slot
          placement := (s.job t.slot).placement, epoch := s.jobEpoch t.slot, origin := origin }
      let s := { s with spads := { s.spads with mesh := s.spads.mesh ++ ks, nextSerial := s.spads.nextSerial + 1 } }
      (taken s).transferDone p b (ceilDiv n 2)
    | .virt va =>
      match s.vcheck t.slot va (128 * n) true with
      | some f => s.transferFault p t f
      | none =>
        let s := data.zipIdx.foldl (fun s d => (s.vwrite t.slot (va + 128 * d.2) d.1.1 d.1.2).1) s
        (taken s).transferDone p b (ceilDiv n 2)
    | _ => s

/-- EMPTY (R126, R127). -/
def execEmptyLines (p : Nat) (s : State) : Result := s.live fun s =>
  s.transferRow p (fun b _ => tXop b == 2) fun _ b _ s =>
    (s.setEmptyRange p (tLocal b) (tLines b)).transferDone p b (ceilDiv (tLines b) 16)

/-! ## The reel (R196-R200) -/

/-- Whether a marker to be pushed has a field out of range or a reserved byte that is not zero (Table 9.2). -/
def markerBad (raw : List Byte) (ringLines : Nat) : Bool :=
  let kind := leAt raw 2 1
  let len := leAt raw 4 4
  kind == 0 || 3 < kind || leAt raw 3 1 != 0 ||
    (if kind = 1 then len != 0 || leAt raw 0x10 2 != 0 else len == 0 || 24576 < len) ||
    ringLines < leAt raw 0xC 4 || (raw.drop 0x15).any (· != 0)

/-- The line that the unit writes back (R196). -/
def Marker.line (m : Marker) (refilled popTc : Nat) : List Byte :=
  m.raw.take 0x20 ++ le 4 m.position ++ le 4 refilled ++ le 8 m.pushTc ++ le 8 popTc ++ List.replicate 72 0

/-- The ring line of a position. -/
def ReelJob.ringLine (j : ReelJob) (q : Nat) : Nat := j.ringBase + q % j.ringLines

/-- The virtual address in the spillway of a core's position (R194). -/
def ReelJob.spillVaOf (j : ReelJob) (c q : Nat) : Nat := j.spillVa + (c * j.spillLines + q) * 128

/-- Whether a position belongs to a PAD frame. -/
def isPad (ms : List Marker) (q : Nat) : Bool := ms.any fun m => m.kind == 3 && m.position ≤ q && q < m.position + m.len

/-- A reel fault (Table 9.4). -/
def reelFault (cause frame : Nat) : TaskFault :=
  { cause := cause, id := frame
    status := if cause = 12 then stNoResource else if cause = 13 then stStaleGather else stBadParam }

/-- A reel operation that cannot go on: a reel fault, or a translation fault of the spillway. -/
inductive ReelStop where
  | fault (cause : Nat)
  | page (f : VFault)
  deriving DecidableEq, Repr

/-- The task ends; the unit is as it was but for LOW and what was already spilled. -/
def State.reelStop (s : State) (p : Nat) (t : Task) (frame : Nat) : ReelStop → State
  | .fault k => s.endTask p (some (reelFault k frame))
  | .page f => s.transferFault p t f

/-- The oldest positions spill until there is room above the top (R197). -/
def State.spill (s : State) (p c slot : Nat) (ms : List Marker) : Nat → State × Option ReelStop
  | 0 => (s, none)
  | n + 1 =>
    let j := s.reelJob slot
    let x := s.reel c
    let line := j.ringLine x.low
    if j.spillLines ≤ x.low then (s, some (.fault 12))
    else
      let pad := isPad ms x.low
      let s := s.spadTouch p slot [line]
      let w := if pad then (s, 0, none)
        else s.vwrite slot (j.spillVaOf c x.low) (s.line p line) (s.isPoisoned p line)
      match w.2.2 with
      | some f => (w.1, some (.page f))
      | none =>
        let s := w.1.setEmpty p line
        let s := s.setReel c { x with
          low := x.low + 1, spilled := satAdd 32 x.spilled (b2n (!pad)), peakSpill := max x.peakSpill (x.low + 1) }
        State.spill s p c slot ms n

/-- The reel unit on which a bundle acts, or cause 14: it must be the job's, and one line moves (R195, Table 9.4). -/
def State.reelRow (s : State) (p : Nat) (mine : Nat → Nat → Bool) (effect : Task → Nat → Nat → Nat → State → State) : State :=
  s.transferRow p (fun b far => match far with | .reel port _ => mine (tXop b) port | _ => false) fun t b far s =>
    match far with
    | .reel port fid =>
      let c := s.logicalOf p
      let rightPort := if tXop b = 1 then port = 0 else port ≠ 0
      if tLines b ≠ 1 || !rightPort || (s.reel c).slot ≠ some t.slot then s.endTask p (some (reelFault 14 fid))
      else effect t b c fid s
    | _ => s

/-- PUSH (R197). A PUT to any other port is a misuse. -/
def execPushFrame (p : Nat) (s : State) : Result := s.live fun s =>
  s.reelRow p (fun xop _ => xop == 1) fun t b c fid s =>
    let j := s.reelJob t.slot
    let x := s.reel c
    let raw := s.line p (tLocal b)
    let kind := leAt raw 2 1
    let len := leAt raw 4 4
    let next := leAt raw 0xC 4
    let first := leAt raw 0x10 2
    if s.isPoisoned p (tLocal b) then s.failTask p 2 stPoisoned (uSpad p)
    else if leAt raw 0 2 ≠ fid || leAt raw 8 4 ≠ j.step || markerBad raw j.ringLines then
      s.endTask p (some (reelFault 14 fid))
    else if x.marks.length = 1024 then s.endTask p (some (reelFault 12 fid))
    else if kind ≠ 1 && (x.promised < len || first ≠ j.ringLine x.depth || j.ringBase + j.ringLines < first + len) then
      s.endTask p (some (reelFault 14 fid))
    else
      let m : Marker := ⟨fid, kind, len, next, first, raw, x.depth, s.now⟩
      let depth := x.depth + len
      let ms := m :: x.marks
      let (s, stop) := s.spill p c t.slot ms (depth + next - (x.low + j.ringLines))
      match stop with
      | some f => s.reelStop p t fid f
      | none =>
        let y := s.reel c
        let s := s.setReel c { y with marks := ms, depth := depth, promised := next, peakDepth := max y.peakDepth depth }
        (s.takeLines p [tLocal b]).transferDone p b 40

/-- The lines of a frame. -/
def Marker.lines (m : Marker) : List Nat := (List.range m.len).map (m.first + ·)

/-- Positions come back from the spillway, ascending, until the first that cannot; how many lines were moved (R198). -/
def State.refill (s : State) (p c slot : Nat) (ms : List Marker) (held : List Nat) :
    List Nat → Nat → State × Nat × Option ReelStop
  | [], n => (s, n, none)
  | q :: rest, n =>
    let j := s.reelJob slot
    let line := j.ringLine q
    if held.contains line then (s, n, some (.fault 12))
    else if isPad ms q then State.refill s p c slot ms held rest n
    else
      let a := j.spillVaOf c q
      match s.vread slot a 128 with
      | .error f => (s, n, some (.page f))
      | .ok d =>
        let s := (s.vtouch slot a 128).storeLine p line d.1 d.2
        State.refill s p c slot ms held rest (n + 1)

/-- POP and HOLD (R198). -/
def State.popFrame (s : State) (p : Nat) (t : Task) (b c fid : Nat) (hold : Bool) : State :=
  let x := s.reel c
  match x.marks with
  | [] => s.endTask p (some (reelFault 13 fid))
  | m :: rest =>
    if m.fid ≠ fid then s.endTask p (some (reelFault 13 fid))
    else if m.kind = 1 && !x.held.isEmpty then s.endTask p (some (reelFault 14 fid))
    else if hold && m.kind ≠ 2 then s.endTask p (some (reelFault 14 fid))
    else if hold && x.held.length = 64 then s.endTask p (some (reelFault 12 fid))
    else
      let old := match x.reading with | some r => if x.readingHeld then [] else r.lines | none => []
      let wasFull := old.filter (s.isFull p)
      let s1 := old.foldl (fun s l => s.setEmpty p l) s
      let qs := (List.range (min x.low x.depth - m.position)).map (m.position + ·)
      let (s2, n, stop) := s1.refill p c t.slot x.marks (x.held.flatMap (·.lines)) qs 0
      match stop with
      | some f =>
        -- the unit is as it was, and the lines of the frame being read stay full (R200)
        let s2 := { s2 with spads := { s2.spads with
          full := wasFull.foldl (fun m l => m.set false (lineKey p l) true) s2.spads.full } }
        (s2.setReel c { x with refilled := satAdd 32 x.refilled n }).reelStop p t fid f
      | none =>
        let s2 := s2.setReel c { x with
          low := min x.low m.position, depth := m.position, marks := rest, promised := 0
          reading := if m.kind = 2 then some m else none
          readingHeld := hold, held := if hold then x.held ++ [m] else x.held
          refilled := satAdd 32 x.refilled n }
        let s2 := s2.storeLine p (tLocal b) (m.line n s.now) false
        s2.transferDone p b (40 + ceilDiv old.length 16 + ceilDiv n 2)

/-- POP (R198). A GET from the PUSH port is a misuse. -/
def execPopFrame (p : Nat) (s : State) : Result := s.live fun s =>
  s.reelRow p (fun xop port => xop == 0 && port ≤ 1) fun t b c fid s => s.popFrame p t b c fid false

/-- HOLD (R198). -/
def execHoldFrame (p : Nat) (s : State) : Result := s.live fun s =>
  s.reelRow p (fun xop port => xop == 0 && port == 2) fun t b c fid s => s.popFrame p t b c fid true

/-- RELEASE (R198). -/
def execReleaseFrame (p : Nat) (s : State) : Result := s.live fun s =>
  s.reelRow p (fun xop port => xop == 0 && port == 3) fun _ b c fid s =>
    let x := s.reel c
    match x.held.find? fun m => m.fid == fid with
    | none => s.endTask p (some (reelFault 14 fid))
    | some m =>
      let s := m.lines.foldl (fun s l => s.setEmpty p l) s
      let s := s.setReel c { x with held := x.held.erase m }
      (s.storeLine p (tLocal b) (m.line 0 s.now) false).transferDone p b (40 + ceilDiv m.len 16)

end Sys2Proof.Machine
end

