-- ==== Sys2Proof/Machine/Kernels.lean ====
section
/-! DEFINITION. Kernels, the placement of tasks, cores that gate and wake, row repairs, and `cont_run` (spec/05, spec/07, R360-R362). -/

namespace Sys2Proof.Machine

/-! ## Placement (R16, R101, R360) -/

/-- The argument record of a task (R112): built by the device, or read from virtual memory. -/
def State.taskArgs (s : State) (t : Task) : Except VFault (List Byte × Bool) :=
  if t.argSize = 0 then .ok (t.args, false) else s.vread t.slot t.argVa t.argSize

/-- TASK_PLACE (R16, R360): the free logical core `c` takes the first task in order that may run on it, where no lower free core of
the allotment takes that task. -/
def execTaskPlace (c : Nat) (s : State) : Result := s.live fun s =>
  match s.allotmentOf c, s.physOf c with
  | some a, some p =>
    match (if (s.freeCores a).contains c then s.pickTask c else none) with
    | none => s
    | some t =>
      let lower := (s.freeCores a).any fun d => d < c && (match s.pickTask d with | some u => decide (u = t) | none => false)
      if lower then s
      else
        let above := t.headgate && s.sched.ready.any fun u => !u.headgate && s.mayRun u c
        let s := if above then s.setCore p { s.core p with preempts := satAdd 16 (s.core p).preempts 1 } else s
        match s.taskArgs t with
        | .error f => ((s.startTask p t []).vfault t.cmd t.slot uSched f).failTask p 6 stPageFault f.detail
        | .ok (args, poison) =>
          let unit := s.poisonUnit t.slot t.argVa t.argSize
          let s := if t.argSize = 0 then s else s.vtouch t.slot t.argVa t.argSize
          let s := s.startTask p t args
          if poison then s.failTask p 2 stPoisoned unit else s
  | _, _ => s

/-! ## Gating and waking (R101, R103, R108) -/

/-- An awake core with nothing to hold goes on: its pending repairs first, then the task that waits on it. -/
def State.afterWake (s : State) (p : Nat) : State :=
  let s := s.setCore p { s.core p with phase := .idle }
  let s := s.nextRepair ((s.core p).repairs.length + 1) p
  if (s.core p).failing then s.retireCore p (s.core p).failInjected
  else if (s.core p).phase = .idle && (s.core p).task.isSome then
    s.setCore p { s.core p with phase := .running, startedAt := s.now }
  else s

/-- CORE_WAKE (R101, R103, R106). -/
def execCoreWake (p : Nat) (s : State) : Result := s.live fun s =>
  s.onlyIf ((s.core p).phase == .waking) fun s =>
    let c := s.core p
    (s.setCore p { c with wakes := satAdd 16 c.wakes 1, wokeAt := s.now, idleSince := s.now }).afterWake p

/-- CORE_GATE (R108, R366). -/
def execCoreGate (p : Nat) (s : State) : Result := s.live fun s =>
  let c := s.core p
  s.onlyIf (c.phase == .idle && c.task.isNone && s.fld (uCore p) 0x040 0 0 == 1 &&
      c.idleSince + s.fld (uCore p) 0x040 15 8 * usec ≤ s.now) fun s => s.setCore p { c with phase := .gated }

/-! ## Row repairs (R103-R105, R114) -/

/-- REPAIR_HOLD_END (R103-R105): 440 cycles after its start the hold ends. Where the check pass agrees, the row is retired; where it
miscompares, the whole core is (R104). -/
def execRepairHoldEnd (p : Nat) (checkOk : Bool) (s : State) : Result := s.live fun s =>
  let c := s.core p
  match c.repairs with
  | [] => s
  | r :: rest =>
    s.onlyIf (c.phase == .repairHold && c.holdStart + 400 ≤ s.now) fun s =>
      let c := c.opeZero 0
      if checkOk then
        let s := s.setCore p { c with repairs := rest, retiredRows := c.retiredRows ++ [r.row] }
        let s := s.opeRepaired p r.row stOk
        let s := s.mramRepair (uOpe p) 1 r.row r.injected
        (s.repairReply p r stOk 0).afterWake p
      else
        let s := (s.setCore p { c with repairs := rest }).opeRepaired p r.row stRetired
        (s.repairReply p r stRetired (uOpe p)).retireCore p r.injected

/-- OPE_REPAIR (R114). -/
def execOpeRepair (c : Command) (s : State) : Result := s.live fun s =>
  let u := c.u16 0
  let row := c.u8 2
  let p := u - 157
  let k := s.core p
  let dry := c.ex (c.u8 8) 0
  let rows := k.retiredRows
  s.checked c
    [badIf (u < 157 || 312 < u) 0, badIf (129 < row) 2, badIf (1 < dry) 8,
     failIf ((s.xentry u).state == 3) stRetired u,
     failIf (!rows.contains row && 2 ≤ rows.length) stNoResource 0x20]
    fun s =>
      if rows.contains row then s.finish c stOk 0 (opeMap rows)
      else if dry = 1 then s.finish c stOk 0 (opeMap (rows ++ [row]))
      else if k.task.isSome then
        (s.setCore p { k with repairs := k.repairs ++ [⟨row, some c, true, false⟩] }).defer c 0 []
      else
        let s := s.setCore p { k with repairs := k.repairs ++ [⟨row, some c, false, false⟩] }
        if k.phase = .idle then s.nextRepair (k.repairs.length + 2) p else s

/-! ## Kernels (R110-R113, R364) -/

/-- The physical cores of a job's allotment. -/
def State.jobPhys (s : State) (slot : Nat) : List Nat := (s.jobCores slot).filterMap s.physOf

/-- Whether an image is wrong (Table 5.11). -/
def imageBad (img : List Byte) (len : Nat) : Bool :=
  let n := leAt img 6 2
  leAt img 0 4 != 0x4E524B47 || leAt img 4 2 != 1 || n == 0 || 4096 < n || leAt img 8 4 != len || len != 64 + 16 * n ||
    leAt img 0xC 4 != (crc32c (img.drop 64)) || bits (leAt img 0x1A 1) 7 4 != 0 || ((img.take 64).drop 0x1B).any (· != 0)

/-- The bundles of an image. -/
def imageBundles (img : List Byte) : List Nat := (List.range (leAt img 6 2)).map fun i => leAt img (64 + 16 * i) 16

/-- The least FREE_BUNDLES of some cores. -/
def State.leastFree (s : State) (ps : List Nat) : Nat := ps.foldl (fun m p => min m (s.freeBundles p)) 4096

/-- KERNEL_LOAD (R111). -/
def execKernelLoad (c : Command) (s : State) : Result := s.live fun s =>
  let slot := s.cmdSlot c.hdr
  let id := c.u16 0
  let len := c.u32 4
  let va := c.u64 8
  let ps := s.jobPhys slot
  s.checked c
    [badIf (255 < id || (s.kernel slot id).isSome) 0, badIf (len < 80 || 65600 < len) 4, badIf (va % 64 != 0) 8,
     badIf (1 < c.ex (c.u8 0x10) 0) 0x10]
    fun s =>
      match s.vread slot va len with
      | .error f => (s.vfault c.hdr slot uSched f).finish c stPageFault f.detail []
      | .ok (img, poison) =>
        let unit := s.poisonUnit slot va len
        let s := s.vtouch slot va len
        if poison then s.finish c stPoisoned unit []
        else if imageBad img len then s.badParam c 8
        else
          let bs := imageBundles img
          if s.leastFree ps < bs.length then s.finish c stNoResource 0x10 []
          else
            let k : Kernel :=
              { bundles := bs, cyclesStatic := leAt img 0x10 8, argMin := leAt img 0x18 2, engines := leAt img 0x1A 1
                cores := ps, unloading := none, namedBy := [] }
            let s := if c.ex (c.u8 0x10) 0 = 1 then s else s.setKernel slot id k
            s.finish c stOk 0 (le 2 bs.length ++ le 2 (s.leastFree ps) ++ le 4 0)

/-- The tasks of a `kernel_run` (R112). -/
def kernelTasks (c : Command) (order slot : Nat) (headgate : Bool) (now : Nat) : List Task :=
  (List.range (c.u32 4)).map fun i =>
    { cmd := c.hdr, order := order, slot := slot, headgate := headgate, kernel := c.u16 0, index := i, cores := []
      argVa := c.u64 8 + i * c.u16 0x10, argSize := c.u16 0x10, args := [], kind := .kernel, readyAt := now }

/-- A command places tasks: its run is entered and its tasks are ready. -/
def State.addRun (s : State) (c : Command) (slot maxCores : Nat) (trace : Bool) (traceBuf : Nat) (ts : List Task) : State :=
  let run : TaskRun :=
    { cmd := c, order := s.sched.nextOrder, slot := slot, total := ts.length, unplaced := ts.length, running := 0, ended := 0
      faulted := 0, firstFault := none, maxCores := maxCores, trace := trace, traceBuf := traceBuf, lastEnd := 0 }
  { s with sched := { s.sched with
    nextOrder := s.sched.nextOrder + 1, runs := s.sched.runs ++ [run], ready := s.sched.ready ++ ts } }

/-- KERNEL_RUN (R112, R113, R364). -/
def execKernelRun (c : Command) (s : State) : Result := s.live fun s =>
  let slot := s.cmdSlot c.hdr
  let headgate := (s.queue c.hdr.qkey).headgate
  let limit := s.fld uSched 0x800 31 16
  let usable := (s.kernel slot (c.u16 0)).any fun k => k.unloading.isNone || k.namedBy.contains c.hdr
  let cycles := ((s.kernel slot (c.u16 0)).map (·.cyclesStatic)).getD 0
  let argMin := ((s.kernel slot (c.u16 0)).map (·.argMin)).getD 0
  s.checked c
    [badIf (255 < c.u16 0 || !usable) 0,
     badIf (!headgate && limit != 0 && (cycles == 0 || limit * 1100 < cycles)) 0,
     badIf (c.u32 4 == 0 || 1048576 < c.u32 4) 4, badIf (c.u64 8 % 16 != 0) 8,
     badIf (256 < c.u16 0x10 || c.u16 0x10 % 16 != 0 || c.u16 0x10 < argMin) 0x10,
     badIf (144 < c.ex (c.u16 0x18) 0) 0x18, badIf (1 < c.ex (c.u8 0x1A) 0) 0x1A]
    fun s => s.addRun c slot (c.ex (c.u16 0x18) 0) (c.ex (c.u8 0x1A) 0 == 1) (c.u64 0x20)
      (kernelTasks c s.sched.nextOrder slot headgate s.now)

/-- Admitted and running `kernel_run` commands of a job that name a kernel. -/
def State.runsNaming (s : State) (slot id : Nat) : List CmdHdr :=
  ((s.jobQueues (s.job slot).tag).flatMap fun q => (s.queue q).admitted ++ (s.queue q).running).filterMap fun c =>
    if c.hdr.opcode = 0x2002 && c.u16 0 = id then some c.hdr else none

/-- KERNEL_UNLOAD (R113). -/
def execKernelUnload (c : Command) (s : State) : Result := s.live fun s =>
  let slot := s.cmdSlot c.hdr
  let id := c.u16 0
  match s.kernel slot id with
  | none => s.badParam c 0
  | some k =>
    let named := s.runsNaming slot id
    if 255 < id || k.unloading.isSome then s.badParam c 0
    else if named.isEmpty then
      ({ s with cores := { s.cores with kernels := s.cores.kernels.erase (slot * 256 + id) } }).finish c stOk 0 []
    else (s.setKernel slot id { k with unloading := some c, namedBy := named }).defer c 0 []

/-! ## `cont_run` (R158-R160) -/

/-- CONT_RUN (R158): row tasks of up to 128 rows. An OP of no operation is refused here. -/
def execContRun (c : Command) (s : State) : Result := s.live fun s =>
  let slot := s.cmdSlot c.hdr
  let n := ceilDiv (c.u32 8) 128
  let fmtOk (f : Nat) : Bool := f ≤ 4
  s.checked c
    [badIf (c.u8 0 == 0 || 3 < c.u8 0) 0, badIf (!fmtOk (c.u8 1)) 1, badIf (!fmtOk (c.u8 2)) 2,
     badIf (c.u16 4 == 0 || 8192 < c.u16 4) 4, badIf (c.u16 6 != 0) 6, badIf (c.u32 8 == 0 || 16777215 < c.u32 8) 8,
     badIf (c.u16 0xC != 0) 0xC, badIf (c.u16 0xE != 0) 0xE, badIf (c.u64 0x10 % 128 != 0) 0x10,
     badIf (c.u64 0x18 % 128 != 0) 0x18, badIf (144 < c.ex (c.u16 0x38) 0) 0x38]
    fun s =>
      let order := s.sched.nextOrder
      let ts : List Task := (List.range n).map fun i =>
        { cmd := c.hdr, order := order, slot := slot, headgate := (s.queue c.hdr.qkey).headgate, kernel := 0, index := i, cores := []
          argVa := 0, argSize := 0, args := [], kind := .cont order, readyAt := s.now }
      s.addRun c slot (c.ex (c.u16 0x38) 0) false 0 ts

/-- Frames of the store that no window on a core takes. -/
def State.freeStoreFrames (s : State) (p : Nat) : Nat :=
  64 - ((List.range 64).map fun j => min 64 ((s.window p j).base + (s.window p j).count) - (s.window p j).base).sum

/-- Whether a core runs a task of a job. -/
def State.runsJob (s : State) (p slot : Nat) : Bool := (s.core p).task.any fun t => t.slot == slot

/-- CONT_RUN_FRAMES (R159, R160). -/
def execContRunFrames (c : Command) (s : State) : Result := s.live fun s =>
  let slot := s.cmdSlot c.hdr
  let n := c.u16 6
  let base := c.u16 0xC
  let spill := c.u16 0xE
  let ps := s.jobPhys slot
  let spillFrames := base + n - max 64 base
  let taken (p : Nat) : Bool := (List.range 64).any fun j =>
    j != slot && (s.window p j).base < base + n && base < (s.window p j).base + (s.window p j).count
  s.checked c
    [badIf (c.u8 0 != 0x20) 0, badIf (c.u8 1 != 0) 1, badIf (c.u8 2 != 0) 2, badIf (c.u16 4 != 0) 4, badIf (512 < n) 6,
     badIf (c.u32 8 != 0) 8, badIf (511 < base || 512 < base + n) 0xC, badIf (24576 < spill + 8 * spillFrames) 0xE,
     failIf (n != 0 && ps.any taken) stNoResource 0x40]
    fun s =>
      let w : FrameWindow := if n = 0 then {} else ⟨base, n, spill⟩
      let busy := ps.filter fun p => s.runsJob p slot
      let s := (ps.filter fun p => !s.runsJob p slot).foldl (fun s p => s.applyWindow p slot w) s
      let result := le 2 base ++ le 2 n ++ le 2 (ps.foldl (fun m p => min m (s.freeStoreFrames p)) 64) ++ le 2 0
      if busy.isEmpty then s.finish c stOk 0 result
      else
        let x : PendingWindow := ⟨c, slot, w, busy⟩
        ({ s with conts := { s.conts with pending := s.conts.pending ++ [x] } }).defer c 0 result

end Sys2Proof.Machine
end

