-- ==== Sys2Proof/Machine/Scheduling.lean ====
section
/-! DEFINITION. Jobs, modes, allotments, rotation turns and migrations (spec/15). -/

namespace Sys2Proof.Machine

/-! ## Creating and destroying jobs (R358, R359, R377, R378) -/

/-- The checks of JOB_CREATE (R377). -/
def State.jobCreateChecks (s : State) (c : Command) : List Check :=
  let tag := c.u32 0
  let named := c.u8 5
  let free := (List.range 64).find? fun j => (s.job j).phase == .free
  [badIf (tag == 0 || (s.slotOf tag).isSome) 0, badIf (!s.allotmentOk (c.u8 4)) 4,
   badIf (named != 0xFF && (63 < named || (s.job named).phase != .free)) 5,
   failIf (named == 0xFF && free.isNone) stNoResource 0xA0]

/-- JOB_CREATE (R377). -/
def execJobCreate (c : Command) (s : State) : Result := s.live fun s =>
  let tag := c.u32 0
  let named := c.u8 5
  let free := (List.range 64).find? fun j => (s.job j).phase == .free
  s.checked c (s.jobCreateChecks c)
    fun s =>
      let j := if named = 0xFF then free.getD 0 else named
      let s := s.setJob j
        { phase := .active, tag := tag, allotment := c.u8 4, placement := 1, taskLimitUs := c.ex (c.u32 8) 0 }
      s.finish c stOk 0 (le 1 j ++ le 1 (c.u8 4) ++ le 2 1 ++ le 4 0)

/-- A migration ends: MIGRATE_DONE, then DEFERRED_DONE (R371, R373). -/
def State.endMigration (s : State) (slot copied status detail : Nat) : State :=
  let j := s.job slot
  match j.migration with
  | none => s
  | some m =>
    let short := (m.limited.map fun k =>
      let x := s.turnout (k / 16) (k % 16)
      if x.byCount then x.expect - x.gauge else 0).sum
    let s := s.setJob slot { j with migration := none, phase := if j.phase = .migrating then .active else j.phase }
    (s.recordCmd m.cmd.hdr 0x6003 status
      (le 1 slot ++ le 1 m.pairs.length ++ le 2 m.turnouts.length ++ le 4 copied ++
        le 4 (if m.closing then s.now - m.closeAt else 0) ++ le 4 short ++ le 2 j.placement ++ le 6 0 ++ le 8 s.now)).deferredDone
      m.cmd.hdr status detail

/-- The unplaced tasks of a job's `attn_run` commands are dropped, and the runs that wait for their rows end (R378). -/
def State.dropAttn (s : State) (slot : Nat) : State :=
  let xs := s.attn.runs.filter fun x => x.slot == slot
  xs.foldl (fun s x =>
    if x.walking then
      let s := { s with sched := { s.sched with
        ready := s.sched.ready.filter fun (t : Task) => t.kind != TaskKind.attn x.order
        runs := s.sched.runs.map fun (r : TaskRun) =>
          if r.order = x.order then { r with unplaced := 0, cancelled := true } else r } }
      s.attnTaskEnd x.order false
    else s.failRun x stCancelled 0) s

/-- What `job_destroy` MODE 1 stops at once (R378, R320, R487). -/
def State.cancelJob (s : State) (slot : Nat) : State :=
  let s := s.cancelWork slot
  let s := s.cancelDecodes fun d => d.slot == slot
  let s := (List.range 256).foldl (fun s k =>
    if (s.channel k).cmd.isSome && (s.channel k).owner == some slot then s.stopChain k 4 (s.channel k).stop else s) s
  let s := s.dropAttn slot
  s.endRecut slot stCancelled 0

/-- The checks of JOB_DESTROY (R378). -/
def State.jobDestroyChecks (s : State) (c : Command) : List Check :=
  [badIf (!s.jobLive (c.u32 0)) 0, badIf (1 < c.u8 4) 4]

/-- JOB_DESTROY (R378). -/
def execJobDestroy (c : Command) (s : State) : Result := s.live fun s =>
  s.checked c (s.jobDestroyChecks c) fun s =>
    let slot := (s.slotOf (c.u32 0)).getD 0
    let s := s.defer c 0 []
    let s := s.setJob slot { s.job slot with phase := .destroying, destroyCmd := some c }
    let s := (s.jobQueues (c.u32 0)).foldl (fun s q => s.flushQueue q) s
    let s := s.endMigration slot 0 stCancelled 0
    if c.u8 4 = 1 then s.cancelJob slot else s

/-- Whether the job has tasks, chains, collectives or other work in progress, which its teardown waits for. -/
def State.jobBusy (s : State) (slot : Nat) : Bool :=
  (List.range 156).any (fun p => s.runsJob p slot) || s.sched.runs.any (fun r => r.slot == slot) ||
    s.attn.runs.any (fun r => r.slot == slot) || s.streams.streams.any (fun e => e.2.slot == slot && !e.2.runs.isEmpty) ||
    (List.range 256).any (fun k => (s.channel k).cmd.isSome && (s.channel k).owner == some slot) ||
    s.fabric.collectives.any (fun x => x.slot == slot) || (s.fjob slot).recut.isSome ||
    (List.range 4).any (fun e => (s.decodes e).any fun d => d.slot == slot) || s.memory.shoots.any (fun x => x.slot == slot)

/-- The job's turnouts, take regions and frames go from a core (Table 6.6, R151). -/
def State.dropFromCore (s : State) (slot p : Nat) : State :=
  let s := (List.range 16).foldl (fun s t =>
    if (s.turnout p t).slot = slot && (s.turnout p t).accepting then
      s.closeTurnout p t (s.logicalOf p) 4 none stCancelled stCancelled 0
    else s) s
  let s := (s.jobPools slot).foldl (fun s x => s.setFld (uSpad p) (0x300 + 8 * x.2.take) 63 63 0) s
  s.applyWindow p slot {}

/-- The job's streams, pools, claps and reservoir lines go (R167, R175, R182). -/
def State.dropStreams (s : State) (slot : Nat) : State :=
  let s := (s.streams.streams.filter fun e => e.2.isOpen && e.2.slot == slot).foldl (fun s e => s.freeStream e.1) s
  { s with streams := { s.streams with
    pools := s.streams.pools.filter fun e => e.1 / 4 != slot
    claps := s.streams.claps.filter fun e => e.1 / 64 != slot
    lines := s.streams.lines.filter fun l => l.slot != slot } }

/-- The job's reel, ledger and shard ranges go. -/
def State.dropReels (s : State) (slot : Nat) : State :=
  let s := (List.range 144).foldl (fun s c =>
    if (s.reel c).slot = some slot then (s.clearReel slot c).setReel c {} else s) s
  let s := (List.range 16).foldl (fun s k => if (s.shard k).slot = slot then s.setShard k {} else s) s
  s.setReelJob slot {}

/-- The job's sequences, key-value pool, channels, timers, layout, resilience data, kernels and map go. -/
def State.dropRest (s : State) (slot : Nat) : State :=
  let s := { s with attn := { s.attn with
    seqs := s.attn.seqs.filter fun e => e.2.slot != slot
    pools := s.attn.pools.erase slot
    held := s.attn.held.filter fun (h : HeldEdit) => h.slot != slot } }
  let s := { s with flume := { s.flume with
    timers := s.flume.timers.map fun (e : Nat × FlumeTimer) => if e.2.owner = some slot then (e.1, {}) else e
    channels := s.flume.channels.map fun (e : Nat × FlumeChannel) =>
      if e.2.owner = some slot then (e.1, { e.2 with owner := none, counter := 0 }) else e } }
  let s := (s.setFjob slot {}).abandonNegative slot 5
  let s := s.setRjob slot {}
  let s := { s with cores := { s.cores with kernels := s.cores.kernels.filter fun e => e.1 / 256 != slot } }
  s.setMap slot {}

/-- The job's queues are unbound as `queue_unbind` MODE 1 does; commands that still wait for something of the job end with
ST_CANCELLED (R378, R34). -/
def State.unbindAll (s : State) (tag : Nat) : State :=
  (s.jobQueues tag).foldl (fun s q =>
    let s := s.flushQueue q
    let s := (s.queue q).running.foldl (fun s c => s.deferredDone c.hdr stCancelled 0) s
    let x := s.queue q
    if x.retained.isEmpty then s.setQueue q {} else s.setQueue q { x with phase := .draining }) s

/-- JOB_TEARDOWN (R378, R382): the destroyed job's last task has ended. -/
def execJobTeardown (slot : Nat) (s : State) : Result := s.live fun s =>
  let j := s.job slot
  match j.destroyCmd with
  | none => s
  | some c =>
    s.onlyIf (j.phase == .destroying && !s.jobBusy slot && (c.u8 4 == 1 || (s.reelJob slot).gateCmd.isNone)) fun s =>
      let s := (List.range 156).foldl (fun s p => s.dropFromCore slot p) s
      let s := { s with conts := { s.conts with pending := s.conts.pending.filter fun w => w.slot != slot } }
      let s := (((s.dropStreams slot).dropReels slot).dropRest slot).dropQps slot
      let s := s.unbindAll j.tag
      let s := { s with sched := { s.sched with
        jobs := s.sched.jobs.erase slot, stepMaxNs := s.sched.stepMaxNs.erase slot
        taskFaults := s.sched.taskFaults.erase slot } }
      let s := s.recordAll 0x6001 stOk
        (le 1 slot ++ le 1 3 ++ le 1 0 ++ le 1 j.allotment ++ le 4 j.tag ++ le 8 s.now)
      s.deferredDone c.hdr stOk 0

/-! ## Modes and allotments (R365-R367, R379, R380) -/

/-- The checks of MODE_SET (R24, R365, R379). -/
def State.modeSetChecks (s : State) (c : Command) : List Check :=
  let mode := c.u8 0
  let jobs := (List.range 64).any fun j => (s.job j).phase != .free
  [badIf (jobs || 1 < mode || (mode == 0 && s.fabric.twinConfig)) 0]

/-- MODE_SET (R24, R365, R379). -/
def execModeSet (c : Command) (s : State) : Result := s.live fun s =>
  let mode := c.u8 0
  s.checked c (s.modeSetChecks c) fun s =>
    let old := s.sched.allotmentMode
    let s := if old == (mode == 1) then s else { s with sched := { s.sched with
      allotmentMode := mode == 1
      allotments := if mode = 1 then [(0, ({ valid := true, cores := List.range 144 } : Allotment))] else [] } }
    s.finish c stOk 0 (le 1 (b2n old) ++ le 7 0)

/-- The cores that a CORE_MASK names and the device presents (R380). -/
def State.maskCores (s : State) (c : Command) : List Nat :=
  (List.range 144).filter fun i => bitAt (leAt c.params 8 18) i && !(s.diag.absent.any fun a => a.1 == i)

/-- Whether a core may not leave its allotment: a lane of an open stream, a core in a row of a running `attn_run`, or one whose reel
holds something (R367). -/
def State.coreTied (s : State) (c : Nat) : Bool :=
  s.streams.streams.any (fun e => e.2.isOpen && e.2.onCore c) || s.attn.runs.any (fun x => x.rowList.contains (c / 12)) ||
    (s.reel c).depth != 0

/-- The checks of ALLOTMENT_SET in Interleave mode (R366). -/
def State.reserveSetChecks (s : State) (c : Command) : List Check :=
  let present := (List.range 144).filter fun i => !(s.diag.absent.any fun a => a.1 == i)
  [badIf (c.u8 0 != 0) 0, badIf (present.length < c.u8 1) 1, badIf (c.u32 4 != 0) 4, badIf (s.maskCores c != present) 8,
   badIf (1 < c.ex (c.u8 0x20) 1) 0x20, badIf (c.ex (c.u32 0x24) 0 != 0) 0x24]

/-- ALLOTMENT_SET in Interleave mode (R366): the reserve is set, and nothing else. -/
def State.reserveSet (s : State) (c : Command) : State :=
  let present := (List.range 144).filter fun i => !(s.diag.absent.any fun a => a.1 == i)
  s.checked c (s.reserveSetChecks c)
    fun s =>
      let s := { s with sched := { s.sched with
        allotments := s.sched.allotments.insert 0 { s.sched.allotments.get ({} : Allotment) 0 with hgReserve := c.u8 1 } } }
      s.finish c stOk 0 (le 1 present.length ++ le 1 0 ++ le 6 0 ++ le 8 s.now)

/-- An allotment takes its new cores: those without a task leave and join at once (R367). An absent id, which the mask ignores, stays
in an allotment that is not removed. -/
def State.applyMask (s : State) (a : Nat) (mask : List Nat) (new : Allotment) : State :=
  let old := s.sched.allotments.get {} a
  let put (s : State) (x : Allotment) : State := { s with sched := { s.sched with allotments := s.sched.allotments.insert a x } }
  let out := old.cores.filter fun c => !mask.contains c && (s.physOf c).isSome
  let joins := mask.filter fun c => !old.cores.contains c
  let s := put s { new with
    cores := old.cores.filter fun c => new.valid || (s.physOf c).isSome, leaving := out, cmds := [] }
  let s := out.foldl (fun s c => match s.physOf c with
    | some p => if (s.core p).task.isNone then s.leaveCore a p c else s
    | none => s) s
  let x := s.sched.allotments.get {} a
  let s := put s { x with cores := (List.range 144).filter fun c => x.cores.contains c || joins.contains c, cmds := old.cmds }
  joins.foldl (fun s c => match s.physOf c with
    | some p => s.joinCore a p c none
    | none => s) s

/-- The checks of ALLOTMENT_SET in Allotment mode (R366, R367, R380). -/
def State.allotmentSetChecks (s : State) (c : Command) : List Check :=
  let a := c.u8 0
  let old := s.sched.allotments.get {} a
  let mask := s.maskCores c
  let zero := leAt c.params 8 18 % 2 ^ 144 == 0
  let held := (List.range 64).any fun j => (s.job j).phase != .free && (s.job j).allotment == a
  let others := (List.range 16).any fun b => b != a && mask.any fun i => (s.sched.allotments.get ({} : Allotment) b).cores.contains i
  let out := old.cores.filter fun i => !mask.contains i && (s.physOf i).isSome
  let turn := c.u32 4
  [badIf (15 < a || (zero && held)) 0, badIf (mask.length < c.u8 1) 1, badIf (turn != 0 && (turn < 50 || 50000 < turn)) 4,
   badIf (others || out.any s.coreTied) 8, badIf (1 < c.ex (c.u8 0x20) 1) 0x20, badIf (turn < c.ex (c.u32 0x24) 0) 0x24]

/-- ALLOTMENT_SET (R366, R367, R380). -/
def execAllotmentSet (c : Command) (s : State) : Result := s.live fun s =>
  if !s.sched.allotmentMode then s.reserveSet c
  else
    let a := c.u8 0
    let old := s.sched.allotments.get {} a
    let mask := s.maskCores c
    let zero := leAt c.params 8 18 % 2 ^ 144 == 0
    let turn := c.u32 4
    s.checked c (s.allotmentSetChecks c)
      fun s =>
        let s := s.applyMask a mask { old with
          valid := !zero, emptyYield := c.ex (c.u8 0x20) 1 == 1, hgReserve := c.u8 1, turnUs := turn
          guardUs := c.ex (c.u32 0x24) 0, turnActive := old.turnActive && turn == old.turnUs }
        let x := s.sched.allotments.get {} a
        let result := le 1 mask.length ++ le 1 x.leaving.length ++ le 6 0 ++ le 8 s.now
        if x.leaving.isEmpty then
          let s := x.cmds.foldl (fun s k => s.deferredDone k.hdr stOk 0) s
          let s := { s with sched := { s.sched with allotments := s.sched.allotments.insert a { x with cmds := [] } } }
          s.finish c stOk 0 result
        else
          ({ s with sched := { s.sched with allotments := s.sched.allotments.insert a { x with cmds := x.cmds ++ [c] } } }).defer
            c 0 result

/-! ## Rotation turns (R368) -/

/-- Whether a stream has an iteration whose slots are granted and filled and whose task is not placed (R164). -/
def Stream.taskReady (x : Stream) : Bool :=
  x.phase == .running && x.ending.isNone && (List.range x.lanes).any fun lane =>
    (x.demand lane).any fun i => x.sources.all fun k => x.granted.any fun u => u.stage == k && u.iter == i && u.filled

/-- Whether a job has a ready tailwater task. -/
def State.tailwaterReady (s : State) (j : Nat) : Bool :=
  s.sched.ready.any (fun t => t.slot == j && !t.headgate) ||
    s.streams.streams.any (fun e => e.2.isOpen && e.2.slot == j && !e.2.headgate && e.2.taskReady)

/-- The jobs of an allotment that take turns: those with a bound tailwater queue. -/
def State.turnJobs (s : State) (a : Nat) : List Nat :=
  (List.range 64).filter fun j => (s.job j).phase != .free && (s.job j).allotment == a &&
    (s.jobQueues (s.job j).tag).any fun q => !(s.queue q).headgate

/-- The tailwater tasks of the outgoing job still run when its turn ends: they are counted and reported (R368, R382). How long the
longest of them overruns is not known then: a free value. -/
def State.overrun (s : State) (a : Nat) : State :=
  let al := s.sched.allotments.get {} a
  let n := ((List.range 156).filter fun p => (s.core p).task.any fun t => t.slot == al.turnJob && !t.headgate).length
  if !al.turnActive || n = 0 then s
  else
    let s := { s with sched := { s.sched with overruns := satAdd 32 s.sched.overruns n } }
    if al.lastOverrun.all fun t => t + msec ≤ s.now then
      let (v, s) := s.draw
      ({ s with sched := { s.sched with
        allotments := s.sched.allotments.insert a { al with lastOverrun := some s.now } } }).recordAll 0x6002 stOk
        (le 1 a ++ le 1 al.turnJob ++ le 2 n ++ le 4 v ++ le 8 s.now)
    else s

/-- ROTATION_TURN_END (R368): a turn has run out, or its job yields the rest of it, or no turn runs yet; the next job's begins. -/
def execRotationTurnEnd (a : Nat) (s : State) : Result := s.live fun s =>
  let al := s.sched.allotments.get {} a
  let jobs := s.turnJobs a
  let ready (j : Nat) : Bool := !al.emptyYield || s.tailwaterReady j
  let next := ((jobs.filter fun j => al.turnJob < j) ++ jobs.filter fun j => j ≤ al.turnJob).find? ready
  let ended := !al.turnActive || al.turnStart + al.turnUs * usec ≤ s.now || !jobs.contains al.turnJob || !ready al.turnJob
  s.onlyIf (s.sched.allotmentMode && al.valid && al.turnUs != 0 && ended && (al.turnActive || next.isSome)) fun s =>
    let s := s.overrun a
    let al := s.sched.allotments.get {} a
    let new : Allotment := match next with
      | some j => { al with turnActive := true, turnJob := j, turnStart := s.now }
      | none => { al with turnActive := false }
    { s with sched := { s.sched with
      allotments := s.sched.allotments.insert a new
      turns := satAdd 32 s.sched.turns (b2n next.isSome) } }

/-! ## Migration (R370-R374, R381) -/

/-- PAIR_i and RANGE_r of `task_migrate` (Table 15.6). -/
def migratePairs (c : Command) : List (Nat × Nat) := (List.range (c.u8 0)).map fun i => (c.u8 (8 + 2 * i), c.u8 (9 + 2 * i))
def migrateRanges (c : Command) : List (Nat × Nat) := (List.range (c.u8 1)).map fun r => (c.u16 (0x28 + 4 * r), c.u16 (0x2A + 4 * r))

/-- A range that overlaps an earlier one, runs beyond the scratchpad, or overlaps a pool or the reel ring of the job (R381). -/
def State.rangesBad (s : State) (slot : Nat) (rs : List (Nat × Nat)) : Bool :=
  let r := s.reelJob slot
  rs.zipIdx.any fun x =>
    24576 < x.1.1 + x.1.2 ||
      (rs.take x.2).any (fun y => meets x.1.1 x.1.2 y.1 y.2) ||
      (s.jobPools slot).any (fun q => meets x.1.1 x.1.2 q.2.base (q.2.slotLines * q.2.slots)) ||
      meets x.1.1 x.1.2 r.ringBase r.ringLines

/-- The checks of TASK_MIGRATE (R371, R372, R381). -/
def State.taskMigrateChecks (s : State) (c : Command) : List Check :=
  let slot := s.cmdSlot c.hdr
  let ps := migratePairs c
  let rs := migrateRanges c
  let ids := ps.flatMap fun p => [p.1, p.2]
  let coreChecks := ps.zipIdx.flatMap fun p =>
    s.coreChecks c p.1.1 (8 + 2 * p.2) ++ s.coreChecks c p.1.2 (8 + 2 * p.2)
  let beyond (first size n : Nat) : Check :=
    (((List.range 16).filter fun i => n ≤ i).find? fun i => leAt c.params (first + size * i) size != 0).bind fun i =>
      badIf true (first + size * i)
  ([badIf (c.u8 0 == 0 || 16 < c.u8 0) 0, badIf (c.u8 1 == 0 || 16 < c.u8 1) 1] ++ coreChecks ++
   [beyond 8 2 (c.u8 0), badIf (ids.eraseDups.length != ids.length) 8, beyond 0x28 4 (c.u8 1),
    badIf (s.rangesBad slot rs) 0x28, failIf (s.fjob slot).recut.isSome stEpochBusy 5])

/-- TASK_MIGRATE (R371, R372, R381). -/
def execTaskMigrate (c : Command) (s : State) : Result := s.live fun s =>
  let slot := s.cmdSlot c.hdr
  let j := s.job slot
  let ps := migratePairs c
  let rs := migrateRanges c
  let ids := ps.flatMap fun p => [p.1, p.2]
  s.checked c (s.taskMigrateChecks c)
    fun s =>
      let mine (o : Nat) : Bool := o == 0x2002 || o == 0x2020
      let waitFor := ((s.sched.runs.filter fun r => r.slot == slot && mine r.cmd.hdr.opcode).map fun r => r.cmd.hdr) ++
        ((s.attn.runs.filter fun r => r.slot == slot).map fun r => r.cmd.hdr) ++
        (s.streams.streams.filter fun e => e.2.slot == slot).flatMap fun e => e.2.runs.map fun r => r.cmd.hdr
      let limit := c.ex (c.u32 0x68) 0
      let m : Migration := {
        cmd := c, startedAt := s.now, pairs := ps, phys := ids.map fun i => (i, (s.physOf i).getD 0), ranges := rs
        limitUs := if limit = 0 then s.fld uSched 0x800 15 0 else limit
        waitFor := waitFor, closing := false, closeAt := 0, turnouts := [], limited := [] }
      let s := s.setJob slot { j with phase := .migrating, migration := some m }
      s.defer c 0x0601 (le 2 j.placement ++ le 2 waitFor.length ++ le 4 0)

/-- Step 2: every OPEN turnout of the job but those of its pools closes in close-drain mode. -/
def State.closeForMove (s : State) (slot : Nat) (m : Migration) : State :=
  let pool (t : Nat) : Bool := (s.jobPools slot).any fun x => x.2.turnout == t
  let open_ := (List.range 156).flatMap fun p => ((List.range 16).filter fun t =>
    (s.turnout p t).phase == .opened && (s.turnout p t).slot == slot && !pool t).map (turnoutKey p)
  let s := s.setJob slot { s.job slot with migration := some { m with closing := true, closeAt := s.now, turnouts := open_ } }
  let s := open_.foldl (fun s k =>
    s.setTurnout (k / 16) (k % 16)
      { s.turnout (k / 16) (k % 16) with phase := .draining, drainDue := some (s.now + m.limitUs * usec) }) s
  ((open_.map (· / 16)).eraseDups).foldl (fun s p => s.drainCheck p) s

/-- Step 3: every such turnout is CLOSED, and no remote write of the job is in flight. -/
def State.moveReady (s : State) (slot : Nat) (m : Migration) : Bool :=
  m.turnouts.all (fun k => !(s.turnout (k / 16) (k % 16)).accepting) && !(s.spads.mesh.any fun k => k.slot == slot) &&
    !((List.range 256).any fun k => (s.channel k).owner == some slot && (s.channel k).phase == .moving &&
      isWindow (parseDescriptor (s.channel k).held).dst)

/-- A line of a lost source: undefined at its destination. -/
def State.freeLine (s : State) (p l : Nat) : State :=
  let (v, s) := s.draw
  let s := s.storeLine p l (le 128 v) false
  if bitAt v 1024 then s else s.setEmpty p l

/-- Step 4: one line moves with its tag. -/
def State.carryLine (s : State) (src dst l : Nat) : State :=
  let full := s.isFull src l
  let s := s.storeLine dst l (s.line src l) (s.isPoisoned src l)
  let s := if full then s else s.setEmpty dst l
  s.setEmpty src l

/-- Steps 4 to 6: the ranges move, the placement number rises, pools reopen, and the migration ends (R371, R373). -/
def State.finishMove (s : State) (slot : Nat) (m : Migration) : State :=
  let was (c : Nat) : Nat := ((m.phys.find? fun e => e.1 == c).map (·.2)).getD 0
  let lost := (m.phys.find? fun e => s.physOf e.1 != some e.2).map fun e => uCore e.2
  let lines := m.ranges.flatMap fun r => (List.range r.2).map (r.1 + ·)
  let gone (c : Nat) : Bool := s.physOf c != some (was c)
  let whole := m.pairs.filter fun p => !gone p.1 && !gone p.2
  let s := m.pairs.foldl (fun s p => lines.foldl (fun s l =>
    if !gone p.1 && !gone p.2 then s.carryLine (was p.1) (was p.2) l
    else
      let s := match s.physOf p.2 with
        | some q => s.freeLine q l
        | none => s
      if gone p.1 then s else s.setEmpty (was p.1) l) s) s
  let j := s.job slot
  let next := if (j.placement + 1) % 65536 = 0 then 1 else (j.placement + 1) % 65536
  let s := (s.setJob slot { j with placement := next }).reopenPools slot
  let s := { s with sched := { s.sched with migrations := satAdd 16 s.sched.migrations 1 } }
  let (status, detail) := match lost with
    | some u => (stRetired, u)
    | none => if m.limited.isEmpty then (stOk, 0) else (stWindowClosed, 1)
  s.endMigration slot (whole.length * lines.length) status detail

/-- MIGRATION_DRAINED (R371): what step 1 waits for is over, and the turnouts begin to close; once step 3 is over too, the ranges
move and the migration ends. -/
def execMigrationDrained (slot : Nat) (s : State) : Result := s.live fun s =>
  match (s.job slot).migration with
  | none => s
  | some m =>
    let s := if !m.closing && !(m.waitFor.any s.waits) && s.activeCount slot == 0 then s.closeForMove slot m else s
    match (s.job slot).migration with
    | some m => s.onlyIf (m.closing && s.moveReady slot m) fun s => s.finishMove slot m
    | none => s

end Sys2Proof.Machine
end

