-- ==== Sys2Proof/Machine/Security.lean ====
section
/-! DEFINITION. The security block: opening a session (R462), the firmware image (R463-R465, R473), the configuration record
(R466, R474), the identity key and attestation (R468-R471, R475). -/

namespace Sys2Proof.Machine

/-- Exactly `n` bytes: cut, or filled with zeros. -/
def fitBytes (n : Nat) (bs : List Byte) : List Byte := bs.take n ++ List.replicate (n - bs.length) 0

/-- The `n` bytes of `bs` from `off`. -/
def sliceBytes (bs : List Byte) (off n : Nat) : List Byte := (bs.drop off).take n

/-! ## Opening a session (R28, R49, R462) -/

/-- The bytes that a credential's TAG covers (R462). -/
def State.credentialText (s : State) (b : List Byte) : List Byte :=
  ascii "G7OPEN" ++ le 8 s.security.serial ++ sliceBytes b 8 16

/-- Whether a KIND 1 credential's TAG is the KMAC under the host access key. -/
def State.tagVerifies (s : State) (b : List Byte) : Bool :=
  match s.security.hostKey with
  | none => false
  | some k => sliceBytes b 0x18 32 == kmac256 k (s.credentialText b) 32

/-- The DETAIL of a credential's first failure, in the order of R462. -/
def State.credentialFault (s : State) (b : List Byte) : Option Nat :=
  let kind := leAt b 0 1
  let nonce := leAt b 8 8
  let tc := leAt b 0x10 8
  if b.length ≠ 56 || 1 < kind || leAt b 1 7 != 0 || (kind == 0 && (tc != 0 || leAt b 0x18 32 != 0)) then some 7
  else if kind = 0 && s.security.hostKey.isSome then some 6
  else if kind = 1 && !s.tagVerifies b then some 3
  else if s.security.nonces.contains nonce then some 4
  else if kind = 1 && bitAt s.xanca.ready 3 && s.fld uSec 0x070 0 0 == 1 &&
      (s.now + 10000 * msec < tc || tc + 10000 * msec < s.now) then some 5
  else none

/-- An OPEN is answered REFUSE, and counted. -/
def State.refuseOpen (s : State) (status detail : Nat) : State :=
  { s with security := { s.security with openRefused := satAdd 16 s.security.openRefused 1 } }.emit
    (.openReply 0x06 0 (le 2 status ++ le 2 detail ++ le 4 0))

/-- The session numbers that are not in use. -/
def State.freeSessions (s : State) : List Nat :=
  (List.range 17).filter fun n => n != 0 && !(s.session n).isOpen

/-- The firmware version that OPEN_ACK gives (R461). -/
def State.openVersion (s : State) : Nat := if bitAt s.xanca.ready 1 then s.security.fwVersion else 0

/-- A verified OPEN gets a session: which free number is a free value, and so is QUEUE_LIMIT. Replies held while no session
was open go out first (R49). -/
def State.openOn (s : State) (d : Datagram) : State :=
  let (v, s) := s.draw
  let (limit, s) := s.draw
  let free := s.freeSessions
  let n := free.getD (v % free.length) 1
  let held := s.umauth.orphanHold
  let s := s.setSession n
    { isOpen := true, addr := d.src, inst := (s.session n).inst + 1, lastRx := s.now, hostWindow := min d.window 65535 }
  let s := s.setQueue (q0Key n) { phase := .bound, depth := 64, retain := 64, session := n }
  let s := s.emit (.openReply 0x05 n (le 2 limit ++ le 2 0 ++ le 4 s.openVersion))
  let s := { s with umauth := { s.umauth with orphanHold := [] } }
  held.foldl (fun s m => s.postTo (q0Key n) m) s

/-- OPEN (R28, R462). -/
def execOpenSession (d : Datagram) (cred : Credential) (s : State) : Result := s.live fun s =>
  if !s.hostUp then s
  else
    let s := s.rxBytes d.length
    if Datagram.discarded d then s.bump uHostport 0x028 31 16 1
    else if d.kind ≠ 4 then s
    else match s.credentialFault cred.bytes with
      | some x => s.refuseOpen stAuthFail x
      | none =>
        let s := { s with security := { s.security with nonces := (leAt cred.bytes 8 8 :: s.security.nonces).take 1024 } }
        if s.freeSessions.isEmpty then s.refuseOpen stNoResource 0 else s.openOn d

/-! ## The firmware image (R463-R465, R473) -/

/-- The bytes of a complete image. -/
def firmwareBytes (m : TMap Byte) (len : Nat) : List Byte := (List.range len).map fun i => TMap.get 0 m i

/-- The header check of R464, with ENTRY. `len` is the length that BEGIN gave. -/
def imageHeaderOk (img : List Byte) (len : Nat) : Bool :=
  let entry := leAt img 0x14 4
  sliceBytes img 0 4 == ascii "GFW1" && leAt img 4 2 == 1 && leAt img 6 2 == 0 && leAt img 8 4 == len &&
    16384 ≤ len && len ≤ 33554432 && len % 8 == 0 && sliceBytes img 0x18 8 == ascii "HG7-L0" ++ [0, 0] &&
    leAt img 0x20 1 == 0x41 && leAt img 0x21 1 == 0 && (sliceBytes img 0x22 222).all (· == 0) &&
    entry % 4 == 0 && 0x100 ≤ entry && entry < len - 5776

/-- `verify_image` of R464: the DETAIL of the first failure. -/
def verifyImage (m : TMap Byte) (len minSvn : Nat) : Option Nat :=
  let img := firmwareBytes m len
  let root := sliceBytes img (len - 5776) 68
  let signer := sliceBytes img (len - 5708) 68
  let cert := sliceBytes img (len - 5640) 2820
  let sig := sliceBytes img (len - 2820) 2820
  if m.length ≠ len then some 0x15
  else if !imageHeaderOk img len then some 0x10
  else if shake256 root 32 ≠ Config.rootHash || leAt (root.take 4).reverse 0 4 ≠ 0x12 then some 0x11
  else if !Config.xmssVerify root (ascii "G7CERT" ++ [1] ++ signer) cert then some 0x12
  else if !Config.xmssVerify signer (img.take (len - 2820)) sig then some 0x13
  else if leAt img 0x10 4 < minSvn then some 0x14
  else none

/-- The open load is discarded. -/
def State.dropLoad (s : State) : State :=
  { s with security := { s.security with loadSession := 0, image := [], imageLen := 0, phase := .rom } }

/-- MIN_SVN of the field section in force. -/
def State.minSvn (s : State) : Nat := (s.security.current.map (·.minSvn)).getD 0

/-- Whether a COMMIT of the session that holds the load was dispatched before a command and is being verified (R473). -/
def State.verifying (s : State) (c : Command) : Bool :=
  s.security.loadSession != 0 &&
    ((s.queue (q0Key s.security.loadSession)).running.takeWhile fun x => !decide (x.hdr = c.hdr)).any fun x =>
      x.hdr.opcode == 0xA001 && x.u8 0 == 2

/-- The refusals that every OP of `firmware_load` shares (R473). -/
def State.loadChecks (s : State) (c : Command) (op : Nat) : List Check :=
  let held := s.security.loadSession
  let own := held == c.hdr.session
  [badIf (c.u8 0 != op || s.security.committed || bitAt s.xanca.ready 1 || (held != 0 && own && s.verifying c) ||
      ((op == 1 || op == 2) && held == 0)) 0,
   failIf (held != 0 && !own) stNoResource 0xC0]

/-- The 8-byte result of BEGIN, DATA and ABORT. -/
def State.loadResult (s : State) : List Byte := le 4 s.security.image.length ++ le 4 0

/-- The checks of FIRMWARE_LOAD_BEGIN (R473). -/
def State.firmwareLoadBeginChecks (s : State) (c : Command) : List Check :=
  let len := c.u32 8
  (s.loadChecks c 0 ++ [badIf (len < 16384 || 33554432 < len || len % 8 != 0) 8])

/-- FIRMWARE_LOAD_BEGIN (R473). -/
def execFirmwareLoadBegin (c : Command) (s : State) : Result := s.live fun s =>
  let len := c.u32 8
  s.checked c (s.firmwareLoadBeginChecks c) fun s =>
    let s := { s with security := { s.security with
      loadSession := c.hdr.session, image := [], imageLen := len, phase := .loading } }
    s.finish c stOk 0 s.loadResult

/-- Bytes enter the image at an offset; a rewritten byte takes its last value. -/
def putImage (m : TMap Byte) (off : Nat) : List Byte → TMap Byte
  | [] => m
  | b :: t => putImage (TMap.insert m off b) (off + 1) t

/-- The checks of FIRMWARE_LOAD_DATA (R473). -/
def State.firmwareLoadDataChecks (s : State) (c : Command) : List Check :=
  let off := c.u32 4
  let len := c.u32 8
  (s.loadChecks c 1 ++
   [badIf (off % 8 != 0) 4, badIf (len < 8 || 4048 < len || len % 8 != 0 || s.security.imageLen < off + len) 8])

/-- FIRMWARE_LOAD_DATA (R473). -/
def execFirmwareLoadData (c : Command) (s : State) : Result := s.live fun s =>
  let off := c.u32 4
  s.checked c (s.firmwareLoadDataChecks c)
    fun s =>
      let s := { s with security := { s.security with image := putImage s.security.image off (c.params.drop 16) } }
      s.finish c stOk 0 s.loadResult

/-- The checks of FIRMWARE_LOAD_COMMIT (R464, R465). -/
def State.firmwareLoadCommitChecks (s : State) (c : Command) : List Check :=
  (s.loadChecks c 2)

/-- FIRMWARE_LOAD_COMMIT (R464, R465). -/
def execFirmwareLoadCommit (c : Command) (s : State) : Result := s.live fun s =>
  s.checked c (s.firmwareLoadCommitChecks c) fun s =>
    let len := s.security.imageLen
    match verifyImage s.security.image len s.minSvn with
    | some x =>
      let s := s.dropLoad
      let s := { s with security := { s.security with loadFailed := satAdd 16 s.security.loadFailed 1 } }
      s.finish c stAuthFail x []
    | none =>
      let img := firmwareBytes s.security.image len
      let digest := shake256 img 32
      let s := s.dropLoad
      let s := { s with security := { s.security with
        phase := .running, committed := true, firmware := img, fwDigest := digest
        fwVersion := leAt img 0xC 4, fwSvn := leAt img 0x10 4 } }
      s.finish c stOk 0 (le 4 s.security.fwVersion ++ le 4 s.security.fwSvn ++ digest ++ le 8 s.now)

/-- The checks of FIRMWARE_LOAD_ABORT (R473). -/
def State.firmwareLoadAbortChecks (s : State) (c : Command) : List Check :=
  (s.loadChecks c 3)

/-- FIRMWARE_LOAD_ABORT (R473). -/
def execFirmwareLoadAbort (c : Command) (s : State) : Result := s.live fun s =>
  s.checked c (s.firmwareLoadAbortChecks c) fun s =>
    let result := s.loadResult
    (if s.security.loadSession = 0 then s else s.dropLoad).finish c stOk 0 result

/-! ## The configuration record (R466, R467, R474) -/

/-- A setting as an entry spells it (Table 19.5). -/
def settingAt (bs : List Byte) (off : Nat) : Setting :=
  ⟨leAt bs off 2, leAt bs (off + 2) 2, leAt bs (off + 4) 2, leAt bs (off + 6) 1, leAt bs (off + 7) 1, leAt bs (off + 8) 8⟩

/-- Whether two settings are of the same field and instance. -/
def Setting.sameAs (a b : Setting) : Bool :=
  a.type == b.type && a.inst == b.inst && a.offset == b.offset && a.msb == b.msb && a.lsb == b.lsb

/-- The configuration fields that a setting could name at its offset. -/
def Setting.fields (x : Setting) : List RegField := (typeFields x.type).filter fun f => f.cfg && f.at x.offset

/-- The field that a setting names. -/
def Setting.field (x : Setting) : Option RegField := x.fields.find? fun f => f.hi == x.msb && f.lo == x.lsb

/-- The instances of a block type. -/
def typeCount (type : Nat) : Nat := ((unitTypes.find? fun t => t.1 == type).map (·.2.2)).getD 0

/-- The unit id of an instance of a block type. -/
def unitOf (type inst : Nat) : Nat := ((unitTypes.find? fun t => t.1 == type).map (·.2.1)).getD 0 + inst

/-- Whether a value lies in the field's stated range (PFC_PRIO: 0xF too; AREA_MIB by R386). -/
def Setting.inRange (x : Setting) : Bool :=
  x.value < 2 ^ (x.msb + 1 - x.lsb) &&
    (x.type != 0x70 || x.offset != 0x010 || (x.value % 12288 == 0 && 12288 ≤ x.value && x.value ≤ 491520)) &&
    (match cfgRanges.find? fun r => r.1 == x.type && r.2.1 == x.offset && r.2.2.1 == x.lsb with
     | none => true
     | some r => (r.2.2.2.1 ≤ x.value && x.value ≤ r.2.2.2.2) || (x.type == 0xA0 && x.lsb == 4 && x.value == 15))

/-- The offset within an entry of the first field found invalid: [MSB:LSB] spans exactly one configuration field of an instance
that has it, and VALUE is in its range (R474). -/
def Setting.bad (x : Setting) : Option Nat :=
  if typeCount x.type = 0 then some 0
  else if (x.inst != 0xFFFF && typeCount x.type ≤ x.inst) || (x.type == 0x40 && 0xF00 ≤ x.offset && x.inst != 0 && x.inst != 0xFFFF)
    then some 2
  else if x.fields.isEmpty then some 4
  else if x.field.isNone then some 7
  else if !x.inRange then some 8
  else none

/-- The entries of a `config_write`. -/
def configEntries (c : Command) : List Setting := (List.range (c.u8 1)).map fun i => settingAt c.params (8 + 16 * i)

/-- A setting is added, or replaces the one of the same field and instance. -/
def putSetting (l : List Setting) (x : Setting) : List Setting :=
  if l.any x.sameAs then l.map fun y => if y.sameAs x then x else y else l ++ [x]

/-- The head of `config_write`: OP, COUNT, APPLY and VALUE (Table 19.9). -/
def configHead (c : Command) (op : Nat) : List Check :=
  [badIf (c.u8 0 != op) 0, badIf (if op ≤ 1 then c.u8 1 == 0 || 32 < c.u8 1 else c.u8 1 != 0) 1,
   badIf (if op = 0 then 1 < c.u8 2 else c.u8 2 != 0) 2, badIf (op != 3 && c.u32 4 != 0) 4]

/-- The field section in force, or an empty one. -/
def State.fieldCopy (s : State) : FieldCopy := s.security.current.getD ⟨0, 0, 0, [], []⟩

/-- One commit, after which the command completes; with bit 4 clear the first of them sets it (R466). -/
def State.configCommit (s : State) (c : Command) (f : FieldCopy → FieldCopy) : State :=
  let s := s.mramCommit f
  let s := if bitAt s.xanca.ready 4 then s else s.csSetBits [4]
  let x := s.fieldCopy
  s.finish c stOk 0 (le 8 x.generation ++ le 2 x.settings.length ++ le 2 0 ++ le 4 x.repairs.length)

/-- A field of a register is written live; a port whose ENABLE changes is counted anew for bit 63 (R62). -/
def State.writeLive (s : State) (u off hi lo v : Nat) : State :=
  let s := s.setFld u off hi lo v
  if unitType u = 0x40 && off = 0x040 then s.csApply s.xanca.ready s.xanca.failed else s

/-- APPLY (R474): RW fields are written live; an INSTANCE 0xFFFF setting skips an instance that has one of its own. -/
def State.applySetting (s : State) (x : Setting) : State :=
  match x.field with
  | none => s
  | some f =>
    if f.acc ≠ .rw then s
    else
      let own (i : Nat) : Bool := s.fieldCopy.settings.any fun y => y.sameAs { x with inst := i }
      let insts := if x.inst = 0xFFFF
        then (List.range (typeCount x.type)).filter fun i => !own i && !(x.type == 0x40 && 0xF00 ≤ x.offset && i != 0)
        else [x.inst]
      insts.foldl (fun s i => s.writeLive (unitOf x.type i) x.offset x.msb x.lsb x.value) s

/-- The checks of CONFIG_WRITE_SET (R474). -/
def State.configWriteSetChecks (s : State) (c : Command) : List Check :=
  let l := configEntries c
  let after := l.foldl putSetting s.fieldCopy.settings
  let bad := (List.range l.length).findSome? fun i => (l.getD i default).bad.map fun o => (stBadParam, 0x20 + 8 + 16 * i + o)
  (configHead c 0 ++ [bad, failIf (2048 < after.length) stNoResource 0xC1])

/-- CONFIG_WRITE_SET (R474). -/
def execConfigWriteSet (c : Command) (s : State) : Result := s.live fun s =>
  let l := configEntries c
  let after := l.foldl putSetting s.fieldCopy.settings
  s.checked c (s.configWriteSetChecks c) fun s =>
    let t := s.configCommit c fun x => { x with settings := after }
    if c.u8 2 = 1 then l.foldl State.applySetting t else t

/-- The checks of CONFIG_WRITE_CLEAR (R474). -/
def State.configWriteClearChecks (_s : State) (c : Command) : List Check :=
  let l := configEntries c
  let bad := (List.range l.length).findSome? fun i =>
    if (l.getD i default).value ≠ 0 then some (stBadParam, 0x20 + 8 + 16 * i + 8) else none
  (configHead c 1 ++ [bad])

/-- CONFIG_WRITE_CLEAR (R474). -/
def execConfigWriteClear (c : Command) (s : State) : Result := s.live fun s =>
  let l := configEntries c
  s.checked c (s.configWriteClearChecks c) fun s =>
    s.configCommit c fun x => { x with settings := x.settings.filter fun y => !(l.any y.sameAs) }

/-- The checks of CONFIG_WRITE_HOST_KEY (R474). -/
def State.configWriteHostKeyChecks (_s : State) (c : Command) : List Check :=
  (configHead c 2)

/-- CONFIG_WRITE_HOST_KEY (R474): all zeros removes the key. -/
def execConfigWriteHostKey (c : Command) (s : State) : Result := s.live fun s =>
  let key := sliceBytes c.params 8 32
  s.checked c (s.configWriteHostKeyChecks c) fun s =>
    let s := { s with security := { s.security with hostKey := if key.all (· == 0) then none else some key } }
    s.configCommit c id

/-- The checks of CONFIG_WRITE_MIN_SVN (R474). -/
def State.configWriteMinSvnChecks (s : State) (c : Command) : List Check :=
  let v := c.u32 4
  (configHead c 3 ++ [badIf (v < s.minSvn || s.security.fwSvn < v) 4])

/-- CONFIG_WRITE_MIN_SVN (R474). -/
def execConfigWriteMinSvn (c : Command) (s : State) : Result := s.live fun s =>
  let v := c.u32 4
  s.checked c (s.configWriteMinSvnChecks c) fun s =>
    s.configCommit c fun x => { x with minSvn := v }

/-! ## Identity and attestation (R468-R471, R475, R476) -/

/-- The first index of the reserve (R468). -/
abbrev identityReserve : Nat := 1048512

/-- LEFT of SEC_IDENT: report signatures left. -/
def State.signaturesLeft (s : State) : Nat := identityReserve - s.security.nextIndex

/-- IDENTITY_LOW, when LEFT first falls to the threshold (R469). -/
def State.identityLow (s : State) : State :=
  if !s.security.lowIssued && s.signaturesLeft ≤ s.fld uSec 0x070 63 32 then
    { s with security := { s.security with lowIssued := true } }.recordAll 0xA001 stOk
      (le 1 s.security.keyGen ++ le 3 0 ++ le 4 s.signaturesLeft ++ le 8 s.now)
  else s

/-- The bytes of a field section with TAG taken as zero (Table 19.5); what it holds beyond its entries is not given. -/
def FieldCopy.bytes (x : FieldCopy) : List Byte :=
  ascii "GCFG" ++ le 4 1 ++ le 8 x.generation ++ le 4 x.bootCount ++ le 4 x.minSvn ++ le 2 x.settings.length ++ le 2 0 ++
    le 4 x.repairs.length ++ le 32 0 ++
    (x.settings.flatMap fun y => le 2 y.type ++ le 2 y.inst ++ le 2 y.offset ++ le 1 y.msb ++ le 1 y.lsb ++ le 8 y.value) ++
    Config.sectionRest 0 x.settings.length ++ (x.repairs.flatMap fun y => le 2 y.unit ++ le 1 y.kind ++ le 1 0 ++ le 4 y.sub) ++
    Config.sectionRest 1 x.repairs.length

/-- The first 256 bytes of an attestation report (Table 19.6). -/
def State.reportHead (s : State) (nonce : List Byte) (bind : Nat) (tc : Stamp) : List Byte :=
  let x := s.fieldCopy
  let run := bitAt s.xanca.ready 1
  ascii "GATT" ++ le 2 1 ++ le 1 (b2n run) ++ le 1 s.security.keyGen ++ le 8 s.security.serial ++ fitBytes 32 nonce ++
    fitBytes 32 Config.rootHash ++ (if run then fitBytes 32 s.security.fwDigest else le 32 0) ++
    le 4 (if run then s.security.fwVersion else 0) ++ le 4 (if run then s.security.fwSvn else 0) ++ le 4 s.minSvn ++
    le 4 x.bootCount ++ le 8 x.generation ++ shake256 x.bytes 32 ++ le 8 s.xanca.ready ++ le 8 s.xanca.failed ++
    le 2 s.fabricId ++ le 2 (s.fld uRes 0x018 15 0) ++ le 1 s.diag.absent.length ++
    le 1 (if run then 4 - s.diag.controlRetired.length else 0) ++ le 2 0 ++ tc.bytes ++ le 8 Config.romVersion ++ le 8 bind ++ le 32 0

/-- The checks of ATTEST_REPORT (R468, R469, R471). -/
def State.attestReportChecks (s : State) (c : Command) : List Check :=
  [badIf (c.u8 0 != 0) 0, failIf (identityReserve ≤ s.security.nextIndex) stKeyExhausted 0]

/-- ATTEST_REPORT (R468, R469, R471): one leaf of the active key is used. -/
def execAttestReport (c : Command) (s : State) : Result := s.live fun s =>
  s.checked c (s.attestReportChecks c) fun s =>
    let i := s.security.nextIndex
    let (tc, s) := s.stamp uSec
    let s := { s with security := { s.security with
      nextIndex := i + 1, reservedTo := if s.security.reservedTo ≤ i then i + 64 else s.security.reservedTo
      reports := satAdd 16 s.security.reports 1 } }
    let head := s.reportHead (sliceBytes c.params 8 32) (c.ex (c.u64 0x28) 0) tc
    let sig := fitBytes 2820 (Config.xmssSign s.security.keyGen i (ascii "G7ATTEST" ++ head))
    (s.finish c stOk 0 (head ++ sig ++ le 4 0)).identityLow

/-- Item `i` of the identity chain (R475). -/
def State.chainItem (s : State) (i : Nat) : List Byte :=
  if i = 0 then fitBytes 2888 (Config.factoryItem 0)
  else if i = 1 then fitBytes 3076 (Config.factoryItem 1)
  else fitBytes 2906 (s.security.chain.getD (i - 2) [])

/-- The checks of ATTEST_CHAIN (R475). -/
def State.attestChainChecks (s : State) (c : Command) : List Check :=
  let n := 2 + s.security.chain.length
  [badIf (c.u8 0 != 1) 0, badIf (n ≤ c.u8 1) 1, badIf ((sliceBytes c.params 8 32).any (· != 0)) 8]

/-- ATTEST_CHAIN (R475). A count above 255 does not fit its byte: a free value. -/
def execAttestChain (c : Command) (s : State) : Result := s.live fun s =>
  let n := 2 + s.security.chain.length
  s.checked c (s.attestChainChecks c) fun s =>
    let (v, s) := s.draw
    let item := s.chainItem (c.u8 1)
    s.finish c stOk 0
      (le 1 (if n ≤ 255 then n else v) ++ le 1 (c.u8 1) ++ le 6 0 ++ item ++ le ((8 - item.length % 8) % 8) 0)

/-- The checks of ATTEST_ROLL (R470, R475). -/
def State.attestRollChecks (s : State) (c : Command) : List Check :=
  [badIf (c.u8 0 != 2 || (s.fld uSec 0x070 63 32 < s.signaturesLeft && !c.hdr.force)) 0,
   badIf s.security.rollCmd.isSome 2, badIf ((sliceBytes c.params 8 32).any (· != 0)) 8,
   failIf (s.security.keyGen == 255) stNoResource 0xC2]

/-- ATTEST_ROLL (R470, R475). -/
def execAttestRoll (c : Command) (s : State) : Result := s.live fun s =>
  s.checked c (s.attestRollChecks c)
    fun s => { s with security := { s.security with rollCmd := some c } }.defer c 0 []

/-- The statement of a rollover to generation `g` (R470). -/
def State.rollStatement (s : State) (g : Nat) : List Byte :=
  ascii "G7ROLL" ++ le 4 g ++ le 8 s.security.serial ++ fitBytes 68 (Config.identityKey g)

/-- KEY_ROLLED (R470, R475, R476): the next key is made, or its generation has failed. -/
def execKeyRolled (ok : Bool) (s : State) : Result := s.live fun s =>
  match s.security.rollCmd with
  | none => s
  | some c =>
    let g := s.security.keyGen
    let left := s.signaturesLeft
    if ok then
      let (v, s) := s.draw
      let text := s.rollStatement (g + 1)
      let sig := fitBytes 2820 (Config.xmssSign g (identityReserve + v % 64) text)
      let s := { s with security := { s.security with
        keyGen := g + 1, nextIndex := 0, reservedTo := 0, lowIssued := false, rollCmd := none
        chain := s.security.chain ++ [text ++ sig], rolls := satAdd 16 s.security.rolls 1 } }
      let s := s.recordAll 0xA002 stOk (le 1 g ++ le 1 (g + 1) ++ le 2 0 ++ le 4 left ++ le 8 s.now)
      s.deferredDoneWith c.hdr stOk (le 2 0 ++ le 6 0 ++ le 1 (g + 1) ++ le 7 0 ++ le 8 s.now)
    else
      let (v, s) := s.draw
      let (d, s) := s.draw
      let s := { s with security := { s.security with rollCmd := none } }
      let s := s.recordAll 0xA002 stFaultHw (le 1 g ++ le 1 v ++ le 2 0 ++ le 4 left ++ le 8 s.now)
      s.deferredDone c.hdr stFaultHw d

end Sys2Proof.Machine
end

