-- ==== Sys2Proof/Machine/Bringup.lean ====
section
/-! DEFINITION. Taking the device up and down: power-good and what stops the device (R437, R460, R466, R467, R499, R509), the device
states and the moves between them (R442-R446, R456), functions that become ready or stop being usable (R63-R66). -/

namespace Sys2Proof.Machine

/-! ## Bring-up (R88, R302, R423, R460, R466, R467) -/

/-- The entries of one physical core. -/
def State.setCoreEntries (s : State) (p state logical : Nat) : State :=
  (coreUnits p).foldl (fun s u =>
    let e : XEntry := ⟨state, if u = uCore p then logical else unitInstance u, 0, 0⟩
    s.setXentry u e) s

/-- One physical row is mapped: the first 12 cores that pass take logical columns 0 to 11, the thirteenth is the spare; with fewer
than 12 the columns left are absent, each naming a failed core (R88, R423). -/
def State.mapRow (s : State) (failed : List Nat) (r : Nat) : State :=
  let row := (List.range 13).map (13 * r + ·)
  let good := row.filter fun p => !failed.contains p
  let bad := row.filter fun p => failed.contains p
  let s := (List.range good.length).foldl (fun s i =>
    if i < 12 then s.setCoreEntries (good.getD i 0) 1 (12 * r + i) else s.setCoreEntries (good.getD i 0) 2 0xFFFF) s
  let s := bad.foldl (fun s p => s.setCoreEntries p 3 0xFFFF) s
  (List.range (12 - good.length)).foldl (fun s i =>
    { s with diag := { s.diag with absent := s.diag.absent.insert (12 * r + good.length + i) (uCore (bad.getD i 0)) } }) s

/-- A repair of the record is applied (R105, R137, R156, R176, R323, R417, R431). -/
def State.applyRepair (s : State) (r : Repair) : State :=
  let p := unitInstance r.unit
  if r.kind = 1 then s.setCore p { s.core p with retiredRows := (s.core p).retiredRows ++ [r.sub] }
  else if r.kind = 2 then
    let k := p * 16 + r.sub % 16
    let s := { s with spads := { s.spads with sparesUsed := s.spads.sparesUsed.insert k (s.spads.sparesUsed.get 0 k + 1) } }
    (s.bump (uSpad p) 0x388 31 16 1).setFld (uSpad p) 0x388 15 0 r.sub
  else if r.kind = 3 then
    let s := { s with conts := { s.conts with sparesUsed := s.conts.sparesUsed.insert p (s.conts.sparesUsed.get 0 p + 1) } }
    s.bump (uCont p) 0x028 7 0 1
  else if r.kind = 4 then { s with streams := { s.streams with sparesUsed := s.streams.sparesUsed + 1 } }
  else if r.kind = 6 then
    if r.unit = uMmu then s.setFld uMmu 0x010 47 32 (s.fld uMmu 0x010 47 32 - 1)
    else s.setXentry r.unit { s.xentry r.unit with state := 3 }
  else if r.kind = 7 then { s with diag := { s.diag with controlRetired := s.diag.controlRetired ++ [r.sub] } }
  else if r.kind = 8 then (s.laneVerdict p r.sub true).2
  else s

/-- The state that configuration fields with a home of their own take (R467, Tables 15.2 and 18.5). -/
def State.loadHomes (s : State) : State :=
  let limits := regReset s.security.loaded uGaffer 0x020
  let mode := bits (regReset s.security.loaded uSched 0x010) 63 62
  { s with
    power := { s.power with tdpW := bits limits 63 48, peakW := bits limits 47 32, peakMs := bits limits 31 24 }
    sched := { s.sched with
      allotmentMode := mode == 1
      allotments := if mode = 1 then [(0, ({ valid := true, cores := List.range 144 } : Allotment))] else [] } }

/-- A copy of the field section whose TAG does not verify is not valid (R466). -/
def Security.keepValid (x : Security) (tagA tagB : Bool) : Security :=
  { x with copyA := if tagA then x.copyA else none, copyB := if tagB then x.copyB else none }

/-- The record is read: the copy in force is chosen, BOOT_COUNT raised by one commit, and its settings loaded; with no valid copy
the failed bit of bit 4 is set and every field takes its default (R466). -/
def State.readMram (s : State) (f : BootFacts) : State :=
  let s := { s with security := s.security.keepValid f.tagA f.tagB }
  if !f.factoryOk then
    { s with security := { s.security with factoryBad := true, loaded := [] } }.deviceFault uSec [4]
  else match s.security.current with
    | none => { s with security := { s.security with factoryBad := false, loaded := [] } }.csApply s.xanca.ready (putBit s.xanca.failed 4 true)
    | some x =>
      let s := s.mramCommit fun y => { y with bootCount := (y.bootCount + 1) % 2 ^ 32 }
      { s with security := { s.security with factoryBad := false, loaded := x.settings } }.csSetBits [4]

/-- The units are brought into the state of a boot: the record's repairs, the cores that pass, the empty slots (R88, R417, R504).
Units that fail now and are not in the record are written there. -/
def State.bootUnits (s : State) (f : BootFacts) : State :=
  let repairs := (s.security.current.map (·.repairs)).getD []
  let known (u kind : Nat) : Bool := repairs.any fun r => r.unit == u && r.kind == kind
  let failed := f.failedCores ++ ((repairs.filter fun r => r.kind == 5).map fun r => unitInstance r.unit)
  let s := (List.range 12).foldl (fun s r => s.mapRow failed r) s
  let s := repairs.foldl State.applyRepair s
  let s := f.failedUnits.foldl (fun s u => s.setXentry u { s.xentry u with state := 3 }) s
  let s := f.emptySlots.foldl (fun s c =>
    (s.setXentry (uFar c) { s.xentry (uFar c) with state := 4 }).setReg (uFar c) 0x010 0) s
  let s := s.loadHomes
  let s := (f.failedCores.filter fun p => !known (uCore p) 5).foldl (fun s p => s.mramRepair (uCore p) 5 0 false) s
  (f.failedUnits.filter fun u => !known u 6).foldl (fun s u => s.mramRepair u 6 0 false) s

/-- Time passes up to `upto` ns after power-good; how much of it is a free value, a multiple of `grain`. -/
def State.passTime (s : State) (upto grain : Nat) : State :=
  let (v, s) := s.draw
  let span := (upto - s.sinceBoot) / grain
  { s with timecode := { s.timecode with ns := s.now + v % (span + 1) * grain } }

/-- The host port's link comes up: 8 lanes (R477). -/
def State.hostLinkUp (s : State) : State := (s.setFld uHostport 0x010 63 60 2).setFld uHostport 0x010 59 56 8

/-- The security block's state after a loss of its power: signing resumes at the next block, and no load, no rollover and no
started firmware is left (R469, R470). -/
def Security.powerUp (x : Security) : Security :=
  { x with
    nextIndex := max x.nextIndex x.reservedTo, rollCmd := none, loadSession := 0, image := [], imageLen := 0, phase := .rom
    openRefused := 0, loadFailed := 0, reports := 0 }

/-- The device as its power comes up: what the MRAM die, the modules' repairs and the pins hold is all that is left. -/
def State.atPowerGood (s : State) : State :=
  { pending := s.pending, outputs := s.outputs, freshCount := s.freshCount, powered := true
    regs := s.regs.filter fun e => 642 ≤ e.1 / 65536 && e.1 / 65536 ≤ 645 && e.1 % 65536 == 0x048
    diag := { rowRepairs := s.diag.rowRepairs, badRows := s.diag.badRows }
    pins := { pwrGood := true, throtInN := s.pins.throtInN, setpAlertN := s.pins.setpAlertN, testMode := s.pins.testMode }
    security := { s.security.powerUp with
      nonces := [], committed := false, firmware := [], fwDigest := [], fwVersion := 0, fwSvn := 0 } }

/-- PWR_GOOD (R460): steps 1 to 5 of Table 19.1. Where a step ends within its bound is a free value. -/
def execPwrGood (f : BootFacts) (s : State) : Result := .next (
  if s.powered || s.pins.pwrGood then s
  else
    let s := s.atPowerGood
    let s := (s.passTime (50 * msec) 40).csSetBits [0]
    let s := { s.passTime (100 * msec) 40 with power := { s.power with pll := 0x600 } }
    let s := { s with timecode := { s.timecode with timePll := true } }
    let s := (s.passTime (1500 * msec) 1).readMram f
    let s := s.bootUnits f
    let s := (s.passTime (1500 * msec) 1).csSetBits [5]
    let s := s.passTime (1500 * msec) 1
    { s with power := { s.power with pll := s.power.pll ||| 0x100, lastActive := s.now } }.hostLinkUp.csSetBits [2])

/-! ## What stops the device (R499, R509) -/

/-- PWR_GOOD_DEASSERT (R499): the device stops as at power-off. -/
def execPwrGoodDeassert (s : State) : Result := .next
  { s with powered := false, pins := { s.pins with pwrGood := false, faultN := true }, power := { s.power with stopped := false } }

/-- The Watermaster stops every fast clock and asserts FAULT_N; the device stays stopped. -/
def State.haltAll (s : State) : State :=
  { s with powered := false, pins := { s.pins with faultN := false }, power := { s.power with stopped := true, pll := 0 } }

/-- RAIL_FAULT (R499). -/
def execRailFault (s : State) : Result := s.live State.haltAll

/-- THERMAL_TRIP (R509). -/
def execThermalTrip (s : State) : Result := s.live State.haltAll

/-! ## Functions that become ready (R63-R66, R439, R444) -/

/-- The PLLs that a function needs (Table 18.1), by call-sheet bit. -/
def pllOf (b : Nat) : Nat :=
  if b = 6 then 1 else if b = 7 || b = 8 || b = 9 || b = 10 || b = 11 then 2 else if 16 ≤ b && b ≤ 19 then 4
  else if 20 ≤ b && b ≤ 31 then 8 else if b = 35 then 0xF0 else if b = 1 then 0x200 else if b = 2 then 0x100 else 0

/-- Whether a function can become ready now. Bit 3 is set by the timecode unit, 36 to 51 by their ports, 12, 32 and 63 by R62 and
R64. Firmware brings up every function after bit 5; QMGR is placed in HBM, the slate log in the far tier, and the optics are off in
SLEEP. -/
def State.canBeReady (s : State) (b : Nat) : Bool :=
  !bitAt s.xanca.ready b && s.power.dstate != .standby && (s.csUsable b || (csUnits b).isEmpty) &&
  (b == 0 || b == 2 || b == 5 || (b == 4 && !s.security.factoryBad && s.security.current.isSome) ||
   (b == 1 && s.security.committed && !s.security.factoryBad) ||
   (bitAt s.xanca.ready 1 &&
     ((6 ≤ b && b ≤ 11) || b == 14 || b == 15 || (16 ≤ b && b ≤ 19) || (20 ≤ b && b ≤ 31 && s.farState (b - 20) == 1) ||
      b == 34 || (b == 13 && bitAt s.xanca.ready 12) || (b == 33 && bitAt s.xanca.ready 32) ||
      (b == 35 && (s.power.dstate != .sleep || s.power.moving)))))

/-- The firmware has started (R465): the control cores report, the † deadlines count, and the populated far-tier channels are
powered and train (R505). -/
def State.firmwareUp (s : State) : State :=
  let live := (List.range 4).filter fun n => !s.diag.controlRetired.contains n
  let s := { s with
    xanca := { s.xanca with firmwareAt := some s.sinceBoot }
    power := { s.power with alive := maskOf live }
    security := { s.security with phase := .running }
    umauth := { s.umauth with seen := [] }
    diag := { s.diag with lastReport := live.map fun n => (n, s.now) } }
  ((List.range 12).filter fun c => s.active (uFar c) && s.farState c == 0).foldl (fun s c =>
    let s := { s with pins := { s.pins with
      farSlotEn := s.pins.farSlotEn.set 0 c 1, slotPower := s.pins.slotPower.set 0 c 1 } }
    s.setFarState c 1) s

/-- What a function's own state is once it is ready. -/
def State.functionUp (s : State) (b : Nat) : State :=
  if b = 1 then s.firmwareUp
  else if b = 2 then s.hostLinkUp
  else if 20 ≤ b && b ≤ 31 then
    let (v, s) := s.draw
    (s.setFld (uFar (b - 20)) 0x010 31 0 v).setFarState (b - 20) 2
  else s

/-! ## Device states (R442-R446, R456) -/

/-- The device enters a state, with its record; how long the move took is given. -/
def State.enter (s : State) (new : DState) (cause moveNs : Nat) : State :=
  let old := s.power.dstate
  { s with power := { s.power with dstate := new, stateTc := s.now } }.powerStateRecord old new cause moveNs

/-- DOZE: ARITH, MESH, HBM and FAR stop (Table 18.2). The length of the entry is a free value. -/
def State.enterDoze (s : State) : State :=
  let (v, s) := s.draw
  let s := { s with power := { s.power with pll := s.power.pll / 16 * 16 } }
  s.enter .doze 0 v

/-- SLEEP (R444): the optical engines stop, bits 35 to 51 are cleared, CTRL falls to 1.0 GHz, and the timecode unit loses its fabric
parent. -/
def State.enterSleep (s : State) : State :=
  let (v, s) := s.draw
  let s := (List.range 16).foldl (fun s p =>
    let x := s.port p
    let s := s.setPort p { x with light := false }
    if x.phase = .down || x.phase = .failed then s else s.portLost p .down) s
  let s := { s with power := { s.power with pll := s.power.pll / 256 * 256, ctrlMhz := 1000 } }
  let s := s.csClearBits ((List.range 17).map (35 + ·))
  s.enter .sleep 0 v

/-- STANDBY (R445): the host port drops, sessions end without records, every bit but 0 is cleared, and only the always-on domain, the
tiers' contents with the far tier's redirections, the MRAM and the verified image are kept (Table 18.2). The timecode counter goes
over to 40 ns steps at a boundary. -/
def State.enterStandby (s : State) : State :=
  let p := s.power
  let t := s.timecode
  { pending := s.pending, outputs := s.outputs, freshCount := s.freshCount, powered := true, pins := s.pins
    power := { dstate := .standby, wakes := p.wakes, wakeCause := p.wakeCause, wakeNs := p.wakeNs, stateTc := s.now
               timeouts := p.timeouts, energyUj := p.energyUj }
    timecode := { t with
      ns := ceilDiv t.ns 40 * 40, phase := .freerun, source := 0, parentPort := 0xFF, timePll := false, neighbours := []
      ptpValid := false, ptpT1 := none, ptpT2 := none, searchSince := none, lostAt := t.ns, boundAtLoss := t.errBound }
    security := s.security
    diag := { rowRepairs := s.diag.rowRepairs, badRows := s.diag.badRows }
    memory := { bytes := s.memory.bytes, poison := s.memory.poison }
    xanca := { csTc := s.xanca.csTc, generation := s.xanca.generation, ready := s.xanca.ready % 2, failed := s.xanca.failed % 2
               bootNs := s.xanca.bootNs }
    regs := s.regs.filter fun e =>
      let u := e.1 / 65536
      (642 ≤ u && u ≤ 645 && e.1 % 65536 == 0x048) || (646 ≤ u && u ≤ 657 && (e.1 % 65536 == 0x010 || 0x100 ≤ e.1 % 65536)) }

/-- The 16-byte result of `power_state_set` (R456). -/
def State.moveResult (s : State) (old : DState) (moveNs : Nat) : List Byte :=
  le 1 old.code ++ le 1 s.power.dstate.code ++ le 2 0 ++ le 4 moveNs ++ le 8 s.now

/-- Whether the condition of a state is met (R444, R445). -/
def State.mayMoveTo (s : State) (target : Nat) : Bool :=
  let jobs := (List.range 64).filter fun j => (s.job j).phase != .free
  if target = 1 then jobs.all fun j => (s.fjob j).epoch == 0
  else if target = 2 then jobs.isEmpty
  else target == 0

/-- The wake from SLEEP begins: CTRL runs at 2.0 GHz again and the optical engines are powered (R444). -/
def State.beginWake (s : State) (c : Command) : State :=
  { s with power := { s.power with
    moving := true, moveStart := s.now, moveFrom := s.power.dstate, moveCmd := some c, ctrlMhz := 2000
    pll := s.power.pll ||| 0xF0 } }.defer c 0 []

/-- What AUTO_DOZE and DOZE_HOLD_US of the expert form set (R456). -/
def State.dozeSettings (s : State) (c : Command) : State :=
  let auto := c.ex (c.u8 8) 0xFF
  let hold := c.ex (c.u32 0xC) 0
  let s := if auto = 0xFF then s else s.setFld uWmaster 0x040 0 0 auto
  if hold = 0 then s else s.setFld uWmaster 0x040 63 32 hold

/-- The checks of POWER_STATE_SET (R444, R445, R456). -/
def State.movePowerChecks (s : State) (c : Command) : List Check :=
  let auto := c.ex (c.u8 8) 0xFF
  let hold := c.ex (c.u32 0xC) 0
  [badIf (!s.mayMoveTo (c.u8 0)) 0, badIf (1 < auto && auto != 0xFF) 8,
   badIf (hold != 0 && (hold < 50 || 1000000 < hold)) 0xC]

/-- A `power_state_set` with no move in progress (R456): RUN and DOZE to SLEEP pass each state between. -/
def State.movePower (s : State) (c : Command) : State :=
  let target := c.u8 0
  s.checked c (s.movePowerChecks c)
    fun s =>
      let s := s.dozeSettings c
      let old := s.power.dstate
      if target = 0 then
        if old = .sleep then s.beginWake c
        else
          let s := s.dozeExit 6
          s.finish c stOk 0 (s.moveResult old 0)
      else
        let (v, s) := s.draw
        let s := if old = .run then s.enterDoze else s
        let s := if s.power.dstate = .doze then s.enterSleep else s
        if target = 1 then s.finish c stOk 0 (s.moveResult old (if old = .sleep then 0 else v))
        else
          let result := le 1 old.code ++ le 1 3 ++ le 2 0 ++ le 4 v ++ le 8 s.now
          (s.finish c stOk 0 result).enterStandby

/-- The moves that were held are carried out in turn, until one takes time (R446). -/
def State.runMoves : Nat → State → State
  | 0, s => s
  | fuel + 1, s =>
    match s.power.heldMoves with
    | [] => s
    | c :: rest =>
      if s.power.moving then s
      else State.runMoves fuel ({ s with power := { s.power with heldMoves := rest } }.movePower c)

/-- POWER_STATE_SET (R444-R446, R456). -/
def execPowerStateSet (c : Command) (s : State) : Result := s.live fun s =>
  if s.power.moving then { s with power := { s.power with heldMoves := s.power.heldMoves ++ [c] } } else s.movePower c

/-- The wake from SLEEP completes when bit 35 is set (R444): the device passes DOZE into RUN, and held moves follow. -/
def State.endWake (s : State) : State :=
  match s.power.moveCmd with
  | none => s
  | some c =>
    let took := s.now - s.power.moveStart
    let s := { s with power := { s.power with
      moving := false, moveCmd := none, wakes := satAdd 16 s.power.wakes 1, wakeCause := 6, wakeNs := took
      pll := s.power.pll ||| 0xF, lastActive := s.now } }
    let s := (s.enter .doze 6 took).enter .run 6 took
    let s := s.deferredDoneWith c.hdr stOk (le 2 0 ++ le 6 0 ++ s.moveResult .sleep took)
    State.runMoves s.power.heldMoves.length s

/-- FUNCTION_READY (R63, R66): its bit is set, with the PLLs it needs running (R439). -/
def execFunctionReady (b : Nat) (s : State) : Result := s.live fun s =>
  s.onlyIf (s.canBeReady b) fun s =>
    let s := if s.power.dstate = .run || s.power.moving then
        { s with power := { s.power with pll := s.power.pll ||| pllOf b } } else s
    let s := (s.functionUp b).csSetBits [b]
    if b = 35 && s.power.moving then s.endWake else s

/-- FUNCTION_STOPS_BEING_USABLE (R65): the bit and its aggregate are cleared, and the function's screen test runs. -/
def execFunctionStopsBeingUsable (b : Nat) (s : State) : Result := s.live fun s =>
  s.onlyIf (bitAt s.xanca.ready b && b ≤ 35 && b != 0 && b != 1 && b != 12 && b != 32) fun s =>
    let s := s.csDrop b
    if 16 ≤ b && b ≤ 19 then s.logError { type := 0x32, cls := 2, unit := uHbm (b - 16), sub := b - 16 }
    else if 20 ≤ b && b ≤ 31 then s.logError { type := 0x33, cls := 2, unit := uFar (b - 20), sub := b - 20 }
    else s

/-- Whether nothing keeps the device from DOZE (R443): every logical core gated; no command dispatched and unfinished; no Flume channel,
stream, collective or freeze active; no decode running. -/
def State.quiet (s : State) : Bool :=
  ((List.range 144).all fun c => match s.physOf c with
    | some p => (s.core p).phase == .gated
    | none => true) &&
  s.umauth.orphans.isEmpty && (s.umauth.queues.all fun e => e.2.running.isEmpty) &&
  (s.flume.channels.all fun e => e.2.phase == .idle) && (s.streams.streams.all fun e => e.2.runs.isEmpty) &&
  s.fabric.collectives.isEmpty && (s.resil.jobs.all fun e => e.2.freeze.isNone) &&
  (s.hostPort.decodes.all fun e => e.2.isEmpty)

/-- DOZE_ENTRY (R443). -/
def execDozeEntry (s : State) : Result := s.live fun s =>
  s.onlyIf (s.power.dstate == .run && !s.power.moving && s.fld uWmaster 0x040 0 0 == 1 && s.quiet &&
      s.power.lastActive + s.fld uWmaster 0x040 63 32 * usec ≤ s.now) fun s => s.enterDoze

/-- HOST_PORT_ENERGY_WAKE (R438, R445): the IO die is powered, the retained image is checked against its digest, and bring-up runs as
at power-good; the device then rests in SLEEP. -/
def execHostPortEnergyWake (f : BootFacts) (s : State) : Result := s.live fun s =>
  s.onlyIf (s.power.dstate == .standby) fun s =>
    let ok := s.security.committed && shake256 s.security.firmware 32 == s.security.fwDigest
    let s := { s with
      security := { s.security.powerUp with committed := ok, phase := if ok then .running else .rom }
      xanca := { s.xanca with bootNs := s.now - s.timecode.stepNs, missed := 0 }
      timecode := { s.timecode with timePll := true }
      power := { s.power with pll := 0x700 } }
    let start := s.now
    let s := (s.readMram f).bootUnits f
    let s := s.passTime (1200 * msec) 1
    let s := { s with power := { s.power with
      wakes := satAdd 16 s.power.wakes 1, wakeCause := 5, wakeNs := s.now - start, lastActive := s.now, ctrlMhz := 1000 } }
    s.enter .sleep 5 (s.now - start)

/-! ## Reads in flight (R180, R314) -/

/-- READ_DRAIN_COMPLETE (R180, R320): the last read of a cancelled stream, or of a chain stopped in MODE 1, has arrived and is
discarded. -/
def execReadDrainComplete (chain : Bool) (id discarded : Nat) (s : State) : Result := s.live fun s =>
  if chain then s.chainDrained id discarded else s.streamDrained id discarded

/-! ## Time (R74, R443) -/

/-- What the device does while no command waits: time passes, and it is noted whether something keeps it from DOZE. -/
def State.idle (s : State) : State :=
  let s := s.tick
  if s.quiet then s else { s with power := { s.power with lastActive := s.now } }

end Sys2Proof.Machine
end

