-- ==== Sys2Proof/Machine/Intake.lean ====
section
/-! DEFINITION. Media decode on the intake engines (spec/20: R483-R488, R490-R492). -/

namespace Sys2Proof.Machine

/-! ## Samples (R484) -/

/-- Whether a codec is a video codec. -/
def isVideo (codec : Nat) : Bool := codec ≤ 2

/-- SCALE of the basic form: 1 / (2^depth − 1) rounded to FP32 for integer codes, 1.0 for EXR. -/
def basicScale (codec depth : Nat) : Word32 :=
  if codec = 4 then rn32 (.fin false 1 0)
  else
    let d := 2 ^ depth - 1
    if 2 ^ 96 % d = 0 then rn32 (.fin false (2 ^ 96 / d) (-96)) else rn32 (.fin false (2 * (2 ^ 96 / d) + 1) (-97))

/-- The bytes of a sample in the output. -/
def sampleBytes (codec outFmt : Nat) (scale offset : Word32) (v : Nat) : List Byte :=
  if outFmt = 0xF then le 2 v
  else
    let x := if codec = 4 then rn32 (fmtFp16.decode v) else rn32 (.fin false v 0)
    le (codeWidth outFmt / 8) (encodeElement outFmt .rne (val32 (fmul (fsub x offset) scale)))

/-- The sample of a channel at a position: a chroma sample covers several positions. -/
def planeSample (p : Plane) (width x y : Nat) : Nat :=
  p.samples.getD (y / max p.subY 1 * ceilDiv width (max p.subX 1) + x / max p.subX 1) 0

/-- The bytes of a decoded frame, row-major, each position filled up with zeros. -/
def decodedBytes (c : Command) (r : DecodeOutcome) (f : DecodedFrame) : List Byte :=
  let codec := c.u8 0
  let scale := BitVec.ofNat 32 (c.ex (c.u32 0x34) (basicScale codec r.depth).toNat)
  let offset := BitVec.ofNat 32 (c.ex (c.u32 0x38) 0)
  (List.range r.height).flatMap fun y => (List.range r.width).flatMap fun x =>
    let ch := f.planes.flatMap fun p => sampleBytes codec (c.u8 2) scale offset (planeSample p r.width x y)
    ch ++ List.replicate (c.u16 4 - ch.length) 0

/-! ## `intake_decode` (R487, R488, R491) -/

/-- The engine that takes a decode: the one named, or that with the fewest decodes, the lowest number among equals. -/
def State.intakeEngine (s : State) (named : Nat) : Nat :=
  if named ≤ 3 then named
  else (((List.range 4).filter fun e => s.active (uIntake e)).foldl (fun (best : Option Nat) e => match best with
    | none => some e
    | some b => if (s.decodes e).length < (s.decodes b).length then some e else some b) none).getD 0

/-- The checks of INTAKE_DECODE (R487, R488, R491). -/
def State.intakeDecodeChecks (s : State) (c : Command) : List Check :=
  let slot := s.cmdSlot c.hdr
  let e := s.intakeEngine (c.u8 1)
  let id := c.ex (c.u16 0x30) 0xFFFF
  let x := s.stream id
  let streamBad := id != 0xFFFF && !(id < 256 && x.isOpen && x.slot == slot && (x.stage (c.u8 0x32)).kind == 2)
  [badIf (c.u8 0 == 0 || 4 < c.u8 0) 0, badIf (3 < c.u8 1 && c.u8 1 != 0xFF) 1, badIf (2 < c.u8 2 && c.u8 2 != 0xF) 2,
   badIf (1 < c.u8 3) 3, badIf (c.u16 4 < 2 || 256 < c.u16 4 || c.u16 4 % 2 != 0) 4,
   badIf (c.u64 0x10 == 0 || 2 ^ 32 < c.u64 0x10) 0x10,
   badIf (if id == 0xFFFF then c.u64 0x18 % 128 != 0 else c.u64 0x18 != 0) 0x18,
   badIf (c.u64 0x28 % 16 != 0) 0x28, badIf streamBad 0x30,
   failIf ((s.xentry (uIntake e)).state == 3) stRetired (uIntake e),
   failIf (s.fld (uIntake e) 0x038 63 48 < (s.decodes e).length) stNoResource 0xB0]

/-- INTAKE_DECODE (R487, R488, R491). -/
def execIntakeDecode (c : Command) (s : State) : Result := s.live fun s =>
  let slot := s.cmdSlot c.hdr
  let e := s.intakeEngine (c.u8 1)
  s.checked c (s.intakeDecodeChecks c)
    fun s => s.setDecodes e (s.decodes e ++ [{ cmd := c, slot := slot }])

/-! ## The end of a decode (R484-R488) -/

/-- How far a decode has come. `out` is the output of a decode that feeds a stream. -/
structure DecodeRun where
  index : Nat := 0
  used : Nat := 0
  written : Nat := 0
  skipped : Nat := 0
  bytes : Nat := 0
  pixels : Nat := 0
  errors : Nat := 0
  skipping : Bool := false
  stop : Option (Nat × Nat) := none
  out : List Byte := []
  deriving DecidableEq, Repr, Inhabited

/-- The bitstream of a frame is read through the map (R486): how it fails, and the state after it. -/
def State.readBitstream (s : State) (d : Decode) (e first last : Nat) : Option (Nat × Nat) × State :=
  let va := d.cmd.u64 8 + first
  match s.vread d.slot va (last - first) with
  | .error f => (some (stPageFault, f.detail), s.vfault d.cmd.hdr d.slot (uIntake e) f)
  | .ok (_, poison) =>
    (if poison then some (stPoisoned, s.poisonUnit d.slot va (last - first)) else none, s.vtouch d.slot va (last - first))

/-- Output or log bytes are written through the map; a refused write is recorded (R486, R208). -/
def State.decodeWrite (s : State) (d : Decode) (e va : Nat) (data : List Byte) : Option (Nat × Nat) × State :=
  let (s, _, f) := s.vwrite d.slot va data false
  match f with
  | none => (none, s)
  | some f => (some (stPageFault, f.detail), s.farFault d.cmd.hdr d.slot (uIntake e) ⟨stPageFault, f.detail, some f⟩)

/-- One frame (R484-R486). -/
def State.decodeFrame (d : Decode) (e : Nat) (r : DecodeOutcome) (acc : State × DecodeRun) (f : DecodedFrame) :
    State × DecodeRun :=
  let (s, x) := acc
  let c := d.cmd
  let size := r.width * r.height * c.u16 4
  if x.stop.isSome then acc
  else match s.readBitstream d e x.used f.used with
  | (some bad, s) => (s, { x with stop := some bad })
  | (none, s) =>
    let dependent := isVideo (c.u8 0) && x.skipping && !(f.key && f.code == 0)
    let past := c.u64 0x20 < x.bytes + size
    let code := if past then 3 else if dependent && f.code == 0 then 6 else f.code
    let stops := past || (code != 0 && (c.u8 3 == 0 || code == 2 || code == 3))
    let x := { x with used := f.used, errors := x.errors + b2n (code != 0) }
    let (bad, s) :=
      if c.u64 0x28 = 0 then (none, s)
      else s.decodeWrite d e (c.u64 0x28 + 16 * x.index) (le 4 x.index ++ le 2 code ++ le 2 0 ++ le 8 f.pts)
    if stops then (s, { x with stop := some (stMediaError, code) })
    else if bad.isSome then (s, { x with stop := bad })
    else
      let data := if code = 0 then decodedBytes c r f else List.replicate size 0
      let (bad, s) := if d.stream = 0xFFFF then s.decodeWrite d e (c.u64 0x18 + x.bytes) data else (none, s)
      match bad with
      | some b => (s, { x with stop := some b })
      | none => (s, { x with
          index := x.index + 1, bytes := x.bytes + size, written := x.written + b2n (code == 0)
          skipped := x.skipped + b2n (code != 0), pixels := x.pixels + (if code = 0 then r.width * r.height else 0)
          skipping := if code = 0 then false else true, out := x.out ++ data })

/-- INTAKE_DECODE_COMPLETE (R484-R488, R491): the running decode of an engine has come to its end, or to the end of the frame in
progress where it was cancelled. -/
def execIntakeDecodeComplete (e : Nat) (r : DecodeOutcome) (s : State) : Result := s.live fun s =>
  match s.decodes e with
  | [] => s
  | d :: rest =>
    let c := d.cmd
    let s := s.setDecodes e rest
    let wide := r.frames.any fun f => c.u16 4 < f.planes.length * (if c.u8 2 = 0 then 4 else 2)
    if wide then s.badParam c 4
    else
      let (s, x) := r.frames.foldl (State.decodeFrame d e r) (s, {})
      let u := uIntake e
      let s := ((s.bump u 0x018 63 32 x.written).bump u 0x018 31 0 x.errors).bump u 0x020 63 0 x.pixels
      let s := (s.bump u 0x028 63 0 x.used).setReg u 0x030 s.now
      let s := if d.stream = 0xFFFF then s else
        let y := s.stream d.stream
        if y.isOpen && y.slot == d.slot then
          s.setStream d.stream { y with intake := y.intake.insert (c.u8 0x32) x.out }
        else s
      let (status, detail) := if d.cancelled then (stCancelled, 0) else x.stop.getD (stOk, 0)
      s.finish c status detail
        (le 4 x.written ++ le 4 x.skipped ++ le 2 r.width ++ le 2 r.height ++ le 4 e ++ le 8 x.bytes ++ le 8 s.now)

/-! ## Registers (Table 20.4) -/

/-- A register of an intake engine. -/
def State.intakeReg (s : State) (e off : Nat) : Nat :=
  if off = 0x010 then
    let testing := s.diag.screens.any fun t => t.unit == uIntake e && t.running
    match s.decodes e with
    | [] => if testing then 2 * 2 ^ 60 else 0
    | d :: rest => (if testing then 2 else 1) * 2 ^ 60 + d.slot * 2 ^ 54 + rest.length * 2 ^ 40 + d.cmd.u8 0 * 2 ^ 36
  else s.reg (uIntake e) off

/-- The checks of INTAKE_STATUS (R492). -/
def State.intakeStatusChecks (_s : State) (c : Command) : List Check :=
  let e := c.u8 0
  [badIf (3 < e && e != 0xFF) 0]

/-- INTAKE_STATUS (R492). -/
def execIntakeStatus (c : Command) (s : State) : Result := s.live fun s =>
  let e := c.u8 0
  s.checked c (s.intakeStatusChecks c) fun s =>
    let es := if e = 0xFF then List.range 4 else [e]
    s.finish c stOk 0 (es.flatMap fun e =>
      [0x010, 0x018, 0x020, 0x028, 0x030, 0x038].flatMap fun off => le 8 (s.intakeReg e off))

end Sys2Proof.Machine
end

