-- ==== Sys2Proof/Machine/Registers.lean ====
section
/-! DEFINITION. What a register of a block window reads as (R6, R70): the common header, the fields that show a piece of state
with a home of its own, and else the stored value. One function for each register table; it answers none where the register is
stored. -/

namespace Sys2Proof.Machine

/-- Which element of a repeated register lies at `off`, with its place in the element. -/
def element (off first stride count : Nat) : Option (Nat × Nat) :=
  if first ≤ off && off < first + stride * count then some ((off - first) / stride, (off - first) % stride) else none

/-- BIT at most once, as a number in place `lo`. -/
abbrev bitIn (b : Bool) (lo : Nat) : Nat := b2n b <<< lo

/-- A value as a saturating field of `w` bits. -/
abbrev sat (w v : Nat) : Nat := min v (2 ^ w - 1)

/-- Table 3.7. -/
def State.xancaReg (s : State) (off : Nat) : Option Nat :=
  if off = 0x010 then some s.xanca.generation
  else if off = 0x018 then some s.xanca.ready
  else if off = 0x020 then some s.xanca.failed
  else if off = 0x030 then some s.csPending
  else (element off 0x100 8 64).map fun n => s.xanca.csTc.get 0 n.1

def TcPhase.code : TcPhase → Nat
  | .unlocked => 0 | .locked => 1 | .holdover => 2 | .freerun => 3

/-- Table 4.4. -/
def State.timecodeReg (s : State) (off : Nat) : Option Nat :=
  let t := s.timecode
  if off = 0x010 then some t.ns
  else if off = 0x018 then
    some (t.rootId <<< 48 + sat 16 s.errBound <<< 32 + t.hopDepth <<< 24 + t.parentPort <<< 16 + t.source <<< 4 + t.phase.code)
  else if off = 0x020 then some (t.twin <<< 15 + t.device)
  else if off = 0x028 then some t.stepNs
  else if off = 0x030 then some (ofSigned 32 t.ptpOffset <<< 32 + ofSigned 32 t.parentOffsetPs)
  else if off = 0x038 then some (sat 32 t.clamps <<< 32 + sat 16 t.sourceChanges <<< 16 + sat 16 t.holdovers)
  else none

/-- CORE_STATUS.PHASE (Table 5.9). -/
def State.corePhaseCode (s : State) (p : Nat) : Nat :=
  let c := s.core p
  match c.phase with
  | .gated => 0
  | .waking => 1
  | .idle => 2
  | .repairHold => 6
  | .running =>
    if c.stall.isSome then 5 else if (s.bundleAt p).any fun b => bKind b == 1 then 4 else 3

/-- Table 5.9. -/
def State.coreReg (s : State) (p off : Nat) : Option Nat :=
  let c := s.core p
  if off = 0x010 then some (s.logicalOf p <<< 16 + (p / 13) <<< 8 + p % 13)
  else if off = 0x018 then
    let a := ((s.allotmentOf (s.logicalOf p)).getD 0) <<< 12 + s.corePhaseCode p
    some (a + match c.task with
      | some t => t.kernel <<< 32 + t.slot <<< 16
      | none => 0)
  else if off = 0x020 then some (c.task.elim 0 fun t => (s.job t.slot).tag <<< 32 + t.index)
  else if off = 0x028 then some (sat 32 c.tasksDone <<< 32 + sat 16 c.preempts <<< 16 + sat 16 c.wakes)
  else if off = 0x030 then
    some (s.freeBundles p <<< 32 + (s.cores.kernels.filter fun e => e.2.cores.contains p).length <<< 24)
  else if off = 0x048 then some (if c.phase = .gated then 0 else Config.coreCycles p s.now % 2 ^ 64)
  else none

/-- Table 5.10. -/
def State.opeReg (s : State) (p off : Nat) : Option Nat :=
  let c := s.core p
  if off = 0x010 then some (spareMap c.retiredRows)
  else if off = 0x018 then some (trimMask c.retiredRows 0)
  else if off = 0x020 then some (trimMask c.retiredRows 64)
  else if off = 0x028 then some c.repairTc
  else if off = 0x030 then some (sat 32 c.ops <<< 32 + sat 16 c.holds <<< 16 + sat 16 c.bankFaults)
  else none

/-- Table 6.7. -/
def State.spadReg (s : State) (p off : Nat) : Option Nat :=
  if off = 0x018 then some ((List.range 16).map fun n => (s.turnout p n).code <<< (2 * n)).sum
  else if off = 0x388 then
    let used := ((List.range 16).map fun b => s.spads.sparesUsed.get 0 (p * 16 + b)).sum
    some ((256 - used) <<< 32 + s.fld (uSpad p) 0x388 31 0)
  else (element off 0x100 32 16).map fun n =>
    let x := s.turnout p n.1
    if n.2 = 0 then
      x.code <<< 62 + bitIn x.byCount 61 + bitIn x.lateNotify 60 + x.placement <<< 32 + x.epoch
    else if n.2 = 8 then x.slot <<< 48 + x.lines <<< 16 + x.base
    else if n.2 = 16 then (if x.byCount then x.expect <<< 32 else 0) + x.gauge
    else sat 32 x.late <<< 32 + x.lastReason

/-- Table 7.6. -/
def State.contReg (s : State) (p off : Nat) : Option Nat :=
  if off = 0x018 then
    let valid := ((List.range 512).filter fun a => (s.frameTag p a).valid).length
    let c := s.core p
    let busy := c.phase == .running && c.cycle < c.contFree
    let r := s.conts.running.get (0, 0) p
    some (valid <<< 22 + (if busy then r.2 <<< 16 + r.1 <<< 1 + 1 else 0))
  else if off = 0x028 then some (bits (s.reg (uCont p) off) 63 16 <<< 16 + (8 - s.conts.sparesUsed.get 0 p) <<< 8 +
    s.fld (uCont p) off 7 0)
  else match element off 0x100 8 64, element off 0x1000 8 512 with
  | some n, _ =>
    let w := s.window p n.1
    some (w.spill <<< 32 + w.count <<< 16 + w.base)
  | none, some n =>
    let t := s.frameTag p n.1
    some (bitIn t.valid 63 + bitIn t.poison 62 + t.slot <<< 56 + t.kind <<< 52 + t.rows <<< 40 + t.key)
  | none, none => none

def StreamPhase.code : StreamPhase → Nat
  | .idle => 0 | .running => 1 | .cancelling => 2 | .faulted => 3 | .standby => 4

/-- ITER_FETCHED: iterations of the current run whose every source slot has been granted (Table 8.3). -/
def Stream.fetched (x : Stream) : Nat :=
  match x.runs.head? with
  | none => 0
  | some r =>
    (((List.range r.iterations).map (r.first + ·)).filter fun i =>
      x.done.contains i || x.placed.any (fun q => q.iter == i) ||
        x.sources.all fun k => x.granted.any fun g => g.iter == i && g.stage == k).length

/-- The longest wait of a ring for its grant, µs. -/
def Stream.longestWait (x : Stream) (now : Nat) : Nat := (x.waiting.map fun e => (now - e.2) / usec).foldl max 0

/-- Table 8.3. The claps that are set or broken fill RESV_CLAP_n in ascending slot and number. -/
def State.resvReg (s : State) (off : Nat) : Option Nat :=
  if off = 0x028 then some (bits (s.reg uResv off) 63 16 <<< 16 + (1024 - s.streams.sparesUsed))
  else if off = 0x030 then some (s.headgateLines <<< 32 + s.streams.lines.length)
  else match element off 0x100 16 256, element off 0x1100 8 1024, element off 0x3100 8 256 with
  | some n, _, _ =>
    let x := s.stream n.1
    if !x.isOpen then some 0
    else if n.2 = 0 then
      some (1 <<< 63 + x.phase.code <<< 60 + x.slot <<< 54 + x.pool <<< 52 + x.lanes <<< 44 + x.firstCore <<< 36 +
        x.stages.length <<< 32 + x.done.length)
    else some (x.fetched <<< 32 + x.borrowed <<< 16 + sat 16 (x.longestWait s.now))
  | _, some n, _ =>
    some (match s.streams.claps[n.1]? with
      | some (k, x) =>
        (k / 64) <<< 58 + (k % 64) <<< 52 + (if x.broken then 2 else 1) <<< 50 + bitIn x.fabric 49 + bitIn x.flush 48 +
          x.members <<< 39 + x.arrived <<< 30 + x.generation % 2 ^ 30
      | none => 0)
  | _, _, some n =>
    let x := s.pool (n.1 / 4) (n.1 % 4)
    some (if x.valid then
      1 <<< 63 + x.base <<< 48 + x.slotLines <<< 35 + x.slots <<< 27 + x.turnout <<< 23 + x.take <<< 19 else 0)
  | none, none, none => none

def StepPhase.code : StepPhase → Nat
  | .none => 0 | .configured => 1 | .inStep => 2 | .gatePending => 3 | .updated => 4 | .aborted => 5

/-- Table 9.7. -/
def State.reelReg (s : State) (off : Nat) : Option Nat :=
  match element off 0x4000 32 64, element off 0x4800 32 144, element off 0x5A00 16 16 with
  | some n, _, _ =>
    let j := s.reelJob n.1
    some (if n.2 = 0 then j.phase.code <<< 60 + j.step
      else if n.2 = 8 then j.ringBase <<< 48 + j.ringLines <<< 32 + j.spillLines
      else if n.2 = 16 then j.openIds.length <<< 48 + j.closedIds.length <<< 32 + sat 16 j.aborts <<< 16
      else bits j.reelVa 56 24 <<< 24)
  | _, some n, _ =>
    let r := s.reel n.1
    some (if n.2 = 0 then r.depth <<< 32 + r.low
      else if n.2 = 8 then
        r.marks.length <<< 48 + r.held.length <<< 40 + r.slot.getD 0 <<< 32 + (r.reading.elim 0xFFFF (·.fid)) <<< 16 +
          r.marks.head?.elim 0xFFFF (·.fid)
      else if n.2 = 16 then sat 32 r.spilled <<< 32 + sat 32 r.refilled
      else r.peakDepth <<< 32 + r.peakSpill)
  | _, _, some n =>
    let x := s.reels.shards.get {} n.1
    some (if !x.valid then 0
      else if n.2 = 0 then 1 <<< 63 + x.slot <<< 57 + x.base else x.tag <<< 32 + x.len / 65536)
  | none, none, none => none

/-- Table 11.9. -/
def State.mmuReg (s : State) (off : Nat) : Option Nat :=
  match element off 0x100 16 64 with
  | some n =>
    let m := s.map n.1
    some (if !m.valid then 0 else if n.2 = 0 then 1 <<< 63 + m.pool else m.freeKib <<< 32 + m.mapped64k)
  | none => s.reelReg off

/-- Granules of a controller that are poisoned now. -/
def State.poisonedNow (s : State) (u : Nat) : Nat :=
  (s.memory.poison.filter fun e => controllerOf (64 * e.1) == some u).length

/-- Table 11.10. -/
def State.hbmReg (s : State) (k off : Nat) : Option Nat :=
  if off = 0x018 then some (bits (s.reg (uHbm k) off) 63 16 <<< 16 + sat 16 (s.poisonedNow (uHbm k))) else none

/-- Table 11.11. -/
def State.farReg (s : State) (c off : Nat) : Option Nat :=
  if off = 0x018 then
    let count (ph : List Nat) : Nat := ((List.range 128).filter fun k => ph.contains (s.chunkPhase c k)).length
    let moved := (List.range 12).flatMap fun d => (List.range 128).map fun k => (d, k)
    let hosted := (moved.filter fun e => e.1 != c && (s.chunkPhase e.1 e.2 == 2 || s.chunkPhase e.1 e.2 == 3) &&
      (farOf (s.chunkDest e.1 e.2)).any fun x => x.1 == c).length
    some (s.farState c <<< 60 + s.pins.slotPower.get 0 c <<< 56 + count [2, 3] <<< 40 + count [4] <<< 32 +
      count [1] <<< 24 + hosted <<< 16)
  else if off = 0x020 then some (bits (s.reg (uFar c) off) 63 16 <<< 16 + sat 16 (s.poisonedNow (uFar c)))
  else none

/-- The run that a row's sequencer holds. -/
def State.rowRun (s : State) (r : Nat) : Option AttnRun :=
  s.attn.runs.find? fun x => x.walking && x.rowList.contains r

/-- Table 12.4. A run that walks is in state 3: its other states pass within the command that starts or ends it. -/
def State.attnReg (s : State) (r off : Nat) : Option Nat :=
  if off = 0x010 then
    some (match s.rowRun r with
      | some x =>
        let placed := ((List.range 12).filter fun i => (s.physOf (12 * r + i)).any fun p =>
          (s.core p).task.any fun t => t.kind == .attn x.order).length
        3 <<< 60 + x.slot <<< 54 + x.seq <<< 32 + placed <<< 16
      | none => 0xFFFF <<< 32)
  else if off = 0x028 then
    some (match s.rowRun r with
      | some x =>
        let q := s.kvSeq x.seq
        let held := (s.attn.held.filter fun h => h.slot == q.slot && rangesMeet h.ranges [(q.va, s.seqBytes q)]).length
        sat 16 x.pinned <<< 16 + sat 16 held
      | none => 0)
  else if off = 0x030 then
    some (match s.rowRun r with
      | some x =>
        let g := ((s.rowCores x.slot r).filterMap s.physOf).head?.elim (0, 0) fun p => x.rings.get (0, 0) p
        x.ringLine <<< 48 + x.ringSlots <<< 40 + g.1 <<< 36 + g.2 <<< 32
      | none => 0)
  else if r ≠ 0 then none
  else match element off 0x1000 16 64, element off 0x2000 16 1024 with
  | some n, _ =>
    let x := s.kvPool n.1
    some (if !x.valid then 0
      else if n.2 = 0 then 1 <<< 63 + bitIn (x.pageBytes != 65536) 62 + x.base else x.usable <<< 32 + x.free)
  | _, some n =>
    let x := s.kvSeq n.1
    some (if !x.valid then 0
      else if n.2 = 0 then
        1 <<< 63 + bitIn x.exclusive 62 + bitIn (s.editPending x) 61 + x.slot <<< 54 + x.walkers.length <<< 48 +
          bits x.va 56 21 <<< 12
      else x.maxTokens <<< 32 + x.kvHeads <<< 16 + x.layers <<< 8 + x.fmt <<< 4 + bitIn (x.dim == 128) 3)
  | none, none => none

/-- Table 13.6. -/
def State.flumeReg (s : State) (e off : Nat) : Option Nat :=
  if off = 0x010 then some (bits (s.reg (uFlume e) off) 63 2 <<< 2 + s.flumeUse e)
  else match element off 0x100 32 16, element off 0x400 16 16 with
  | some n, _ => (s.channelRegs (flumeKey e n.1) none)[n.2 / 8]?
  | _, some n =>
    if e ≠ 0 then none
    else
      let t := s.timer n.1
      some (if n.2 = 0 then t.period <<< 32 + t.owner.getD 0 <<< 26 else t.counter)
  | none, none => none

def FState.code : FState → Nat
  | .none => 0 | .active => 1 | .draining => 2 | .clapping => 3 | .switching => 4

/-- Table 14.6. -/
def State.linkWindow (s : State) (p off : Nat) : Option Nat :=
  if 0x010 ≤ off && off ≤ 0x050 then some (s.linkReg p off)
  else if p ≠ 0 then none
  else if off = 0xF00 then some (bitIn s.fabric.twinConfig 16 + s.fabricId)
  else if off = 0xF08 then some (maskOf (s.fabric.maps.map (·.1)) <<< 8 + s.fabric.activeMap.getD 0xFF)
  else (element off 0x1000 32 64).map fun n =>
    let f := s.fjob n.1
    if n.2 = 0 then f.fstate.code <<< 60 + f.epoch
    else if n.2 = 8 then
      s.activeCount n.1 <<< 32 + (f.layout.elim 0 fun l => l.members.length) <<< 16 +
        f.layout.elim 0 fun l => (l.entries.filter (· == s.fabricId)).length
    else if n.2 = 16 then (s.job n.1).tag
    else f.recutTc

/-- Table 14.7. -/
def State.opticReg (s : State) (e off : Nat) : Option Nat :=
  let o := s.fabric.optics.get {} e
  if off = 0x010 then
    let active := maskOf ((List.range 17).filter fun l => !bitAt o.failed l && (l != 16 || o.spareFor != 0xFF))
    some (bits (s.reg (uOptic e) off) 63 34 <<< 34 + o.failed <<< 17 + active)
  else if off = 0x018 then some (o.sparePort <<< 8 + o.spareFor)
  else if off = 0x028 then some o.tc
  else none

def JobPhase.code : JobPhase → Nat
  | .free => 0 | .active => 1 | .migrating => 2 | .destroying => 3

/-- An allotment as the registers show it: in Interleave mode none is defined (R365), and allotment 0 shows its reserve (R366). -/
def State.allotShown (s : State) (a : Nat) : Allotment :=
  if s.sched.allotmentMode then s.allot a
  else if a = 0 then { ({} : Allotment) with hgReserve := (s.allot 0).hgReserve } else {}

/-- Table 15.2. -/
def State.schedReg (s : State) (off : Nat) : Option Nat :=
  let x := s.sched
  if off = 0x010 then
    let jobs := ((List.range 64).filter fun j => (s.job j).phase != .free).length
    let allots := ((List.range 16).filter fun a => (s.allotShown a).valid).length
    let free := ((List.range 144).filter fun c => (s.physOf c).any fun p => s.coreFree p).length
    let waiting (hg : Bool) : Nat := (x.ready.filter fun t => t.headgate == hg).length
    some (bitIn x.allotmentMode 62 + bitIn s.fabric.twinConfig 61 + jobs <<< 48 + allots <<< 40 + free <<< 32 +
      sat 16 (waiting true) <<< 16 + sat 16 (waiting false))
  else if off = 0x018 then some (sat 32 x.hgPlaced <<< 32 + sat 16 x.watchdogs <<< 16 + sat 16 x.migrations)
  else if off = 0x020 then some (sat 32 x.maxLatency <<< 32 + sat 32 x.lastLatency)
  else if off = 0x028 then some (sat 32 x.turns <<< 32 + sat 32 x.overruns)
  else match element off 0x100 32 16, element off 0x400 16 64 with
  | some n, _ =>
    let a := s.allotShown n.1
    let mask (lo : Nat) : Nat := maskOf ((a.cores.filter fun c => lo ≤ c && c < lo + 64).map (· - lo))
    some (if n.2 = 0 then
        bitIn a.valid 63 + bitIn a.emptyYield 62 + bitIn a.turnActive 61 + (if a.turnActive then a.turnJob <<< 52 else 0) +
          a.hgReserve <<< 44 + a.cores.length <<< 36 + a.turnUs
      else if n.2 = 8 then mask 0
      else if n.2 = 16 then mask 64
      else a.guardUs <<< 32 + mask 128)
  | _, some n =>
    let j := s.job n.1
    some (if j.phase = .free then 0
      else if n.2 = 0 then 1 <<< 63 + j.phase.code <<< 60 + j.allotment <<< 56 + j.placement <<< 32 + j.tag
      else
        let hg := ((s.jobQueues j.tag).filter fun q => (s.queue q).headgate).length
        let held := ((List.range 156).filter fun p => (s.core p).task.any fun t => t.slot == n.1).length
        sat 32 j.tasksPlaced <<< 32 + sat 16 (x.ready.filter fun t => t.slot == n.1).length <<< 16 + sat 8 hg <<< 8 + held)
  | none, none => none

/-- Table 15.3. -/
def State.qmgrReg (s : State) (off : Nat) : Option Nat :=
  if off = 0x010 then
    let bound := ((List.range' 1 4095).filter fun q => (s.queue q).phase != .unbound).length
    some (32768 <<< 48 + s.poolFree <<< 32 + bound <<< 16 + s.headgateQueues)
  else if off = 0x018 then some (maskOf (s.openSessions.map (· - 1)))
  else if off = 0x028 then some (s.fld uQmgr off 63 32 <<< 32 + s.umauth.seen.length)
  else (element off 0x8000 8 4096).map fun n =>
    let q := s.queue n.1
    if n.1 = 0 || q.phase = .unbound then 0
    else
      1 <<< 63 + bitIn q.headgate 62 + bitIn q.expertOk 61 + bitIn (q.retain ≤ q.retained.length) 60 + q.allotment <<< 56 +
        ((s.slotOf q.jobTag).getD 0) <<< 50 + q.session <<< 45 + q.depth <<< 34 +
        (q.admitted.length + q.running.length) <<< 23 + sat 9 q.retained.length <<< 14

def ResPhase.code : ResPhase → Nat
  | .none => 0 | .partnered => 1 | .initial => 2 | .running => 3 | .freezing => 4 | .spreading => 5 | .recovering => 6
  | .diverged => 7

/-- Two step numbers of a register, 0xFFFFFFFF where there is none. -/
def twoSteps (a b : Option Nat) : Nat := a.getD 0xFFFFFFFF <<< 32 + b.getD 0xFFFFFFFF

/-- Table 16.4. -/
def State.resReg (s : State) (off : Nat) : Option Nat :=
  if off = 0x010 then some (s.fld uRes off 63 32 <<< 32 + s.freeMib)
  else match element off 0x100 64 64, element off 0x1100 8 256 with
  | some n, _ =>
    let r := s.rjob n.1
    some (if n.2 = 0 then
        r.phase.code <<< 60 + bitIn r.cofed 59 + bitIn r.partnerLost 58 + r.partner <<< 40 + r.inbound.length <<< 32 + r.interval
      else if n.2 = 8 then r.lossBound.1 <<< 32 + r.lossBound.2
      else if n.2 = 16 then twoSteps r.newestStep r.usable
      else if n.2 = 24 then (if r.configured then rangeBytes r.ranges else 0)
      else if n.2 = 32 then sat 32 r.lastStop <<< 32 + sat 32 r.boundStop
      else if n.2 = 40 then
        (match r.negative with
         | some g =>
           let total := ((r.snaps.find? fun e => e.1 == g.slot).map fun e => e.2.total).getD 0
           g.step <<< 32 + ceilDiv (total - r.ackedBytes g) 1024
         | none => 0xFFFFFFFF <<< 32)
      else if n.2 = 48 then twoSteps r.newestSlate r.mirrored
      else twoSteps (r.retake.map (·.step)) r.lastOk)
  | _, some n =>
    some (match (s.rjob (n.1 / 4)).inbound[n.1 % 4]? with
      | some i =>
        i.owner <<< 48 + bitIn (i.held.head?.any (·.2)) 47 + (i.held.head?.elim 0xFFFFFFFF fun h => h.1.header.step)
      | none => 0xFFFF <<< 48 + 0xFFFFFFFF)
  | none, none => none

/-- Table 17.7. -/
def State.diagReg (s : State) (off : Nat) : Option Nat :=
  let d := s.diag
  let mask (lo : Nat) : Nat := maskOf ((d.absent.filter fun e => lo ≤ e.1 && e.1 < lo + 64).map (·.1 - lo))
  if off = 0x010 then some (d.nextIndex <<< 32 + d.log.length <<< 16 + d.lost)
  else if off = 0x018 then some (d.corrected <<< 32 + d.uncorrected <<< 16 + d.faults)
  else if off = 0x020 then
    some (d.tests <<< 32 + d.failedTests <<< 16 + sat 8 (d.screens.filter (·.running)).length <<< 8)
  else if off = 0x028 then
    let retired := ((List.range 704).filter fun u => u != 0 && (s.xentry u).state == 3).length
    some (d.absent.length <<< 56 + (4 - d.controlRetired.length) <<< 48 + retired <<< 32)
  else if off = 0x030 then some (mask 0)
  else if off = 0x038 then some (mask 64)
  else if off = 0x040 then some (mask 128)
  else if off = 0x048 then some d.lastTc
  else (element off 0x100 8 64).map fun n => d.damagedStep.get 0xFFFFFFFF n.1 <<< 32 + d.damagedCount.get 0 n.1

/-- SEC_STATUS.PHASE (Table 19.7): a COMMIT in progress shows as verifying. -/
def State.bootPhaseCode (s : State) : Nat :=
  match s.security.phase with
  | .rom => 0 | .loading => 1 | .verifying => 2 | .running => 3

/-- SEC_STATUS.CONFIG_COPY: which copy is in force. -/
def Security.copyCode (x : Security) : Nat :=
  match x.copyA, x.copyB with
  | some a, some b => if a.generation < b.generation then 1 else 0
  | some _, none => 0
  | none, some _ => 1
  | none, none => 3

/-- Table 19.7. -/
def State.secReg (s : State) (off : Nat) : Option Nat :=
  let x := s.security
  let f := x.current.getD ⟨0, 0, 0, [], []⟩
  if off = 0x010 then
    some (s.bootPhaseCode <<< 60 + x.copyCode <<< 48 + x.loadSession <<< 32 + Config.romVersion % 2 ^ 32)
  else if off = 0x018 then some x.serial
  else if off = 0x020 then some (x.fwVersion <<< 32 + x.fwSvn)
  else if off = 0x048 then some (x.keyGen <<< 56 + x.nextIndex <<< 32 + s.signaturesLeft)
  else if off = 0x050 then some f.generation
  else if off = 0x058 then some (f.settings.length <<< 48 + f.repairs.length)
  else if off = 0x060 then some (f.bootCount <<< 32 + f.minSvn)
  else if off = 0x068 then
    some (sat 16 x.openRefused <<< 48 + sat 16 x.loadFailed <<< 32 + sat 16 x.reports <<< 16 + sat 16 x.rolls)
  else (element off 0x028 8 4).map fun n => leAt x.fwDigest (8 * n.1) 8

/-- A register of a unit whose value has a home of its own in the state. -/
def State.homeReg (s : State) (u off : Nat) : Option Nat :=
  let i := unitInstance u
  if u = 0 then s.xancaReg off
  else if u ≤ 156 then s.coreReg i off
  else if u ≤ 312 then s.opeReg i off
  else if u ≤ 468 then s.contReg i off
  else if u ≤ 624 then s.spadReg i off
  else if u = uResv then s.resvReg off
  else if u ≤ 641 then s.flumeReg i off
  else if u ≤ 645 then s.hbmReg i off
  else if u ≤ 657 then s.farReg i off
  else if u = uMmu then s.mmuReg off
  else if u ≤ 674 then s.linkWindow i off
  else if u ≤ 678 then s.opticReg i off
  else if u ≤ 690 then s.attnReg i off
  else if u = uQmgr then s.qmgrReg off
  else if u = uSched then s.schedReg off
  else if u = uRes then s.resReg off
  else if u = uWmaster then s.wmasterReg off
  else if u = uGaffer then s.gafferReg off
  else if u = uSec then s.secReg off
  else if u = uHostport then
    (if off = 0x030 then some (s.qpCount <<< 48 + bits (s.reg u off) 47 0) else none)
  else if u ≤ 701 then some (s.intakeReg i off)
  else if u = uTimecode then s.timecodeReg off
  else s.diagReg off

/-- The bits of a register that are fields of its table; the rest is reserved and reads as zero. -/
def fieldMask (u off : Nat) : Nat :=
  ((typeFields (unitType u)).filter (·.at off)).foldl (fun m f => putBits m f.hi f.lo (2 ^ (f.hi + 1 - f.lo) - 1)) 0

/-- REG_SIZE of a unit's window (R70). -/
def regSize (u : Nat) : Nat :=
  if 313 ≤ u && u ≤ 468 then 0x2000
  else if u = uResv then 0x4000
  else if u = uMmu then 0x8000
  else if u = 679 then 0x6000
  else if u = 659 then 0x2000
  else if u = uQmgr then 0x10000
  else if u = uRes then 0x2000
  else 0x1000

/-- BASIC_END of a unit's window (R70, and the register section of each block). -/
def basicEnd (u : Nat) : Nat :=
  let t := unitType u
  if t = 0x0001 then 0x030
  else if t = 0x0011 || t = 0x00A1 then 0x038
  else if t = 0x0012 || t = 0x0013 then 0x300
  else if t = 0x0041 then 0x030
  else if t = 0x0061 then 0x800
  else if t = 0x0060 then 0x100
  else if t = 0x0090 then 0x070
  else if t = 0x00F0 then 0x050
  else 0x040

/-- Where an instance above 0 of a type reads zero (R297, R318, R349). -/
def windowTop (u : Nat) : Nat :=
  let t := unitType u
  if unitInstance u = 0 then regSize u
  else if t = 0x0040 then 0xF00
  else if t = 0x0020 then 0x400
  else if t = 0x0050 then 0x1000
  else regSize u

/-- <BLOCK>_STATE (Table 3.5, R70). -/
def State.stateReg (s : State) (u : Nat) : Nat :=
  let st := if u = 0 then 1 else (s.xentry u).state
  let (failed, ready) := match csBitOf u with
    | some b => (bitAt s.xanca.failed b, bitAt s.xanca.ready b)
    | none => (false, st == 1)
  st <<< 8 + s.fld u 0x008 2 2 <<< 2 + bitIn failed 1 + b2n ready

/-- What the register at an offset of a unit's window reads as: the common header, the register, or zero (R70). -/
def State.regView (s : State) (u off : Nat) : Nat :=
  if off = 0 then unitType u <<< 48 + unitInstance u <<< 32 + 1 <<< 24 + u
  else if off = 8 then s.stateReg u
  else if windowTop u ≤ off then 0
  else ((s.homeReg u off).getD (s.reg u off)) &&& fieldMask u off

end Sys2Proof.Machine
end

