-- ==== Sys2Proof/Machine/Discovery.lean ====
section
/-! DEFINITION. The Xanca table as `xanca_read` returns it, the call sheet's commands and deadlines, and accesses to registers
(R54-R72, R6, R7). -/

namespace Sys2Proof.Machine

/-! ## Entries (Tables 3.1 and 3.2) -/

/-- REG_OFFSET of a unit: a multiple of 4 KiB. -/
def windowOffset (u : Nat) : Nat := Config.regOffset u * 4096

/-- CAP0 and CAP1 (R302, R376, and what chapter 11 says of its entries). -/
def State.caps (s : State) (u : Nat) : Nat × Nat :=
  if 626 ≤ u && u ≤ 641 then (s.flumeUse (u - 626), 0)
  else if u = uQmgr then (Config.capWord uQmgr 0, 2 ^ 27)
  else if 642 ≤ u && u ≤ 658 then (0, 0)
  else (Config.capWord u 0, Config.capWord u 1)

/-- A block entry. -/
def State.blockEntry (s : State) (u : Nat) : List Byte :=
  let e := s.xentry u
  let i := unitInstance u
  let core := 1 ≤ u && u ≤ 156
  le 2 (unitType u) ++ le 2 i ++ le 1 0 ++ le 1 1 ++ le 2 u ++
    le 1 e.state ++ le 1 ((csBitOf u).getD 0xFF) ++ le 2 (if core then e.logical else i) ++
    le 2 (if 157 ≤ u && u ≤ 624 then uCore i else 0) ++
    le 2 (if core then i / 13 * 256 + i % 13 else 0xFFFF) ++
    le 8 (windowOffset u) ++ le 4 (regSize u) ++ le 2 (basicEnd u) ++ le 2 0 ++
    le 8 (s.caps u).1 ++ le 8 (s.caps u).2 ++ le 8 e.stateTc ++ le 8 0

/-- The root entry with a TABLE_CRC. -/
def State.rootEntry (s : State) (crc : Nat) : List Byte :=
  le 2 1 ++ le 2 0 ++ le 1 0 ++ le 1 1 ++ le 2 0 ++ ascii "XNCA" ++ le 2 704 ++ le 2 64 ++
    ascii "HG7-L0" ++ le 2 0 ++ le 1 0x41 ++ le 1 0 ++ le 6 0 ++ le 8 s.xanca.generation ++ le 4 crc ++ le 4 0 ++
    le 8 (windowOffset 0) ++ le 4 (regSize 0) ++ le 4 0

/-- The entries from index `first`, the root's TABLE_CRC taken as given. -/
def State.entries (s : State) (crc first n : Nat) : List Byte :=
  (List.range' first n).flatMap fun u => if u = 0 then s.rootEntry crc else s.blockEntry u

/-- TABLE_CRC (R59). -/
def State.tableCrc (s : State) : Nat := crc32c (s.entries 0 0 704)

/-! ## Commands (R71, R72) -/

/-- The range checks of `xanca_read` (Table 3.8, R71). -/
def xancaChecks (c : Command) : List Check :=
  let mode := c.ex (c.u8 8) 0
  let u := c.u16 0xA
  let off := c.u32 0xC
  let n := c.u16 0x10
  if mode = 0 then
    [badIf (c.u16 2 == 0 || 63 < c.u16 2 || 704 < c.u16 0 + c.u16 2) 2,
     badIf (c.ex u 0 != 0) 0xA, badIf (c.ex off 0 != 0) 0xC, badIf (c.ex n 0 != 0) 0x10]
  else
    [badIf (c.u16 0 != 0) 0, badIf (c.u16 2 != 0) 2, badIf (mode != 1) 8, badIf (703 < u) 0xA,
     badIf (off % 8 != 0 || regSize u ≤ off) 0xC, badIf (n == 0 || 506 < n || regSize u < off + 8 * n) 0x10]

/-- XANCA_READ (R60, R71). -/
def execXancaRead (c : Command) (s : State) : Result := s.live fun s =>
  s.checked c (xancaChecks c) fun s =>
    let data :=
      if c.ex (c.u8 8) 0 = 0 then s.entries (if c.u16 0 = 0 then s.tableCrc else 0) (c.u16 0) (c.u16 2)
      else (List.range (c.u16 0x10)).flatMap fun i => le 8 (s.regView (c.u16 0xA) (c.u32 0xC + 8 * i))
    s.finish c stOk 0 (le 8 s.xanca.generation ++ data)

/-- The 544-byte result of `callsheet_read` (R72). -/
def State.callSheet (s : State) : List Byte :=
  le 8 s.xanca.ready ++ le 8 s.xanca.failed ++ le 8 s.csPending ++ le 8 s.xanca.generation ++
    (List.range 64).flatMap fun b => le 8 (s.xanca.csTc.get 0 b)

/-- CALLSHEET_READ (R72). The wait is timed by the unlocked time, which the step to TAI leaves alone. -/
def execCallsheetRead (c : Command) (s : State) : Result := s.live fun s =>
  let mask := c.u64 0
  if !c.expert then s.finish c stOk 0 s.callSheet
  else
    s.checked c [badIf (mask == 0 || bits mask 62 52 != 0) 0, badIf (c.u32 8 == 0 || 60000 < c.u32 8) 8] fun s =>
      if s.xanca.ready &&& mask = mask then s.finish c stOk 0 s.callSheet
      else
        let s := s.defer c 0 s.callSheet
        { s with xanca := { s.xanca with waits := s.xanca.waits ++ [⟨c, mask, s.sinceBoot + c.u32 8 * msec⟩] } }

/-- CALLSHEET_WAIT_TIMEOUT (R72): the wait of this place in the list has run out. -/
def execCallsheetWaitTimeout (i : Nat) (s : State) : Result := s.live fun s =>
  match s.xanca.waits[i]? with
  | none => s
  | some w =>
    s.onlyIf (w.due ≤ s.sinceBoot) fun s =>
      let low := ((List.range 64).find? fun b => bitAt w.mask b && !bitAt s.xanca.ready b).getD 0
      ({ s with xanca := { s.xanca with waits := s.xanca.waits.eraseIdx i } }).deferredDone w.cmd.hdr stNotReady low

/-- CALLSHEET_DEADLINE (R63): a bit misses its deadline. A bit misses it once a boot. -/
def execCallsheetDeadline (b : Nat) (s : State) : Result := s.live fun s =>
  let due := (s.csDeadline b).any (· ≤ s.sinceBoot)
  s.onlyIf (due && !bitAt s.xanca.ready b && !bitAt s.xanca.failed b && !bitAt s.xanca.missed b) fun s =>
    let s := { s with xanca := { s.xanca with missed := putBit s.xanca.missed b true } }
    let s := s.csApply s.xanca.ready (putBit s.xanca.failed b true)
    s.logError { type := 0x0002, cls := 3, unit := (csUnits b).head?.getD 0, sub := b }

/-! ## Accesses to registers (R6-R8, R55) -/

/-- A field of the register at `off` takes what a write of `v` gives it: RW the new value, RW1C cleared where a 1 is written. -/
def State.writeField (s : State) (u off v : Nat) (f : RegField) : State :=
  let x := bits v f.hi f.lo
  match f.acc with
  | .ro => s
  | .rw => s.writeLive u off f.hi f.lo x
  | .rw1c => s.setFld u off f.hi f.lo (s.fld u off f.hi f.lo - (s.fld u off f.hi f.lo &&& x))

/-- REGISTER_WRITE (R6, R8, R70): an aligned 64-bit write inside a block's window. An offset that no register occupies ignores
it. -/
def execRegisterWrite (unit offset value : Nat) (s : State) : Result := s.live fun s =>
  s.onlyIf (unit ≤ 703 && offset % 8 == 0 && offset < windowTop unit) fun s =>
    ((typeFields (unitType unit)).filter (·.at offset)).foldl (fun s f => s.writeField unit offset value f) s

/-- Where the register space begins. -/
abbrev registerBase : Nat := 0xFF0000000000

/-- The unit whose window holds an address, with the offset in it. -/
def windowOf (addr : Nat) : Option (Nat × Nat) :=
  ((List.range 704).find? fun u => registerBase + windowOffset u ≤ addr && addr < registerBase + windowOffset u + regSize u).map
    fun u => (u, addr - registerBase - windowOffset u)

/-- Whether an access of `size` bytes in the register space is one that R7 and R55 refuse. -/
def badAccess (addr size : Nat) (write : Bool) : Bool :=
  let table := addr < registerBase + 704 * 64
  registerBase ≤ addr &&
    (size != 8 || addr % 8 != 0 || (if table then write else (windowOf addr).isNone))

/-- BAD_REGISTER_ACCESS (R7, R55): it has no effect, reads zero, and is logged by the block whose window it meets, else by the
root. -/
def execBadRegisterAccess (addr size : Nat) (write : Bool) (s : State) : Result := s.live fun s =>
  s.onlyIf (badAccess addr size write) fun s =>
    let place := if addr < registerBase + 704 * 64 then (0, 0) else (windowOf addr).getD (0, 0)
    s.logError { type := 0x0001, cls := 3, unit := place.1, sub := place.2, addr := addr }

end Sys2Proof.Machine
end

