-- ==== Sys2Proof/Machine/Dispatch.lean ====
section
/-! DEFINITION. One arm for each command: a direct call of its meaning. -/

namespace Sys2Proof.Machine

/-- The effect of a command on everything but the queue of waiting commands. -/
def exec (i : Instr) (s : State) : Host.Outcome State Fault Refusal :=
  match i with
  | .data d ms => Sys2Proof.Machine.execData d ms s
  | .ack d => Sys2Proof.Machine.execAck d s
  | .nack d bitmap => Sys2Proof.Machine.execNack d bitmap s
  | .openSession d cred => Sys2Proof.Machine.execOpenSession d cred s
  | .close d => Sys2Proof.Machine.execClose d s
  | .keepalive d => Sys2Proof.Machine.execKeepalive d s
  | .timedRetransmission session tseq => Sys2Proof.Machine.execTimedRetransmission session tseq s
  | .retransmitExhausted session tseq => Sys2Proof.Machine.execRetransmitExhausted session tseq s
  | .sessionSilenceTimeout session => Sys2Proof.Machine.execSessionSilenceTimeout session s
  | .windowReopen session buffers => Sys2Proof.Machine.execWindowReopen session buffers s
  | .queueBind c => Sys2Proof.Machine.execQueueBind c s
  | .queueUnbind c => Sys2Proof.Machine.execQueueUnbind c s
  | .queueAttach c => Sys2Proof.Machine.execQueueAttach c s
  | .queueStatus c => Sys2Proof.Machine.execQueueStatus c s
  | .queueFlush c => Sys2Proof.Machine.execQueueFlush c s
  | .nop c => Sys2Proof.Machine.execNop c s
  | .commandDispatch q => Sys2Proof.Machine.execCommandDispatch q s
  | .queueDrained q => Sys2Proof.Machine.execQueueDrained q s
  | .xancaRead c => Sys2Proof.Machine.execXancaRead c s
  | .callsheetRead c => Sys2Proof.Machine.execCallsheetRead c s
  | .callsheetWaitTimeout idx => Sys2Proof.Machine.execCallsheetWaitTimeout idx s
  | .callsheetDeadline b => Sys2Proof.Machine.execCallsheetDeadline b s
  | .registerWrite unit offset value => Sys2Proof.Machine.execRegisterWrite unit offset value s
  | .badRegisterAccess addr size write => Sys2Proof.Machine.execBadRegisterAccess addr size write s
  | .lcf port l => Sys2Proof.Machine.execLcf port l s
  | .lcfTransmit port => Sys2Proof.Machine.execLcfTransmit port s
  | .ptpMessage m => Sys2Proof.Machine.execPtpMessage m s
  | .servoAdjust => Sys2Proof.Machine.execServoAdjust s
  | .parentSearchTimeout => Sys2Proof.Machine.execParentSearchTimeout s
  | .ptpLost => Sys2Proof.Machine.execPtpLost s
  | .holdoverLimitExceeded => Sys2Proof.Machine.execHoldoverLimitExceeded s
  | .unlockedNsLimit => Sys2Proof.Machine.execUnlockedNsLimit s
  | .taskPlace c => Sys2Proof.Machine.execTaskPlace c s
  | .coreWake p => Sys2Proof.Machine.execCoreWake p s
  | .coreGate p => Sys2Proof.Machine.execCoreGate p s
  | .opeAcc p => Sys2Proof.Machine.execOpeAcc p s
  | .opeZero p => Sys2Proof.Machine.execOpeZero p s
  | .opeLoad p => Sys2Proof.Machine.execOpeLoad p s
  | .opeDrain p => Sys2Proof.Machine.execOpeDrain p s
  | .opeConv p => Sys2Proof.Machine.execOpeConv p s
  | .vecFma p => Sys2Proof.Machine.execVecFma p s
  | .vecAdd p => Sys2Proof.Machine.execVecAdd p s
  | .vecMul p => Sys2Proof.Machine.execVecMul p s
  | .vecMin p => Sys2Proof.Machine.execVecMin p s
  | .vecMax p => Sys2Proof.Machine.execVecMax p s
  | .vecCmp p => Sys2Proof.Machine.execVecCmp p s
  | .vecSel p => Sys2Proof.Machine.execVecSel p s
  | .vecCvt p => Sys2Proof.Machine.execVecCvt p s
  | .vecExp2 p => Sys2Proof.Machine.execVecExp2 p s
  | .vecLog2 p => Sys2Proof.Machine.execVecLog2 p s
  | .vecRcp p => Sys2Proof.Machine.execVecRcp p s
  | .vecRsqrt p => Sys2Proof.Machine.execVecRsqrt p s
  | .vecLoad p => Sys2Proof.Machine.execVecLoad p s
  | .vecStore p => Sys2Proof.Machine.execVecStore p s
  | .vecLaneSum p => Sys2Proof.Machine.execVecLaneSum p s
  | .vecRng p => Sys2Proof.Machine.execVecRng p s
  | .lnFwd p => Sys2Proof.Machine.execLnFwd p s
  | .rmsFwd p => Sys2Proof.Machine.execRmsFwd p s
  | .smaxFwd p => Sys2Proof.Machine.execSmaxFwd p s
  | .smaxPart p => Sys2Proof.Machine.execSmaxPart p s
  | .smaxFin p => Sys2Proof.Machine.execSmaxFin p s
  | .lnBwd p => Sys2Proof.Machine.execLnBwd p s
  | .rmsBwd p => Sys2Proof.Machine.execRmsBwd p s
  | .smaxBwd p => Sys2Proof.Machine.execSmaxBwd p s
  | .frameRelease p => Sys2Proof.Machine.execFrameRelease p s
  | .getLines p => Sys2Proof.Machine.execGetLines p s
  | .putLines p => Sys2Proof.Machine.execPutLines p s
  | .emptyLines p => Sys2Proof.Machine.execEmptyLines p s
  | .pushFrame p => Sys2Proof.Machine.execPushFrame p s
  | .popFrame p => Sys2Proof.Machine.execPopFrame p s
  | .holdFrame p => Sys2Proof.Machine.execHoldFrame p s
  | .releaseFrame p => Sys2Proof.Machine.execReleaseFrame p s
  | .setupGenerator p => Sys2Proof.Machine.execSetupGenerator p s
  | .loopBundle p => Sys2Proof.Machine.execLoopBundle p s
  | .waitTag p => Sys2Proof.Machine.execWaitTag p s
  | .waitTagRelease p => Sys2Proof.Machine.execWaitTagRelease p s
  | .emptySlotStallRelease p => Sys2Proof.Machine.execEmptySlotStallRelease p s
  | .clapBundle p => Sys2Proof.Machine.execClapBundle p s
  | .endTask p => Sys2Proof.Machine.execEndTask p s
  | .taskWatchdog p => Sys2Proof.Machine.execTaskWatchdog p s
  | .kernelLoad c => Sys2Proof.Machine.execKernelLoad c s
  | .kernelRun c => Sys2Proof.Machine.execKernelRun c s
  | .kernelUnload c => Sys2Proof.Machine.execKernelUnload c s
  | .opeRepair c => Sys2Proof.Machine.execOpeRepair c s
  | .repairHoldEnd p checkOk => Sys2Proof.Machine.execRepairHoldEnd p checkOk s
  | .remoteWritePacket idx => Sys2Proof.Machine.execRemoteWritePacket idx s
  | .writeRefused idx => Sys2Proof.Machine.execWriteRefused idx s
  | .turnoutLate p t => Sys2Proof.Machine.execTurnoutLate p t s
  | .remoteRead c first lines => Sys2Proof.Machine.execRemoteRead c first lines s
  | .turnoutOpen c => Sys2Proof.Machine.execTurnoutOpen c s
  | .turnoutClose c => Sys2Proof.Machine.execTurnoutClose c s
  | .turnoutDrainLimit p t => Sys2Proof.Machine.execTurnoutDrainLimit p t s
  | .spadScrub p line errors passEnd => Sys2Proof.Machine.execSpadScrub p line errors passEnd s
  | .contScrub p line errors passEnd => Sys2Proof.Machine.execContScrub p line errors passEnd s
  | .resvScrub line errors passEnd => Sys2Proof.Machine.execResvScrub line errors passEnd s
  | .memoryScrub u addr errors sub passEnd => Sys2Proof.Machine.execMemoryScrub u addr errors sub passEnd s
  | .contRun c => Sys2Proof.Machine.execContRun c s
  | .contRunFrames c => Sys2Proof.Machine.execContRunFrames c s
  | .streamOpenPool c => Sys2Proof.Machine.execStreamOpenPool c s
  | .streamOpen c => Sys2Proof.Machine.execStreamOpen c s
  | .streamRun c => Sys2Proof.Machine.execStreamRun c s
  | .streamCancel c => Sys2Proof.Machine.execStreamCancel c s
  | .streamClose c => Sys2Proof.Machine.execStreamClose c s
  | .clapSet c => Sys2Proof.Machine.execClapSet c s
  | .streamFetch id iter stage => Sys2Proof.Machine.execStreamFetch id iter stage s
  | .streamTaskPlace id iter => Sys2Proof.Machine.execStreamTaskPlace id iter s
  | .streamStore id iter stage => Sys2Proof.Machine.execStreamStore id iter stage s
  | .warmFetch id iter stage => Sys2Proof.Machine.execWarmFetch id iter stage s
  | .creditWatchdog id lane stage => Sys2Proof.Machine.execCreditWatchdog id lane stage s
  | .clapLimit slot n => Sys2Proof.Machine.execClapLimit slot n s
  | .reelConfig c => Sys2Proof.Machine.execReelConfig c s
  | .reelBegin c => Sys2Proof.Machine.execReelBegin c s
  | .reelUpdate c => Sys2Proof.Machine.execReelUpdate c s
  | .reelShard c => Sys2Proof.Machine.execReelShard c s
  | .reelClear c => Sys2Proof.Machine.execReelClear c s
  | .updateGateOpen slot => Sys2Proof.Machine.execUpdateGateOpen slot s
  | .slateMirror slot => Sys2Proof.Machine.execSlateMirror slot s
  | .updateGateTimeout slot => Sys2Proof.Machine.execUpdateGateTimeout slot s
  | .mapCreate c => Sys2Proof.Machine.execMapCreate c s
  | .mapEdit c => Sys2Proof.Machine.execMapEdit c s
  | .shootdownComplete idx => Sys2Proof.Machine.execShootdownComplete idx s
  | .mapDestroy c => Sys2Proof.Machine.execMapDestroy c s
  | .memCopy c => Sys2Proof.Machine.execMemCopy c s
  | .memFill c => Sys2Proof.Machine.execMemFill c s
  | .farMigrateOut c => Sys2Proof.Machine.execFarMigrateOut c s
  | .farMigrateBack c => Sys2Proof.Machine.execFarMigrateBack c s
  | .farMigrateRelease c => Sys2Proof.Machine.execFarMigrateRelease c s
  | .chunkFlip channel => Sys2Proof.Machine.execChunkFlip channel s
  | .farOffline c => Sys2Proof.Machine.execFarOffline c s
  | .farOnline c => Sys2Proof.Machine.execFarOnline c s
  | .farOnlineComplete channel outcome serial capacity rate trainMs => Sys2Proof.Machine.execFarOnlineComplete channel outcome serial capacity rate trainMs s
  | .slotPowerFall channel => Sys2Proof.Machine.execSlotPowerFall channel s
  | .seqCreatePool c => Sys2Proof.Machine.execSeqCreatePool c s
  | .seqCreateSequence c => Sys2Proof.Machine.execSeqCreateSequence c s
  | .seqDestroy c => Sys2Proof.Machine.execSeqDestroy c s
  | .kvPageMap c => Sys2Proof.Machine.execKvPageMap c s
  | .kvPageShare c => Sys2Proof.Machine.execKvPageShare c s
  | .kvPageFree c => Sys2Proof.Machine.execKvPageFree c s
  | .attnRun c => Sys2Proof.Machine.execAttnRun c s
  | .attnTileSend p => Sys2Proof.Machine.execAttnTileSend p s
  | .deferredEditApply id => Sys2Proof.Machine.execDeferredEditApply id s
  | .flumeChainStart c => Sys2Proof.Machine.execFlumeChainStart c s
  | .flumeTimerSet c => Sys2Proof.Machine.execFlumeTimerSet c s
  | .flumeChainStop c => Sys2Proof.Machine.execFlumeChainStop c s
  | .flumeStatus c => Sys2Proof.Machine.execFlumeStatus c s
  | .descriptorRead engine channel => Sys2Proof.Machine.execDescriptorRead engine channel s
  | .ownPoll engine channel => Sys2Proof.Machine.execOwnPoll engine channel s
  | .copyDescriptor engine channel => Sys2Proof.Machine.execCopyDescriptor engine channel s
  | .fillDescriptor engine channel => Sys2Proof.Machine.execFillDescriptor engine channel s
  | .skewDescriptor engine channel => Sys2Proof.Machine.execSkewDescriptor engine channel s
  | .transposeDescriptor engine channel => Sys2Proof.Machine.execTransposeDescriptor engine channel s
  | .eventDescriptor engine channel => Sys2Proof.Machine.execEventDescriptor engine channel s
  | .linkDescriptor engine channel => Sys2Proof.Machine.execLinkDescriptor engine channel s
  | .stopChain engine channel => Sys2Proof.Machine.execStopChain engine channel s
  | .eventWaitRelease engine channel => Sys2Proof.Machine.execEventWaitRelease engine channel s
  | .timerTick t => Sys2Proof.Machine.execTimerTick t s
  | .descriptorWriteBack engine channel => Sys2Proof.Machine.execDescriptorWriteBack engine channel s
  | .collPacket f => Sys2Proof.Machine.execCollPacket f s
  | .gatherPiece f => Sys2Proof.Machine.execGatherPiece f s
  | .clapPacket f => Sys2Proof.Machine.execClapPacket f s
  | .bulkPacket f b => Sys2Proof.Machine.execBulkPacket f b s
  | .lightDetected port => Sys2Proof.Machine.execLightDetected port s
  | .trainingComplete port peer peerPort width => Sys2Proof.Machine.execTrainingComplete port peer peerPort width s
  | .trainingTimeout port => Sys2Proof.Machine.execTrainingTimeout port s
  | .lossOfLight port => Sys2Proof.Machine.execLossOfLight port s
  | .connectorRemoval engine => Sys2Proof.Machine.execConnectorRemoval engine s
  | .fabricIdSet c => Sys2Proof.Machine.execFabricIdSet c s
  | .portMapSet c => Sys2Proof.Machine.execPortMapSet c s
  | .recutDrain c => Sys2Proof.Machine.execRecutDrain c s
  | .recutAbandon c => Sys2Proof.Machine.execRecutAbandon c s
  | .recutDrained slot => Sys2Proof.Machine.execRecutDrained slot s
  | .portDark port => Sys2Proof.Machine.execPortDark port s
  | .portRelock port peer peerPort width => Sys2Proof.Machine.execPortRelock port peer peerPort width s
  | .recutLimit slot => Sys2Proof.Machine.execRecutLimit slot s
  | .collectiveRun c => Sys2Proof.Machine.execCollectiveRun c s
  | .gatherRun c => Sys2Proof.Machine.execGatherRun c s
  | .collectiveLimit slot gather id => Sys2Proof.Machine.execCollectiveLimit slot gather id s
  | .linkStatus c => Sys2Proof.Machine.execLinkStatus c s
  | .jobCreate c => Sys2Proof.Machine.execJobCreate c s
  | .jobDestroy c => Sys2Proof.Machine.execJobDestroy c s
  | .jobTeardown slot => Sys2Proof.Machine.execJobTeardown slot s
  | .modeSet c => Sys2Proof.Machine.execModeSet c s
  | .allotmentSet c => Sys2Proof.Machine.execAllotmentSet c s
  | .rotationTurnEnd a => Sys2Proof.Machine.execRotationTurnEnd a s
  | .taskMigrate c => Sys2Proof.Machine.execTaskMigrate c s
  | .migrationDrained slot => Sys2Proof.Machine.execMigrationDrained slot s
  | .freezeSet c => Sys2Proof.Machine.execFreezeSet c s
  | .freezeTake c => Sys2Proof.Machine.execFreezeTake c s
  | .freezeStop slot => Sys2Proof.Machine.execFreezeStop slot s
  | .freezeResume slot => Sys2Proof.Machine.execFreezeResume slot s
  | .partnerSet c => Sys2Proof.Machine.execPartnerSet c s
  | .partnerHandshake f feed => Sys2Proof.Machine.execPartnerHandshake f feed s
  | .partnerLimit slot => Sys2Proof.Machine.execPartnerLimit slot s
  | .feedTagSet c => Sys2Proof.Machine.execFeedTagSet c s
  | .slateRead c => Sys2Proof.Machine.execSlateRead c s
  | .negativeLoad c => Sys2Proof.Machine.execNegativeLoad c s
  | .spreadApply c => Sys2Proof.Machine.execSpreadApply c s
  | .retakeRun c => Sys2Proof.Machine.execRetakeRun c s
  | .screenTestComplete unit sub type failed subs spare => Sys2Proof.Machine.execScreenTestComplete unit sub type failed subs spare s
  | .sweep c => Sys2Proof.Machine.execSweep c s
  | .screenTestRun c => Sys2Proof.Machine.execScreenTestRun c s
  | .errorLogRead c => Sys2Proof.Machine.execErrorLogRead c s
  | .errorInject c => Sys2Proof.Machine.execErrorInject c s
  | .heartbeat n => Sys2Proof.Machine.execHeartbeat n s
  | .controlHeartbeatTimeout n => Sys2Proof.Machine.execControlHeartbeatTimeout n s
  | .hostPortEnergyWake f => Sys2Proof.Machine.execHostPortEnergyWake f s
  | .dozeEntry => Sys2Proof.Machine.execDozeEntry s
  | .powerStateSet c => Sys2Proof.Machine.execPowerStateSet c s
  | .powerLimitSet c => Sys2Proof.Machine.execPowerLimitSet c s
  | .telemetryRead c => Sys2Proof.Machine.execTelemetryRead c s
  | .gafferTick => Sys2Proof.Machine.execGafferTick s
  | .setpointReached => Sys2Proof.Machine.execSetpointReached s
  | .powerEstimate watts dynamic => Sys2Proof.Machine.execPowerEstimate watts dynamic s
  | .excursionBackstop => Sys2Proof.Machine.execExcursionBackstop s
  | .clampReleaseStep => Sys2Proof.Machine.execClampReleaseStep s
  | .throtInAssert => Sys2Proof.Machine.execThrotInAssert s
  | .throtInDeassert => Sys2Proof.Machine.execThrotInDeassert s
  | .railSample mv ma => Sys2Proof.Machine.execRailSample mv ma s
  | .tempSample cmp iod hbm opt => Sys2Proof.Machine.execTempSample cmp iod hbm opt s
  | .i3cIndexWrite data => Sys2Proof.Machine.execI3cIndexWrite data s
  | .i3cRead => Sys2Proof.Machine.execI3cRead s
  | .setpAlert low => Sys2Proof.Machine.execSetpAlert low s
  | .pwrGood f => Sys2Proof.Machine.execPwrGood f s
  | .pwrGoodDeassert => Sys2Proof.Machine.execPwrGoodDeassert s
  | .railFault => Sys2Proof.Machine.execRailFault s
  | .thermalTrip => Sys2Proof.Machine.execThermalTrip s
  | .firmwareLoadBegin c => Sys2Proof.Machine.execFirmwareLoadBegin c s
  | .firmwareLoadData c => Sys2Proof.Machine.execFirmwareLoadData c s
  | .firmwareLoadCommit c => Sys2Proof.Machine.execFirmwareLoadCommit c s
  | .firmwareLoadAbort c => Sys2Proof.Machine.execFirmwareLoadAbort c s
  | .configWriteSet c => Sys2Proof.Machine.execConfigWriteSet c s
  | .configWriteClear c => Sys2Proof.Machine.execConfigWriteClear c s
  | .configWriteHostKey c => Sys2Proof.Machine.execConfigWriteHostKey c s
  | .configWriteMinSvn c => Sys2Proof.Machine.execConfigWriteMinSvn c s
  | .attestReport c => Sys2Proof.Machine.execAttestReport c s
  | .attestChain c => Sys2Proof.Machine.execAttestChain c s
  | .attestRoll c => Sys2Proof.Machine.execAttestRoll c s
  | .keyRolled ok => Sys2Proof.Machine.execKeyRolled ok s
  | .neighbourDiscovery target src => Sys2Proof.Machine.execNeighbourDiscovery target src s
  | .icmpv6Echo dst src data => Sys2Proof.Machine.execIcmpv6Echo dst src data s
  | .hostLinkLoss => Sys2Proof.Machine.execHostLinkLoss s
  | .cmReq r => Sys2Proof.Machine.execCmReq r s
  | .cmDreq qpn => Sys2Proof.Machine.execCmDreq qpn s
  | .rdmaSend qpn ecn data => Sys2Proof.Machine.execRdmaSend qpn ecn data s
  | .rdmaWrite qpn ecn va rkey data => Sys2Proof.Machine.execRdmaWrite qpn ecn va rkey data s
  | .rdmaRead qpn ecn va rkey n => Sys2Proof.Machine.execRdmaRead qpn ecn va rkey n s
  | .intakeDecode c => Sys2Proof.Machine.execIntakeDecode c s
  | .intakeDecodeComplete e r => Sys2Proof.Machine.execIntakeDecodeComplete e r s
  | .intakeStatus c => Sys2Proof.Machine.execIntakeStatus c s
  | .ppsInEdge => Sys2Proof.Machine.execPpsInEdge s
  | .tapInstruction idx => Sys2Proof.Machine.execTapInstruction idx s
  | .functionReady b => Sys2Proof.Machine.execFunctionReady b s
  | .functionStopsBeingUsable b => Sys2Proof.Machine.execFunctionStopsBeingUsable b s
  | .trainingRetry port => Sys2Proof.Machine.execTrainingRetry port s
  | .partnerHandshakeLimit slot => Sys2Proof.Machine.execPartnerHandshakeLimit slot s
  | .negativeLoadDone slot => Sys2Proof.Machine.execNegativeLoadDone slot s
  | .mapDestroyDone slot => Sys2Proof.Machine.execMapDestroyDone slot s
  | .readDrainComplete chain id discarded => Sys2Proof.Machine.execReadDrainComplete chain id discarded s
  | .pfcFrame prio quanta => Sys2Proof.Machine.execPfcFrame prio quanta s
  | .dynamicAddressAssignment addr => Sys2Proof.Machine.execDynamicAddressAssignment addr s

end Sys2Proof.Machine
end

