-- ==== Sys2Proof/WellFormed.lean ====
section
/-! DEFINITION. The well-formed commands: every operand within the width or the range that the spec gives it, and a command
message in the row of its opcode (Table 2.10). A meaning answers for the others too; well-formedness says which terms stand for
something that can reach the device. -/

namespace Sys2Proof

/-- The fields of a header fit their widths (Table 2.5); a session number is 1 to 16 (Table 2.1). -/
def CmdHdr.wf (h : CmdHdr) : Bool :=
  1 ≤ h.session && h.session ≤ 16 && h.format < 256 && h.flags < 256 && h.opcode < 65536 && h.queue < 65536 &&
    h.seq < 2 ^ 32 && h.jobTag < 2 ^ 32 && h.startTc < 2 ^ 64 && h.cookie < 2 ^ 64

/-- PARAM_LEN fits its field. -/
def Command.wf (c : Command) : Bool := c.hdr.wf && c.params.length < 65536

/-- The fields of a transport header fit their widths (Table 2.1). -/
def Datagram.wf (d : Datagram) : Bool :=
  d.src < 2 ^ 128 && d.version < 256 && d.kind < 256 && d.session < 65536 && d.tseq < 2 ^ 32 && d.ack < 2 ^ 32 &&
    d.window < 65536

/-- The fields of a full stamp fit their widths (Table 4.1). -/
def Stamp.wf (t : Stamp) : Bool :=
  t.ns < 2 ^ 64 && t.twin < 2 && t.device < 2 ^ 15 && t.unit < 65536 && t.seq < 2 ^ 32

/-- The fields of a packet header fit their widths; a payload is 0 to 4,096 bytes in multiples of 128 (Table 14.1, R325). -/
def Packet.wf (k : Packet) : Bool :=
  k.type < 256 && k.flags < 256 && k.dst < 65536 && k.src < 65536 && k.level < 256 && k.pass < 256 && k.jobTag < 2 ^ 32 &&
    k.epoch < 2 ^ 32 && k.opId < 65536 && k.tag < 2 ^ 32 && k.offset < 2 ^ 64 && k.pseq < 2 ^ 32 && k.crc < 2 ^ 32 &&
    k.tc.wf && k.payload.length ≤ 4096 && k.payload.length % 128 == 0

/-- A frame of one of 16 ports, with a 12-bit link sequence. -/
def Frame.wf (f : Frame) : Bool := f.port < 16 && f.linkSeq < 4096 && f.packet.wf

/-- The fields of a link control frame fit their widths (R326). -/
def LinkControl.wf (l : LinkControl) : Bool :=
  l.ack < 4096 && (l.nack.all (· < 4096)) && l.peer < 65536 && l.peerPort < 256 && l.root < 65536 && l.hops < 256

/-- Bring-up finds physical cores, units and slots that exist. -/
def BootFacts.wf (f : BootFacts) : Bool :=
  f.failedCores.all (· < 156) && f.failedUnits.all (· < 704) && f.emptySlots.all (· < 12)

/-- Whether a command is well-formed. -/
def Instr.wf (i : Instr) : Bool :=
  match i with
  | .data d ms => d.wf && ms.all Command.wf
  | .ack d => d.wf
  | .nack d bitmap => d.wf && bitmap < 2 ^ 64
  | .openSession d _ => d.wf
  | .close d => d.wf
  | .keepalive d => d.wf
  | .timedRetransmission session tseq => (1 ≤ session && session ≤ 16) && (1 ≤ tseq && tseq < 2 ^ 32)
  | .retransmitExhausted session tseq => (1 ≤ session && session ≤ 16) && (1 ≤ tseq && tseq < 2 ^ 32)
  | .sessionSilenceTimeout session => 1 ≤ session && session ≤ 16
  | .windowReopen session buffers => (1 ≤ session && session ≤ 16) && buffers ≤ 512
  | .queueBind c => c.wf && c.hdr.opcode == 0x0010
  | .queueUnbind c => c.wf && c.hdr.opcode == 0x0011
  | .queueAttach c => c.wf && c.hdr.opcode == 0x0012
  | .queueStatus c => c.wf && c.hdr.opcode == 0x0013
  | .queueFlush c => c.wf && c.hdr.opcode == 0x0014
  | .nop c => c.wf && c.hdr.opcode == 0x0040
  | .commandDispatch q => 1 ≤ q && q ≤ 4112 && q != 4096
  | .queueDrained q => 1 ≤ q && q ≤ 4095
  | .xancaRead c => c.wf && c.hdr.opcode == 0x0001
  | .callsheetRead c => c.wf && c.hdr.opcode == 0x0002
  | .callsheetWaitTimeout _ => true
  | .callsheetDeadline b => decide (b < 64)
  | .registerWrite unit offset value => unit ≤ 703 && offset < 65536 && value < 2 ^ 64
  | .badRegisterAccess addr size _ => addr < 2 ^ 48 && size ≤ 64
  | .lcf port l => port < 16 && l.wf
  | .lcfTransmit port => decide (port < 16)
  | .ptpMessage m => m.domain < 256 && m.nanos < 10 ^ 9
  | .servoAdjust => true
  | .parentSearchTimeout => true
  | .ptpLost => true
  | .holdoverLimitExceeded => true
  | .unlockedNsLimit => true
  | .taskPlace c => decide (c < 144)
  | .coreWake p => decide (p < 156)
  | .coreGate p => decide (p < 156)
  | .opeAcc p => decide (p < 156)
  | .opeZero p => decide (p < 156)
  | .opeLoad p => decide (p < 156)
  | .opeDrain p => decide (p < 156)
  | .opeConv p => decide (p < 156)
  | .vecFma p => decide (p < 156)
  | .vecAdd p => decide (p < 156)
  | .vecMul p => decide (p < 156)
  | .vecMin p => decide (p < 156)
  | .vecMax p => decide (p < 156)
  | .vecCmp p => decide (p < 156)
  | .vecSel p => decide (p < 156)
  | .vecCvt p => decide (p < 156)
  | .vecExp2 p => decide (p < 156)
  | .vecLog2 p => decide (p < 156)
  | .vecRcp p => decide (p < 156)
  | .vecRsqrt p => decide (p < 156)
  | .vecLoad p => decide (p < 156)
  | .vecStore p => decide (p < 156)
  | .vecLaneSum p => decide (p < 156)
  | .vecRng p => decide (p < 156)
  | .lnFwd p => decide (p < 156)
  | .rmsFwd p => decide (p < 156)
  | .smaxFwd p => decide (p < 156)
  | .smaxPart p => decide (p < 156)
  | .smaxFin p => decide (p < 156)
  | .lnBwd p => decide (p < 156)
  | .rmsBwd p => decide (p < 156)
  | .smaxBwd p => decide (p < 156)
  | .frameRelease p => decide (p < 156)
  | .getLines p => decide (p < 156)
  | .putLines p => decide (p < 156)
  | .emptyLines p => decide (p < 156)
  | .pushFrame p => decide (p < 156)
  | .popFrame p => decide (p < 156)
  | .holdFrame p => decide (p < 156)
  | .releaseFrame p => decide (p < 156)
  | .setupGenerator p => decide (p < 156)
  | .loopBundle p => decide (p < 156)
  | .waitTag p => decide (p < 156)
  | .waitTagRelease p => decide (p < 156)
  | .emptySlotStallRelease p => decide (p < 156)
  | .clapBundle p => decide (p < 156)
  | .endTask p => decide (p < 156)
  | .taskWatchdog p => decide (p < 156)
  | .kernelLoad c => c.wf && c.hdr.opcode == 0x2001
  | .kernelRun c => c.wf && c.hdr.opcode == 0x2002
  | .kernelUnload c => c.wf && c.hdr.opcode == 0x2003
  | .opeRepair c => c.wf && c.hdr.opcode == 0x2010
  | .repairHoldEnd p _ => decide (p < 156)
  | .remoteWritePacket _ => true
  | .writeRefused _ => true
  | .turnoutLate p t => p < 156 && t < 16
  | .remoteRead c first lines => c < 144 && first < 24576 && lines ≤ 24576
  | .turnoutOpen c => c.wf && c.hdr.opcode == 0x1030
  | .turnoutClose c => c.wf && c.hdr.opcode == 0x1031
  | .turnoutDrainLimit p t => p < 156 && t < 16
  | .spadScrub p line errors _ => p < 156 && line < 24576 && errors < 65536
  | .contScrub p line errors _ => p < 156 && line < 512 && errors < 65536
  | .resvScrub line errors _ => line < 393216 && errors < 65536
  | .memoryScrub u addr errors sub _ => (642 ≤ u && u ≤ 657) && addr < 2 ^ 48 && errors < 65536 && sub < 2 ^ 32
  | .contRun c => c.wf && c.hdr.opcode == 0x2020
  | .contRunFrames c => c.wf && c.hdr.opcode == 0x2020
  | .streamOpenPool c => c.wf && c.hdr.opcode == 0x3001
  | .streamOpen c => c.wf && c.hdr.opcode == 0x3001
  | .streamRun c => c.wf && c.hdr.opcode == 0x3002
  | .streamCancel c => c.wf && c.hdr.opcode == 0x3003
  | .streamClose c => c.wf && c.hdr.opcode == 0x3004
  | .clapSet c => c.wf && c.hdr.opcode == 0x3010
  | .streamFetch id iter stage => id < 256 && iter < 2 ^ 32 && stage < 8
  | .streamTaskPlace id iter => id < 256 && iter < 2 ^ 32
  | .streamStore id iter stage => id < 256 && iter < 2 ^ 32 && stage < 8
  | .warmFetch id iter stage => id < 256 && iter < 2 ^ 32 && stage < 8
  | .creditWatchdog id lane stage => id < 256 && lane < 144 && stage < 8
  | .clapLimit slot n => slot < 64 && n < 64
  | .reelConfig c => c.wf && c.hdr.opcode == 0x3020
  | .reelBegin c => c.wf && c.hdr.opcode == 0x3020
  | .reelUpdate c => c.wf && c.hdr.opcode == 0x3020
  | .reelShard c => c.wf && c.hdr.opcode == 0x3020
  | .reelClear c => c.wf && c.hdr.opcode == 0x3020
  | .updateGateOpen slot => decide (slot < 64)
  | .slateMirror slot => decide (slot < 64)
  | .updateGateTimeout slot => decide (slot < 64)
  | .mapCreate c => c.wf && c.hdr.opcode == 0x1001
  | .mapEdit c => c.wf && c.hdr.opcode == 0x1002
  | .shootdownComplete _ => true
  | .mapDestroy c => c.wf && c.hdr.opcode == 0x1003
  | .memCopy c => c.wf && c.hdr.opcode == 0x1010
  | .memFill c => c.wf && c.hdr.opcode == 0x1011
  | .farMigrateOut c => c.wf && c.hdr.opcode == 0x1020
  | .farMigrateBack c => c.wf && c.hdr.opcode == 0x1020
  | .farMigrateRelease c => c.wf && c.hdr.opcode == 0x1020
  | .chunkFlip channel => decide (channel < 12)
  | .farOffline c => c.wf && c.hdr.opcode == 0x1021
  | .farOnline c => c.wf && c.hdr.opcode == 0x1022
  | .farOnlineComplete channel outcome serial capacity rate trainMs => channel < 12 && outcome < 256 && serial < 2 ^ 32 && capacity < 65536 && rate < 65536 && trainMs < 65536
  | .slotPowerFall channel => decide (channel < 12)
  | .seqCreatePool c => c.wf && c.hdr.opcode == 0x7001
  | .seqCreateSequence c => c.wf && c.hdr.opcode == 0x7001
  | .seqDestroy c => c.wf && c.hdr.opcode == 0x7001
  | .kvPageMap c => c.wf && c.hdr.opcode == 0x7002
  | .kvPageShare c => c.wf && c.hdr.opcode == 0x7003
  | .kvPageFree c => c.wf && c.hdr.opcode == 0x7004
  | .attnRun c => c.wf && c.hdr.opcode == 0x7005
  | .attnTileSend p => decide (p < 156)
  | .deferredEditApply id => decide (id < 1024)
  | .flumeChainStart c => c.wf && c.hdr.opcode == 0x8001
  | .flumeTimerSet c => c.wf && c.hdr.opcode == 0x8001
  | .flumeChainStop c => c.wf && c.hdr.opcode == 0x8002
  | .flumeStatus c => c.wf && c.hdr.opcode == 0x8003
  | .descriptorRead engine channel => engine < 16 && channel < 16
  | .ownPoll engine channel => engine < 16 && channel < 16
  | .copyDescriptor engine channel => engine < 16 && channel < 16
  | .fillDescriptor engine channel => engine < 16 && channel < 16
  | .skewDescriptor engine channel => engine < 16 && channel < 16
  | .transposeDescriptor engine channel => engine < 16 && channel < 16
  | .eventDescriptor engine channel => engine < 16 && channel < 16
  | .linkDescriptor engine channel => engine < 16 && channel < 16
  | .stopChain engine channel => engine < 16 && channel < 16
  | .eventWaitRelease engine channel => engine < 16 && channel < 16
  | .timerTick t => decide (t < 16)
  | .descriptorWriteBack engine channel => engine < 16 && channel < 16
  | .collPacket f => f.wf
  | .gatherPiece f => f.wf
  | .clapPacket f => f.wf
  | .bulkPacket f _ => f.wf
  | .lightDetected port => decide (port < 16)
  | .trainingComplete port peer peerPort width => port < 16 && peer < 65536 && peerPort < 256 && width ≤ 4
  | .trainingTimeout port => decide (port < 16)
  | .lossOfLight port => decide (port < 16)
  | .connectorRemoval engine => decide (engine < 4)
  | .fabricIdSet c => c.wf && c.hdr.opcode == 0x4001
  | .portMapSet c => c.wf && c.hdr.opcode == 0x4002
  | .recutDrain c => c.wf && c.hdr.opcode == 0x4003
  | .recutAbandon c => c.wf && c.hdr.opcode == 0x4003
  | .recutDrained slot => decide (slot < 64)
  | .portDark port => decide (port < 16)
  | .portRelock port peer peerPort width => port < 16 && peer < 65536 && peerPort < 256 && width ≤ 4
  | .recutLimit slot => decide (slot < 64)
  | .collectiveRun c => c.wf && c.hdr.opcode == 0x4004
  | .gatherRun c => c.wf && c.hdr.opcode == 0x4005
  | .collectiveLimit slot _ id => slot < 64 && id < 65536
  | .linkStatus c => c.wf && c.hdr.opcode == 0x4010
  | .jobCreate c => c.wf && c.hdr.opcode == 0x6001
  | .jobDestroy c => c.wf && c.hdr.opcode == 0x6002
  | .jobTeardown slot => decide (slot < 64)
  | .modeSet c => c.wf && c.hdr.opcode == 0x6003
  | .allotmentSet c => c.wf && c.hdr.opcode == 0x6004
  | .rotationTurnEnd a => decide (a < 16)
  | .taskMigrate c => c.wf && c.hdr.opcode == 0x6005
  | .migrationDrained slot => decide (slot < 64)
  | .freezeSet c => c.wf && c.hdr.opcode == 0x5001
  | .freezeTake c => c.wf && c.hdr.opcode == 0x5002
  | .freezeStop slot => decide (slot < 64)
  | .freezeResume slot => decide (slot < 64)
  | .partnerSet c => c.wf && c.hdr.opcode == 0x5003
  | .partnerHandshake f feed => f.wf && feed < 65536
  | .partnerLimit slot => decide (slot < 64)
  | .feedTagSet c => c.wf && c.hdr.opcode == 0x5004
  | .slateRead c => c.wf && c.hdr.opcode == 0x5005
  | .negativeLoad c => c.wf && c.hdr.opcode == 0x5006
  | .spreadApply c => c.wf && c.hdr.opcode == 0x5007
  | .retakeRun c => c.wf && c.hdr.opcode == 0x5008
  | .screenTestComplete unit sub type _ _ _ => unit ≤ 703 && sub < 2 ^ 32 && type < 65536
  | .sweep c => decide (c < 144)
  | .screenTestRun c => c.wf && c.hdr.opcode == 0xF001
  | .errorLogRead c => c.wf && c.hdr.opcode == 0xF002
  | .errorInject c => c.wf && c.hdr.opcode == 0xF003
  | .heartbeat n => decide (n < 4)
  | .controlHeartbeatTimeout n => decide (n < 4)
  | .hostPortEnergyWake f => f.wf
  | .dozeEntry => true
  | .powerStateSet c => c.wf && c.hdr.opcode == 0x9001
  | .powerLimitSet c => c.wf && c.hdr.opcode == 0x9002
  | .telemetryRead c => c.wf && c.hdr.opcode == 0x9003
  | .gafferTick => true
  | .setpointReached => true
  | .powerEstimate watts dynamic => watts < 65536 && dynamic ≤ watts
  | .excursionBackstop => true
  | .clampReleaseStep => true
  | .throtInAssert => true
  | .throtInDeassert => true
  | .railSample mv ma => (mv.length == 6 && mv.all (· < 65536)) && (ma.length == 6 && ma.all (· < 2 ^ 24))
  | .tempSample cmp iod hbm opt => cmp < 256 && iod < 256 && (hbm.length == 4 && hbm.all (· < 256)) && (opt.length == 4 && opt.all (· < 256))
  | .i3cIndexWrite _ => true
  | .i3cRead => true
  | .setpAlert _ => true
  | .pwrGood f => f.wf
  | .pwrGoodDeassert => true
  | .railFault => true
  | .thermalTrip => true
  | .firmwareLoadBegin c => c.wf && c.hdr.opcode == 0xA001
  | .firmwareLoadData c => c.wf && c.hdr.opcode == 0xA001
  | .firmwareLoadCommit c => c.wf && c.hdr.opcode == 0xA001
  | .firmwareLoadAbort c => c.wf && c.hdr.opcode == 0xA001
  | .configWriteSet c => c.wf && c.hdr.opcode == 0xA002
  | .configWriteClear c => c.wf && c.hdr.opcode == 0xA002
  | .configWriteHostKey c => c.wf && c.hdr.opcode == 0xA002
  | .configWriteMinSvn c => c.wf && c.hdr.opcode == 0xA002
  | .attestReport c => c.wf && c.hdr.opcode == 0xA003
  | .attestChain c => c.wf && c.hdr.opcode == 0xA003
  | .attestRoll c => c.wf && c.hdr.opcode == 0xA003
  | .keyRolled _ => true
  | .neighbourDiscovery target src => target < 2 ^ 128 && src < 2 ^ 128
  | .icmpv6Echo dst src _ => dst < 2 ^ 128 && src < 2 ^ 128
  | .hostLinkLoss => true
  | .cmReq r => r.src < 2 ^ 128 && r.hostQpn < 2 ^ 24
  | .cmDreq qpn => decide (qpn < 2 ^ 24)
  | .rdmaSend qpn _ _ => decide (qpn < 2 ^ 24)
  | .rdmaWrite qpn _ va rkey _ => qpn < 2 ^ 24 && va < 2 ^ 64 && rkey < 2 ^ 32
  | .rdmaRead qpn _ va rkey n => qpn < 2 ^ 24 && va < 2 ^ 64 && rkey < 2 ^ 32 && n < 2 ^ 32
  | .intakeDecode c => c.wf && c.hdr.opcode == 0xB001
  | .intakeDecodeComplete e _ => decide (e < 4)
  | .intakeStatus c => c.wf && c.hdr.opcode == 0xB002
  | .ppsInEdge => true
  | .tapInstruction _ => true
  | .functionReady b => decide (b < 64)
  | .functionStopsBeingUsable b => decide (b < 64)
  | .trainingRetry port => decide (port < 16)
  | .partnerHandshakeLimit slot => decide (slot < 64)
  | .negativeLoadDone slot => decide (slot < 64)
  | .mapDestroyDone slot => decide (slot < 64)
  | .readDrainComplete _ id discarded => id < 256 && discarded < 2 ^ 32
  | .pfcFrame prio quanta => prio < 8 && quanta < 65536
  | .dynamicAddressAssignment addr => decide (addr < 128)

end Sys2Proof
end

