-- ==== Sys2Proof/Safety.lean ====
section
/-! DEFINITION. What counts as a sound state, and for each command the conditions on the state and the operands under which it has
its own effect: the words in which claims are stated. Each condition cites the rules that give it. -/

namespace Sys2Proof

open Sys2Proof.Machine

/-- The waiting commands are all well-formed. -/
abbrev Machine.State.queueWf (s : State) : Prop := ∀ c ∈ s.pending, c.wf = true

/-- The Xanca table is stable: GENERATION is even (R59). -/
abbrev Machine.State.tableStable (s : State) : Prop := s.xanca.generation % 2 = 0

/-- The two tiers are in canonical form: addresses rise strictly, and no entry holds what an unlisted address reads as. -/
abbrev Machine.Memory.wf (m : Memory) : Prop := TMap.Wf 0 m.bytes ∧ TMap.Wf false m.poison

/-- The scratchpads are in canonical form. -/
abbrev Machine.Spads.wf (x : Spads) : Prop := TMap.Wf 0 x.bytes ∧ TMap.Wf false x.full ∧ TMap.Wf false x.poison

/-- The sound states: the table is stable (R59) and the memories are in canonical form. -/
structure Machine.State.Sound (s : State) : Prop where
  stable : s.tableStable
  memory : s.memory.wf
  spads : s.spads.wf

namespace Normal

/-! ## Every command -/

/-- The commands that store to no byte, tag or poison mark of the two tiers and of the scratchpads: those of the transport, the
queues, the call sheet, timecode, the pins and power, the links, the error log, security, and those that only take, read or
schedule. -/
def storesNothing : Instr → Bool
  | .data _ _ | .ack _ | .nack _ _ | .openSession _ _ | .close _ | .keepalive _ | .timedRetransmission _ _
  | .retransmitExhausted _ _ | .sessionSilenceTimeout _ | .windowReopen _ _ | .queueBind _ | .queueUnbind _
  | .queueAttach _ | .queueStatus _ | .queueFlush _ | .nop _ | .commandDispatch _ | .queueDrained _ | .xancaRead _
  | .callsheetRead _ | .callsheetWaitTimeout _ | .callsheetDeadline _ | .registerWrite _ _ _ | .badRegisterAccess _ _ _
  | .lcfTransmit _ | .ptpMessage _ | .servoAdjust | .parentSearchTimeout | .ptpLost | .holdoverLimitExceeded
  | .unlockedNsLimit | .coreGate _ | .waitTagRelease _ | .emptySlotStallRelease _ | .kernelRun _ | .kernelUnload _
  | .opeRepair _ | .writeRefused _ | .contScrub _ _ _ _ | .resvScrub _ _ _ | .contRun _ | .streamOpen _ | .streamRun _
  | .reelShard _ | .slateMirror _ | .updateGateTimeout _ | .shootdownComplete _ | .mapDestroy _ | .farMigrateOut _
  | .farMigrateBack _ | .farMigrateRelease _ | .farOffline _ | .farOnline _ | .slotPowerFall _ | .seqCreateSequence _
  | .flumeChainStart _ | .flumeTimerSet _ | .flumeStatus _ | .timerTick _ | .bulkPacket _ _
  | .lightDetected _ | .trainingComplete _ _ _ _ | .trainingTimeout _ | .lossOfLight _ | .connectorRemoval _
  | .fabricIdSet _ | .linkStatus _ | .jobCreate _ | .modeSet _ | .rotationTurnEnd _ | .taskMigrate _ | .freezeSet _
  | .freezeTake _ | .partnerSet _ | .partnerHandshake _ _ | .partnerLimit _ | .feedTagSet _ | .negativeLoad _
  | .retakeRun _ | .sweep _ | .errorLogRead _ | .heartbeat _ | .controlHeartbeatTimeout _ | .dozeEntry
  | .powerLimitSet _ | .telemetryRead _ | .gafferTick | .setpointReached | .powerEstimate _ _ | .excursionBackstop
  | .clampReleaseStep | .throtInAssert | .throtInDeassert | .railSample _ _ | .tempSample _ _ _ _ | .i3cIndexWrite _
  | .i3cRead | .setpAlert _ | .pwrGoodDeassert | .railFault | .thermalTrip | .firmwareLoadBegin _ | .firmwareLoadData _
  | .firmwareLoadCommit _ | .firmwareLoadAbort _ | .configWriteSet _ | .configWriteClear _ | .configWriteHostKey _
  | .configWriteMinSvn _ | .attestReport _ | .attestChain _ | .attestRoll _ | .keyRolled _ | .neighbourDiscovery _ _
  | .icmpv6Echo _ _ _ | .hostLinkLoss | .cmReq _ | .cmDreq _ | .intakeDecode _ | .intakeStatus _ | .ppsInEdge
  | .tapInstruction _ | .functionStopsBeingUsable _ | .trainingRetry _ | .partnerHandshakeLimit _ | .mapDestroyDone _
  | .pfcFrame _ _ | .dynamicAddressAssignment _ => true
  | _ => false

/-- The commands that a device without power takes: power-good and its fall, and the test access port's (R499, R503). -/
def takenUnpowered : Instr → Bool
  | .pwrGood _ | .pwrGoodDeassert | .tapInstruction _ => true
  | _ => false

/-- The parameter checks of a command (R37, R38), in their order, where the command begins with them. -/
def checksOf (s : State) : Instr → Option (Command × List Check)
  | .xancaRead c => some (c, xancaChecks c)
  | .streamOpen c => some (c, s.streamOpenChecks c)
  | .reelConfig c => some (c, s.reelConfigChecks c)
  | .reelBegin c => some (c, s.reelBeginChecks c)
  | .reelUpdate c => some (c, s.reelUpdateChecks c)
  | .reelShard c => some (c, s.reelShardChecks c)
  | .reelClear c => some (c, s.reelClearChecks c)
  | .mapCreate c => some (c, s.mapCreateChecks c)
  | .mapEdit c => some (c, s.mapEditChecks c)
  | .mapDestroy c => some (c, s.mapDestroyChecks c)
  | .memCopy c => some (c, s.memCopyChecks c)
  | .memFill c => some (c, s.memFillChecks c)
  | .farMigrateOut c => some (c, s.migrateOutChecks c)
  | .farMigrateBack c => some (c, s.migrateBackChecks c)
  | .farMigrateRelease c => some (c, s.migrateReleaseChecks c)
  | .farOffline c => some (c, s.farOfflineChecks c)
  | .farOnline c => some (c, s.farOnlineChecks c)
  | .seqCreatePool c => some (c, s.seqCreatePoolChecks c)
  | .seqCreateSequence c => some (c, s.seqCreateSequenceChecks c)
  | .seqDestroy c => some (c, s.seqDestroyChecks c)
  | .kvPageMap c => some (c, s.kvPageMapChecks c)
  | .kvPageShare c => some (c, s.kvPageShareChecks c)
  | .kvPageFree c => some (c, s.kvPageFreeChecks c)
  | .attnRun c => some (c, s.attnRunChecks c)
  | .flumeChainStart c => some (c, s.flumeChainStartChecks c)
  | .flumeTimerSet c => some (c, s.flumeTimerSetChecks c)
  | .flumeChainStop c => some (c, s.flumeChainStopChecks c)
  | .flumeStatus c => some (c, s.flumeStatusChecks c)
  | .fabricIdSet c => some (c, s.fabricIdSetChecks c)
  | .portMapSet c => some (c, s.portMapSetChecks c)
  | .collectiveRun c => some (c, s.collectiveRunChecks c)
  | .gatherRun c => some (c, s.gatherRunChecks c)
  | .linkStatus c => some (c, s.linkStatusChecks c)
  | .jobCreate c => some (c, s.jobCreateChecks c)
  | .jobDestroy c => some (c, s.jobDestroyChecks c)
  | .modeSet c => some (c, s.modeSetChecks c)
  | .taskMigrate c => some (c, s.taskMigrateChecks c)
  | .feedTagSet c => some (c, s.feedTagSetChecks c)
  | .screenTestRun c => some (c, s.screenTestRunChecks c)
  | .errorLogRead c => some (c, s.errorLogReadChecks c)
  | .errorInject c => some (c, s.errorInjectChecks c)
  | .powerLimitSet c => some (c, s.powerLimitSetChecks c)
  | .telemetryRead c => some (c, s.telemetryReadChecks c)
  | .firmwareLoadBegin c => some (c, s.firmwareLoadBeginChecks c)
  | .firmwareLoadData c => some (c, s.firmwareLoadDataChecks c)
  | .firmwareLoadCommit c => some (c, s.firmwareLoadCommitChecks c)
  | .firmwareLoadAbort c => some (c, s.firmwareLoadAbortChecks c)
  | .configWriteSet c => some (c, s.configWriteSetChecks c)
  | .configWriteClear c => some (c, s.configWriteClearChecks c)
  | .configWriteHostKey c => some (c, s.configWriteHostKeyChecks c)
  | .configWriteMinSvn c => some (c, s.configWriteMinSvnChecks c)
  | .attestReport c => some (c, s.attestReportChecks c)
  | .attestChain c => some (c, s.attestChainChecks c)
  | .attestRoll c => some (c, s.attestRollChecks c)
  | .intakeDecode c => some (c, s.intakeDecodeChecks c)
  | .intakeStatus c => some (c, s.intakeStatusChecks c)
  | _ => none

/-- The commands that only answer what the device holds. -/
def readsOnly : Instr → Bool
  | .nop _ | .queueStatus _ | .xancaRead _ | .linkStatus _ | .flumeStatus _ | .intakeStatus _ | .errorLogRead _ | .attestChain _ => true
  | _ => false

/-- A powered device on which every check of a command passes (R38). -/
def passes (s : State) (l : List Check) : Bool := s.powered && (firstFail l).isNone

/-! ## Umauth (spec/02) -/

/-- A datagram of a kind that an open session receives (R26, Tables 2.1 and 2.2). -/
def datagram (s : State) (d : Datagram) (kind : Nat) : Bool :=
  s.powered && s.hostUp && !Machine.Datagram.discarded d && d.kind == kind && (s.session d.session).isOpen

/-- DATA of the datagram that follows ACK, with nothing buffered behind it (R29). -/
def dataInOrder (s : State) (d : Datagram) : Bool :=
  datagram s d 0x01 && (let x := ((s.rxBytes d.length).heard d).session d.session
    steps x.ack d.tseq == 1 && x.buffered.isEmpty)

/-- DATA ahead of its turn, within 512 of ACK, not yet buffered (R29). -/
def dataAhead (s : State) (d : Datagram) : Bool :=
  datagram s d 0x01 && (let x := ((s.rxBytes d.length).heard d).session d.session
    2 ≤ steps x.ack d.tseq && steps x.ack d.tseq ≤ 512 && !(x.buffered.any fun b => b.tseq == d.tseq))

/-- An OPEN whose credential verifies, while a session number is free (R462). -/
def openSession (s : State) (d : Datagram) (cred : Credential) : Bool :=
  s.powered && s.hostUp && !Machine.Datagram.discarded d && d.kind == 4 && ((s.rxBytes d.length).credentialFault cred.bytes).isNone &&
    !((s.rxBytes d.length).freeSessions.isEmpty)

/-- A timed retransmission of an unacknowledged datagram is due (R30). -/
def timedRetransmission (s : State) (session tseq : Nat) (u : SentDatagram) : Bool :=
  let x := s.session session
  s.powered && x.isOpen && decide (x.unacked.find? (fun v => v.tseq == tseq) = some u) && decide (u.timed < 8) &&
    decide (u.sentAt + retransmitAt (u.timed + 1) ≤ s.now)

/-- 12.8 ms have passed since the eighth timed retransmission of a datagram (R30). -/
def retransmitExhausted (s : State) (session tseq : Nat) : Bool :=
  let x := s.session session
  s.powered && x.isOpen && x.unacked.any fun u =>
    u.tseq == tseq && u.timed == 8 && decide (u.sentAt + retransmitAt 8 + 12800 * usec ≤ s.now)

/-- Nothing has been received on a session for 1 s (R31). -/
def silence (s : State) (session : Nat) : Bool :=
  s.powered && (s.session session).isOpen && decide ((s.session session).lastRx + 1000 * msec ≤ s.now)

/-- Receive buffers of a session free (R46). -/
def windowReopen (s : State) (session buffers : Nat) : Bool :=
  s.powered && (s.session session).isOpen && decide (0 < buffers) && decide (0 < (s.session session).rxBusy)

/-- The first admitted command of a queue may be dispatched (R40, R42, R47), its gates hold (R68) and its job is not ABORTED. -/
def dispatch (s : State) (q : Nat) (c : Command) : Bool :=
  s.powered && decide ((s.queue q).admitted.head? = some c) && s.dispatchable (s.queue q) c && !s.abortedRefuses c &&
    ((opInfo c.hdr.opcode).bind fun o => s.gateMissing o c).isNone

/-- `queue_bind` whose every field is in range and for which the pool and the headgate limit have room (Table 2.3, R32, R33). -/
def queueBind (s : State) (c : Command) : Bool :=
  let id := c.u16 0
  let depth := if c.u16 8 = 0 then 64 else c.u16 8
  let session := if c.u16 0xA = 0 then c.hdr.session else c.u16 0xA
  let retain := c.ex (c.u16 0x12) 64
  s.powered && decide (1 ≤ id) && decide (id ≤ 4095) && decide ((s.queue id).phase = .unbound) && decide (c.u8 2 ≤ 1) &&
    s.allotmentOk (c.u8 3) && s.allotmentIsJobs (c.u32 4) (c.u8 3) && s.jobLive (c.u32 4) &&
    decide (4 ≤ depth) && decide (depth ≤ 1024) && decide (session ≤ 16) && (s.session session).isOpen &&
    decide (c.ex (c.u8 0x10) 0 ≤ 1) && decide (16 ≤ retain) && decide (retain ≤ 256) && decide (depth ≤ s.poolFree) &&
    decide (c.u8 2 = 1 → s.headgateQueues < 256)

/-- `queue_unbind` of a bound queue (R34). -/
def queueUnbind (s : State) (c : Command) : Bool :=
  s.powered && s.queueNamed (c.u16 0) && decide ((s.queue (c.u16 0)).phase ≠ .draining) && decide (c.u8 2 ≤ 1)

/-- The drain of a queue has ended (R34). -/
def queueDrained (s : State) (q : Nat) : Bool :=
  s.powered && decide ((s.queue q).phase = .draining) && (s.queue q).admitted.isEmpty && (s.queue q).running.isEmpty &&
    (s.queue q).retained.isEmpty

/-- `queue_attach` of a queue to an open session (R50). -/
def queueAttach (s : State) (c : Command) : Bool :=
  let n := if c.u16 2 = 0 then c.hdr.session else c.u16 2
  s.powered && s.queueNamed (c.u16 0) && decide (n ≤ 16) && (s.session n).isOpen

/-- `queue_status` of Q0 or of a queue that is bound (R513). -/
def queueStatus (s : State) (c : Command) : Bool := s.powered && (c.u16 0 == 0 || s.queueNamed (c.u16 0))

/-- `queue_flush` of a queue that is bound (R35). -/
def queueFlush (s : State) (c : Command) : Bool := s.powered && s.queueNamed (c.u16 0)

/-! ## The Xanca table, the call sheet, registers (spec/03) -/

/-- `xanca_read` whose range faults nothing (Table 3.8, R71). -/
def xancaRead (s : State) (c : Command) : Bool := s.powered && (firstFail (xancaChecks c)).isNone

/-- The expert form of `callsheet_read` with its fields in range (Table 3.9). -/
def callsheetWait (s : State) (c : Command) : Bool :=
  s.powered && c.expert && c.u64 0 != 0 && bits (c.u64 0) 62 52 == 0 && c.u32 8 != 0 && decide (c.u32 8 ≤ 60000)

/-- The time of a waiting `callsheet_read` has run out (R72). -/
def callsheetTimeout (s : State) (i : Nat) (w : CsWait) : Bool :=
  s.powered && decide (s.xanca.waits[i]? = some w) && decide (w.due ≤ s.sinceBoot)

/-- A bit has missed its deadline, and it is the first time (R63). -/
def callsheetDeadline (s : State) (b : Nat) : Bool :=
  s.powered && (s.csDeadline b).any (· ≤ s.sinceBoot) && !bitAt s.xanca.ready b && !bitAt s.xanca.failed b &&
    !bitAt s.xanca.missed b

/-- An aligned write inside a window (R7, R70). -/
def registerWrite (s : State) (unit offset : Nat) : Bool :=
  s.powered && decide (unit ≤ 703) && offset % 8 == 0 && decide (offset < windowTop unit)

/-! ## The timecode (spec/04) -/

/-- A PTP message of the configured domain on a host port that is up, with PTP enabled (R79). -/
def ptpMessage (s : State) (m : PtpMessage) : Bool :=
  s.powered && s.hostUp && s.fld uTimecode 0x040 33 33 == 1 && m.domain == s.fld uTimecode 0x040 47 40

/-- A locked device follows PTP, as its source or as the root (R80), and a Sync has been timed (R79). -/
def ptpFollowed (s : State) : Bool :=
  s.timecode.ptpValid && (s.tcSource.source == 2 || s.tcSource.source == 3) && s.timecode.phase == .locked

/-- A device that is not UNLOCKED has a source to follow (R80, R81). -/
def servoAdjust (s : State) : Bool := s.powered && s.tcSource.source != 0 && s.timecode.phase != .unlocked

/-- A locked device has looked for a parent for 1 ms since `t`, and there is none (R85). -/
def parentSearchTimeout (s : State) (t : Nat) : Bool :=
  s.powered && decide (s.timecode.searchSince = some t) && s.timecode.phase == .locked && decide (t + msec ≤ s.now) &&
    s.tcSource.source == 0

/-- A locked device follows PTP, as its source or as the root (R85). -/
def ptpLost (s : State) : Bool :=
  s.powered && s.timecode.ptpValid && s.timecode.phase == .locked && (s.timecode.source == 2 || s.timecode.source == 3)

/-- In HOLDOVER the error bound exceeds HOLDOVER_LIMIT_NS (R86). -/
def holdoverLimit (s : State) : Bool :=
  s.powered && s.timecode.phase == .holdover && decide (s.fld uTimecode 0x040 63 48 < s.errBound)

/-- An unlocked counter has reached its limit (R77). -/
def unlockedLimit (s : State) : Bool := s.powered && s.timecode.phase == .unlocked && decide (Machine.unlockedLimit ≤ s.now)

/-! ## Cores, tasks and bundles (spec/05, spec/06, spec/07, spec/09) -/

/-- `t` is the task that the free logical core `c`, held by the physical core `p`, takes next, and no lower free core of the allotment
takes it (R16, R360). -/
def taskPlace (s : State) (c p a : Nat) (t : Task) : Bool :=
  s.powered && decide (s.allotmentOf c = some a) && decide (s.physOf c = some p) && (s.freeCores a).contains c &&
    decide (s.pickTask c = some t) && (s.freeCores a).all fun d => decide (d < c → s.pickTask d ≠ some t)

/-- A core has been idle for IDLE_HOLD_US with gating enabled (R108). -/
def coreGate (s : State) (p : Nat) : Bool :=
  s.powered && (s.core p).phase == .idle && (s.core p).task.isNone && s.fld (uCore p) 0x040 0 0 == 1 &&
    decide ((s.core p).idleSince + s.fld (uCore p) 0x040 15 8 * 1000 ≤ s.now)

/-- A core as its next bundle issues: COMPUTE bundles without an operation are passed, and the first issue is stamped (R97). -/
def issued (s : State) (p : Nat) (kn : Kernel) : State := (s.setCore p (skipEmpty kn 4096 (s.core p))).firstIssue p

/-- A core runs a task of kernel `kn` and stands, unstalled, at the legal bundle `b` (R97, R101). -/
def atBundle (s : State) (p : Nat) (t : Task) (kn : Kernel) (b : Nat) : Bool :=
  let c := (issued s p kn).core p
  s.powered && decide ((s.core p).task = some t) && decide (s.kernel t.slot t.kernel = some kn) && (s.core p).phase == .running &&
    (s.core p).stall.isNone && (t.kind matches .kernel | .stream _ _ _ | .attn _) && decide (kn.bundle c.pc = some b) &&
    !bundleBad c kn.bundles.length b

/-- The state as a COMPUTE bundle's first slot issues: after the interlock with TRANSFER (R98). -/
def interlocked (s : State) (p : Nat) (kn : Kernel) : State :=
  let s := issued s p kn
  s.setCore p { s.core p with cycle := max (s.core p).cycle (s.core p).transferEnd }

/-- The state in which a slot of a COMPUTE bundle acts: its operands have been read, and lines of a take region are taken (R123). -/
def slotState (s : State) (p : Nat) (t : Task) (kn : Kernel) (b slot : Nat) : State :=
  let s := if ((issued s p kn).core p).slotsDone ≠ 0 then issued s p kn
    else ((interlocked s p kn).coreWords p b).2.readTouch p t.slot b
  s.takeLines p (s.slotReads p b slot)

/-- A slot of a COMPUTE bundle can act: it is the first slot not carried out; and where it is the bundle's first, the operands are
well-formed, every line of the footprint is full, and no word, line or bank stands in the way (R97, R98, R122, R93, R155). -/
def slotReady (s : State) (p : Nat) (t : Task) (kn : Kernel) (b slot : Nat) : Bool :=
  let c := (issued s p kn).core p
  let u := interlocked s p kn
  atBundle s p t kn b && bKind b == 0 && decide (c.nextSlot b = some slot) &&
    (c.slotsDone != 0 ||
      ((match (u.core p).computeLines b with | .ok ls => ls.all (· < 24576) | .error _ => false) &&
        (u.footprint p b).all (u.isFull p) && !(u.coreWords p b).1 &&
        (((u.coreWords p b).2.readTouch p t.slot b).computeFault p t.slot b).isNone))

/-- A COMPUTE bundle issues with this slot first, its operands well-formed, its footprint full and no word of the core bad; and no bank
or busy engine stands in the way (R91, R97, R98, R122, R155). -/
def slotIssues (s : State) (p : Nat) (t : Task) (kn : Kernel) (b slot : Nat) : Bool :=
  let u := interlocked s p kn
  let c := u.core p
  let r := ((u.coreWords p b).2.readTouch p t.slot b).core p
  atBundle s p t kn b && bKind b == 0 && decide (((issued s p kn).core p).nextSlot b = some slot) && c.slotsDone == 0 &&
    (match c.computeLines b with | .ok ls => ls.all (· < 24576) | .error _ => false) && (u.footprint p b).all (u.isFull p) &&
    !(u.coreWords p b).1 && decide (r.drainEnd.get 0 (bBank b) ≤ r.cycle) && decide (r.contFree ≤ r.cycle)

/-- A vector operation has been carried out (R96, R515). -/
def vectorDone (p w : Nat) (s : State) : State := (s.setCore p ((s.core p).timeVec w)).slotDone p w 1

/-- The state after a vector operation that acts lane by lane. -/
def lanes (s : State) (p : Nat) (t : Task) (kn : Kernel) (w : Nat) (f : Word32 → Word32 → Word32 → Word32) : State :=
  let u := slotState s p t kn w 1
  vectorDone p w (u.setCore p ((u.core p).lanewise w f))

/-- The state after an operation of the continuity engine (R144, R155). -/
def continuityDone (s : State) (p : Nat) (t : Task) (kn : Kernel) (w : Nat) : State :=
  let u := slotState s p t kn w 2
  let dur := contCycles (bCont w) (RowDesc.read (u.line p (cDesc (bCont w))))
  let v := u.contOp p t.slot (bCont w)
  (v.setCore p { v.core p with contFree := (v.core p).cycle + dur
                               engineEnd := max (v.core p).engineEnd ((v.core p).cycle + dur) }).slotDone p w 2

/-- The state in which a TRANSFER acts: after the interlock with COMPUTE (R98); PUT and PUSH have read their lines. -/
def transferState (s : State) (p : Nat) (t : Task) (kn : Kernel) (b : Nat) : State :=
  let s := issued s p kn
  let s := s.setCore p { s.core p with cycle := max (s.core p).cycle (s.core p).engineEnd }
  let s := (s.coreWords p b).2
  if tXop b = 1 then s.spadTouch p t.slot ((List.range (tLines b)).map (tLocal b + ·)) else s

/-- A TRANSFER with this far side can act: the local lines of a PUT or PUSH are full, and no word of the core is bad (R98, R122). -/
def transferReady (s : State) (p : Nat) (t : Task) (kn : Kernel) (b : Nat) (far : FarSide) : Bool :=
  let u := issued s p kn
  let v := u.setCore p { u.core p with cycle := max (u.core p).cycle (u.core p).engineEnd }
  atBundle s p t kn b && bKind b == 1 && decide (u.farSide p t b = far) && !(far matches .bad _) &&
    decide (tXop b = 1 → ∀ l ∈ (List.range (tLines b)).map (tLocal b + ·), v.isFull p l = true) && !(v.coreWords p b).1

/-- A bundle that waits for lines to turn full may issue (R122). -/
def emptySlotRelease (s : State) (p b : Nat) : Bool :=
  let ls := if bKind b = 1 then (List.range (bits b 87 73)).map (bits b 102 88 + ·) else s.footprint p b
  s.powered && decide (s.bundleAt p = some b) && (s.core p).stall == some .emptySlot && ls.all (s.isFull p)

/-- The condition of a stalled WAIT_TAG holds (R124). -/
def waitTagRelease (s : State) (p b : Nat) : Bool :=
  s.powered && decide (s.bundleAt p = some b) && bKind b == 4 && (s.core p).stall == some .waitTag && s.waitHolds p b

/-- A task has run longer than its job's TASK_LIMIT_US, time stalled at CLAP apart (R369). -/
def taskWatchdog (s : State) (p : Nat) (t : Task) : Bool :=
  let c := s.core p
  let limit := if (s.job t.slot).taskLimitUs = 0 then s.fld uSched 0x800 63 32 else (s.job t.slot).taskLimitUs
  let waited := c.clapNs + (if c.stall matches some (.clap _ _) then s.now - c.stallSince else 0)
  s.powered && decide (c.task = some t) && c.phase == .running && decide (limit * 1000 + waited ≤ s.now - c.startedAt)

/-- `kernel_load` of a whole image that verifies, for which every core of the allotment has room (R111, Table 5.11). -/
def kernelLoad (s : State) (c : Command) (img : List Byte) : Bool :=
  let slot := s.cmdSlot c.hdr
  s.powered && decide (c.u16 0 ≤ 255) && (s.kernel slot (c.u16 0)).isNone && decide (80 ≤ c.u32 4) && decide (c.u32 4 ≤ 65600) &&
    c.u64 8 % 64 == 0 && decide (c.ex (c.u8 0x10) 0 ≤ 1) &&
    (match s.vread slot (c.u64 8) (c.u32 4) with | .ok d => d.1 == img && !d.2 | .error _ => false) &&
    !imageBad img (c.u32 4) && decide ((imageBundles img).length ≤ (s.vtouch slot (c.u64 8) (c.u32 4)).leastFree (s.jobPhys slot))

/-- `kernel_run` of a loaded kernel with its fields in range (R112, R364). -/
def kernelRun (s : State) (c : Command) (k : Kernel) : Bool :=
  let limit := s.fld uSched 0x800 31 16
  s.powered && decide (c.u16 0 ≤ 255) && decide (s.kernel (s.cmdSlot c.hdr) (c.u16 0) = some k) && k.unloading.isNone &&
    ((s.queue c.hdr.qkey).headgate || limit == 0 || (k.cyclesStatic != 0 && decide (k.cyclesStatic ≤ limit * 1100))) &&
    c.u32 4 != 0 && decide (c.u32 4 ≤ 1048576) && c.u64 8 % 16 == 0 && decide (c.u16 0x10 ≤ 256) && c.u16 0x10 % 16 == 0 &&
    decide (k.argMin ≤ c.u16 0x10) && decide (c.ex (c.u16 0x18) 0 ≤ 144) && decide (c.ex (c.u8 0x1A) 0 ≤ 1)

/-- `kernel_unload` of a loaded kernel that is not being unloaded (R113). -/
def kernelUnload (s : State) (c : Command) (k : Kernel) : Bool :=
  s.powered && decide (c.u16 0 ≤ 255) && decide (s.kernel (s.cmdSlot c.hdr) (c.u16 0) = some k) && k.unloading.isNone

/-- `ope_repair` of a row of an engine that is not RETIRED, with a spare row left or the row retired already (R114). -/
def opeRepair (s : State) (c : Command) : Bool :=
  let rows := (s.core (c.u16 0 - 157)).retiredRows
  s.powered && decide (157 ≤ c.u16 0) && decide (c.u16 0 ≤ 312) && decide (c.u8 2 ≤ 129) && decide (c.ex (c.u8 8) 0 ≤ 1) &&
    (s.xentry (c.u16 0)).state != 3 && (rows.contains (c.u8 2) || decide (rows.length < 2))

/-- The hold of a repair has lasted 440 cycles, 400 ns (R103). -/
def repairHoldEnd (s : State) (p : Nat) (r : RowRepair) (rest : List RowRepair) : Bool :=
  s.powered && decide ((s.core p).repairs = r :: rest) && (s.core p).phase == .repairHold &&
    decide ((s.core p).holdStart + 400 ≤ s.now)

/-- `cont_run` of a forward operation with its fields in range (R158). -/
def contRun (s : State) (c : Command) : Bool :=
  s.powered && decide (1 ≤ c.u8 0) && decide (c.u8 0 ≤ 3) && decide (c.u8 1 ≤ 4) && decide (c.u8 2 ≤ 4) && decide (1 ≤ c.u16 4) &&
    decide (c.u16 4 ≤ 8192) && c.u16 6 == 0 && decide (1 ≤ c.u32 8) && decide (c.u32 8 ≤ 16777215) && c.u16 0xC == 0 &&
    c.u16 0xE == 0 && c.u64 0x10 % 128 == 0 && c.u64 0x18 % 128 == 0 && decide (c.ex (c.u16 0x38) 0 ≤ 144)

/-- `cont_run` with OP FRAMES whose window fits and meets no other job's (R159, R160). -/
def contRunFrames (s : State) (c : Command) : Bool :=
  let n := c.u16 6
  let base := c.u16 0xC
  s.powered && c.u8 0 == 0x20 && c.u8 1 == 0 && c.u8 2 == 0 && c.u16 4 == 0 && decide (n ≤ 512) && c.u32 8 == 0 &&
    decide (base ≤ 511) && decide (base + n ≤ 512) && decide (c.u16 0xE + 8 * (base + n - max 64 base) ≤ 24576) &&
    (n == 0 || (s.jobPhys (s.cmdSlot c.hdr)).all fun p => (List.range 64).all fun j => j == s.cmdSlot c.hdr ||
      decide (base + n ≤ (s.window p j).base) || decide ((s.window p j).base + (s.window p j).count ≤ base))

/-! ## Scratchpads, turnouts and reels (spec/06, spec/09) -/

/-- The packet at place `i` of the mesh, for a target that the physical core `p` holds (R131). -/
def packet (s : State) (i p : Nat) (k : MeshPacket) : Bool :=
  s.powered && decide (s.spads.mesh[i]? = some k) && decide (s.physOf k.target = some p)

/-- The packet meets turnout `t`, which takes it (R131). -/
def accepted (s : State) (p t : Nat) (k : MeshPacket) : Bool :=
  let x := s.turnout p t
  decide (s.matchTurnout p k.first = some t) && x.accepting && x.placement == k.placement && x.epoch == k.epoch &&
    x.slot == k.slot && decide (k.first + k.lines.length ≤ x.base + x.lines)

/-- A refusal whose bundle has no packet left on the mesh for its target (R135). -/
def writeRefused (s : State) (i : Nat) (x : RefusalNote) : Bool :=
  s.powered && decide (s.spads.refusals[i]? = some x) && !(s.spads.mesh.any fun k => k.origin == x.origin && k.target == x.target)

/-- A turnout with LATE_NOTIFY has refused lines since its last record, 10 µs ago or more (R135). -/
def turnoutLate (s : State) (p t : Nat) : Bool :=
  let x := s.turnout p t
  s.powered && x.lateNotify && decide (0 < x.sinceNote) && x.lastNote.all (fun l => decide (l + 10000 ≤ s.now))

/-- The limit of a draining turnout has passed (R133). -/
def drainLimit (s : State) (p t : Nat) : Bool :=
  let x := s.turnout p t
  s.powered && x.phase == .draining && x.drainDue.any (fun d => decide (d ≤ s.now))

/-- The scrubber of an awake core is enabled and reads one of its lines (R139). -/
def spadScrub (s : State) (p line : Nat) : Bool :=
  let c := s.cores.cores.get {} p
  s.powered && decide (p < 156) && decide (line < 24576) && c.phase != .gated && c.phase != .waking && s.fld (uSpad p) 0x380 0 0 == 1

/-- The scrubber of a continuity store reads one of its lines (R156). -/
def contScrub (s : State) (p line : Nat) : Bool :=
  let c := s.core p
  s.powered && decide (p < 156) && decide (line < 512) && c.phase != .gated && c.phase != .waking && s.fld (uCont p) 0x300 0 0 == 1

/-- A logical core named by a command is of its job's allotment and present (R141, R423). -/
def coreNamed (s : State) (c : Command) (l : Nat) : Bool :=
  decide (l < 144) && (s.allot (s.job (s.cmdSlot c.hdr)).allotment).cores.contains l && (s.physOf l).isSome &&
    (s.absentUnit l).isNone

/-- `turnout_open` with its fields in range, on lines that no accepting turnout holds; `t` is the turnout named, or the lowest that
does not accept writes where 0xFF asks for one (R130, R141). -/
def turnoutOpen (s : State) (c : Command) (p t : Nat) : Bool :=
  s.powered && coreNamed s c (c.u16 0) && decide (s.physOf (c.u16 0) = some p) &&
    (if c.u8 2 = 0xFF then decide ((List.range 16).find? (fun t => !(s.turnout p t).accepting) = some t)
     else c.u8 2 == t && decide (t ≤ 15) && !(s.turnout p t).accepting) &&
    decide (c.u8 3 ≤ 1) && (if c.u8 3 = 1 then c.u32 4 != 0 else c.u32 4 == 0) && decide (c.u16 8 ≤ 24575) && c.u16 0xA != 0 &&
    decide (c.u16 8 + c.u16 0xA ≤ 24576) && decide (c.ex (c.u8 0x12) 0 ≤ 1) && decide (c.ex (c.u8 0x13) 0 ≤ 1) &&
    (List.range 16).all fun k => !(s.turnout p k).accepting || decide (c.u16 8 + c.u16 0xA ≤ (s.turnout p k).base) ||
      decide ((s.turnout p k).base + (s.turnout p k).lines ≤ c.u16 8)

/-- `turnout_close` of a turnout of the job that is in use (R142). -/
def turnoutClose (s : State) (c : Command) (p : Nat) : Bool :=
  let x := s.turnout p (c.u8 2)
  s.powered && coreNamed s c (c.u16 0) && decide (s.physOf (c.u16 0) = some p) && decide (c.u8 2 ≤ 15) && decide (c.u8 3 ≤ 1) &&
    x.phase != .free && x.slot == s.cmdSlot c.hdr && (c.u8 3 == 1 || x.phase != .draining)

/-- A TRANSFER acts on the job's reel unit at the frame `fid` (R195): one line, at the port of its operation. -/
def reelReady (s : State) (p : Nat) (t : Task) (kn : Kernel) (b port fid : Nat) : Bool :=
  let u := transferState s p t kn b
  transferReady s p t kn b (.reel port fid) && tLines b == 1 && decide ((u.reel (u.logicalOf p)).slot = some t.slot)

/-- PUSH of a marker that is well-formed, at the top of the ring, with room for it (R197, Table 9.2). -/
def pushFrame (s : State) (p : Nat) (t : Task) (kn : Kernel) (b fid : Nat) : Bool :=
  let u := transferState s p t kn b
  let j := u.reelJob t.slot
  let x := u.reel (u.logicalOf p)
  let raw := u.line p (tLocal b)
  reelReady s p t kn b 0 fid && tXop b == 1 && !u.isPoisoned p (tLocal b) && leAt raw 0 2 == fid && leAt raw 8 4 == j.step &&
    !markerBad raw j.ringLines && x.marks.length != 1024 &&
    (leAt raw 2 1 == 1 || (decide (leAt raw 4 4 ≤ x.promised) && leAt raw 0x10 2 == j.ringLine x.depth &&
      decide (leAt raw 0x10 2 + leAt raw 4 4 ≤ j.ringBase + j.ringLines))) &&
    decide (x.depth + leAt raw 4 4 + leAt raw 0xC 4 ≤ x.low + j.ringLines)

/-- POP or HOLD of the frame at the top of the reel, none of which has spilled (R198). -/
def popFrame (s : State) (p : Nat) (t : Task) (kn : Kernel) (b fid : Nat) (hold : Bool) (m : Marker) (rest : List Marker) : Bool :=
  let u := transferState s p t kn b
  let x := u.reel (u.logicalOf p)
  reelReady s p t kn b (if hold then 2 else 1) fid && tXop b == 0 && decide (x.marks = m :: rest) && m.fid == fid &&
    (m.kind != 1 || x.held.isEmpty) && (!hold || (m.kind == 2 && x.held.length != 64)) &&
    decide (min x.low x.depth ≤ m.position)

/-- RELEASE of a frame that is held (R198). -/
def releaseFrame (s : State) (p : Nat) (t : Task) (kn : Kernel) (b fid : Nat) (m : Marker) : Bool :=
  let u := transferState s p t kn b
  reelReady s p t kn b 3 fid && tXop b == 0 && decide ((u.reel (u.logicalOf p)).held.find? (fun m => m.fid == fid) = some m)

/-! ## Streams, claps and the reservoir (spec/08) -/

/-- `stream_open` of a pool, whose checks all pass (R167, R186). -/
def streamOpenPool (s : State) (c : Command) : Bool := s.powered && (firstFail (s.openPoolChecks c)).isNone

/-- `stream_open` whose checks all pass (R162, R186); `id` is the stream named, or the lowest id that is not open. -/
def streamOpen (s : State) (c : Command) (id : Nat) : Bool :=
  s.powered && (firstFail (s.streamOpenChecks c)).isNone &&
    (if c.u16 2 = 0xFFFF then decide (s.idleStream = some id) else c.u16 2 == id)

/-- A stream of the command's job that is open (R187, R188). -/
def streamNamed (s : State) (c : Command) (id : Nat) : Bool :=
  decide (id < 256) && (s.stream id).isOpen && (s.stream id).slot == s.cmdSlot c.hdr

/-- `stream_run` of a stream that is neither CANCELLING nor FAULTED, with its fields in range (R187). -/
def streamRun (s : State) (c : Command) : Bool :=
  s.powered && streamNamed s c (c.u16 0) && (s.stream (c.u16 0)).phase != .cancelling && (s.stream (c.u16 0)).phase != .faulted &&
    (decide (c.u8 2 < 64) || c.u8 2 == 0xFF) && c.u32 4 != 0 && decide (c.u32 4 ≤ 16777215) &&
    (c.u16 0x10 == 0xFFFF || streamNamed s c (c.u16 0x10)) && decide (c.u16 0x12 ≤ 1024)

/-- `stream_cancel` of a stream that is not CANCELLING (R188). -/
def streamCancel (s : State) (c : Command) : Bool :=
  s.powered && streamNamed s c (c.u16 0) && (s.stream (c.u16 0)).phase != .cancelling

/-- `stream_close` of a stream that no other `stream_close` waits on (R188). -/
def streamClose (s : State) (c : Command) : Bool :=
  s.powered && c.u8 2 == 0 && streamNamed s c (c.u16 0) && (s.stream (c.u16 0)).closeCmd.isNone && c.u8 3 == 0

/-- `stream_close` of a pool that no stream uses (R188). -/
def poolClose (s : State) (c : Command) : Bool :=
  s.powered && c.u8 2 == 1 && c.u16 0 == 0 && (s.poolStreams (s.cmdSlot c.hdr) (c.u8 3)).isEmpty && decide (c.u8 3 ≤ 3) &&
    (s.pool (s.cmdSlot c.hdr) (c.u8 3)).valid

/-- `clap_set` of a clap that has no arrival, with its fields in range (R189). -/
def clapSet (s : State) (c : Command) : Bool :=
  let slot := s.cmdSlot c.hdr
  s.powered && decide (c.u8 0 ≤ 63) && decide (c.u8 1 ≤ 1) && decide (c.u16 2 ≤ 288) &&
    (s.clap slot (c.u8 0)).all (fun k => k.broken || k.arrived == 0) && decide (c.u8 4 ≤ 1) &&
    (!c.hdr.expert || (decide (10 ≤ c.u32 8) && decide (c.u32 8 ≤ 4000000))) && (c.u8 1 == 0 || (s.fjob slot).recut.isNone) &&
    ((s.clap slot (c.u8 0)).isSome || c.u16 2 == 0 || decide (s.streams.claps.length < 1024))

/-- A core has waited LIMIT_US at a clap (R183). -/
def clapLimit (s : State) (slot n : Nat) (k : Clap) : Bool :=
  s.powered && decide (s.clap slot n = some k) && !k.broken && k.waiting.any fun w => decide (w.2 + k.limitUs * 1000 ≤ s.now)

/-- A running stream whose job closes no turnout for a migration (R163, R371). -/
def streamFetching (s : State) (id stage : Nat) : Bool :=
  let x := s.stream id
  s.powered && x.isOpen && x.phase == .running && x.ending.isNone && x.sources.contains stage && !s.closing x.slot

/-- The next slot of the core is granted to this ring (R168), whose next fetch is of `iter`; `idx` is the lowest free slot. -/
def slotGranted (s : State) (id iter stage idx : Nat) : Bool :=
  let x := s.stream id
  let c := x.laneCore (iter % x.lanes)
  streamFetching s id stage && !(x.granted.any fun u => u.stage == stage && u.iter == iter && !u.filled) &&
    decide (s.freeIndex x.slot x.pool c = some idx) && decide (s.grantOne x.slot x.pool c = some (id, stage)) &&
    decide (x.nextIter (iter % x.lanes) stage = some iter)

/-- The demand iteration of a lane, all its sources filled, on a free core where the scheduler lets it run (R164, R360). -/
def streamTaskPlace (s : State) (id iter p : Nat) (r : StreamRun) (outs : List SlotUse) : Bool :=
  let x := s.stream id
  let lane := iter % x.lanes
  let c := x.laneCore lane
  let t : Task := ⟨r.cmd.hdr, 0, x.slot, x.headgate, x.kernelStage.kernel, iter, [c], 0, 0, [], .stream id iter 0, s.now⟩
  s.powered && decide (x.runs.head? = some r) && decide (s.physOf c = some p) && decide (s.outSlots x iter = some outs) &&
    x.phase == .running && x.ending.isNone && decide (r.first ≤ iter) && decide (iter < r.first + r.iterations) &&
    (x.sources.all fun k => x.granted.any fun u => u.stage == k && u.iter == iter && u.filled) &&
    x.demand lane == some iter && !(x.placed.any fun q => q.iter == iter) && s.coreFree p && s.mayRun t c &&
    (x.headgate || (s.tailwaterOk x.slot && s.turnFits t && (s.pickTask c).all fun q => !q.headgate)) &&
    (x.kernelStage.bytes == 0 || (s.vcheck x.slot x.kernelStage.addr x.kernelStage.bytes false).isNone) && !s.debugs x

/-- An output slot of an iteration whose task has ended (R166). -/
def streamStore (s : State) (id iter stage p : Nat) (q : Placed) (u : SlotUse) : Bool :=
  let x := s.stream id
  s.powered && decide (s.physOf (x.laneCore (iter % x.lanes)) = some p) &&
    decide ((x.placed.find? fun q => q.iter == iter && q.ended) = some q) && x.runs.head?.isSome &&
    decide ((q.outs.find? fun u => u.stage == stage) = some u)

/-- Lines of a WEIGHT stage that the running stream's WARM_STREAM names, or of an idle STANDBY stream (R179). -/
def warmFetch (s : State) (id iter stage : Nat) : Bool :=
  let x := s.stream id
  s.powered && x.isOpen && (x.stage stage).kind == 1 && (x.stage stage).weight && !s.closing x.slot &&
    ((x.standby && x.phase == .standby && decide (iter < x.warmIters)) ||
     s.streams.streams.any fun e => match e.2.runs.head? with
       | some r => e.2.phase == .running && r.warmStream == id && decide (r.warmFirst ≤ iter) && decide (iter < r.warmFirst + r.warmIters)
       | none => false)

/-- A ring has waited STALL_US for a grant while its pool on the core has made no progress for as long, and no CREDIT_DEADLOCK has
been reported since the last progress (R181). -/
def creditWatchdog (s : State) (id lane stage : Nat) (e : Nat × Nat) : Bool :=
  let x := s.stream id
  let last := s.streams.progress.get 0 (x.laneCore lane * 256 + poolKey x.slot x.pool)
  let w := s.fld uResv 0x040 55 40 * 1000
  s.powered && x.isOpen && x.phase == .running && decide ((x.waiting.find? fun e => e.1 == lane * 8 + stage) = some e) &&
    decide (e.2 + w ≤ s.now) && decide (last + w ≤ s.now) && x.deadlockAt.all (fun t => decide (t < last))

/-- A line of the reservoir is scrubbed, and it holds no injected error (R176). -/
def resvScrub (s : State) (line : Nat) : Bool :=
  s.powered && decide (line < 393216) && s.fld uResv 0x040 0 0 == 1 && s.diag.injected.all fun x => x.unit != uResv || x.sub != line

/-- The last discarded read of a cancelled stream has arrived (R180). -/
def streamDrained (s : State) (id : Nat) : Bool := s.powered && (s.stream id).cancelCmd.isSome && !(s.stream id).drained

/-! ## The reel's gate, and the resilience unit (spec/09, spec/16) -/

/-- A gate is pending on `c` and its condition holds (R207). -/
def gateOpens (s : State) (slot : Nat) (c : Command) : Bool :=
  s.powered && decide ((s.reelJob slot).gateCmd = some c) && (s.reelJob slot).phase == .gatePending && s.gateReady slot

/-- The limit of a pending gate has passed (R207). -/
def gateTimeout (s : State) (slot : Nat) (c : Command) : Bool :=
  s.powered && decide ((s.reelJob slot).gateCmd = some c) && (s.reelJob slot).phase == .gatePending &&
    decide ((s.reelJob slot).gateDue ≤ s.now)

/-- A slate of the log waits for its mirror, and the partner is live (R388). -/
def slateMirror (s : State) (slot step : Nat) (rest : List Nat) (b : List Byte) : Bool :=
  let r := s.rjob slot
  s.powered && decide (r.toMirror = step :: rest) && r.partner != 0xFFFF && !r.partnerLost && decide (r.slate step = some b)

/-- A freeze is held, its job is quiescent, and it has not stopped yet (R390). -/
def freezeStop (s : State) (slot : Nat) (f : Freeze) : Bool :=
  s.powered && decide ((s.rjob slot).freeze = some f) && f.stopped.isNone && s.quiescent slot f

/-- The copy of a freeze has ended: of the initial one, once its negative is complete (R390, R392). -/
def freezeResume (s : State) (slot : Nat) (f : Freeze) (t0 : Stamp) (k : Nat) : Bool :=
  s.powered && decide ((s.rjob slot).freeze = some f) && decide (f.stopped = some (t0, k)) &&
    (f.kind != 0 || (s.rjob slot).negatives.any fun n => n.step == f.step)

/-- A handshake has gone unanswered for LIMIT_MS (R395). -/
def handshakeLimit (s : State) (slot : Nat) (x : Pairing) : Bool :=
  s.powered && decide ((s.rjob slot).handshake = some x) && decide (x.sentAt + x.limitMs * 1000000 ≤ s.now)

/-- A live partner has left a block or a slate unacknowledged for PARTNER_LIMIT_MS (R398). -/
def partnerLimit (s : State) (slot : Nat) : Bool :=
  let r := s.rjob slot
  let limit := s.fld uRes 0x040 31 16 * 1000000
  s.powered && !r.partnerLost && ((r.negative.any fun n => decide (n.sentAt + limit ≤ s.now)) ||
    r.mirrorSent.any fun e => decide (e.2 + limit ≤ s.now))

/-- A load's data is complete, is of the job, step and owner asked for, and every block agrees with its index (R403). -/
def negativeLoadDone (s : State) (slot : Nat) (l : Load) (x : Snap) : Bool :=
  s.powered && decide ((s.rjob slot).load = some l) && decide (l.snap = some x) && l.complete s.fabricId &&
    x.header.jobTag == (s.job slot).tag && x.header.step == l.step && x.header.owner == l.owner &&
    (List.range x.blocks).all x.blockOk

/-- The state in which a frame has passed the link: it is the next in sequence, and it is acknowledged and counted (R326, R327). -/
def received (s : State) (f : Frame) : State :=
  let x := s.port f.port
  (s.setPort f.port { x with
    rxSeq := (x.rxSeq + 1) % 4096, ackDue := true, nackDue := none, toGrant := x.toGrant + wireBytes f.packet }).bump
    (uLink f.port) 0x038 63 0 f.packet.payload.length

/-- A good frame, next in sequence, at a port that is UP (or RECUTTING), whose packet is for this device (R326-R328). -/
def packetHere (s : State) (f : Frame) (type : Nat) : Bool :=
  let x := s.port f.port
  s.powered && f.packet.type == type && decide (f.port < 16) && (x.phase == .up || x.phase == .recutting) && f.fecOk &&
    packetCrc f.packet == f.packet.crc && f.linkSeq == x.rxSeq && f.packet.dst == (received s f).fabricId

/-- Such a packet of the job in a slot, not accepted before (R328). -/
def packetFor (s : State) (f : Frame) (type slot : Nat) : Bool :=
  packetHere s f type && decide ((received s f).slotOf f.packet.jobTag = some slot) && !((received s f).fjob slot).seen f.packet

/-- The state in which a BULK packet's message means something (R393). -/
def bulkState (s : State) (f : Frame) (slot : Nat) : State := (received s f).acceptPacket slot f.packet

/-! ## Memory, maps, the far tier, key-value pages (spec/11, spec/12) -/

/-- What an edit of a map or of a sequence's pages does, by its effect on the tables: it waits while a sequence that it edits is
walked; otherwise it is done, and where a valid leaf went or changed the command ends with the shootdown (R258, R294, R296). -/
def edited (s : State) (c : Command) (slot : Nat) (r : Result) : Prop :=
  ∀ t o, s.editEffect c slot = .ok (t, o) →
    (s.editWaits slot (s.editRanges c) s.attn.held = true →
      r = .next ({ s with attn := { s.attn with held := s.attn.held ++ [({ cmd := c, slot := slot, ranges := s.editRanges c } : HeldEdit)] } }.defer c 0x0701
        (t.editResult slot o true 0))) ∧
    (s.editWaits slot (s.editRanges c) s.attn.held = false → o.shoot = false →
      r = .next (t.finish c stOk 0 (t.editResult slot o false 0))) ∧
    (s.editWaits slot (s.editRanges c) s.attn.held = false → o.shoot = true →
      (c.hdr.opcode = 0x1002 → c.ex (c.u8 0x21) 0 = 0) →
      r = .next (t.startShoot ⟨some c, slot, o.kind, o.changed, o.pages, false⟩))

/-- No other command of the job runs (R270). -/
def mapUnused (s : State) (slot : Nat) (d : Command) : Bool :=
  s.powered && decide ((s.map slot).destroyCmd = some d) &&
    !((s.jobQueues (s.job slot).tag).any fun q => (s.queue q).running.any fun c => !decide (c.hdr = d.hdr))

/-- A shootdown is under way, and which. -/
def shooting (s : State) (i : Nat) (x : Shoot) : Bool := s.powered && decide (s.memory.shoots[i]? = some x)

/-- A controller that scrubs reads one of its granules, which holds no injected error (R250). -/
def scrubbed (s : State) (u addr : Nat) : Bool :=
  s.powered && controllerOf addr == some u && s.fld u 0x040 0 0 == 1 &&
    s.diag.injected.all fun x => x.unit != u || x.addr / 64 != addr / 64

/-- The first move of a channel, and the chunk that it copies (R261). -/
def chunkCopied (s : State) (ch : Nat) (m : FarMove) (k : Nat) : Bool :=
  s.powered && decide (s.memory.moves.find? (fun m => m.channel == ch) = some m) && decide (m.left.head? = some k)

/-- A channel's bring-up is under way for a command (R264, R275). -/
def bringingUp (s : State) (ch : Nat) (c : Command) : Bool :=
  s.powered && decide ((s.memory.bringups.find? fun b => b.1 == ch) = some (ch, c))

/-- A slot's enable has been 0 for 60 ms, and SLOT_POWER still reads 1 (R505). -/
def slotFalls (s : State) (ch : Nat) : Bool :=
  s.powered && s.pins.farSlotEn.get 0 ch == 0 && s.pins.slotPower.get 0 ch == 1 &&
    decide (s.pins.slotOffAt.get 0 ch + 60 * msec ≤ s.now)

/-- A run's task on a core awaits its next tile, and every line of the ring slot is empty (R279). -/
def tileDue (s : State) (p : Nat) (t : Task) (x : AttnRun) (base : Nat) (mask : Bool) : Bool :=
  let q := s.kvSeq x.seq
  let k := x.sent.get 0 t.index
  s.powered && decide ((s.core p).task = some t) && decide (t.kind = .attn x.order) && decide (s.attnRun x.order = some x) &&
    decide ((x.tiles (t.index % x.queryTiles))[k]? = some (base, mask)) &&
    ((List.range q.slotLines).all fun i => !s.isFull p (x.ringLine + k % x.ringSlots * q.slotLines + i))

/-- A sequence is at a kernel boundary, and an edit of it is pending (R294). -/
def editDue (s : State) (id : Nat) : Bool :=
  s.powered && (s.kvSeq id).valid && (s.kvSeq id).walkers.isEmpty && s.editPending (s.kvSeq id)

/-! ## The Flume engines (spec/13) -/

/-- A channel in a phase. -/
def flumePhase (s : State) (e n : Nat) (p : FlumePhase) : Bool :=
  s.powered && decide (n < 16) && (s.channel (flumeKey e n)).phase == p

/-- The descriptor that a channel reads is in memory, not poisoned, with OWN set, and nothing was read ahead (R306, R316). -/
def ownedDescriptor (s : State) (k : Nat) (b : List Byte) : Prop :=
  (s.channel k).ahead = none ∧ s.vread ((s.channel k).owner.getD 0) (s.channel k).desc 64 = .ok (b, false) ∧
    bitAt (leAt b 0x38 8) 63 = true

/-- A legal descriptor that waits for no event, and whose windows are open (R307, R310, R312). -/
def runnable (s : State) (k : Nat) (b : List Byte) : Prop :=
  let slot := (s.channel k).owner.getD 0
  let d := parseDescriptor b
  s.descriptorBad slot d = none ∧ s.descriptorWindow slot d = none ∧
    (d.waitEvent = 0xFFFF ∨ waitMet (s.eventSource d.waitEvent).2 d.waitValue = true) ∧
    (s.closing slot = false ∨ isWindow d.dst = false)

/-- A channel whose command runs a descriptor of an OP. -/
def running (s : State) (e n op : Nat) : Bool :=
  flumePhase s e n .moving && !(s.channel (flumeKey e n)).discarding && (s.channel (flumeKey e n)).cmd.isSome &&
    (parseDescriptor (s.channel (flumeKey e n)).held).op == op

/-- A descriptor that has moved its data waits for its write-back (R306). -/
def writeBackDue (s : State) (e n : Nat) : Bool :=
  flumePhase s e n .draining && !(s.channel (flumeKey e n)).discarding && (s.channel (flumeKey e n)).cmd.isSome

/-- A period of a timer has passed (R313). -/
def timerDue (s : State) (t : Nat) : Bool :=
  s.powered && decide (t < 16) && (s.timer t).period != 0 && decide ((s.timer t).nextAt ≤ s.now)

/-! ## The fabric (spec/14) -/

/-- A port in a phase. -/
def portIn (s : State) (p : Nat) (ph : PortPhase) : Bool := s.powered && decide (p < 16) && (s.port p).phase == ph

/-- A link control frame is due: an acknowledgement or a NACK waits, or 1 µs has passed since the last (R326). -/
def lcfDue (s : State) (p : Nat) : Bool :=
  let x := s.port p
  s.powered && decide (p < 16) && (x.phase == .up || x.phase == .recutting || x.phase == .miswired) &&
    (x.ackDue || x.nackDue.isSome || decide (x.lastLcf + usec ≤ s.now))

/-- A DOWN port with light that may train, and whose second has passed (R330). -/
def retryDue (s : State) (p : Nat) : Bool :=
  portIn s p .down && (s.port p).light && s.fld (uLink p) 0x040 0 0 == 1 && decide ((s.port p).downSince + 1000 * msec ≤ s.now)

/-- The record at an address is readable and not poisoned (R251, R338). -/
def record (s : State) (slot va n : Nat) (b : List Byte) : Prop := s.vread slot va n = .ok (b, false)

/-- A layout record of an epoch that is legal and names this device (Table 14.4, R334); and the state in which it has been read. -/
def layoutRead (s : State) (slot va epoch : Nat) (l : Layout) (u : State) : Prop :=
  ∃ h b, record s slot va 0x90 h ∧ leAt h 8 4 ≤ 65536 ∧
    record (s.vtouch slot va 0x90) slot va (0x90 + 2 * leAt h 8 4) b ∧
    u = (s.vtouch slot va 0x90).vtouch slot va (0x90 + 2 * leAt h 8 4) ∧ parseLayout b epoch u.fabricId = some l

/-- An operation has passed its limit with data missing (R343). -/
def collectiveLate (s : State) (slot : Nat) (gather : Bool) (id : Nat) (c : Collective) : Bool :=
  s.powered && decide (s.collective slot gather id = some c) && decide (c.limitAt ≤ s.now) && !(c.missing s.fabricId).isEmpty

/-- A job drains for a recut, and nothing of its epoch is active (R336). -/
def drained (s : State) (slot : Nat) : Bool :=
  s.powered && (s.fjob slot).fstate == .draining && (s.fjob slot).recut.isSome && s.activeCount slot == 0 &&
    (s.reelJob slot).aborting.isNone

/-- A changed port of a released recut may go dark (R339). -/
def darkDue (s : State) (p j : Nat) (r : Recut) : Bool :=
  s.powered && decide (s.recutOf p = some (j, r)) && (s.port p).phase == .recutting && !r.dark.contains p &&
    decide (r.switchTc ≤ s.now) && (s.port p).unacked.isEmpty

/-- A dark port sees the peer that the new map names (R336). -/
def relocks (s : State) (p j : Nat) (r : Recut) (peer peerPort : Nat) : Bool :=
  s.powered && decide (s.recutOf p = some (j, r)) && (s.port p).phase == .recutting && r.dark.contains p &&
    (peer, peerPort) == s.activeEntry p

/-- A recut has passed its limit (R336, R338). -/
def recutLate (s : State) (slot : Nat) (r : Recut) : Bool :=
  s.powered && decide ((s.fjob slot).recut = some r) && decide (r.limitAt ≤ s.now)

/-! ## Jobs and the scheduler (spec/15) -/

/-- A destroyed job has nothing left in progress (R378). -/
def tornDown (s : State) (slot : Nat) (c : Command) : Bool :=
  s.powered && decide ((s.job slot).destroyCmd = some c) && (s.job slot).phase == .destroying && !s.jobBusy slot &&
    (c.u8 4 == 1 || (s.reelJob slot).gateCmd.isNone)

/-- An allotment's turn is over, or none runs, and a job is there to take the next (R368). -/
def turnOver (s : State) (a j : Nat) : Bool :=
  let al := s.sched.allotments.get {} a
  let jobs := s.turnJobs a
  let ready (j : Nat) : Bool := !al.emptyYield || s.tailwaterReady j
  s.powered && s.sched.allotmentMode && al.valid && al.turnUs != 0 &&
    decide (((jobs.filter fun j => al.turnJob < j) ++ jobs.filter fun j => j ≤ al.turnJob).find? ready = some j) &&
    (!al.turnActive || decide (al.turnStart + al.turnUs * usec ≤ s.now))

/-- What a migration waits for before it closes turnouts is over (R371 step 1). -/
def movesNow (s : State) (slot : Nat) (m : Migration) : Bool :=
  s.powered && decide ((s.job slot).migration = some m) && m.closing && s.moveReady slot m

/-! ## Errors, screens and repair (spec/17) -/

/-- A screen test has run for its time (Table 17.4). -/
def tested (s : State) (unit sub type : Nat) (t : Screen) : Bool :=
  s.powered && decide (s.diag.screens.find? (fun t => t.unit == unit && t.sub == sub && t.type == type) = some t) && t.running &&
    decide (t.startedAt + testNs type ≤ s.now)

/-- The sweep of a free logical core is due (R421). -/
def sweepDue (s : State) (c a p : Nat) : Bool :=
  let every := s.fld uDiag 0x050 63 32
  s.powered && decide (s.allotmentOf c = some a) && decide (s.physOf c = some p) && every != 0 &&
    decide (s.diag.lastSweep.get 0 c + every * 1000 * msec ≤ s.now) && s.coreFree p && (s.pickTask c).isNone &&
    decide (2 ≤ (s.freeCores a).length)

/-- A control core has not reported for 10 ms (R431). -/
def heartbeatLost (s : State) (n : Nat) : Bool :=
  s.powered && decide (n < 4) && bitAt s.power.alive n && decide (s.diag.lastReport.get 0 n + 10 * msec ≤ s.now)

/-! ## Power, pins and bring-up (spec/18, spec/19, spec/21) -/

/-- The conditions of R450 under which the gaffer lowers the operating point. -/
def mustLower (s : State) : Bool :=
  let p := s.power
  decide (p.excursionUs + 2000 ≥ p.peakMs * 1000) || decide (s.projected > p.tdpW) || decide (p.cmpC ≥ s.fld uGaffer 0x040 63 56)

/-- The conditions of R450 under which it raises it. -/
def mayRaise (s : State) : Bool :=
  let p := s.power
  !mustLower s && decide (p.point > 0) && p.pendingPoint == none && p.excursionUs == 0 &&
    (match p.lastExcursion with | some t => decide (t + 100 * msec ≤ s.now) | none => true) &&
    decide (p.cmpC + 5 < s.fld uGaffer 0x040 63 56) && decide (p.predict (p.point - 1) + 20 ≤ p.tdpW)

/-- The device rests in RUN with AUTO_DOZE set, and nothing has kept it from DOZE for DOZE_HOLD_US (R443). -/
def dozeDue (s : State) : Bool :=
  s.powered && s.power.dstate == .run && !s.power.moving && s.fld uWmaster 0x040 0 0 == 1 && s.quiet &&
    decide (s.power.lastActive + s.fld uWmaster 0x040 63 32 * usec ≤ s.now)

/-- A function that is ready and may stop being usable by itself (R65). -/
def functionStops (s : State) (b : Nat) : Bool :=
  s.powered && bitAt s.xanca.ready b && decide (b ≤ 35) && b != 0 && b != 1 && b != 12 && b != 32

/-! ## The host port and media intake (spec/20) -/

/-- The port is up and a queue pair is connected (R480). -/
def connected (s : State) (n : Nat) (q : QueuePair) : Bool :=
  s.powered && s.hostUp && decide (s.qp n = some q) && q.connected

/-- The state in which a request of a queue pair has been received; a congestion mark is answered (R443, R481). -/
def requested (s : State) (bytes : Nat) (ecn : Bool) (q : QueuePair) : State :=
  let u := (s.rxBytes bytes).dozeExit 2
  if ecn then u.emit (.network 9 [q.hostAddr, q.hostQpn]) else u

/-- A REQ that no CODE of R480 turns away. -/
def connects (s : State) (r : CmReq) : Bool :=
  let tag := leAt r.privateData 0 4
  let n := leAt r.privateData 4 2
  s.powered && s.hostUp && (s.session n).isOpen && decide ((s.session n).addr = r.src) &&
    (s.umauth.queues.any fun e =>
      decide (1 ≤ e.1) && decide (e.1 < 4096) && e.2.phase != .unbound && e.2.session == n && e.2.jobTag == tag) &&
    (s.slotOf tag).isSome && decide ((s.rxBytes r.privateData.length).fld uHostport 0x040 0 0 ≠ 0) &&
    decide (leAt r.privateData 16 4 ≤ 4096) && decide (leAt r.privateData 6 2 = 0) && decide (leAt r.privateData 20 4 = 0) &&
    decide (s.qpCount < 1024)

/-- The decode that runs on an engine, whose outcome fits its CHANNEL_STRIDE (R487). -/
def decoded (s : State) (e : Nat) (r : DecodeOutcome) (d : Decode) (rest : List Decode) : Bool :=
  s.powered && decide (s.decodes e = d :: rest) &&
    r.frames.all fun f => decide (f.planes.length * (if d.cmd.u8 2 = 0 then 4 else 2) ≤ d.cmd.u16 4)

end Normal

end Sys2Proof
end

