-- ==== Sys2Proof/Certificates/Slice0/Obligations.lean ====
section
/-! DEFINITION. The statements for the provers. A completion statement says, for states and operands that meet a condition of
`Normal`, that `exec` answers a next state and what it holds. -/

open Sys2Proof Sys2Proof.Machine

/-- A step takes the command at the front of the queue and runs it on the state with the queue's rest (the model's form of a
command sent from outside; notes/assumptions/5.md). -/
def Obligations.StepRunsFront : Prop :=
  (∀ (s : State) c rest, s.pending = c :: rest → step s = exec c { s with pending := rest }) ∧
  ∀ (s : State) c, step { s with pending := c :: s.pending } = exec c s

/-- With no command waiting, a step is a tick of the NS counter (the model's choice, notes/assumptions/6.md): without power it
stands; before the TIME PLL runs it moves on by 40 ns; with it, by 0 to 2 ns as the rate correction has it, and by 1 ns where
there is none (R74, R81).
The model's readings that this rests on are log entries of notes/assumptions (spec/04: 32 to 38). -/
def Obligations.EmptyQueueTicks : Prop :=
  (∀ s : State, s.pending = [] → step s = .next s.idle) ∧
  (∀ s : State, s.powered = false → s.idle.now = s.now) ∧
  (∀ s : State, s.powered = true → s.timecode.phase ≠ .unlocked → s.timecode.timePll = false → s.idle.now = s.now + 40) ∧
  (∀ s : State, s.powered = true → s.timecode.phase ≠ .unlocked → s.timecode.timePll = true →
    s.now ≤ s.idle.now ∧ s.idle.now ≤ s.now + 2) ∧
  (∀ s : State, s.powered = true → s.timecode.phase ≠ .unlocked → s.timecode.timePll = true → s.timecode.ratePpb = 0 →
    s.timecode.fraction = 0 → s.idle.now = s.now + 1)

/-- The state before any power-good: sound, nothing waiting and nothing sent, no power, the boot ROM's phase with no firmware
verified (R460, R464), GENERATION even (R59).
The model's readings that this rests on are log entries of notes/assumptions (spec/03: 22 to 31; spec/19: 230 to 251). -/
def Obligations.ResetIsSound : Prop :=
  State.reset.Sound ∧ State.reset.queueWf ∧ State.reset.pending = [] ∧ State.reset.outputs = [] ∧ State.reset.powered = false ∧
  State.reset.security.committed = false ∧ State.reset.security.phase = .rom ∧ State.reset.pins.faultN = true

/-- R9: at reset every single register field whose value the Reset column gives (not the configuration record) reads as the column
has it, in every unit of its type.
The model's readings that this rests on are log entries of notes/assumptions (spec/00: 1 to 6). -/
def Obligations.RegistersAtReset : Prop :=
  ∀ u < 704, ∀ f ∈ typeFields (unitType u), f.cfg = false → f.count = 1 → State.reset.fld u f.off f.hi f.lo = f.reset

/-- Every command answers a next state in every state: nothing that the host, a peer or a pin does stops the model by a fault or a
refusal. -/
def Obligations.EveryCommandAnswers : Prop :=
  (∀ c s, ∃ t, exec c s = .next t) ∧ ∀ s, ∃ t, step s = .next t

/-- Commands are taken first in, first out, and none puts another into the queue; what has been sent stays sent. -/
def Obligations.QueueFirstInFirstOut : Prop :=
  ∀ s t : State, step s = .next t → t.pending = s.pending.tail ∧ s.outputs <+: t.outputs ∧ s.freshCount ≤ t.freshCount

/-- R59: from every sound state a step leads to a sound state. The Xanca table is stable (GENERATION even) after every command,
and the two tiers and the scratchpads keep their canonical form.
The model's readings that this rests on are log entries of notes/assumptions (spec/03: 22 to 31). -/
def Obligations.StepKeepsSound : Prop :=
  ∀ s t : State, s.Sound → step s = .next t → t.Sound

/-- R499, R503: without power every command but power-good, its fall and the test access port's leaves the device as it is.
The model's readings that this rests on are log entries of notes/assumptions (spec/21: 269 to 277). -/
def Obligations.UnpoweredStands : Prop :=
  ∀ c (s : State), s.powered = false → Normal.takenUnpowered c = false → exec c s = .next s

/-- The frame of the commands that store nothing: every byte and poison mark of the two tiers, and every byte and both tags of every
scratchpad line, read after as before. -/
def Obligations.StoresNothingFrame : Prop :=
  ∀ c (s t : State), Normal.storesNothing c = true → exec c s = .next t →
    (∀ a, t.memory.bytes.get 0 a = s.memory.bytes.get 0 a) ∧ (∀ g, t.memory.poison.get false g = s.memory.poison.get false g) ∧
    (∀ p l, t.line p l = s.line p l ∧ t.isFull p l = s.isFull p l ∧ t.isPoisoned p l = s.isPoisoned p l)

/-- R464, R465: firmware starts only by a `firmware_load` COMMIT whose assembled image passes every check of the ROM; no other
step makes a device's firmware count as verified.
The model's readings that this rests on are log entries of notes/assumptions (spec/19: 230 to 251). -/
def Obligations.FirmwareStartsOnlyVerified : Prop :=
  ∀ s t : State, step s = .next t → t.security.committed = true → s.security.committed = true ∨
    ∃ c rest, s.pending = .firmwareLoadCommit c :: rest ∧
      verifyImage s.security.image s.security.imageLen s.minSvn = none

/-- R469, R470: no step brings a used leaf of the identity key back. Only a rollover that succeeded changes the key: it raises
KEY_GEN by one, begins its leaves and adds one item to the chain; every other step keeps key and chain, and the next leaf never
falls.
The model's readings that this rests on are log entries of notes/assumptions (spec/19: 230 to 251). -/
def Obligations.LeavesNeverReused : Prop :=
  ∀ s t : State, step s = .next t →
    (t.security.keyGen = s.security.keyGen ∧ s.security.nextIndex ≤ t.security.nextIndex ∧
      t.security.chain = s.security.chain) ∨
    (∃ rest, s.pending = .keyRolled true :: rest) ∧ t.security.keyGen = s.security.keyGen + 1 ∧ t.security.nextIndex = 0 ∧
      ∃ x, t.security.chain = s.security.chain ++ [x]

/-- R474: only `config_write` HOST_KEY changes the host key.
The model's readings that this rests on are log entries of notes/assumptions (spec/19: 230 to 251). -/
def Obligations.HostKeyOnlyByConfigWrite : Prop :=
  ∀ s t : State, step s = .next t → t.security.hostKey = s.security.hostKey ∨
    ∃ c rest, s.pending = .configWriteHostKey c :: rest

/-- R128: a remote write of lines `first` to `first + n - 1` travels as packets of 1 to 4 consecutive lines, each within one
512-byte-aligned block (4 lines), and together they carry every line once, in order.
The model's readings that this rests on are log entries of notes/assumptions (spec/06: 61 to 73). -/
def Obligations.RemoteWritePackets : Prop :=
  ∀ first n : Nat,
    ((packets first n).flatMap fun p => (List.range p.2).map (p.1 + ·)) = (List.range n).map (first + ·) ∧
    ∀ p ∈ packets first n, 1 ≤ p.2 ∧ p.2 ≤ 4 ∧ p.1 / 4 = (p.1 + p.2 - 1) / 4

/-- A store to one side of a tier whose unit is present: the bytes read back, every other byte and the poison of every granule that
the range does not touch stay; a granule covered whole takes the poison of the data (R249, R251).
The model's readings that this rests on are log entries of notes/assumptions (spec/11: 116 to 134). -/
def Obligations.TierReadAfterWrite : Prop :=
  ∀ (s : State) pa (data : List Byte) (poison : Bool), s.dead pa = false →
    let t := s.writeRaw pa data poison
    t.rawBytes pa data.length = data ∧
    (∀ a, a < pa ∨ pa + data.length ≤ a → t.memory.bytes.get 0 a = s.memory.bytes.get 0 a) ∧
    (∀ g, pa ≤ 64 * g → 64 * g + 64 ≤ pa + data.length → t.memory.poison.get false g = poison) ∧
    (∀ g, 64 * g + 64 ≤ pa ∨ pa + data.length ≤ 64 * g → t.memory.poison.get false g = s.memory.poison.get false g)

/-- R120: a store to a line of a scratchpad: the line reads as the data, F is set and P is that of the data; every other line of
every core, and its tags, are as before.
The model's readings that this rests on are log entries of notes/assumptions (spec/06: 61 to 73). -/
def Obligations.ScratchpadReadAfterWrite : Prop :=
  ∀ (s : State) p l (data : List Byte) (poison : Bool), l < 24576 → data.length = 128 →
    let t := s.storeLine p l data poison
    t.line p l = data ∧ t.isFull p l = true ∧ t.isPoisoned p l = poison ∧
    ∀ p' l', l' < 24576 → (p', l') ≠ (p, l) →
      t.line p' l' = s.line p' l' ∧ t.isFull p' l' = s.isFull p' l' ∧ t.isPoisoned p' l' = s.isPoisoned p' l'

/-- R37, R38: a command whose parameter checks fail is answered with the status and DETAIL of the first that fails, and has no other
effect.
The model's readings that this rests on are log entries of notes/assumptions (spec/02: 7 to 21). -/
def Obligations.FirstFailedCheckAnswers : Prop :=
  ∀ i (s : State) c l st d, s.powered = true → Normal.checksOf s i = some (c, l) → firstFail l = some (st, d) →
    exec i s = .next (s.finish c st d [])

/-- R43: with NOTIFY clear, a completion with ST_OK produces no reply: nothing is sent and no queue retains a message for it. A
completion with any other status, and a deferral, always posts its reply, and a record that follows up a command is posted whatever
its NOTIFY; what is posted joins the retained messages of the command's queue (of a Q0 command: while its session is open, R49). -/
def Obligations.ReplyRule : Prop :=
  (∀ (s : State) c d r, c.hdr.notify = false → (s.finish c stOk d r).outputs = s.outputs ∧
    ∀ k, ((s.finish c stOk d r).queue k).retained = (s.queue k).retained) ∧
  (∀ (s : State) c st d r, st ≠ stOk →
    s.finish c st d r = ((s.post c.hdr (s.replyMsg c.hdr st d r)).complete c.hdr).damagedBy c.hdr st) ∧
  (∀ (s : State) c d r, s.defer c d r = s.post c.hdr (s.replyMsg c.hdr stDeferred d r)) ∧
  (∀ (s : State) h type st body, s.recordCmd h type st body = s.post h (s.cmdRecord h type st body)) ∧
  (∀ (s : State) h m, s.orphaned h = false → ∃ mid tc,
    ((s.post h m).queue h.qkey).retained = (s.queue h.qkey).retained ++ [(mid, { m with doneTc := tc })])

/-- R102: with at most two rows of an engine retired, logical row r sits on the (r + 1)-th physical row, in ascending order, that
is not retired; its trim is floor(p/16) − floor(r/16), which is 0 or 1; the rows left above the 128th are the unused spares. -/
def Obligations.SpareRows : Prop :=
  ∀ retired : List Nat, retired.Nodup → retired.length ≤ 2 → (∀ p ∈ retired, p < 130) →
    (liveRows retired).length = 128 + (2 - retired.length) ∧
    ∀ r < 128, let p := (liveRows retired).getD r 0
      p < 130 ∧ p ∉ retired ∧ ((List.range p).filter fun q => !retired.contains q).length = r ∧
      r / 16 ≤ p / 16 ∧ p / 16 - r / 16 = b2n (trimOn retired r)

/-- R64: after a member's STATE has changed, an aggregate bit (12 HBM, 32 FAR) is set exactly where at least one member is ACTIVE and
every ACTIVE member is ready; members that are RETIRED or OFFLINE do not count. -/
def Obligations.AggregateBits : Prop :=
  ∀ s : State,
    (bitAt s.csRecompute.xanca.ready 12 = true ↔
      (∃ k < 4, s.active (uHbm k) = true) ∧ ∀ k < 4, s.active (uHbm k) = true → bitAt s.xanca.ready (16 + k) = true) ∧
    (bitAt s.csRecompute.xanca.ready 32 = true ↔
      (∃ k < 12, s.active (uFar k) = true) ∧ ∀ k < 12, s.active (uFar k) = true → bitAt s.xanca.ready (20 + k) = true)

/-- R513: `queue_unbind`, `queue_attach`, `queue_status` and `queue_flush` take any queue from 1 to 4,095 that is bound or being
unbound, whichever session owns it, and answer any other QUEUE_ID with ST_BAD_PARAM, DETAIL 0x0020, and no effect. (A second
`queue_unbind` is refused by R34, and QUEUE_ID 0 of `queue_status` names the session's Q0.) -/
def Obligations.QueueNames : Prop :=
  (∀ (s : State) c, s.powered = true → s.queueNamed (c.u16 0) = false →
    exec (.queueUnbind c) s = .next (s.finish c stBadParam 0x20 []) ∧
    exec (.queueAttach c) s = .next (s.finish c stBadParam 0x20 []) ∧
    exec (.queueFlush c) s = .next (s.finish c stBadParam 0x20 []) ∧
    (c.u16 0 ≠ 0 → exec (.queueStatus c) s = .next (s.finish c stBadParam 0x20 []))) ∧
  (∀ (s : State) k, s.queueNamed k = true ↔ 1 ≤ k ∧ k ≤ 4095 ∧ (s.queue k).phase ≠ .unbound) ∧
  (∀ (s : State) c, s.powered = true → s.queueNamed (c.u16 0) = true →
    exec (.queueStatus c) s = .next (s.finish c stOk 0 ((s.queue (c.u16 0)).status false)) ∧
    exec (.queueFlush c) s = .next ((s.flushQueue (c.u16 0)).finish c stOk 0 (le 4 (s.queue (c.u16 0)).admitted.length ++ le 4 0)))

/-- The frame of the commands that only answer what the device holds (R52, R60, R434, R492): nothing changes but the transport with
its retained replies, what is sent, the error log's marks of what has been returned, and the damage mark of R428.
The model's readings that this rests on are log entries of notes/assumptions (spec/02: 7 to 21; spec/03: 22 to 31; spec/17: 204 to 217; spec/20: 252 to 268). -/
def Obligations.ReadsOnlyFrame : Prop :=
  ∀ c (s t : State), Normal.readsOnly c = true → exec c s = .next t →
    t = { s with umauth := t.umauth, diag := t.diag, outputs := t.outputs, freshCount := t.freshCount }

/-- R29, R31, R46, R47, R462: what each kind of datagram does on a session that is open (an OPEN: on a device with a free session
number). The state that the datagram is taken in is that after it has been counted and heard: silence timer, ACK, WINDOW.
The model's readings that this rests on are log entries of notes/assumptions (spec/02: 7 to 21; spec/19: 230 to 251). -/
def Obligations.DatagramsComplete : Prop :=
  (∀ s d ms, Normal.dataInOrder s d = true →
    let s1 := (s.rxBytes d.length).heard d
    let x := s1.session d.session
    exec (.data d ms) s = .next (((s1.setSession d.session { x with
      ack := d.tseq, rxBusy := x.rxBusy + 1 }).deliverAll d.session ms).sendAck d.session)) ∧
  (∀ s d ms, Normal.dataAhead s d = true →
    let s1 := (s.rxBytes d.length).heard d
    let x := s1.session d.session
    exec (.data d ms) s = .next ((s1.setSession d.session { x with
      buffered := x.buffered ++ [⟨d.tseq, ms⟩] }).sendAck d.session)) ∧
  (∀ s d, Normal.datagram s d 0x02 = true → exec (.ack d) s = .next ((s.rxBytes d.length).heard d)) ∧
  (∀ s d b, Normal.datagram s d 0x03 = true →
    let s1 := (s.rxBytes d.length).heard d
    let named := (s1.session d.session).unacked.filter fun u =>
      1 ≤ steps d.ack u.tseq && steps d.ack u.tseq ≤ 64 && bitAt b (steps d.ack u.tseq - 1)
    exec (.nack d b) s = .next (named.foldl (fun s u => s.sendDatagram d.session 0x01 u.tseq [] (some u.msg)) s1)) ∧
  (∀ s d, Normal.datagram s d 0x08 = true → exec (.keepalive d) s = .next ((s.rxBytes d.length).heard d)) ∧
  (∀ s d, Normal.datagram s d 0x07 = true →
    exec (.close d) s = .next ((s.rxBytes d.length).endSession d.session true)) ∧
  (∀ s d cred, Normal.openSession s d cred = true →
    let s1 := s.rxBytes d.length
    exec (.openSession d cred) s = .next (State.openOn { s1 with
      security := { s1.security with nonces := (leAt cred.bytes 8 8 :: s1.security.nonces).take 1024 } } d))

/-- R30, R31, R46: the timers of the transport. A session that is lost is closed, and SESSION_LOST names it; a retransmission
carries the original TSEQ and message and counts.
The model's readings that this rests on are log entries of notes/assumptions (spec/02: 7 to 21). -/
def Obligations.TransportTimersComplete : Prop :=
  (∀ s n q u, Normal.timedRetransmission s n q u = true →
    exec (.timedRetransmission n q) s = .next ((s.setSession n { s.session n with
      unacked := (s.session n).unacked.map fun v => if v.tseq = q then { v with timed := v.timed + 1 } else v
      }).sendDatagram n 0x01 q [] (some u.msg))) ∧
  (∀ s n q, Normal.retransmitExhausted s n q = true →
    exec (.retransmitExhausted n q) s = .next (s.endSession n true)) ∧
  (∀ s n, Normal.silence s n = true → exec (.sessionSilenceTimeout n) s = .next (s.endSession n true)) ∧
  (∀ s n b, Normal.windowReopen s n b = true →
    ∃ t, exec (.windowReopen n b) s = .next t ∧ t.session n = { s.session n with rxBusy := (s.session n).rxBusy - b } ∧
      t.outputs.length = s.outputs.length + (if (s.session n).window = 0 then 1 else 0))

/-- R32-R35, R40, R50, R513, R52: the queue commands, dispatch and `nop`.
The model's readings that this rests on are log entries of notes/assumptions (spec/02: 7 to 21). -/
def Obligations.QueueCommandsComplete : Prop :=
  (∀ s c, Normal.queueBind s c = true →
    ∃ u : State, exec (.queueBind c) s = .next (u.finish c stOk 0
        (le 2 (c.u16 0) ++ le 2 (if c.u16 8 = 0 then 64 else c.u16 8) ++ le 4 u.poolFree)) ∧
      (u.queue (c.u16 0)).phase = .bound ∧ (u.queue (c.u16 0)).headgate = (c.u8 2 == 1) ∧
      (u.queue (c.u16 0)).jobTag = c.u32 4 ∧ (u.queue (c.u16 0)).allotment = c.u8 3 ∧
      (u.queue (c.u16 0)).depth = (if c.u16 8 = 0 then 64 else c.u16 8) ∧ (u.queue (c.u16 0)).expSeq = 0 ∧
      (u.queue (c.u16 0)).session = (if c.u16 0xA = 0 then c.hdr.session else c.u16 0xA)) ∧
  (∀ s c, Normal.queueUnbind s c = true →
    let s1 := if c.u8 2 = 1 then s.flushQueue (c.u16 0) else s
    let q := s1.queue (c.u16 0)
    exec (.queueUnbind c) s = .next
      (if q.admitted.isEmpty && q.running.isEmpty && q.retained.isEmpty then (s1.setQueue (c.u16 0) {}).finish c stOk 0 []
       else (s1.setQueue (c.u16 0) { q with phase := .draining, unbindCmd := some c }).defer c 0 [])) ∧
  (∀ s q, Normal.queueDrained s q = true →
    exec (.queueDrained q) s = .next (match (s.queue q).unbindCmd with
      | none => s.setQueue q {}
      | some u => ((s.setQueue q {}).recordCmd u.hdr 0x0002 stOk (le 2 q ++ le 6 0)).deferredDone u.hdr stOk 0)) ∧
  (∀ s c, Normal.queueAttach s c = true →
    ∃ u : State, exec (.queueAttach c) s = .next (u.finish c stOk 0 (le 4 (s.queue (c.u16 0)).retained.length ++ le 4 0)) ∧
      u.queue (c.u16 0) = { s.queue (c.u16 0) with session := if c.u16 2 = 0 then c.hdr.session else c.u16 2 }) ∧
  (∀ s c, Normal.queueStatus s c = true →
    exec (.queueStatus c) s = .next (s.finish c stOk 0 (if c.u16 0 = 0 then (s.queue (q0Key c.hdr.session)).status true
      else (s.queue (c.u16 0)).status false))) ∧
  (∀ s c, Normal.queueFlush s c = true →
    exec (.queueFlush c) s = .next ((s.flushQueue (c.u16 0)).finish c stOk 0
      (le 4 (s.queue (c.u16 0)).admitted.length ++ le 4 0))) ∧
  (∀ s c, s.powered = true → exec (.nop c) s = .next (s.finish c stOk 0 [])) ∧
  (∀ s q c, Normal.dispatch s q c = true →
    ∃ t, exec (.commandDispatch q) s = .next t ∧ (t.queue q).admitted = (s.queue q).admitted.tail ∧
      (t.queue q).running = (s.queue q).running ++ [c] ∧ (t.queue q).lastDispatch = s.now)

/-- R63, R71, R72, R6, R7: the table, the call sheet and the registers.
The model's readings that this rests on are log entries of notes/assumptions (spec/00: 1 to 6; spec/03: 22 to 31). -/
def Obligations.DiscoveryComplete : Prop :=
  (∀ s c, Normal.xancaRead s c = true →
    exec (.xancaRead c) s = .next (s.finish c stOk 0 (le 8 s.xanca.generation ++
      (if c.ex (c.u8 8) 0 = 0 then s.entries (if c.u16 0 = 0 then s.tableCrc else 0) (c.u16 0) (c.u16 2)
       else (List.range (c.u16 0x10)).flatMap fun i => le 8 (s.regView (c.u16 0xA) (c.u32 0xC + 8 * i)))))) ∧
  (∀ s c, s.powered = true → c.expert = false → exec (.callsheetRead c) s = .next (s.finish c stOk 0 s.callSheet)) ∧
  (∀ s c, Normal.callsheetWait s c = true → s.xanca.ready &&& c.u64 0 = c.u64 0 →
    exec (.callsheetRead c) s = .next (s.finish c stOk 0 s.callSheet)) ∧
  (∀ s c, Normal.callsheetWait s c = true → s.xanca.ready &&& c.u64 0 ≠ c.u64 0 →
    ∃ t, exec (.callsheetRead c) s = .next t ∧
      t.xanca.waits = s.xanca.waits ++ [⟨c, c.u64 0, s.sinceBoot + c.u32 8 * msec⟩]) ∧
  (∀ s i w, Normal.callsheetTimeout s i w = true →
    ∃ (u : State) (b : Nat), exec (.callsheetWaitTimeout i) s = .next (u.deferredDone w.cmd.hdr stNotReady b) ∧
      u.xanca.waits = s.xanca.waits.eraseIdx i) ∧
  (∀ s b, b < 64 → Normal.callsheetDeadline s b = true →
    ∃ t, exec (.callsheetDeadline b) s = .next t ∧ bitAt t.xanca.failed b = true ∧ bitAt t.xanca.ready b = false) ∧
  (∀ s u off v, Normal.registerWrite s u off = true →
    exec (.registerWrite u off v) s = .next (((typeFields (unitType u)).filter (·.at off)).foldl
      (fun s f => s.writeField u off v f) s)) ∧
  (∀ s a n w, s.powered = true → badAccess a n w = true →
    ∃ t unit sub, exec (.badRegisterAccess a n w) s = .next t ∧
      t = s.logError { type := 0x0001, cls := 3, unit := unit, sub := sub, addr := a })


/-- R77, R79-R81, R85, R86: PTP messages, the servo, and the moves between LOCKED, HOLDOVER and FREERUN. In HOLDOVER and FREERUN
the error bound grows by 50 ns per second from its value at loss.
The model's readings that this rests on are log entries of notes/assumptions (spec/04: 32 to 38). -/
def Obligations.TimecodeComplete : Prop :=
  (∀ s m, Normal.ptpMessage s m = true → m.kind = .announce → m.tai = true →
    exec (.ptpMessage m) s = .next (State.tcReselect { s with timecode := { s.timecode with ptpValid := true } })) ∧
  (∀ s m, Normal.ptpMessage s m = true → m.kind = .announce → m.tai = false → exec (.ptpMessage m) s = .next s) ∧
  (∀ s m, Normal.ptpMessage s m = true → m.kind = .syncOneStep →
    exec (.ptpMessage m) s = .next { s with timecode := { s.timecode with
      ptpT1 := some ((m.seconds - 946684800) * 1000000000 + m.nanos), ptpT2 := some s.now } }) ∧
  (∀ s m, Normal.ptpMessage s m = true → m.kind = .syncTwoStep →
    exec (.ptpMessage m) s = .next { s with timecode := { s.timecode with ptpT1 := none, ptpT2 := some s.now } }) ∧
  (∀ s m, Normal.ptpMessage s m = true → m.kind = .followUp →
    exec (.ptpMessage m) s = .next { s with timecode := { s.timecode with
      ptpT1 := some ((m.seconds - 946684800) * 1000000000 + m.nanos) } }) ∧
  (∀ s m t1 t2, Normal.ptpMessage s m = true → Normal.ptpFollowed s = true → m.kind = .delayResp →
    s.timecode.ptpT1 = some t1 → s.timecode.ptpT2 = some t2 →
    exec (.ptpMessage m) s = .next (State.tcReselect { s with timecode := { s.timecode with
      ptpOffset := (((t2 : Int) - t1) - ((ptpNs m : Int) - m.requestTc)) / 2, ptpT1 := none, ptpT2 := none } })) ∧
  (∀ s, Normal.servoAdjust s = true →
    ∃ r : Int, exec .servoAdjust s = .next { s with timecode := { s.timecode with ratePpb := r } } ∧ -200000 ≤ r ∧ r ≤ 200000) ∧
  (∀ s t, Normal.parentSearchTimeout s t = true →
    exec .parentSearchTimeout s = .next { s with timecode := { s.timecode with
      phase := .holdover, holdovers := satAdd 16 s.timecode.holdovers 1, lostAt := t, boundAtLoss := s.timecode.errBound
      searchSince := none } }) ∧
  (∀ s, Normal.ptpLost s = true →
    exec .ptpLost s = .next { s with timecode := { s.timecode with
      ptpValid := false, ptpT1 := none, ptpT2 := none, phase := .holdover, holdovers := satAdd 16 s.timecode.holdovers 1
      lostAt := s.now, boundAtLoss := s.timecode.errBound, searchSince := none } }) ∧
  (∀ s, Normal.holdoverLimit s = true →
    ∃ t, exec .holdoverLimitExceeded s = .next t ∧ t.timecode.phase = .freerun ∧ bitAt t.xanca.ready 3 = false ∧
      t.timecode.ns = s.timecode.ns) ∧
  (∀ s, Normal.unlockedLimit s = true →
    exec .unlockedNsLimit s = .next { s with timecode := { s.timecode with ns := 2 ^ 50 - 1 } }) ∧
  (∀ s : State, s.timecode.phase = .holdover ∨ s.timecode.phase = .freerun →
    s.errBound = min (s.timecode.boundAtLoss + 50 * (s.now - s.timecode.lostAt) / 1000000000) 0xFFFF)

/-- R16, R97, R101, R103, R108, R110-R114, R360, R369: tasks are placed, cores wake and are gated, kernels are loaded, run and
unloaded, rows are repaired, and the watchdog ends a task.
The model's readings that this rests on are log entries of notes/assumptions (spec/05: 39 to 60; spec/15: 174 to 186). -/
def Obligations.TasksAndKernelsComplete : Prop :=
  (∀ s c p a t, Normal.taskPlace s c p a t = true →
    let above := t.headgate && s.sched.ready.any fun u => !u.headgate && s.mayRun u c
    let s1 := if above then s.setCore p { s.core p with preempts := satAdd 16 (s.core p).preempts 1 } else s
    ∀ args, s1.taskArgs t = .ok (args, false) →
    exec (.taskPlace c) s = .next ((if t.argSize = 0 then s1 else s1.vtouch t.slot t.argVa t.argSize).startTask p t args)) ∧
  (∀ s p, s.powered = true → (s.core p).phase = .waking →
    exec (.coreWake p) s = .next ((s.setCore p { s.core p with
      wakes := satAdd 16 (s.core p).wakes 1, wokeAt := s.now, idleSince := s.now }).afterWake p)) ∧
  (∀ s p, Normal.coreGate s p = true → exec (.coreGate p) s = .next (s.setCore p { s.core p with phase := .gated })) ∧
  (∀ s c img, Normal.kernelLoad s c img = true →
    let slot := s.cmdSlot c.hdr
    let s1 := s.vtouch slot (c.u64 8) (c.u32 4)
    let k : Kernel := ⟨imageBundles img, leAt img 0x10 8, leAt img 0x18 2, leAt img 0x1A 1, s.jobPhys slot, none, []⟩
    let s2 := if c.ex (c.u8 0x10) 0 = 1 then s1 else s1.setKernel slot (c.u16 0) k
    exec (.kernelLoad c) s = .next (s2.finish c stOk 0
      (le 2 (imageBundles img).length ++ le 2 (s2.leastFree (s.jobPhys slot)) ++ le 4 0))) ∧
  (∀ s c k, Normal.kernelRun s c k = true →
    exec (.kernelRun c) s = .next (s.addRun c (s.cmdSlot c.hdr) (c.ex (c.u16 0x18) 0) (c.ex (c.u8 0x1A) 0 == 1) (c.u64 0x20)
      (kernelTasks c s.sched.nextOrder (s.cmdSlot c.hdr) (s.queue c.hdr.qkey).headgate s.now))) ∧
  (∀ s c k, Normal.kernelUnload s c k = true →
    let slot := s.cmdSlot c.hdr
    exec (.kernelUnload c) s = .next
      (if s.runsNaming slot (c.u16 0) = [] then
        State.finish { s with cores := { s.cores with kernels := s.cores.kernels.erase (slot * 256 + c.u16 0) } } c stOk 0 []
      else (s.setKernel slot (c.u16 0) { k with unloading := some c, namedBy := s.runsNaming slot (c.u16 0) }).defer c 0 [])) ∧
  (∀ s c, Normal.opeRepair s c = true → (s.core (c.u16 0 - 157)).retiredRows.contains (c.u8 2) = true →
    exec (.opeRepair c) s = .next (s.finish c stOk 0 (opeMap (s.core (c.u16 0 - 157)).retiredRows))) ∧
  (∀ s c, Normal.opeRepair s c = true → (s.core (c.u16 0 - 157)).retiredRows.contains (c.u8 2) = false →
    c.ex (c.u8 8) 0 = 1 →
    exec (.opeRepair c) s = .next (s.finish c stOk 0 (opeMap ((s.core (c.u16 0 - 157)).retiredRows ++ [c.u8 2])))) ∧
  (∀ s c, Normal.opeRepair s c = true → (s.core (c.u16 0 - 157)).retiredRows.contains (c.u8 2) = false →
    c.ex (c.u8 8) 0 ≠ 1 → (s.core (c.u16 0 - 157)).task.isSome = true →
    exec (.opeRepair c) s = .next ((s.setCore (c.u16 0 - 157) { s.core (c.u16 0 - 157) with
      repairs := (s.core (c.u16 0 - 157)).repairs ++ [⟨c.u8 2, some c, true, false⟩] }).defer c 0 [])) ∧
  (∀ s p r rest, Normal.repairHoldEnd s p r rest = true →
    let k := (s.core p).opeZero 0
    let s1 := (s.setCore p { k with repairs := rest, retiredRows := k.retiredRows ++ [r.row] }).opeRepaired p r.row stOk
    exec (.repairHoldEnd p true) s = .next
      (((s1.mramRepair (uOpe p) 1 r.row r.injected).repairReply p r stOk 0).afterWake p)) ∧
  (∀ s p t, Normal.taskWatchdog s p t = true →
    exec (.taskWatchdog p) s = .next (State.failTask (if (s.core p).stall.isNone then
        s.logError { type := 0x12, cls := 2, unit := uCore p, job := t.slot, sub := (s.core p).pc } else s) p 17 stCancelled 0))

/-- R91, R93, R95, R97, R98, R122, R123, R223, R515: the outer-product engine's operations. Each acts on the state in which its bundle
has issued and its operands have been read, and is then counted as done; after the bundle's last slot the sequencer goes on.
The model's readings that this rests on are log entries of notes/assumptions (spec/05: 39 to 60; spec/06: 61 to 73; spec/10: 111 to 115). -/
def Obligations.OuterProductComplete : Prop :=
  (∀ s p t kn b, Normal.slotReady s p t kn b 0 = true → bOop b = 1 → let u := Normal.slotState s p t kn b 0
    exec (.opeAcc p) s = .next ((u.setCore p ((u.opeAcc p b).timeAcc b (stepCycles (bFmt b) (bSteps b)))).slotDone p b 0)) ∧
  (∀ s p t kn b, Normal.slotReady s p t kn b 0 = true → bOop b = 2 → let u := Normal.slotState s p t kn b 0
    exec (.opeZero p) s = .next ((u.setCore p (((u.core p).opeZero b).timeZero b)).slotDone p b 0)) ∧
  (∀ s p t kn b, Normal.slotReady s p t kn b 0 = true → bOop b = 3 → let u := Normal.slotState s p t kn b 0
    exec (.opeLoad p) s = .next ((u.setCore p ((u.opeLoad p b).timeLoad b)).slotDone p b 0)) ∧
  (∀ s p t kn b, Normal.slotReady s p t kn b 0 = true → bOop b = 4 →
    let u := (Normal.slotState s p t kn b 0).opeDrain p b t.slot
    exec (.opeDrain p) s = .next ((u.setCore p ((u.core p).timeDrain b)).slotDone p b 0)) ∧
  (∀ s p t kn b, Normal.slotReady s p t kn b 0 = true → bOop b = 5 → let u := Normal.slotState s p t kn b 0
    let d := ((u.core p).generator (bAgA b) 1).getD []
    exec (.opeConv p) s = .next ((u.setCore p ((u.opeConv p b).timeAcc b
      (if 2 ≤ leAt d 0x1E 1 then leAt d 0x1E 1 * convSteps d else stepCycles (bFmt b) (convSteps d)))).slotDone p b 0))

/-- R118, R516: a run of consecutive lines meets the rule of a port, one line a cycle with a stride of p lines meets that of a
one-position port only where p is odd, and a bundle whose requests break the rule of their port ends its task with TASK_FAULT cause 6.
Which line a port asks for in which cycle is the model's reading (notes/assumptions/61.md).
The model's readings that this rests on are log entries of notes/assumptions (spec/06: 61 to 73). -/
def Obligations.PortRuleEndsTask : Prop :=
  (∀ n l m, 1 ≤ n → bankRule n ((List.range m).map fun i => (i / n, l + i)) = true) ∧
  (∀ p l m, 16 ≤ m → (bankRule 1 ((List.range m).map fun i => (i, l + p * i)) = true ↔ p % 2 = 1)) ∧
  (∀ n q rs, (q :: rs).Pairwise (fun a b => a.1 ≤ b.1) → bankRule n (q :: rs) = true →
    (rs.filter fun r => r.1 == q.1).length < n ∧
    (rs.filter fun r => decide (r.1 < q.1 + 16) && r.2 % 16 == q.2 % 16).length < n) ∧
  (∀ s p t kn b slot e, e ∈ [(0, 1, Instr.opeAcc), (0, 3, Instr.opeLoad), (0, 4, Instr.opeDrain), (0, 5, Instr.opeConv),
      (1, 0xD, Instr.vecLoad), (1, 0xE, Instr.vecStore)] → slot = e.1 → (if slot = 0 then bOop b else bVop b) = e.2.1 →
    Normal.slotIssues s p t kn b slot = true →
    let u := ((Normal.interlocked s p kn).coreWords p b).2.readTouch p t.slot b
    (u.core p).portsOk b = false →
    exec (e.2.2 p) s = .next (u.endTask p (some { cause := 6, status := stBadParam })))

/-- R96, R227: the vector unit's operations lane by lane. What CMP, SEL, EXP2, LOG2, RCP and RSQRT compute is open in the spec: opaque
functions of Config (notes/assumptions/3.md).
The model's readings that this rests on are log entries of notes/assumptions (spec/05: 39 to 60; spec/10: 111 to 115). -/
def Obligations.VectorLanesComplete : Prop :=
  (∀ s p t kn w, Normal.slotReady s p t kn w 1 = true → bVop w = 1 →
    exec (.vecFma p) s = .next (Normal.lanes s p t kn w fun a b c => ffma a b c)) ∧
  (∀ s p t kn w, Normal.slotReady s p t kn w 1 = true → bVop w = 2 →
    exec (.vecAdd p) s = .next (Normal.lanes s p t kn w fun a b _ => fadd a b)) ∧
  (∀ s p t kn w, Normal.slotReady s p t kn w 1 = true → bVop w = 3 →
    exec (.vecMul p) s = .next (Normal.lanes s p t kn w fun a b _ => fmul a b)) ∧
  (∀ s p t kn w, Normal.slotReady s p t kn w 1 = true → bVop w = 4 →
    exec (.vecMin p) s = .next (Normal.lanes s p t kn w fun a b _ => fmin a b)) ∧
  (∀ s p t kn w, Normal.slotReady s p t kn w 1 = true → bVop w = 5 →
    exec (.vecMax p) s = .next (Normal.lanes s p t kn w fun a b _ => fmax a b)) ∧
  (∀ s p t kn w, Normal.slotReady s p t kn w 1 = true → bVop w = 6 →
    exec (.vecCmp p) s = .next (Normal.lanes s p t kn w fun a b _ => Config.compareLanes (bImm w) a b)) ∧
  (∀ s p t kn w, Normal.slotReady s p t kn w 1 = true → bVop w = 7 →
    exec (.vecSel p) s = .next (Normal.lanes s p t kn w fun a b c => if Config.selectFirst (bImm w) c then a else b)) ∧
  (∀ s p t kn w, Normal.slotReady s p t kn w 1 = true → bVop w = 9 →
    exec (.vecExp2 p) s = .next (Normal.lanes s p t kn w fun a _ _ => Config.elementary 0 a)) ∧
  (∀ s p t kn w, Normal.slotReady s p t kn w 1 = true → bVop w = 10 →
    exec (.vecLog2 p) s = .next (Normal.lanes s p t kn w fun a _ _ => Config.elementary 1 a)) ∧
  (∀ s p t kn w, Normal.slotReady s p t kn w 1 = true → bVop w = 11 →
    exec (.vecRcp p) s = .next (Normal.lanes s p t kn w fun a _ _ => Config.elementary 2 a)) ∧
  (∀ s p t kn w, Normal.slotReady s p t kn w 1 = true → bVop w = 12 →
    exec (.vecRsqrt p) s = .next (Normal.lanes s p t kn w fun a _ _ => Config.elementary 3 a))

/-- R96, R227, R230: CVT, LOAD, STORE, LANE_SUM and RNG of the vector unit.
The model's readings that this rests on are log entries of notes/assumptions (spec/05: 39 to 60; spec/10: 111 to 115). -/
def Obligations.VectorMovesComplete : Prop :=
  (∀ s p t kn w, Normal.slotReady s p t kn w 1 = true → bVop w = 8 →
    exec (.vecCvt p) s = .next (Normal.vectorDone p w ((Normal.slotState s p t kn w 1).vecCvt p w t.slot))) ∧
  (∀ s p t kn w, Normal.slotReady s p t kn w 1 = true → bVop w = 0xD → let u := Normal.slotState s p t kn w 1
    exec (.vecLoad p) s = .next (Normal.vectorDone p w (u.setCore p (u.vecLoad p w)))) ∧
  (∀ s p t kn w, Normal.slotReady s p t kn w 1 = true → bVop w = 0xE →
    exec (.vecStore p) s = .next (Normal.vectorDone p w ((Normal.slotState s p t kn w 1).vecStore p w))) ∧
  (∀ s p t kn w, Normal.slotReady s p t kn w 1 = true → bVop w = 0xF → let u := Normal.slotState s p t kn w 1
    exec (.vecLaneSum p) s = .next (Normal.vectorDone p w (u.setCore p ((u.core p).vecLaneSum w)))) ∧
  (∀ s p t kn w, Normal.slotReady s p t kn w 1 = true → bVop w = 0x10 → let u := Normal.slotState s p t kn w 1
    exec (.vecRng p) s = .next (Normal.vectorDone p w (u.setCore p ((u.core p).vecRng w))))

/-- R144, R146-R155: the continuity engine's operations: each runs on its row descriptor, and the engine is busy for the time of
Table 7.3. R150: FRAME_RELEASE invalidates a frame.
The model's readings that this rests on are log entries of notes/assumptions (spec/07: 74 to 83). -/
def Obligations.ContinuityComplete : Prop :=
  (∀ s p t kn w, Normal.slotReady s p t kn w 2 = true → cCop (bCont w) = 1 →
    exec (.lnFwd p) s = .next (Normal.continuityDone s p t kn w)) ∧
  (∀ s p t kn w, Normal.slotReady s p t kn w 2 = true → cCop (bCont w) = 2 →
    exec (.rmsFwd p) s = .next (Normal.continuityDone s p t kn w)) ∧
  (∀ s p t kn w, Normal.slotReady s p t kn w 2 = true → cCop (bCont w) = 3 →
    exec (.smaxFwd p) s = .next (Normal.continuityDone s p t kn w)) ∧
  (∀ s p t kn w, Normal.slotReady s p t kn w 2 = true → cCop (bCont w) = 4 →
    exec (.smaxPart p) s = .next (Normal.continuityDone s p t kn w)) ∧
  (∀ s p t kn w, Normal.slotReady s p t kn w 2 = true → cCop (bCont w) = 5 →
    exec (.smaxFin p) s = .next (Normal.continuityDone s p t kn w)) ∧
  (∀ s p t kn w, Normal.slotReady s p t kn w 2 = true → cCop (bCont w) = 9 →
    exec (.lnBwd p) s = .next (Normal.continuityDone s p t kn w)) ∧
  (∀ s p t kn w, Normal.slotReady s p t kn w 2 = true → cCop (bCont w) = 10 →
    exec (.rmsBwd p) s = .next (Normal.continuityDone s p t kn w)) ∧
  (∀ s p t kn w, Normal.slotReady s p t kn w 2 = true → cCop (bCont w) = 11 →
    exec (.smaxBwd p) s = .next (Normal.continuityDone s p t kn w)) ∧
  (∀ s p t kn w, Normal.slotReady s p t kn w 2 = true → cCop (bCont w) = 16 →
    exec (.frameRelease p) s = .next (Normal.continuityDone s p t kn w))

/-- R97, R100, R122, R124, R182, R183, R514: SETUP, LOOP, WAIT_TAG, CLAP and END bundles, and the release of stalls.
The model's readings that this rests on are log entries of notes/assumptions (spec/05: 39 to 60; spec/06: 61 to 73; spec/08: 84 to 99). -/
def Obligations.SequencerComplete : Prop :=
  (∀ s p t kn b, Normal.atBundle s p t kn b = true → bKind b = 2 →
    let off := 64 * bits b 107 92
    let u := (Normal.issued s p kn).spadTouch p t.slot [off / 128]
    let d := (Normal.issued s p kn |>.spadTouch p t.slot [off / 128]).spadBytes p off 64
    off < 24576 * 128 → u.isPoisoned p (off / 128) = false → generatorBad d = false →
    exec (.setupGenerator p) s = .next (u.setCore p
      (Core.advance { u.core p with generators := (u.core p).generators.insert (bits b 111 108) d } b))) ∧
  (∀ s p t kn b, Normal.atBundle s p t kn b = true → bKind b = 3 →
    let u := Normal.issued s p kn
    let c := u.core p
    exec (.loopBundle p) s = .next (u.setCore p { c with
      pc := c.pc + 1, loops := ⟨c.pc + 1, c.pc + bits b 95 84, bits b 111 96⟩ :: c.loops, cycle := c.cycle + 1 + bDelay b })) ∧
  (∀ s p t kn b, Normal.atBundle s p t kn b = true → bKind b = 4 →
    let u := Normal.issued s p kn
    (bits b 111 110 = 1 → (u.turnout p (bits b 79 76)).phase ≠ .free) →
    exec (.waitTag p) s = .next (if u.waitHolds p b then u.setCore p ((u.core p).advance b)
      else u.setCore p { u.core p with stall := some .waitTag, stallSince := u.now })) ∧
  (∀ s p b, Normal.waitTagRelease s p b = true → exec (.waitTagRelease p) s = .next ((s.endStall p).bundleDone p b)) ∧
  (∀ s p b, Normal.emptySlotRelease s p b = true → exec (.emptySlotStallRelease p) s = .next (s.endStall p)) ∧
  (∀ s p t kn b k, Normal.atBundle s p t kn b = true → bKind b = 5 →
    let u := Normal.issued s p kn
    let n := bits b 111 106
    u.clap t.slot n = some k → k.broken = false →
    exec (.clapBundle p) s = .next (if bitAt b 105 then (u.bundleDone p b).arrive t.slot n
      else ((u.stallAt p (.clap n k.generation)).setClap t.slot n { k with waiting := k.waiting ++ [(p, u.now)] }).arrive t.slot n)) ∧
  (∀ s p t kn b, Normal.atBundle s p t kn b = true → bKind b = 6 →
    let u := Normal.issued s p kn
    let c := u.core p
    exec (.endTask p) s = .next ((u.setCore p { c with
      cycle := max (max c.cycle c.engineEnd) c.transferEnd + 1 }).endTask p none)) ∧
  (∀ s p t o, s.powered = true → (s.core p).task = some t → t.kind = .cont o → (s.core p).phase = .running →
    exec (.endTask p) s = .next ((s.firstIssue p).contTask p t o))

/-- R126-R128: GET, PUT and EMPTY. From and to virtual memory, every page is translated before any data moves.
The model's readings that this rests on are log entries of notes/assumptions (spec/06: 61 to 73). -/
def Obligations.TransfersComplete : Prop :=
  (∀ s p t kn b c l q, Normal.transferReady s p t kn b (.window c l) = true → tXop b = 0 →
    let u := Normal.transferState s p t kn b
    u.physOf c = some q →
    let v := u.spadTouch q t.slot ((List.range (tLines b)).map (l + ·))
    exec (.getLines p) s = .next ((v.storeLines p (tLocal b) ((List.range (tLines b)).map fun i =>
      (v.line q (l + i), v.isPoisoned q (l + i)))).transferDone p b (ceilDiv (tLines b) 2))) ∧
  (∀ s p t kn b va, Normal.transferReady s p t kn b (.virt va) = true → tXop b = 0 →
    let u := Normal.transferState s p t kn b
    u.vcheck t.slot va (128 * tLines b) false = none →
    ∃ (v : State) (ds : List (List Byte × Bool)), v = u.vtouch t.slot va (128 * tLines b) ∧ ds.length = tLines b ∧
      (∀ i d, i < tLines b → v.vread t.slot (va + 128 * i) 128 = .ok d → ds[i]? = some d) ∧
      exec (.getLines p) s = .next ((v.storeLines p (tLocal b) ds).transferDone p b (ceilDiv (tLines b) 2))) ∧
  (∀ s p t kn b c l, Normal.transferReady s p t kn b (.window c l) = true → tXop b = 1 →
    let u := Normal.transferState s p t kn b
    let ks : List MeshPacket := (packets l (tLines b)).map fun g =>
      ⟨c, g.1, ((u.localLines p b).drop (g.1 - l)).take g.2, t.slot, (u.job t.slot).placement, u.jobEpoch t.slot,
        ⟨t.cmd, (u.core p).pc, t.index, u.logicalOf p, u.spads.nextSerial⟩⟩
    let v : State := { u with spads := { u.spads with mesh := u.spads.mesh ++ ks, nextSerial := u.spads.nextSerial + 1 } }
    exec (.putLines p) s = .next ((v.takeLines p ((List.range (tLines b)).map (tLocal b + ·))).transferDone p b
      (ceilDiv (tLines b) 2))) ∧
  (∀ s p t kn b va, Normal.transferReady s p t kn b (.virt va) = true → tXop b = 1 →
    let u := Normal.transferState s p t kn b
    u.vcheck t.slot va (128 * tLines b) true = none →
    let v := (u.localLines p b).zipIdx.foldl (fun s d => (s.vwrite t.slot (va + 128 * d.2) d.1.1 d.1.2).1) u
    exec (.putLines p) s = .next ((v.takeLines p ((List.range (tLines b)).map (tLocal b + ·))).transferDone p b
      (ceilDiv (tLines b) 2))) ∧
  (∀ s p t kn b, Normal.transferReady s p t kn b .none = true → tXop b = 2 →
    exec (.emptyLines p) s = .next (((Normal.transferState s p t kn b).setEmptyRange p (tLocal b) (tLines b)).transferDone p b
      (ceilDiv (tLines b) 16)))

/-- R127, R128, R131-R135, R137-R143: remote writes and the turnout test, turnouts, and the scrubber.
The model's readings that this rests on are log entries of notes/assumptions (spec/06: 61 to 73). -/
def Obligations.ScratchpadComplete : Prop :=
  (∀ s i p t k, Normal.packet s i p k = true →
    let u : State := { s with spads := { s.spads with mesh := s.spads.mesh.eraseIdx i } }
    Normal.accepted u p t k = true →
    exec (.remoteWritePacket i) s = .next ((u.setTurnout p t { u.turnout p t with
      gauge := satAdd 32 (u.turnout p t).gauge k.lines.length }).storeLines p k.first k.lines)) ∧
  (∀ s i p k, Normal.packet s i p k = true →
    let u : State := { s with spads := { s.spads with mesh := s.spads.mesh.eraseIdx i } }
    (∀ t, Normal.accepted u p t k = false) →
    ∃ v, exec (.remoteWritePacket i) s = .next v ∧ v.spads.bytes = s.spads.bytes ∧ v.spads.full = s.spads.full ∧
      v.spads.poison = s.spads.poison ∧ v.spads.mesh = s.spads.mesh.eraseIdx i ∧
      (v.spads.refusals.any fun x => x.origin == k.origin && x.target == k.target) = true) ∧
  (∀ s i x, Normal.writeRefused s i x = true →
    ∃ u : State, exec (.writeRefused i) s = .next (u.recordCmd x.origin.hdr 0x1032 stWindowClosed
        (le 2 x.target ++ le 2 x.first ++ le 2 x.lines ++ le 1 x.reason ++ le 1 0 ++ le 2 x.origin.sender ++
          le 2 x.origin.bundle ++ le 4 x.origin.task ++ x.stamp.bytes)) ∧
      u.spads.refusals = s.spads.refusals.eraseIdx i) ∧
  (∀ s p t, Normal.turnoutLate s p t = true →
    let x := s.turnout p t
    let u := s.setTurnout p t { x with sinceNote := 0, firstRefused := none, lastNote := some s.now }
    exec (.turnoutLate p t) s = .next (match x.openCmd with
      | some h => u.recordCmd h 0x1031 stWindowClosed (le 2 (s.logicalOf p) ++ le 1 t ++ le 1 x.lastReason ++ le 4 x.sinceNote ++
          (x.firstRefused.getD default).bytes)
      | none => u)) ∧
  (∀ s p t, Normal.drainLimit s p t = true →
    exec (.turnoutDrainLimit p t) s = .next ((s.noteLimit (s.turnout p t).slot (turnoutKey p t)).closeTurnout p t (s.logicalOf p) 2
      ((s.turnout p t).closeCmd.map (·.hdr)) stWindowClosed stWindowClosed 1)) ∧
  (∀ s c p first n, s.powered = true → s.physOf c = some p →
    exec (.remoteRead c first n) s = .next (s.spadTouch p 0xFFFF ((List.range n).map (first + ·)))) ∧
  (∀ s p l e, Normal.spadScrub s p l = true →
    let u := (s.spadTouch p 0xFFFF [l]).spadFound p l e 0xFFFF 0
    exec (.spadScrub p l e true) s = .next (u.setReg (uSpad p) 0x390 u.now) ∧ exec (.spadScrub p l e false) s = .next u) ∧
  (∀ s c p t, Normal.turnoutOpen s c p t = true →
    let placement := c.ex (c.u16 0x10) (s.job (s.cmdSlot c.hdr)).placement
    let epoch := c.ex (c.u32 0x14) (s.fjob (s.cmdSlot c.hdr)).epoch
    let u := if c.ex (c.u8 0x13) 0 = 1 then s else s.setEmptyRange p (c.u16 8) (c.u16 0xA)
    exec (.turnoutOpen c) s = .next ((u.setTurnout p t
      { phase := .opened, byCount := c.u8 3 == 1, lateNotify := c.ex (c.u8 0x12) 0 == 1, placement := placement, epoch := epoch
        slot := s.cmdSlot c.hdr, base := c.u16 8, lines := c.u16 0xA, expect := c.u32 4, openCmd := some c.hdr }).finish c stOk 0
      (le 1 t ++ le 1 0 ++ le 2 placement ++ le 4 epoch))) ∧
  (∀ s c p, Normal.turnoutClose s c p = true → (s.turnout p (c.u8 2)).phase = .closed →
    exec (.turnoutClose c) s = .next (s.finish c stOk 0 ((s.turnout p (c.u8 2)).result (c.u8 2)))) ∧
  (∀ s c p, Normal.turnoutClose s c p = true → (s.turnout p (c.u8 2)).phase ≠ .closed →
    c.u8 3 = 1 ∨ s.turnoutComplete p (s.turnout p (c.u8 2)) = true →
    let u := s.closeTurnout p (c.u8 2) (c.u16 0) (if c.u8 3 = 1 then 1 else 0) (some c.hdr) stOk
      (if c.u8 3 = 1 then stCancelled else stOk) 0
    exec (.turnoutClose c) s = .next (u.finish c stOk 0 ((u.turnout p (c.u8 2)).result (c.u8 2)))) ∧
  (∀ s c p, Normal.turnoutClose s c p = true → (s.turnout p (c.u8 2)).phase ≠ .closed → c.u8 3 = 0 →
    s.turnoutComplete p (s.turnout p (c.u8 2)) = false →
    let us := if c.ex (c.u32 8) 0 = 0 then s.fld (uSpad p) 0x380 63 32 else c.ex (c.u32 8) 0
    let u := s.setTurnout p (c.u8 2) { s.turnout p (c.u8 2) with
      phase := .draining, closeCmd := some c, drainDue := if c.ex (c.u32 8) 0 = 0xFFFFFFFF then none else some (s.now + us * 1000) }
    exec (.turnoutClose c) s = .next (u.defer c 0 ((u.turnout p (c.u8 2)).result (c.u8 2))))

/-- R156, R158-R160: `cont_run`, frame windows, the scrubber of a continuity store.
The model's readings that this rests on are log entries of notes/assumptions (spec/07: 74 to 83). -/
def Obligations.ContinuityCommandsComplete : Prop :=
  (∀ s p l e, Normal.contScrub s p l = true →
    let u := (s.contTouch p 0xFFFF [l]).contFound p l e 0xFFFF 0
    exec (.contScrub p l e true) s = .next (u.setReg (uCont p) 0x030 u.now) ∧ exec (.contScrub p l e false) s = .next u) ∧
  (∀ s c, Normal.contRun s c = true →
    ∃ ts : List Task, exec (.contRun c) s = .next (s.addRun c (s.cmdSlot c.hdr) (c.ex (c.u16 0x38) 0) false 0 ts) ∧
      ts.length = ceilDiv (c.u32 8) 128 ∧
      ∀ t ∈ ts, t.cmd = c.hdr ∧ t.slot = s.cmdSlot c.hdr ∧ t.headgate = (s.queue c.hdr.qkey).headgate) ∧
  (∀ s c, Normal.contRunFrames s c = true →
    let slot := s.cmdSlot c.hdr
    let w : FrameWindow := if c.u16 6 = 0 then {} else ⟨c.u16 0xC, c.u16 6, c.u16 0xE⟩
    let busy := (s.jobPhys slot).filter fun p => s.runsJob p slot
    let u := ((s.jobPhys slot).filter fun p => !s.runsJob p slot).foldl (fun s p => s.applyWindow p slot w) s
    ∃ result, exec (.contRunFrames c) s = .next (if busy.isEmpty then u.finish c stOk 0 result
      else State.defer { u with conts := { u.conts with pending := u.conts.pending ++ [⟨c, slot, w, busy⟩] } } c 0 result))

/-- R194-R200: the reel. PUSH puts a marker and its frame on top; POP and HOLD take the top frame off; RELEASE ends a hold.
The model's readings that this rests on are log entries of notes/assumptions (spec/09: 100 to 110). -/
def Obligations.ReelComplete : Prop :=
  (∀ s p t kn b fid, Normal.pushFrame s p t kn b fid = true →
    let u := Normal.transferState s p t kn b
    let x := u.reel (u.logicalOf p)
    let raw := u.line p (tLocal b)
    let m : Marker := ⟨fid, leAt raw 2 1, leAt raw 4 4, leAt raw 0xC 4, leAt raw 0x10 2, raw, x.depth, u.now⟩
    exec (.pushFrame p) s = .next (((u.setReel (u.logicalOf p) { x with
      marks := m :: x.marks, depth := x.depth + m.len, promised := m.next
      peakDepth := max x.peakDepth (x.depth + m.len) }).takeLines p [tLocal b]).transferDone p b 40)) ∧
  (∀ s p t kn b fid m rest, Normal.popFrame s p t kn b fid false m rest = true →
    let u := Normal.transferState s p t kn b
    let x := u.reel (u.logicalOf p)
    let old := match x.reading with | some r => if x.readingHeld then [] else r.lines | none => []
    let v := (old.foldl (fun s l => s.setEmpty p l) u).setReel (u.logicalOf p) { x with
      low := min x.low m.position, depth := m.position, marks := rest, promised := 0
      reading := if m.kind = 2 then some m else none, readingHeld := false
      refilled := satAdd 32 x.refilled 0 }
    exec (.popFrame p) s = .next
      ((v.storeLine p (tLocal b) (m.line 0 u.now) false).transferDone p b (40 + ceilDiv old.length 16))) ∧
  (∀ s p t kn b fid m rest, Normal.popFrame s p t kn b fid true m rest = true →
    let u := Normal.transferState s p t kn b
    let x := u.reel (u.logicalOf p)
    let old := match x.reading with | some r => if x.readingHeld then [] else r.lines | none => []
    let v := (old.foldl (fun s l => s.setEmpty p l) u).setReel (u.logicalOf p) { x with
      low := min x.low m.position, depth := m.position, marks := rest, promised := 0
      reading := if m.kind = 2 then some m else none, readingHeld := true
      held := x.held ++ [m], refilled := satAdd 32 x.refilled 0 }
    exec (.holdFrame p) s = .next
      ((v.storeLine p (tLocal b) (m.line 0 u.now) false).transferDone p b (40 + ceilDiv old.length 16))) ∧
  (∀ s p t kn b fid m, Normal.releaseFrame s p t kn b fid m = true →
    let u := Normal.transferState s p t kn b
    let x := u.reel (u.logicalOf p)
    let v := (m.lines.foldl (fun s l => s.setEmpty p l) u).setReel (u.logicalOf p) { x with held := x.held.erase m }
    exec (.releaseFrame p) s = .next
      ((v.storeLine p (tLocal b) (m.line 0 u.now) false).transferDone p b (40 + ceilDiv m.len 16)))

/-- R162, R167, R180, R183, R186-R189: the commands of streams, pools and claps.
The model's readings that this rests on are log entries of notes/assumptions (spec/08: 84 to 99). -/
def Obligations.StreamCommandsComplete : Prop :=
  (∀ s c, Normal.streamOpenPool s c = true →
    ∃ (u : State) (t k : Nat), exec (.streamOpenPool c) s = .next (u.finish c stOk 0 (le 1 t ++ le 1 k ++ le 6 0)) ∧
      s.freePoolTurnout (s.cmdPhys c) = some t ∧ s.freeTakeRegion (s.cmdPhys c) = some k ∧
      u.pool (s.cmdSlot c.hdr) (c.u8 1) = ⟨true, c.u16 6, c.u16 2, c.u16 4, t, k⟩) ∧
  (∀ s c id, Normal.streamOpen s c id = true →
    ∃ u : State, exec (.streamOpen c) s = .next (u.finish c stOk 0
        (le 2 id ++ le 2 (s.firstLane c) ++ le 1 (c.u8 5) ++ le 1 (c.u8 4) ++ le 2 0)) ∧
      (u.stream id).isOpen = true ∧ (u.stream id).slot = s.cmdSlot c.hdr ∧ (u.stream id).pool = c.u8 4 ∧
      (u.stream id).lanes = c.u8 5 ∧ (u.stream id).firstCore = s.firstLane c ∧ (u.stream id).borrowMax = c.u8 8 ∧
      (u.stream id).phase = (if bitAt (c.u8 9) 0 then .standby else .idle) ∧ (u.stream id).runs = [] ∧
      (u.stream id).headgate = (s.queue c.hdr.qkey).headgate) ∧
  (∀ s c, Normal.streamRun s c = true →
    exec (.streamRun c) s = .next (s.setStream (c.u16 0) { s.stream (c.u16 0) with
      phase := .running
      runs := (s.stream (c.u16 0)).runs ++ [⟨c, c.u32 4, c.u64 8, c.u8 2, c.u16 0x10, c.u16 0x12, c.ex (c.u64 0x18) 0⟩] })) ∧
  (∀ s c, Normal.streamCancel s c = true → (s.stream (c.u16 0)).runs = [] →
    exec (.streamCancel c) s = .next
      ((s.cancelDecodes fun d => d.slot == s.cmdSlot c.hdr && d.stream == c.u16 0).finish c stOk 0 (le 24 0))) ∧
  (∀ s c r rest, Normal.streamCancel s c = true → (s.stream (c.u16 0)).runs = r :: rest →
    let s1 := (s.cancelDecodes fun d => d.slot == s.cmdSlot c.hdr && d.stream == c.u16 0).bump uResv 0x038 7 0 1
    let s2 := (s1.setStream (c.u16 0) { s.stream (c.u16 0) with
      phase := .cancelling, ending := some (stCancelled, 0), cancelCmd := some c, cancelAt := s1.now
      drainedAt := s1.now }).dropUnplaced (c.u16 0)
    exec (.streamCancel c) s = .next (rest.foldl (fun s r => s.finish r.cmd stCancelled 0 [])
      (s2.setStream (c.u16 0) { s2.stream (c.u16 0) with runs := [r] }))) ∧
  (∀ s c, Normal.streamClose s c = true →
    exec (.streamClose c) s = .next (if (s.stream (c.u16 0)).runs.isEmpty then (s.freeStream (c.u16 0)).finish c stOk 0 []
      else (s.setStream (c.u16 0) { s.stream (c.u16 0) with closeCmd := some c }).defer c 0 [])) ∧
  (∀ s c, Normal.poolClose s c = true →
    ∃ u : State, exec (.streamClose c) s = .next ((u.setPool (s.cmdSlot c.hdr) (c.u8 3) {}).finish c stOk 0 [])) ∧
  (∀ s c, Normal.clapSet s c = true →
    let slot := s.cmdSlot c.hdr
    let gen := ((s.clap slot (c.u8 0)).map (·.generation)).getD 0
    let s1 : State :=
      if c.u16 2 = 0 then { s with streams := { s.streams with claps := s.streams.claps.erase (clapKey slot (c.u8 0)) } }
      else s.setClap slot (c.u8 0)
        { broken := false, fabric := c.u8 1 == 1, flush := c.u8 4 == 1, members := c.u16 2, generation := gen, hdr := c.hdr
          limitUs := if c.hdr.expert then c.u32 8 else s.fld uResv 0x040 39 24 }
    let s2 := if c.u16 2 ≠ 0 ∧ c.u8 1 = 1 then s1.clapEarly slot (c.u8 0) else s1
    exec (.clapSet c) s = .next (s2.finish c stOk 0 (le 4 gen ++ le 4 0)))

/-- R163-R166, R168, R171, R173, R176, R179-R181, R183: what streams do by themselves. A fetch that its ring may not make yet waits
for a grant; a task of an iteration starts; an output slot is stored, emptied and freed.
The model's readings that this rests on are log entries of notes/assumptions (spec/08: 84 to 99). -/
def Obligations.StreamEventsComplete : Prop :=
  (∀ s id iter stage idx, Normal.slotGranted s id iter stage idx = true → ((s.stream id).stage stage).kind = 1 →
    let x := s.stream id
    let c := x.laneCore (iter % x.lanes)
    let y : Stream := { x with
      granted := x.granted ++ [⟨iter % x.lanes, stage, iter, idx, false, []⟩]
      waiting := x.waiting.erase (iter % x.lanes * 8 + stage) }
    let s1 := s.setStream id { y with peakBorrowed := max y.peakBorrowed y.borrowed }
    ∀ data gens u, s1.fetchData id iter stage = (.ok (data, gens), u) →
    let v := u.fillSlot x.slot c ((s.pool x.slot x.pool).line idx) data
    exec (.streamFetch id iter stage) s = .next ((v.setStream id { v.stream id with
      granted := (v.stream id).granted.map fun w =>
        if w.stage == stage && w.iter == iter then { w with filled := true, gens := gens } else w }).noteProgress x.slot x.pool c)) ∧
  (∀ s id iter stage, Normal.streamFetching s id stage = true →
    ((s.stream id).granted.any fun u => u.stage == stage && u.iter == iter && !u.filled) = false →
    s.grantOne (s.stream id).slot (s.stream id).pool ((s.stream id).laneCore (iter % (s.stream id).lanes)) ≠ some (id, stage) →
    exec (.streamFetch id iter stage) s = .next
      (s.setStream id ((s.stream id).wait (iter % (s.stream id).lanes * 8 + stage) s.now))) ∧
  (∀ s id iter p r outs, Normal.streamTaskPlace s id iter p r outs = true →
    let x := s.stream id
    let u := s.setStream id { x with placed := x.placed ++ [⟨iter, false, outs⟩] }
    ∃ args, exec (.streamTaskPlace id iter) s = .next (u.startTask p ⟨r.cmd.hdr, 0, x.slot, x.headgate, x.kernelStage.kernel, iter,
      [x.laneCore (iter % x.lanes)], 0, 0, [], .stream id iter 0, s.now⟩ args)) ∧
  (∀ s id iter stage p q u, Normal.streamStore s id iter stage p q u = true →
    let x := s.stream id
    let line := (s.pool x.slot x.pool).line u.index
    let n := (x.stage stage).bytes / 128
    let w := (s.spadTouch p x.slot ((List.range n).map (line + ·))).storeOut p x.slot line ((x.stage stage).address iter x.lanes) n
    let v := w.1.setEmptyRange p line (w.1.pool x.slot x.pool).slotLines
    let rest := q.outs.filter fun w => w.stage != stage
    let v := v.setStream id { v.stream id with
      placed := (v.stream id).placed.map fun z => if z.iter == iter then { z with outs := rest } else z }
    w.2 = none → exec (.streamStore id iter stage) s = .next (if rest.isEmpty then v.iterDone id iter else v)) ∧
  (∀ s id iter stage, Normal.warmFetch s id iter stage = true →
    ∃ t, exec (.warmFetch id iter stage) s = .next t ∧ t.streams.streams = s.streams.streams ∧ t.spads.full = s.spads.full ∧
      t.spads.bytes = s.spads.bytes) ∧
  (∀ s id lane stage e, Normal.creditWatchdog s id lane stage e = true → (s.stream id).stallAction ≠ 1 →
    ∃ t, exec (.creditWatchdog id lane stage) s = .next t ∧ (t.stream id).deadlockAt = some s.now) ∧
  (∀ s slot n k, Normal.clapLimit s slot n k = true → exec (.clapLimit slot n) s = .next (s.breakClap slot n)) ∧
  (∀ s l, Normal.resvScrub s l = true → exec (.resvScrub l 0 false) s = .next s) ∧
  (∀ s l, Normal.resvScrub s l = true → exec (.resvScrub l 1 false) s = .next ((s.bump uResv 0x028 63 32 1).logError
    { type := 0x22, cls := 0, unit := uResv, sub := l })) ∧
  (∀ s id n, Normal.streamDrained s id = true →
    exec (.readDrainComplete false id n) s = .next ((s.setStream id { s.stream id with
      drained := true, discarded := n, drainedAt := s.now }).tryEndRun id))

/-- R204-R207, R212-R214, R383, R388: `reel_config` in each OP, the update gate, and the mirror of the slate log. BEGIN that takes no
freeze enters its step; UPDATE whose condition holds opens the gate, and otherwise is pending until its limit.
The model's readings that this rests on are log entries of notes/assumptions (spec/09: 100 to 110; spec/16: 187 to 203). -/
def Obligations.ReelCommandsComplete : Prop :=
  (∀ s c, Normal.passes s (s.reelConfigChecks c) = true →
    ∃ u : State, exec (.reelConfig c) s = .next (u.finish c stOk 0
        (u.reelResult (s.cmdSlot c.hdr) (s.coresOf (s.cmdSlot c.hdr)).length)) ∧
      (u.reelJob (s.cmdSlot c.hdr)).ringLines = c.u16 4 ∧
      (c.u16 4 ≠ 0 → (u.reelJob (s.cmdSlot c.hdr)).ringBase = c.u16 2 ∧ (u.reelJob (s.cmdSlot c.hdr)).spillLines = c.u32 0xC ∧
        (u.reelJob (s.cmdSlot c.hdr)).spillVa = c.u64 0x18 ∧ (u.reelJob (s.cmdSlot c.hdr)).reelVa = c.u64 0x10)) ∧
  (∀ s c, Normal.passes s (s.reelBeginChecks c) = true → s.freezeDue (s.cmdSlot c.hdr) (c.u32 8) = none →
    (s.rjob (s.cmdSlot c.hdr)).configured = false →
    let u := s.enterStep (s.cmdSlot c.hdr) (c.u32 8) none
    exec (.reelBegin c) s = .next (u.finish c stOk 0
      (u.reelResult (s.cmdSlot c.hdr) (u.jobCores (s.cmdSlot c.hdr)).length))) ∧
  (∀ s c, Normal.passes s (s.reelUpdateChecks c) = true → s.gateReady (s.cmdSlot c.hdr) = true →
    exec (.reelUpdate c) s = .next (s.openGate (s.cmdSlot c.hdr) c false 0)) ∧
  (∀ s c, Normal.passes s (s.reelUpdateChecks c) = true → s.gateReady (s.cmdSlot c.hdr) = false →
    let limit := if c.expert then c.u32 0x24 else s.fld uMmu 0x5B08 63 32
    let u := s.setReelJob (s.cmdSlot c.hdr) { s.reelJob (s.cmdSlot c.hdr) with
      phase := .gatePending, gateCmd := some c, gateDue := s.now + limit * 1000000 }
    exec (.reelUpdate c) s = .next (u.defer c 0 (u.reelResult (s.cmdSlot c.hdr) (u.jobCores (s.cmdSlot c.hdr)).length))) ∧
  (∀ s slot c, Normal.gateOpens s slot c = true →
    exec (.updateGateOpen slot) s = .next (s.openGate slot c true (s.now - s.gateSince slot c))) ∧
  (∀ s slot c, Normal.gateTimeout s slot c = true →
    exec (.updateGateTimeout slot) s = .next ((s.setReelJob slot { s.reelJob slot with
      phase := .inStep, gateCmd := none }).deferredDone c.hdr stCancelled 0x62)) ∧
  (∀ s c, Normal.passes s (s.reelShardChecks c) = true →
    ∃ u : State, exec (.reelShard c) s = .next (u.finish c stOk 0 (u.reelResult (s.cmdSlot c.hdr) 0)) ∧
      u = s.setShard (c.u8 1) (if c.u8 6 = 1 then
        { valid := true, slot := s.cmdSlot c.hdr, base := c.u64 0x10, len := c.u64 0x18, tag := c.u32 8
          lastRecord := (s.shard (c.u8 1)).lastRecord } else {})) ∧
  (∀ s c, Normal.passes s (s.reelClearChecks c) = true →
    let u := (s.jobCores (s.cmdSlot c.hdr)).foldl (fun s l => s.clearReel (s.cmdSlot c.hdr) l) s
    exec (.reelClear c) s = .next (u.finish c stOk 0
      (u.reelResult (s.cmdSlot c.hdr) (s.jobCores (s.cmdSlot c.hdr)).length))) ∧
  (∀ s slot step rest b, Normal.slateMirror s slot step rest b = true →
    let r := s.rjob slot
    let u := s.setRjob slot { r with toMirror := rest }
    exec (.slateMirror slot) s = .next ((u.setRjob slot { u.rjob slot with
      mirrorSent := r.mirrorSent.insert step u.now }).sendBulk slot r.partner (.slate step) 0 b))
/-- R252, R257-R259, R268-R272, R250: maps, copies and fills, scrubbing.
The model's readings that this rests on are log entries of notes/assumptions (spec/11: 116 to 134). -/
def Obligations.MapsAndMemoryComplete : Prop :=
  (∀ s c, Normal.passes s (s.mapCreateChecks c) = true →
    ∃ u : State, exec (.mapCreate c) s = .next (u.finish c stOk 0 (le 8 (c.u64 0) ++ le 4 ((c.u64 8 - 2 ^ 21) / 1024) ++ le 4 0)) ∧
      (u.map (s.cmdSlot c.hdr)).valid = true ∧ (u.map (s.cmdSlot c.hdr)).pool = c.u64 0 ∧
      (u.map (s.cmdSlot c.hdr)).poolBytes = c.u64 8 ∧ (u.map (s.cmdSlot c.hdr)).walkers = c.ex (c.u16 0x18) 0) ∧
  (∀ s c, Normal.passes s (s.mapEditChecks c) = true →
    Normal.edited s c (s.cmdSlot c.hdr) (exec (.mapEdit c) s)) ∧
  (∀ s c, Normal.passes s (s.mapDestroyChecks c) = true →
    exec (.mapDestroy c) s = .next ((s.setMap (s.cmdSlot c.hdr) { s.map (s.cmdSlot c.hdr) with destroyCmd := some c }).defer c 0 [])) ∧
  (∀ s slot d, Normal.mapUnused s slot d = true →
    exec (.mapDestroyDone slot) s = .next ((s.setMap slot {}).deferredDone d.hdr stOk 0)) ∧
  (∀ s i x c, Normal.shooting s i x = true → x.cmd = some c → x.answered = true →
    ∃ u : State, exec (.shootdownComplete i) s = .next (u.deferredDone c.hdr stOk 0) ∧
      u.memory.shoots = s.memory.shoots.eraseIdx i) ∧
  (∀ s i x c, Normal.shooting s i x = true → x.cmd = some c → x.answered = false → x.kind = 0 →
    ∃ u : State, exec (.shootdownComplete i) s = .next (u.finish c stOk 0
        (le 4 x.changed ++ le 4 (s.map x.slot).freeKib ++ le 8 s.now)) ∧ u.memory.shoots = s.memory.shoots.eraseIdx i) ∧
  (∀ s c, Normal.passes s (s.memCopyChecks c) = true →
    exec (.memCopy c) s = .next (s.memRun c (some (c.u64 0)) (c.u64 8) (c.u64 0x10) [])) ∧
  (∀ s c, Normal.passes s (s.memFillChecks c) = true →
    exec (.memFill c) s = .next (s.memRun c none (c.u64 0) (c.u64 8) ((List.range 8).flatMap fun _ => le 8 (c.u64 0x10)))) ∧
  (∀ s u a errors sub passEnd, Normal.scrubbed s u a = true →
    let t := s.memFound (a / 64 * 64) errors sub 0
    exec (.memoryScrub u a errors sub passEnd) s = .next (if passEnd then t.setReg u 0x038 s.now else t))

/-- R261-R264, R273-R275, R505: chunks move, channels go offline and come online, a slot's power falls.
The model's readings that this rests on are log entries of notes/assumptions (spec/11: 116 to 134; spec/21: 269 to 277). -/
def Obligations.FarTierComplete : Prop :=
  (∀ s c, Normal.passes s (s.migrateOutChecks c) = true →
    exec (.farMigrateOut c) s = .next (s.startMove c false)) ∧
  (∀ s c, Normal.passes s (s.migrateBackChecks c) = true →
    exec (.farMigrateBack c) s = .next (s.startMove c true)) ∧
  (∀ s c, Normal.passes s (s.migrateReleaseChecks c) = true →
    let ch := c.u8 0
    let u := (moveChunks c).foldl (fun s k => s.setChunk ch k 4 0) s
    exec (.farMigrateRelease c) s = .next (u.finish c stOk 0
      (le 1 (c.u8 3) ++ le 1 (u.chunksIn ch [2, 3]) ++ le 2 0 ++ le 4 0 ++ le 8 u.now))) ∧
  (∀ s ch m k, Normal.chunkCopied s ch m k = true → m.back = false → 1 < m.left.length →
    let d := s.chunkDest ch k
    let u := (s.copyChunk (chunkPa ch k) d).setChunk ch k 2 d
    ∃ bad, exec (.chunkFlip ch) s = .next ({ u with memory := { u.memory with
      moves := u.memory.moves.map fun x => if x = m then
        { m with left := m.left.drop 1, moved := m.moved + 1, poisoned := m.poisoned + bad } else x } }.nextChunk ch)) ∧
  (∀ s ch m k, Normal.chunkCopied s ch m k = true → m.back = true → m.left.length = 1 →
    ∃ (u : State) (bad : Nat), exec (.chunkFlip ch) s = .next ((u.deferredDoneWith m.cmd.hdr stOk
        (le 2 0 ++ le 6 0 ++ le 1 (m.moved + 1) ++ le 1 (u.chunksIn ch [2, 3]) ++ le 2 0 ++ le 4 bad ++ le 8 u.now)).nextChunk ch) ∧
      u.memory.moves = s.memory.moves.filter (fun x => !decide (x = m))) ∧
  (∀ s c, Normal.passes s (s.farOfflineChecks c) = true →
    ∃ (u : State), exec (.farOffline c) s = .next (u.finish c stOk 0
        (le 1 (u.chunksIn (c.u8 0) [2, 3]) ++ le 1 (s.chunksIn (c.u8 0) [0]) ++ le 6 0)) ∧
      (c.ex (c.u8 8) 1 = 1 → u.pins.farSlotEn.get 0 (c.u8 0) = 0)) ∧
  (∀ s c, Normal.passes s (s.farOnlineChecks c) = true →
    ∃ u : State, exec (.farOnline c) s = .next (u.defer c 0 []) ∧ u.memory.bringups = s.memory.bringups ++ [(c.u8 0, c)] ∧
      u.pins.farSlotEn.get 0 (c.u8 0) = 1 ∧ u.pins.slotPower.get 0 (c.u8 0) = 1) ∧
  (∀ s ch c serial capacity rate trainMs, Normal.bringingUp s ch c = true → 128 ≤ capacity → 8800 ≤ rate →
    ∃ u : State, exec (.farOnlineComplete ch 0 serial capacity rate trainMs) s = .next (u.deferredDoneWith c.hdr stOk
      (le 2 0 ++ le 6 0 ++ le 4 serial ++ le 2 capacity ++ le 2 rate ++ le 4 trainMs ++ le 4 0))) ∧
  (∀ s ch, Normal.slotFalls s ch = true →
    exec (.slotPowerFall ch) s = .next { s with pins := { s.pins with slotPower := s.pins.slotPower.set 0 ch 0 } })

/-- R277, R279, R281, R289, R294, R296, R298-R300: pools, sequences, their pages, and attention runs. A run that no walker, no
pending edit and no other run holds up starts at once.
The model's readings that this rests on are log entries of notes/assumptions (spec/12: 135 to 144). -/
def Obligations.AttentionComplete : Prop :=
  (∀ s c, Normal.passes s (s.seqCreatePoolChecks c) = true →
    let page := if c.u8 1 = 1 then 2 ^ 21 else 2 ^ 16
    let pages := c.u64 0x18 / page
    let desc := ceilDiv (pages * 8) page
    ∃ u : State, exec (.seqCreatePool c) s = .next (u.finish c stOk 0 (le 4 (pages - desc) ++ le 4 desc ++ le 8 0)) ∧
      u.kvPool (s.cmdSlot c.hdr) = { valid := true, pageBytes := page, base := c.u64 0x10, pages := pages, descPages := desc
                                     lowWater := c.ex (c.u32 0x20) 0, cmd := some c.hdr }) ∧
  (∀ s c, Normal.passes s (s.seqCreateSequenceChecks c) = true →
    let x : KvSeq := { valid := true, slot := s.cmdSlot c.hdr, va := c.u64 0x10, maxTokens := c.u32 0xC, kvHeads := c.u16 6
                       layers := c.u16 8, fmt := c.u8 4, dim := c.u8 5 }
    ∃ id, (s.kvSeq id).valid = false ∧ (c.u16 2 ≠ 0xFFFF → id = c.u16 2) ∧
      exec (.seqCreateSequence c) s = .next ((s.setKvSeq id x).finish c stOk 0
        (le 2 id ++ le 2 (s.pageTokens x) ++ le 4 (s.pagesPerHead x) ++ le 8 (s.seqBytes x)))) ∧
  (∀ s c, Normal.passes s (s.seqDestroyChecks c) = true →
    Normal.edited s c (s.cmdSlot c.hdr) (exec (.seqDestroy c) s)) ∧
  (∀ s c, Normal.passes s (s.kvPageMapChecks c) = true →
    Normal.edited s c (s.cmdSlot c.hdr) (exec (.kvPageMap c) s)) ∧
  (∀ s c, Normal.passes s (s.kvPageShareChecks c) = true →
    Normal.edited s c (s.cmdSlot c.hdr) (exec (.kvPageShare c) s)) ∧
  (∀ s c, Normal.passes s (s.kvPageFreeChecks c) = true →
    Normal.edited s c (s.cmdSlot c.hdr) (exec (.kvPageFree c) s)) ∧
  (∀ s c, Normal.passes s (s.attnRunChecks c) = true →
    let x : AttnRun := { cmd := c, order := s.sched.nextOrder, slot := s.cmdSlot c.hdr, seq := c.u16 0
                         headgate := (s.queue c.hdr.qkey).headgate }
    ∃ u : State, exec (.attnRun c) s = .next u.pumpRuns ∧ u.attn.runs = s.attn.runs ++ [x] ∧
      u.sched.nextOrder = s.sched.nextOrder + 1) ∧
  (∀ s p t x base mask, Normal.tileDue s p t x base mask = true →
    ∃ u : State, exec (.attnTileSend p) s = .next (u.setAttnRun { x with
      sent := x.sent.insert t.index (x.sent.get 0 t.index + 1), tilesSent := x.tilesSent + 1 })) ∧
  (∀ s id, Normal.editDue s id = true →
    exec (.deferredEditApply id) s = .next ((s.applyHeld s.attn.held.length).pumpRuns))

/-- R311-R313, R319-R321: the Flume commands, and timers.
The model's readings that this rests on are log entries of notes/assumptions (spec/13: 145 to 156). -/
def Obligations.FlumeCommandsComplete : Prop :=
  (∀ s c, Normal.passes s (s.flumeChainStartChecks c) = true →
    ∃ (u : State) (k n : Nat), (s.channel k).phase = .idle ∧
      exec (.flumeChainStart c) s = .next (u.defer c 0 (le 1 (k / 16) ++ le 1 (k % 16) ++ le 2 0 ++ le 4 n ++ le 8 s.now)) ∧
      n = (if c.ex (c.u8 0x19) 0 = 1 then (s.channel k).counter else 0) ∧ (u.channel k).phase = .reading ∧
      (u.channel k).owner = some (s.cmdSlot c.hdr) ∧ (u.channel k).desc = c.u64 8 ∧ (u.channel k).counter = n ∧
      (u.channel k).cmd = some c) ∧
  (∀ s c, Normal.passes s (s.flumeTimerSetChecks c) = true →
    ∃ u : State, exec (.flumeTimerSet c) s = .next (u.finish c stOk 0 (le 1 (c.u8 1) ++ le 1 0 ++ le 2 0 ++ le 4 0 ++ le 8 s.now)) ∧
      (u.timer (c.u8 1)).owner = some (s.cmdSlot c.hdr) ∧ (u.timer (c.u8 1)).period = c.u32 4 ∧ (u.timer (c.u8 1)).counter = 0 ∧
      (c.u32 4 ≠ 0 → c.u64 0x10 = 0 → (u.timer (c.u8 1)).nextAt = (s.now / c.u32 4 + 1) * c.u32 4) ∧
      (c.u32 4 ≠ 0 → c.u64 0x10 ≠ 0 → s.now ≤ c.u64 0x10 → (u.timer (c.u8 1)).nextAt = c.u64 0x10)) ∧
  (∀ s t, Normal.timerDue s t = true →
    exec (.timerTick t) s = .next (s.setTimer t { s.timer t with
      counter := ((s.timer t).counter + 1) % 2 ^ 32, nextAt := (s.timer t).nextAt + (s.timer t).period })) ∧
  (∀ s c, Normal.passes s (s.flumeChainStopChecks c) = true →
    exec (.flumeChainStop c) s = .next (s.stopChain (flumeKey (c.u8 0) (c.u8 1)) (1 + c.u8 2) (some ⟨c, s.now⟩))) ∧
  (∀ s c, Normal.passes s (s.flumeStatusChecks c) = true →
    exec (.flumeStatus c) s = .next (s.finish c stOk 0 ((if c.u8 1 = 0xFF then List.range 16 else [c.u8 1]).flatMap fun n =>
      (s.channelRegs (flumeKey (c.u8 0) n) (some (s.cmdSlot c.hdr))).flatMap fun v => le 8 v)))

/-- R306-R310, R312, R314-R316: what a channel does with its descriptors. A legal descriptor whose wait is over moves its data; then it
is written back, and the chain goes on with the next descriptor, or with the one that LINK names, or ends at STOP.
The model's readings that this rests on are log entries of notes/assumptions (spec/13: 145 to 156). -/
def Obligations.DescriptorsComplete : Prop :=
  (∀ s e n b, Normal.flumePhase s e n .reading = true → Normal.ownedDescriptor s (flumeKey e n) b →
    let k := flumeKey e n
    exec (.descriptorRead e n) s = .next ((s.vtouch ((s.channel k).owner.getD 0) (s.channel k).desc 64).takeDescriptor k b)) ∧
  (∀ s e n b, Normal.flumePhase s e n .waitOwn = true → Normal.ownedDescriptor s (flumeKey e n) b →
    let k := flumeKey e n
    (s.channel k).polledAt + s.fld (uFlume e) 0x040 63 48 ≤ s.now →
    exec (.ownPoll e n) s = .next ((s.vtouch ((s.channel k).owner.getD 0) (s.channel k).desc 64).takeDescriptor k b)) ∧
  (∀ s e n, Normal.flumePhase s e n .waitEvent = true →
    let k := flumeKey e n
    let d := parseDescriptor (s.channel k).held
    waitMet (s.eventSource d.waitEvent).2 d.waitValue = true → Normal.runnable s k (s.channel k).held →
    ∃ t, exec (.eventWaitRelease e n) s = .next t ∧ (t.channel k).phase = .moving ∧ (t.channel k).held = (s.channel k).held ∧
      (t.channel k).placement = (s.job ((s.channel k).owner.getD 0)).placement ∧
      (s.diag.injected = [] → t.memory = s.memory)) ∧
  (∀ s e n, Normal.running s e n 0 = true →
    ∃ t, exec (.copyDescriptor e n) s = .next t ∧ t = s.moveData (flumeKey e n) 0 ∧ (t.channel (flumeKey e n)).phase = .draining) ∧
  (∀ s e n, Normal.running s e n 1 = true →
    ∃ t, exec (.fillDescriptor e n) s = .next t ∧ t = s.moveData (flumeKey e n) 1 ∧ (t.channel (flumeKey e n)).phase = .draining) ∧
  (∀ s e n, Normal.running s e n 2 = true →
    ∃ t, exec (.skewDescriptor e n) s = .next t ∧ t = s.moveData (flumeKey e n) 2 ∧ (t.channel (flumeKey e n)).phase = .draining) ∧
  (∀ s e n, Normal.running s e n 3 = true →
    ∃ t, exec (.transposeDescriptor e n) s = .next t ∧ t = s.moveData (flumeKey e n) 3 ∧
      (t.channel (flumeKey e n)).phase = .draining) ∧
  (∀ s e n, Normal.running s e n 4 = true → (s.channel (flumeKey e n)).stopping = 0 →
    (s.channel (flumeKey e n)).result.bad = false →
    ∃ t, exec (.eventDescriptor e n) s = .next t ∧ t = s.flumeWriteBack (flumeKey e n) 0 ∧
      (t.channel (flumeKey e n)).phase = .reading ∧ (t.channel (flumeKey e n)).desc = (s.channel (flumeKey e n)).desc + 64) ∧
  (∀ s e n, Normal.running s e n 5 = true → (s.channel (flumeKey e n)).stopping = 0 →
    (s.channel (flumeKey e n)).result.bad = false →
    ∃ t, exec (.linkDescriptor e n) s = .next t ∧ t = s.flumeWriteBack (flumeKey e n) 0 ∧
      (t.channel (flumeKey e n)).phase = .reading ∧
      (t.channel (flumeKey e n)).desc = (parseDescriptor (s.channel (flumeKey e n)).held).src % 2 ^ 57) ∧
  (∀ s e n, Normal.running s e n 6 = true → (s.channel (flumeKey e n)).result.bad = false →
    ∃ u : State, exec (.stopChain e n) s = .next (u.endChain (flumeKey e n) 0 ((s.channel (flumeKey e n)).desc + 64) stOk 0 0)) ∧
  (∀ s e n, Normal.writeBackDue s e n = true → (s.channel (flumeKey e n)).stopping = 0 →
    (s.channel (flumeKey e n)).result.bad = false → (parseDescriptor (s.channel (flumeKey e n)).held).op ≤ 3 →
    ∃ t, exec (.descriptorWriteBack e n) s = .next t ∧ t = s.flumeWriteBack (flumeKey e n) 0 ∧
      (t.channel (flumeKey e n)).phase = .reading ∧ (t.channel (flumeKey e n)).desc = (s.channel (flumeKey e n)).desc + 64)

/-- R326, R327, R330, R508: link control frames, training and the loss of light.
The model's readings that this rests on are log entries of notes/assumptions (spec/14: 157 to 173; spec/21: 269 to 277). -/
def Obligations.LinksComplete : Prop :=
  (∀ s p l, Normal.portIn s p .up = true → l.nack = none →
    let x := s.port p
    let u := (s.setPort p { x with
      echo := (l.stamp, s.now), credit := x.credit + l.credits, peer := l.peer, peerPort := l.peerPort }).linkAck p l.ack
    (u.port p).phase = .up → exec (.lcf p l) s = .next (((u.kickPort p).tcExchange p l).collAcked)) ∧
  (∀ s p l, Normal.portIn s p .miswired = true → l.peer = (s.port p).peer → l.peerPort = (s.port p).peerPort →
    exec (.lcf p l) s = .next (s.setPort p { s.port p with
      echo := (l.stamp, s.now), credit := (s.port p).credit + l.credits, peer := l.peer, peerPort := l.peerPort })) ∧
  (∀ s p, Normal.lcfDue s p = true → exec (.lcfTransmit p) s = .next ((s.setPort p { s.port p with
      ackDue := false, nackDue := none, toGrant := 0, lastLcf := s.now }).emit (.linkControl p (s.makeLcf p)))) ∧
  (∀ s p, Normal.portIn s p .down = true → s.fld (uLink p) 0x040 0 0 = 1 →
    exec (.lightDetected p) s = .next ((s.setPort p { s.port p with light := true }).trainPort p)) ∧
  (∀ s p a b w, Normal.portIn s p .training = true →
    exec (.trainingComplete p a b w) s = .next ((s.setPort p { s.port p with
      peer := a, peerPort := b, width := min (s.port p).working w }).checkPeer p)) ∧
  (∀ s p, Normal.portIn s p .training = true → (s.port p).trainingSince + 200 * msec ≤ s.now →
    exec (.trainingTimeout p) s = .next (s.portLost p .down)) ∧
  (∀ s p, Normal.retryDue s p = true → exec (.trainingRetry p) s = .next (s.trainPort p)) ∧
  (∀ s p, Normal.portIn s p .up = true →
    exec (.lossOfLight p) s = .next ((((s.setPort p { s.port p with light := false }).bump (uOptic (p / 4)) 0x020 31 0 1).portLost
      p .down).logError { type := 0x40, cls := 2, unit := uLink p, sub := p })) ∧
  (∀ s e, s.powered = true → e < 4 →
    ∃ t, exec (.connectorRemoval e) s = .next t ∧ ∀ i, i < 4 → (t.port (4 * e + i)).light = false)

/-- R205, R335, R340-R343, R345, R346, R354, R355: collectives and gathers, and the packets of the job's epoch.
The model's readings that this rests on are log entries of notes/assumptions (spec/09: 100 to 110; spec/14: 157 to 173). -/
def Obligations.CollectivesComplete : Prop :=
  (∀ s f slot, Normal.packetFor s f 1 slot = true → f.packet.epoch = ((Normal.received s f).fjob slot).epoch →
    exec (.collPacket f) s = .next (((Normal.received s f).acceptPacket slot f.packet).dataIn slot (uLink f.port) f.packet)) ∧
  (∀ s f slot, Normal.packetFor s f 2 slot = true → f.packet.epoch = ((Normal.received s f).fjob slot).epoch →
    exec (.gatherPiece f) s = .next (((Normal.received s f).acceptPacket slot f.packet).dataIn slot (uLink f.port) f.packet)) ∧
  (∀ s f slot, Normal.packetFor s f 3 slot = true → f.packet.epoch = ((Normal.received s f).fjob slot).epoch →
    exec (.clapPacket f) s = .next (((Normal.received s f).acceptPacket slot f.packet).clapIn slot f.packet)) ∧
  (∀ s f slot, Normal.packetFor s f 3 slot = true → f.packet.epoch = ((Normal.received s f).fjob slot).epoch + 1 →
    f.packet.opId = 0xFFFF →
    exec (.clapPacket f) s = .next (((Normal.received s f).acceptPacket slot f.packet).boundaryIn slot f.packet)) ∧
  (∀ s c, Normal.passes s (s.collectiveRunChecks c) = true →
    ∃ x : Collective, exec (.collectiveRun c) s = .next (s.startCollective x) ∧ x.cmd = c ∧ x.gather = false ∧ x.op = c.u8 0 ∧
      x.id = c.u16 2 ∧ x.epoch = c.u32 4 ∧ x.len = c.u64 8 ∧ x.src = c.u64 0x10 ∧ x.dst = c.u64 0x18 ∧
      x.auxVa = c.u64 0x20 ∧ x.limitAt = s.now + (if c.expert then c.u32 0x34 else s.fld (uLink 0) 0xF10 63 32) * msec) ∧
  (∀ s c, Normal.passes s (s.gatherRunChecks c) = true →
    ∃ (u : State) (x : Collective), exec (.gatherRun c) s = .next (u.startCollective x) ∧ x.cmd = c ∧ x.gather = true ∧
      x.op = 1 ∧ x.id = c.u16 0 ∧ x.pass = c.u8 2 ∧ x.epoch = c.u32 4 ∧ x.len = c.u64 8 ∧ x.src = c.u64 0x10 ∧ x.dst = c.u64 0x18 ∧
      (s.inStep (s.cmdSlot c.hdr) = true → c.u8 2 = 0 →
        (u.reelJob (s.cmdSlot c.hdr)).openIds = c.u16 0 :: (s.reelJob (s.cmdSlot c.hdr)).openIds) ∧
      (s.inStep (s.cmdSlot c.hdr) = false ∨ c.u8 2 = 1 → u = s)) ∧
  (∀ s slot gather id c, Normal.collectiveLate s slot gather id c = true →
    exec (.collectiveLimit slot gather id) s = .next (s.endCollective c stPeerSilent ((c.missing s.fabricId).foldl min 0xFFFF)))

/-- R24, R332, R334, R336-R339, R347, R351-R353, R356: maps, identities, recuts and `link_status`.
The model's readings that this rests on are log entries of notes/assumptions (spec/14: 157 to 173). -/
def Obligations.RecutsComplete : Prop :=
  (∀ s c b m, Normal.passes s (s.portMapSetChecks c) = true → Normal.record s (s.cmdSlot c.hdr) (c.u64 8) 32960 b →
    let u := s.vtouch (s.cmdSlot c.hdr) (c.u64 8) 32960
    u.parseMap b = some m →
    exec (.portMapSet c) s = .next (({ u with fabric := { u.fabric with maps := u.fabric.maps.insert (c.u8 0) m } }).finish c stOk 0
      (le 2 (u.differs m).length ++ le 2 0 ++ le 4 m.routes.length))) ∧
  (∀ s c, Normal.passes s (s.fabricIdSetChecks c) = true →
    let u : State := { s with
      timecode := { s.timecode with twin := c.u16 0 / 2 ^ 15, device := c.u16 0 % 2 ^ 15 }
      fabric := { s.fabric with twinConfig := c.u8 2 == 1 } }
    exec (.fabricIdSet c) s = .next (u.tcReselect.finish c stOk 0 (le 2 s.fabricId ++ le 6 0))) ∧
  (∀ s c, Normal.passes s (s.linkStatusChecks c) = true →
    exec (.linkStatus c) s = .next (s.finish c stOk 0 ((if c.u8 0 = 0xFF then List.range 16 else [c.u8 0]).flatMap fun p =>
      (List.range 9).flatMap fun i => le 8 (s.linkReg p (0x010 + 8 * i))))) ∧
  (∀ s c l u, Normal.passes s (s.recutChecks c (c.u8 5)) = true → c.u8 5 = 0 →
    Normal.layoutRead s (s.cmdSlot c.hdr) (c.u64 8) (c.u32 0) l u →
    let slot := s.cmdSlot c.hdr
    let v := u.defer c 0x0401 (le 4 (s.fjob slot).epoch ++ le 4 (u.activeCount slot) ++ le 8 u.now)
    ∃ r : Recut, exec (.recutDrain c) s = .next (v.setFjob slot { v.fjob slot with
        recut := some r, latestRecut := some c.hdr, fstate := .draining }) ∧
      r.epoch = c.u32 0 ∧ r.map = c.u8 4 ∧ r.abandon = false ∧ r.layout = l ∧ r.switchTc = c.u64 0x10 ∧ r.clapAt = none ∧
      r.releasedAt = none) ∧
  (∀ s c l u, Normal.passes s (s.recutChecks c (c.u8 5)) = true → c.u8 5 = 1 →
    Normal.layoutRead s (s.cmdSlot c.hdr) (c.u64 8) (c.u32 0) l u →
    let slot := s.cmdSlot c.hdr
    let v := u.defer c 0x0401 (le 4 (s.fjob slot).epoch ++ le 4 (u.activeCount slot) ++ le 8 u.now)
    ∃ r : Recut, exec (.recutAbandon c) s = .next (v.acceptRecut slot r) ∧
      r.epoch = c.u32 0 ∧ r.map = c.u8 4 ∧ r.abandon = true ∧ r.layout = l ∧ r.switchTc = c.u64 0x10) ∧
  (∀ s slot, Normal.drained s slot = true → exec (.recutDrained slot) s = .next (s.arriveBoundary slot)) ∧
  (∀ s p j r, Normal.darkDue s p j r = true →
    ∃ t, exec (.portDark p) s = .next t ∧ (t.port p).light = false ∧ (t.port p).peer = 0xFFFF ∧ (t.port p).credit = 0 ∧
      ∃ q, (t.fjob j).recut = some q ∧ q.dark = p :: r.dark ∧ q.darkAt = (r.darkAt.orElse fun _ => some s.now)) ∧
  (∀ s p j r a b w, Normal.relocks s p j r a b = true →
    exec (.portRelock p a b w) s = .next (((s.setPort p { s.port p with
      light := true, peer := a, peerPort := b, width := min (s.port p).working w }).portUpNow p).tryEndRecut j)) ∧
  (∀ s slot r, Normal.recutLate s slot r = true → r.releasedAt = none →
    exec (.recutLimit slot) s = .next (s.endRecut slot stEpochBusy 3)) ∧
  (∀ s slot r, Normal.recutLate s slot r = true → r.releasedAt ≠ none →
    exec (.recutLimit slot) s = .next
      (((r.changed.filter fun p => (s.port p).phase == .recutting).foldl (fun s p => s.portLost p .down) s).endRecut slot stOk 0))

/-- R24, R358, R359, R365-R368, R371, R373, R377-R382: jobs, modes, allotments, turns and migrations.
The model's readings that this rests on are log entries of notes/assumptions (spec/15: 174 to 186). -/
def Obligations.SchedulingComplete : Prop :=
  (∀ s c, Normal.passes s (s.jobCreateChecks c) = true →
    ∃ j, (c.u8 5 ≠ 0xFF → j = c.u8 5) ∧ (s.job j).phase = .free ∧
      exec (.jobCreate c) s = .next ((s.setJob j { phase := .active, tag := c.u32 0, allotment := c.u8 4, placement := 1
                                                   taskLimitUs := c.ex (c.u32 8) 0 }).finish c stOk 0
        (le 1 j ++ le 1 (c.u8 4) ++ le 2 1 ++ le 4 0))) ∧
  (∀ s c, Normal.passes s (s.jobDestroyChecks c) = true →
    let slot := (s.slotOf (c.u32 0)).getD 0
    let u := s.defer c 0 []
    let v := u.setJob slot { u.job slot with phase := .destroying, destroyCmd := some c }
    let w := ((v.jobQueues (c.u32 0)).foldl (fun s q => s.flushQueue q) v).endMigration slot 0 stCancelled 0
    exec (.jobDestroy c) s = .next (if c.u8 4 = 1 then w.cancelJob slot else w)) ∧
  (∀ s slot c, Normal.tornDown s slot c = true →
    ∃ u : State, exec (.jobTeardown slot) s = .next (u.deferredDone c.hdr stOk 0) ∧ u.job slot = {}) ∧
  (∀ s c, Normal.passes s (s.modeSetChecks c) = true →
    ∃ u : State, exec (.modeSet c) s = .next (u.finish c stOk 0 (le 1 (b2n s.sched.allotmentMode) ++ le 7 0)) ∧
      u.sched.allotmentMode = (c.u8 0 == 1) ∧ u.sched.jobs = s.sched.jobs) ∧
  (∀ s c, s.sched.allotmentMode = false → Normal.passes s (s.reserveSetChecks c) = true →
    ∃ u : State, exec (.allotmentSet c) s = .next (u.finish c stOk 0
        (le 1 ((List.range 144).filter fun i => !(s.diag.absent.any fun a => a.1 == i)).length ++ le 1 0 ++ le 6 0 ++ le 8 s.now)) ∧
      (u.sched.allotments.get ({} : Allotment) 0).hgReserve = c.u8 1) ∧
  (∀ s c, s.sched.allotmentMode = true → Normal.passes s (s.allotmentSetChecks c) = true →
    let a := c.u8 0
    let old := s.sched.allotments.get {} a
    let turn := c.u32 4
    let u := s.applyMask a (s.maskCores c) { old with
      valid := !(leAt c.params 8 18 % 2 ^ 144 == 0), emptyYield := c.ex (c.u8 0x20) 1 == 1, hgReserve := c.u8 1, turnUs := turn
      guardUs := c.ex (c.u32 0x24) 0, turnActive := old.turnActive && turn == old.turnUs }
    let x := u.sched.allotments.get {} a
    let result := le 1 (s.maskCores c).length ++ le 1 x.leaving.length ++ le 6 0 ++ le 8 u.now
    (x.leaving ≠ [] → exec (.allotmentSet c) s = .next
      (({ u with sched := { u.sched with allotments := u.sched.allotments.insert a { x with cmds := x.cmds ++ [c] } } }).defer
        c 0 result)) ∧
    (x.leaving = [] → x.cmds = [] → ∃ v : State, exec (.allotmentSet c) s = .next (v.finish c stOk 0 result))) ∧
  (∀ s a j, Normal.turnOver s a j = true →
    ∃ t, exec (.rotationTurnEnd a) s = .next t ∧ (t.sched.allotments.get ({} : Allotment) a).turnActive = true ∧
      (t.sched.allotments.get ({} : Allotment) a).turnJob = j ∧ (t.sched.allotments.get ({} : Allotment) a).turnStart = s.now ∧
      t.sched.turns = satAdd 32 s.sched.turns 1) ∧
  (∀ s c, Normal.passes s (s.taskMigrateChecks c) = true →
    let slot := s.cmdSlot c.hdr
    ∃ m : Migration, exec (.taskMigrate c) s = .next ((s.setJob slot { s.job slot with
        phase := .migrating, migration := some m }).defer c 0x0601
          (le 2 (s.job slot).placement ++ le 2 m.waitFor.length ++ le 4 0)) ∧
      m.cmd = c ∧ m.pairs = migratePairs c ∧ m.ranges = migrateRanges c ∧ m.closing = false) ∧
  (∀ s slot m, Normal.movesNow s slot m = true →
    exec (.migrationDrained slot) s = .next (s.finishMove slot m))


/-- R389, R390, R394, R395, R398, R404, R406-R413: the commands of the resilience unit. Each is the job's latest of its chapter from
its dispatch on (R413): `State.latestRes`.
The model's readings that this rests on are log entries of notes/assumptions (spec/16: 187 to 203). -/
def Obligations.ResilienceCommandsComplete : Prop :=
  (∀ s c, Normal.passes (s.latestRes c) ((s.latestRes c).partnerSetChecks c) = true →
    let u := s.latestRes c
    let slot := s.cmdSlot c.hdr
    let limit := if c.expert then c.u32 8 else u.fld uRes 0x040 31 16
    exec (.partnerSet c) s = .next ((u.setRjob slot { u.rjob slot with
      handshake := some ⟨c, c.u16 0, 0, false, u.now, limit, false⟩ }).sendBulk slot (c.u16 0) (.handshake u.feedTag) 0 [])) ∧
  (∀ s slot x, Normal.handshakeLimit s slot x = true →
    exec (.partnerHandshakeLimit slot) s = .next
      ((s.setRjob slot { s.rjob slot with handshake := none }).finish x.cmd stPeerSilent x.partner [])) ∧
  (∀ s slot, Normal.partnerLimit s slot = true → exec (.partnerLimit slot) s = .next (s.losePartner slot 3)) ∧
  (∀ s c, s.powered = true → c.u16 0 ≠ 0 →
    exec (.feedTagSet c) s = .next ((s.setFld uRes 0x018 15 0 (c.u16 0)).finish c stOk 0 (le 2 s.feedTag ++ le 6 0))) ∧
  (∀ s c, Normal.passes (s.latestRes c) ((s.latestRes c).freezeSetChecks c) = true →
    ∃ (u : State) (result : List Byte), exec (.freezeSet c) s = .next (
        if ((s.latestRes c).rjob (s.cmdSlot c.hdr)).newest.isSome then u.finish c stOk 0 result
        else (u.beginFreeze (s.cmdSlot c.hdr) { kind := 0, cmd := c, take := none, step := c.u32 4, stopped := none }).defer c 0 result) ∧
      (u.rjob (s.cmdSlot c.hdr)).configured = true ∧ (u.rjob (s.cmdSlot c.hdr)).interval = c.u16 0 ∧
      (u.rjob (s.cmdSlot c.hdr)).firstStep = c.u32 4 ∧ (u.rjob (s.cmdSlot c.hdr)).stageVa = c.u64 0x10 ∧
      (u.rjob (s.cmdSlot c.hdr)).reportVa = c.u64 0x18 ∧
      (u.rjob (s.cmdSlot c.hdr)).ringSlates = (if c.u32 8 = 0 then max 4096 (2 * c.u16 0 + 2) else c.u32 8)) ∧
  (∀ s c, Normal.passes (s.latestRes c) ((s.latestRes c).freezeTakeChecks c) = true →
    let u := s.latestRes c
    let slot := s.cmdSlot c.hdr
    exec (.freezeTake c) s = .next ((if c.u8 0 = 0 then u.setRjob slot { u.rjob slot with takeNext := some c }
      else u.beginFreeze slot { kind := 2, cmd := c, take := none, step := u.nextStep slot, stopped := none }).defer c 0 [])) ∧
  (∀ s c, Normal.passes (s.latestRes c) ((s.latestRes c).slateReadChecks c) = true →
    let l := (s.latestRes c).slatesFrom (s.cmdSlot c.hdr) (c.u16 0) (c.u32 4) (c.u16 2)
    let w := (s.latestRes c).slatesOut (s.cmdSlot c.hdr) (c.u64 8) l
    w.2.2 = none → exec (.slateRead c) s = .next (w.1.finish c stOk 0
      (le 4 w.2.1 ++ le 4 (if l.length = c.u16 2 then 0xFFFFFFFF else c.u32 4 + l.length) ++ le 8 0))) ∧
  (∀ s c, Normal.passes (s.latestRes c) ((s.latestRes c).negativeLoadChecks c) = true →
    let u := (s.latestRes c).defer c 0 []
    let r := (s.latestRes c).rjob (s.cmdSlot c.hdr)
    exec (.negativeLoad c) s = .next (if r.load.isSome then u.setRjob (s.cmdSlot c.hdr) { r with loads := r.loads ++ [c] }
      else u.startLoad (s.cmdSlot c.hdr) c)) ∧
  (∀ s c, Normal.passes (s.latestRes c) ((s.latestRes c).retakeRunChecks c) = true →
    ∃ u : State, exec (.retakeRun c) s = .next (u.defer c 0 (le 4 (c.u32 0) ++ le 4 0 ++ le 8 s.now)) ∧
      (u.rjob (s.cmdSlot c.hdr)).retake.any (fun x => decide (x.cmd = c) && x.step == c.u32 0) = true) ∧
  (∀ s c l b w, Normal.passes (s.latestRes c) ((s.latestRes c).spreadApplyChecks c) = true →
    let u := s.latestRes c
    let old := ((u.fjob (s.cmdSlot c.hdr)).layout.getD ⟨0, [], []⟩)
    b = ((List.range (min (c.u8 0) 8)).map fun i => c.u16 (0x18 + 2 * i)) →
    Normal.layoutRead u (s.cmdSlot c.hdr) (c.u64 0x10) ((u.fjob (s.cmdSlot c.hdr)).epoch + 1) l w →
    l.equivalent old = true → (l.entries.any fun e => b.contains e) = false →
    ∃ (v : State) (x : Recut), exec (.spreadApply c) s = .next (v.acceptRecut (s.cmdSlot c.hdr) x) ∧ x.abandon = true ∧
      x.layout = l ∧ x.epoch = (u.fjob (s.cmdSlot c.hdr)).epoch + 1 ∧ (v.rjob (s.cmdSlot c.hdr)).phase = .spreading ∧
      (v.rjob (s.cmdSlot c.hdr)).spread.any (fun y => decide (y.cmd = c)) = true)

/-- R388, R390-R393, R395-R399, R403: freezes as they stop and resume, the end of a load, and the messages of BULK packets.
The model's readings that this rests on are log entries of notes/assumptions (spec/16: 187 to 203). -/
def Obligations.ResilienceEventsComplete : Prop :=
  (∀ s slot f, Normal.freezeStop s slot f = true → exec (.freezeStop slot) s = .next (s.stopJob slot f)) ∧
  (∀ s slot f t0 k, Normal.freezeResume s slot f t0 k = true →
    ∃ t, exec (.freezeResume slot) s = .next t ∧ (t.rjob slot).freeze = none ∧ (t.rjob slot).lastStop = s.now - t0.ns) ∧
  (∀ s slot l x, Normal.negativeLoadDone s slot l x = true →
    let w := (l.targets x).foldl (fun (acc : State × Option VFault) t => match acc.2 with
      | some _ => acc
      | none => acc.1.writeImage slot x t.1 t.2.1 t.2.2) (s, none)
    w.2 = none → exec (.negativeLoadDone slot) s = .next ((w.1.loaded slot l x (l.targets x)).endLoad slot stOk 0
      (le 8 (((l.targets x).map fun t => t.2.2).sum) ++ le 4 (l.targets x).length ++ le 4 0))) ∧
  (∀ s f slot step, Normal.packetFor s f 4 slot = true → exec (.bulkPacket f (.slate step)) s = .next
    ((Normal.bulkState s f slot).mirrorIn slot f.packet.src step f.packet.payload)) ∧
  (∀ s f slot step, Normal.packetFor s f 4 slot = true → exec (.bulkPacket f (.slateAck step)) s = .next
    ((Normal.bulkState s f slot).mirrorAcked slot f.packet.src step)) ∧
  (∀ s f slot h, Normal.packetFor s f 4 slot = true → exec (.bulkPacket f (.header h)) s = .next
    ((Normal.bulkState s f slot).headerIn slot f.packet.src h)) ∧
  (∀ s f slot step, Normal.packetFor s f 4 slot = true → exec (.bulkPacket f (.piece step)) s = .next
    ((Normal.bulkState s f slot).pieceIn slot f.packet.src step f.packet.offset f.packet.payload)) ∧
  (∀ s f slot step b ok, Normal.packetFor s f 4 slot = true → exec (.bulkPacket f (.blockAck step b ok)) s = .next
    ((Normal.bulkState s f slot).blockAcked slot f.packet.src step b ok)) ∧
  (∀ s f slot owner, Normal.packetFor s f 4 slot = true → exec (.bulkPacket f (.release owner)) s = .next
    (((Normal.bulkState s f slot).dropInbound slot owner).partnerState slot 4 owner 0)) ∧
  (∀ s f slot owner step, Normal.packetFor s f 4 slot = true → exec (.bulkPacket f (.loadRequest owner step)) s = .next
    ((Normal.bulkState s f slot).loadAsked slot f.packet.src owner step)) ∧
  (∀ s f slot feed twin h r, Normal.packetFor s f 4 slot = true → exec (.bulkPacket f (.answer feed twin h r)) s = .next
    ((Normal.bulkState s f slot).answered slot f.packet.src feed twin h r)) ∧
  (∀ s f slot feed, Normal.packetFor s f 4 slot = true →
    let u := (Normal.received s f).acceptPacket slot f.packet
    exec (.partnerHandshake f feed) s = .next (u.sendBulk slot f.packet.src (.answer u.feedTag u.timecode.twin true
      ((Normal.received s f).inboundOf slot f.packet.src).isSome) 0 []))
/-- R418-R422, R431, R433-R435: screen tests, sweeps, the error log, injection and the control cores' watchdog.
The model's readings that this rests on are log entries of notes/assumptions (spec/17: 204 to 217). -/
def Obligations.FaultsComplete : Prop :=
  (∀ s unit sub type t subs spare, Normal.tested s unit sub type t = true → t.mustFail = false → 624 < unit →
    exec (.screenTestComplete unit sub type false subs spare) s = .next
      ((State.passed { s with diag := { s.diag with screens := s.diag.screens.filter fun x => !decide (x = t) } } t).endTest t 2)) ∧
  (∀ s unit sub type t subs spare, Normal.tested s unit sub type t = true → t.reportOnly = false → 624 < unit →
    let u : State := { s with diag := { s.diag with screens := s.diag.screens.filter fun x => !decide (x = t) } }
    let v := u.verdict t subs spare (!t.entries.isEmpty && t.entries.all fun i => bitAt (s.diag.log.get default i).flags 0)
    exec (.screenTestComplete unit sub type true subs spare) s = .next (v.2.endTest t v.1)) ∧
  (∀ s c a p, Normal.sweepDue s c a p = true →
    exec (.sweep c) s = .next { s with diag := { s.diag with
      lastSweep := s.diag.lastSweep.insert c s.now
      screens := s.diag.screens ++ [(⟨uCore p, 0, 0x11, s.now, true, [], [], false, true, false⟩ : Screen)] } }) ∧
  (∀ s c type target, Normal.passes s (s.screenTestRunChecks c) = true → c.u16 0 ≠ 0xFFFF →
    unitTest (c.u16 0) = some (type, target) → 156 < target → (s.diag.screens.all fun x => x.unit != target) = true →
    let u := s.defer c 0 (le 2 1 ++ le 2 0 ++ le 4 0)
    exec (.screenTestRun c) s = .next { u with diag := { u.diag with
      screens := u.diag.screens ++ [(⟨target, 0, type, u.now, true, [], [c.hdr], c.u8 2 == 1, false, false⟩ : Screen)]
      runs := u.diag.runs ++ [(⟨c, 1, none⟩ : ScreenRun)] } }) ∧
  (∀ s c, Normal.passes s (s.errorLogReadChecks c) = true →
    let held := s.diag.log.filter fun e => c.u32 0 ≤ e.1
    let hits := (held.filter fun e => c.u8 5 ≤ e.2.cls).take (c.u8 4)
    let last := if hits.length = c.u8 4 then hits.getLast? else held.getLast?
    ∃ u : State, exec (.errorLogRead c) s = .next (u.finish c stOk 0
        (le 4 ((last.map fun e => e.1 + 1).getD (c.u32 0)) ++ le 2 hits.length ++
          le 2 (min ((s.diag.log.head?.map (·.1)).getD s.diag.nextIndex - c.u32 0) 65535) ++ hits.flatMap fun e => e.2.bytes)) ∧
      u.diag.log.map (·.1) = s.diag.log.map (·.1)) ∧
  (∀ s c, Normal.passes s (s.errorInjectChecks c) = true → c.u8 2 ≤ 1 →
    exec (.errorInject c) s = .next (({ s with diag := { s.diag with
      injected := s.diag.injected ++ [(⟨c.u16 0, c.u32 4, c.u64 8, 1 + c.u8 2⟩ : Injected)] } }).finish c stOk 0 (le 4 0xFFFFFFFF ++ le 4 0))) ∧
  (∀ s c, Normal.passes s (s.errorInjectChecks c) = true → c.u8 2 = 2 →
    ∃ u : State, exec (.errorInject c) s = .next (u.finish c stOk 0 (le 4 s.diag.nextIndex ++ le 4 0))) ∧
  (∀ s n, s.powered = true → n < 4 → n ∉ s.diag.controlRetired →
    exec (.heartbeat n) s = .next { s with diag := { s.diag with lastReport := s.diag.lastReport.insert n s.now } }) ∧
  (∀ s n, Normal.heartbeatLost s n = true → (s.diag.timeouts.all fun e => e.1 != n) = true →
    exec (.controlHeartbeatTimeout n) s = .next (State.logError { s with
      power := { s.power with alive := putBit s.power.alive n false, timeouts := satAdd 32 s.power.timeouts 1 }
      diag := { s.diag with
        timeouts := s.diag.timeouts.insert n s.now, lastReport := s.diag.lastReport.insert n s.now } }
      { type := 0x70, cls := 2, unit := uWmaster, sub := n }))

/-- R447-R450, R453, R457-R459: estimates, clamps, operating points, samples and limits.
The model's readings that this rests on are log entries of notes/assumptions (spec/18: 218 to 229). -/
def Obligations.PowerComplete : Prop :=
  (∀ s watts dynamic, s.powered = true →
    ∃ u : State, exec (.powerEstimate watts dynamic) s = .next u.reclamp ∧ u.power.powerW = watts ∧ u.power.dynamicW = dynamic ∧
      u.power.peakSeen = max s.power.peakSeen watts ∧ u.power.energyUj = s.power.energyUj + watts ∧
      u.power.excursionUs = (if s.power.tdpW < watts then s.power.excursionUs + 1 else 0)) ∧
  (∀ s, s.powered = true → s.power.atBackstop = true →
    exec .excursionBackstop s = .next (State.reclamp { s with power := { s.power with backstop := true } })) ∧
  (∀ s, s.powered = true → s.clampCause.1 = 0 → s.power.clampK ≠ 0 →
    exec .clampReleaseStep s = .next { s with power := { s.power with clampK := s.power.clampK - 1 } }) ∧
  (∀ s, s.powered = true → s.pins.throtInN = true →
    exec .throtInAssert s = .next (State.reclamp { s with
      pins := { s.pins with throtInN := false }, power := { s.power with throtIns := satAdd 16 s.power.throtIns 1 } })) ∧
  (∀ s, s.powered = true →
    exec .throtInDeassert s = .next (State.reclamp { s with pins := { s.pins with throtInN := true } })) ∧
  (∀ s, s.powered = true → Normal.mustLower s = true → s.power.point < 4 →
    ∃ t, exec .gafferTick s = .next t ∧ t.power.point = s.power.point + 1 ∧ t.power.arithMhz = (opPoint (s.power.point + 1)).1 ∧
      t.power.vddMv = (opPoint (s.power.point + 1)).2.1) ∧
  (∀ s, s.powered = true → Normal.mayRaise s = true →
    ∃ t, exec .gafferTick s = .next t ∧ t.power.point = s.power.point ∧ t.power.vddMv = (opPoint (s.power.point - 1)).2.1 ∧
      t.power.pendingPoint = some (s.power.point - 1)) ∧
  (∀ s p, s.powered = true → s.power.pendingPoint = some p →
    ∃ t, exec .setpointReached s = .next t ∧ t.power.point = p ∧ t.power.arithMhz = (opPoint p).1 ∧ t.power.pendingPoint = none) ∧
  (∀ s mv ma, s.powered = true →
    ∃ t, exec (.railSample mv ma) s = .next t ∧ ∀ r, r < 6 →
      t.reg uGaffer (0x100 + 8 * r) = ((mv.getD r 0 % 65536) <<< 48 + (ma.getD r 0 % 2 ^ 24) <<< 24) % 2 ^ 64) ∧
  (∀ s cmp iod hbm opt, s.powered = true →
    ∃ u : State, exec (.tempSample cmp iod hbm opt) s = .next u.reclamp ∧ u.power.cmpC = cmp % 256 ∧ u.power.iodC = iod % 256 ∧
      u.power.thermalK = thermalLevel s.power.thermalK cmp) ∧
  (∀ s c, Normal.passes s (s.telemetryReadChecks c) = true →
    let t := s.finish c stOk 0 s.telemetry
    exec (.telemetryRead c) s = .next (if c.ex (c.u8 0) 0 = 1 then { t with power := { t.power with peakSeen := 0 } } else t)) ∧
  (∀ s c, Normal.passes s (s.powerLimitSetChecks c) = true →
    ∃ u : State, exec (.powerLimitSet c) s = .next (u.reclamp.finish c stOk 0
        (le 2 s.power.tdpW ++ le 2 s.power.peakW ++ le 1 s.power.peakMs ++ le 3 0)) ∧ u.power.tdpW = c.u16 0 ∧
      u.power.peakW = c.u16 2 ∧ u.power.peakMs = c.u8 4)

/-- R496, R499, R501-R503, R509: the pins and the side ports.
The model's readings that this rests on are log entries of notes/assumptions (spec/21: 269 to 277). -/
def Obligations.PinsComplete : Prop :=
  (∀ s b, s.powered = true → exec (.setpAlert b) s = .next { s with pins := { s.pins with setpAlertN := !b } }) ∧
  (∀ s b, s.powered = true → exec (.i3cIndexWrite [b]) s = .next { s with pins := { s.pins with i3cIndex := b.toNat } }) ∧
  (∀ s a b l, s.powered = true → exec (.i3cIndexWrite (a :: b :: l)) s = .next (s.emit .i3cNack)) ∧
  (∀ s, s.powered = true → exec .i3cRead s = .next (State.emit
    { s with pins := { s.pins with i3cIndex := (s.pins.i3cIndex + 1) % 256 } } (.i3c (le 8 (s.i3cValue s.pins.i3cIndex))))) ∧
  (∀ s a, s.powered = true → exec (.dynamicAddressAssignment a) s = .next { s with pins := { s.pins with i3cAddress := a % 128 } }) ∧
  (∀ s, s.powered = true → exec .ppsInEdge s = .next { s with pins := { s.pins with ppsStamp := s.now } }) ∧
  (∀ s, exec (.tapInstruction .idcode) s = .next (State.emit { s with pins := { s.pins with tapInstruction := 1 } }
    (.tap 1 0x1074C0B3))) ∧
  (∀ s, s.pins.testMode = false →
    exec (.tapInstruction .extest) s = .next (State.emit { s with pins := { s.pins with tapInstruction := 0 } } (.tap 0 0))) ∧
  (∀ s, exec .pwrGoodDeassert s = .next { s with
    powered := false, pins := { s.pins with pwrGood := false, faultN := true }, power := { s.power with stopped := false } }) ∧
  (∀ s, s.powered = true → exec .railFault s = .next { s with
    powered := false, pins := { s.pins with faultN := false }, power := { s.power with stopped := true, pll := 0 } }) ∧
  (∀ s, s.powered = true → exec .thermalTrip s = .next { s with
    powered := false, pins := { s.pins with faultN := false }, power := { s.power with stopped := true, pll := 0 } })

/-- R63, R65, R66, R438, R443-R446, R456, R460: power-good, functions, device states, and a chain's last read.
The model's readings that this rests on are log entries of notes/assumptions (spec/03: 22 to 31; spec/18: 218 to 229; spec/19: 230 to 251). -/
def Obligations.BringupComplete : Prop :=
  (∀ s f, s.powered = false → s.pins.pwrGood = false →
    ∃ u : State, exec (.pwrGood f) s = .next (u.hostLinkUp.csSetBits [2]) ∧
      bitAt (u.hostLinkUp.csSetBits [2]).xanca.ready 2 = true) ∧
  (∀ s b, s.powered = true → s.canBeReady b = true → b ≠ 35 →
    ∃ u : State, exec (.functionReady b) s = .next (u.csSetBits [b])) ∧
  (∀ s b, Normal.functionStops s b = true → b < 16 ∨ 31 < b →
    exec (.functionStopsBeingUsable b) s = .next (s.csDrop b)) ∧
  (∀ s b, Normal.functionStops s b = true → 16 ≤ b → b ≤ 19 →
    exec (.functionStopsBeingUsable b) s = .next ((s.csDrop b).logError
      { type := 0x32, cls := 2, unit := uHbm (b - 16), sub := b - 16 })) ∧
  (∀ s c, Normal.passes s (s.movePowerChecks c) = true → s.power.moving = false → c.u8 0 = 1 → s.power.dstate = .doze →
    ∃ u : State, exec (.powerStateSet c) s = .next (u.finish c stOk 0
        (u.moveResult .doze (Config.freeValue (s.dozeSettings c).freshCount))) ∧ u.power.dstate = .sleep) ∧
  (∀ s c, Normal.passes s (s.movePowerChecks c) = true → s.power.moving = false → c.u8 0 = 0 → s.power.dstate = .sleep →
    exec (.powerStateSet c) s = .next ((s.dozeSettings c).beginWake c)) ∧
  (∀ s c, s.powered = true → s.power.moving = true →
    exec (.powerStateSet c) s = .next { s with power := { s.power with heldMoves := s.power.heldMoves ++ [c] } }) ∧
  (∀ s, Normal.dozeDue s = true → ∃ t, exec .dozeEntry s = .next t ∧ t.power.dstate = .doze) ∧
  (∀ s f, s.powered = true → s.power.dstate = .standby →
    ∃ t, exec (.hostPortEnergyWake f) s = .next t ∧ t.power.dstate = .sleep ∧ t.power.wakeCause = 5) ∧
  (∀ s k n, s.powered = true → (s.channel k).discarding = true →
    exec (.readDrainComplete true k n) s = .next
      ((s.setChannel k { s.channel k with discarding := false }).flumeWriteBack k n))

/-- R463-R466, R473, R474: the firmware image and the configuration record. An image that does not verify is discarded with the DETAIL
of its first failure.
The model's readings that this rests on are log entries of notes/assumptions (spec/19: 230 to 251). -/
def Obligations.SecurityComplete : Prop :=
  (∀ s c, Normal.passes s (s.firmwareLoadBeginChecks c) = true →
    exec (.firmwareLoadBegin c) s = .next (State.finish { s with security := { s.security with
      loadSession := c.hdr.session, image := [], imageLen := c.u32 8, phase := .loading } } c stOk 0 (le 4 0 ++ le 4 0))) ∧
  (∀ s c, Normal.passes s (s.firmwareLoadDataChecks c) = true →
    let m := putImage s.security.image (c.u32 4) (c.params.drop 16)
    exec (.firmwareLoadData c) s = .next (State.finish { s with security := { s.security with image := m } } c stOk 0
      (le 4 m.length ++ le 4 0))) ∧
  (∀ s c, Normal.passes s (s.firmwareLoadCommitChecks c) = true →
    let img := firmwareBytes s.security.image s.security.imageLen
    let bad := verifyImage s.security.image s.security.imageLen s.minSvn
    ∃ u : State, exec (.firmwareLoadCommit c) s = .next (u.finish c (if bad.isNone then stOk else stAuthFail) (bad.getD 0)
        (if bad.isNone then le 4 (leAt img 0xC 4) ++ le 4 (leAt img 0x10 4) ++ shake256 img 32 ++ le 8 s.now else [])) ∧
      u.security.loadSession = 0 ∧ u.security.image = [] ∧
      (bad = none → u.security.committed = true ∧ u.security.firmware = img ∧ u.security.fwSvn = leAt img 0x10 4) ∧
      (bad ≠ none → u.security.loadFailed = satAdd 16 s.security.loadFailed 1 ∧ u.security.committed = s.security.committed)) ∧
  (∀ s c, Normal.passes s (s.firmwareLoadAbortChecks c) = true →
    exec (.firmwareLoadAbort c) s = .next ((if s.security.loadSession = 0 then s else s.dropLoad).finish c stOk 0
      (le 4 s.security.image.length ++ le 4 0))) ∧
  (∀ s c, Normal.passes s (s.configWriteSetChecks c) = true →
    let t := s.configCommit c fun x => { x with settings := (configEntries c).foldl putSetting s.fieldCopy.settings }
    exec (.configWriteSet c) s = .next (if c.u8 2 = 1 then (configEntries c).foldl State.applySetting t else t)) ∧
  (∀ s c, Normal.passes s (s.configWriteClearChecks c) = true →
    exec (.configWriteClear c) s = .next (s.configCommit c fun x => { x with
      settings := x.settings.filter fun y => !((configEntries c).any y.sameAs) })) ∧
  (∀ s c, Normal.passes s (s.configWriteHostKeyChecks c) = true →
    let key := sliceBytes c.params 8 32
    exec (.configWriteHostKey c) s = .next (State.configCommit { s with security := { s.security with
      hostKey := if key.all (· == 0) then none else some key } } c id)) ∧
  (∀ s c, Normal.passes s (s.configWriteMinSvnChecks c) = true →
    exec (.configWriteMinSvn c) s = .next (s.configCommit c fun x => { x with minSvn := c.u32 4 }))

/-- R468-R471, R475, R476: reports use the next leaf of the active key, the chain is read item by item, and a rollover makes the next
generation.
The model's readings that this rests on are log entries of notes/assumptions (spec/19: 230 to 251). -/
def Obligations.IdentityComplete : Prop :=
  (∀ s c, Normal.passes s (s.attestReportChecks c) = true →
    ∃ (u : State) (tc : Stamp), exec (.attestReport c) s = .next ((u.finish c stOk 0
        (u.reportHead (sliceBytes c.params 8 32) (c.ex (c.u64 0x28) 0) tc ++
          fitBytes 2820 (Config.xmssSign s.security.keyGen s.security.nextIndex
            (ascii "G7ATTEST" ++ u.reportHead (sliceBytes c.params 8 32) (c.ex (c.u64 0x28) 0) tc)) ++ le 4 0)).identityLow) ∧
      u.security.nextIndex = s.security.nextIndex + 1 ∧ u.security.keyGen = s.security.keyGen ∧
      (s.security.reservedTo ≤ s.security.nextIndex → u.security.reservedTo = s.security.nextIndex + 64)) ∧
  (∀ s c, Normal.passes s (s.attestChainChecks c) = true → s.security.chain.length ≤ 253 →
    ∃ u : State, exec (.attestChain c) s = .next (u.finish c stOk 0
      (le 1 (2 + s.security.chain.length) ++ le 1 (c.u8 1) ++ le 6 0 ++ s.chainItem (c.u8 1) ++
        le ((8 - (s.chainItem (c.u8 1)).length % 8) % 8) 0))) ∧
  (∀ s c, Normal.passes s (s.attestRollChecks c) = true →
    exec (.attestRoll c) s = .next (State.defer { s with security := { s.security with rollCmd := some c } } c 0 [])) ∧
  (∀ s c, s.powered = true → s.security.rollCmd = some c →
    ∃ u : State, exec (.keyRolled true) s = .next (u.deferredDoneWith c.hdr stOk
        (le 2 0 ++ le 6 0 ++ le 1 (s.security.keyGen + 1) ++ le 7 0 ++ le 8 s.now)) ∧
      u.security.keyGen = s.security.keyGen + 1 ∧ u.security.nextIndex = 0 ∧ u.security.rollCmd = none ∧
      u.security.chain.length = s.security.chain.length + 1)

/-- R477, R478, R480-R482, R493: the host port's link, its neighbours, and queue pairs. A WRITE is acknowledged once every byte has been
written; a READ answers what the map reads.
The model's readings that this rests on are log entries of notes/assumptions (spec/20: 252 to 268). -/
def Obligations.HostPortComplete : Prop :=
  (∀ s target src, s.powered = true → s.hostUp = true → (s.rxBytes 0).ownAddress target = true →
    exec (.neighbourDiscovery target src) s = .next ((s.rxBytes 0).emit (.network 1 [src, target, (s.rxBytes 0).hostMac]))) ∧
  (∀ s dst src data, s.powered = true → s.hostUp = true → (s.rxBytes data.length).ownAddress dst = true →
    exec (.icmpv6Echo dst src data) s = .next ((s.rxBytes data.length).emit (.network 2 ([src, dst] ++ data.map (·.toNat))))) ∧
  (∀ s, s.powered = true → s.hostUp = true →
    exec .hostLinkLoss s = .next (((s.setFld uHostport 0x010 63 60 1).setFld uHostport 0x010 59 56 0).csDrop 2)) ∧
  (∀ s prio quanta, s.powered = true → s.hostUp = true → prio = (s.rxBytes 0).fld uHostport 0x040 7 4 → prio ≤ 7 →
    ∃ t, exec (.pfcFrame prio quanta) s = .next t ∧
      t.hostPort.pausedUntil = s.now + ceilDiv (quanta % 65536 * 64) 100 ∧ t.outputs = s.outputs) ∧
  (∀ s r, Normal.connects s r = true →
    let n := leAt r.privateData 4 2
    ∃ (u : State) (k : Nat) (q : QueuePair), exec (.cmReq r) s = .next (u.qpState k q 1 0 stOk) ∧ u.qp k = some q ∧
      q.session = n ∧ q.inst = (s.session n).inst ∧ q.jobTag = leAt r.privateData 0 4 ∧
      some q.slot = s.slotOf (leAt r.privateData 0 4) ∧ q.recvVa = leAt r.privateData 8 8 ∧
      q.recvSlots = leAt r.privateData 16 4 ∧ q.hostQpn = r.hostQpn ∧ q.hostAddr = r.src ∧ q.connected = true ∧
      q.nextSlot = 0 ∧ q.filled = []) ∧
  (∀ s n q, Normal.connected s n q = true → q.gone = false →
    ∃ u : State, exec (.cmDreq n) s = .next (u.qpState n q 3 0 stOk) ∧ u.qp n = none) ∧
  (∀ s n q ecn data i, Normal.connected s n q = true → data.length ≤ 4096 →
    let u := Normal.requested s data.length ecn q
    (((List.range q.recvSlots).map fun k => (q.nextSlot + k) % q.recvSlots).find? fun i => !(u.unreleased q).contains i) = some i →
    let w := u.vwrite q.slot (q.recvVa + 4096 * i) data false
    w.2.2 = none →
    exec (.rdmaSend n ecn data) s = .next ((w.1.setQp n { q with
      nextSlot := (i + 1) % q.recvSlots, filled := u.unreleased q ++ [i] }).emit (.network 6 [q.hostAddr, q.hostQpn]))) ∧
  (∀ s n q ecn va data, Normal.connected s n q = true →
    let w := (Normal.requested s data.length ecn q).vwrite q.slot va data false
    w.2.2 = none → exec (.rdmaWrite n ecn va q.rkey data) s = .next (w.1.emit (.network 6 [q.hostAddr, q.hostQpn]))) ∧
  (∀ s n q ecn va len b, Normal.connected s n q = true →
    let u := Normal.requested s 0 ecn q
    u.vread q.slot va len = .ok (b, false) →
    exec (.rdmaRead n ecn va q.rkey len) s = .next ((u.vtouch q.slot va len).emit
      (.network 7 ([q.hostAddr, q.hostQpn] ++ b.map (·.toNat)))))

/-- R483-R488, R491, R492: decodes wait for their engine, and end with what their frames have come to.
The model's readings that this rests on are log entries of notes/assumptions (spec/20: 252 to 268). -/
def Obligations.IntakeComplete : Prop :=
  (∀ s c, Normal.passes s (s.intakeDecodeChecks c) = true →
    let e := s.intakeEngine (c.u8 1)
    exec (.intakeDecode c) s = .next (s.setDecodes e (s.decodes e ++ [{ cmd := c, slot := s.cmdSlot c.hdr }]))) ∧
  (∀ s e r d rest, Normal.decoded s e r d rest = true → d.cancelled = false →
    let x := (r.frames.foldl (State.decodeFrame d e r) (s.setDecodes e rest, ({} : DecodeRun))).2
    ∃ u : State, exec (.intakeDecodeComplete e r) s = .next (u.finish d.cmd (x.stop.getD (stOk, 0)).1 (x.stop.getD (stOk, 0)).2
      (le 4 x.written ++ le 4 x.skipped ++ le 2 r.width ++ le 2 r.height ++ le 4 e ++ le 8 x.bytes ++ le 8 u.now))) ∧
  (∀ s c, Normal.passes s (s.intakeStatusChecks c) = true →
    exec (.intakeStatus c) s = .next (s.finish c stOk 0 ((if c.u8 0 = 0xFF then List.range 4 else [c.u8 0]).flatMap fun e =>
      [0x010, 0x018, 0x020, 0x028, 0x030, 0x038].flatMap fun off => le 8 (s.intakeReg e off))))
end

