-- ==== Sys2Proof/Laws/State.lean ====
section
/-! SUPPORT. What an update of one record of the state leaves alone: one lemma for each field of the state, true by rfl. -/

namespace Sys2Proof.Machine

/-! `State.setAttnRun` changes `attn`. -/

@[simp] theorem State.setAttnRun_pending (s : State) (x : AttnRun) : (s.setAttnRun x).pending = s.pending := rfl
@[simp] theorem State.setAttnRun_umauth (s : State) (x : AttnRun) : (s.setAttnRun x).umauth = s.umauth := rfl
@[simp] theorem State.setAttnRun_xanca (s : State) (x : AttnRun) : (s.setAttnRun x).xanca = s.xanca := rfl
@[simp] theorem State.setAttnRun_timecode (s : State) (x : AttnRun) : (s.setAttnRun x).timecode = s.timecode := rfl
@[simp] theorem State.setAttnRun_diag (s : State) (x : AttnRun) : (s.setAttnRun x).diag = s.diag := rfl
@[simp] theorem State.setAttnRun_security (s : State) (x : AttnRun) : (s.setAttnRun x).security = s.security := rfl
@[simp] theorem State.setAttnRun_cores (s : State) (x : AttnRun) : (s.setAttnRun x).cores = s.cores := rfl
@[simp] theorem State.setAttnRun_sched (s : State) (x : AttnRun) : (s.setAttnRun x).sched = s.sched := rfl
@[simp] theorem State.setAttnRun_fabric (s : State) (x : AttnRun) : (s.setAttnRun x).fabric = s.fabric := rfl
@[simp] theorem State.setAttnRun_spads (s : State) (x : AttnRun) : (s.setAttnRun x).spads = s.spads := rfl
@[simp] theorem State.setAttnRun_conts (s : State) (x : AttnRun) : (s.setAttnRun x).conts = s.conts := rfl
@[simp] theorem State.setAttnRun_streams (s : State) (x : AttnRun) : (s.setAttnRun x).streams = s.streams := rfl
@[simp] theorem State.setAttnRun_reels (s : State) (x : AttnRun) : (s.setAttnRun x).reels = s.reels := rfl
@[simp] theorem State.setAttnRun_memory (s : State) (x : AttnRun) : (s.setAttnRun x).memory = s.memory := rfl
@[simp] theorem State.setAttnRun_resil (s : State) (x : AttnRun) : (s.setAttnRun x).resil = s.resil := rfl
@[simp] theorem State.setAttnRun_flume (s : State) (x : AttnRun) : (s.setAttnRun x).flume = s.flume := rfl
@[simp] theorem State.setAttnRun_hostPort (s : State) (x : AttnRun) : (s.setAttnRun x).hostPort = s.hostPort := rfl
@[simp] theorem State.setAttnRun_power (s : State) (x : AttnRun) : (s.setAttnRun x).power = s.power := rfl
@[simp] theorem State.setAttnRun_pins (s : State) (x : AttnRun) : (s.setAttnRun x).pins = s.pins := rfl
@[simp] theorem State.setAttnRun_powered (s : State) (x : AttnRun) : (s.setAttnRun x).powered = s.powered := rfl
@[simp] theorem State.setAttnRun_regs (s : State) (x : AttnRun) : (s.setAttnRun x).regs = s.regs := rfl
@[simp] theorem State.setAttnRun_outputs (s : State) (x : AttnRun) : (s.setAttnRun x).outputs = s.outputs := rfl
@[simp] theorem State.setAttnRun_freshCount (s : State) (x : AttnRun) : (s.setAttnRun x).freshCount = s.freshCount := rfl

/-! `State.setClap` changes `streams`. -/

@[simp] theorem State.setClap_pending (s : State) (slot n : Nat) (c : Clap) : (s.setClap slot n c).pending = s.pending := rfl
@[simp] theorem State.setClap_umauth (s : State) (slot n : Nat) (c : Clap) : (s.setClap slot n c).umauth = s.umauth := rfl
@[simp] theorem State.setClap_xanca (s : State) (slot n : Nat) (c : Clap) : (s.setClap slot n c).xanca = s.xanca := rfl
@[simp] theorem State.setClap_timecode (s : State) (slot n : Nat) (c : Clap) : (s.setClap slot n c).timecode = s.timecode := rfl
@[simp] theorem State.setClap_diag (s : State) (slot n : Nat) (c : Clap) : (s.setClap slot n c).diag = s.diag := rfl
@[simp] theorem State.setClap_security (s : State) (slot n : Nat) (c : Clap) : (s.setClap slot n c).security = s.security := rfl
@[simp] theorem State.setClap_cores (s : State) (slot n : Nat) (c : Clap) : (s.setClap slot n c).cores = s.cores := rfl
@[simp] theorem State.setClap_sched (s : State) (slot n : Nat) (c : Clap) : (s.setClap slot n c).sched = s.sched := rfl
@[simp] theorem State.setClap_fabric (s : State) (slot n : Nat) (c : Clap) : (s.setClap slot n c).fabric = s.fabric := rfl
@[simp] theorem State.setClap_spads (s : State) (slot n : Nat) (c : Clap) : (s.setClap slot n c).spads = s.spads := rfl
@[simp] theorem State.setClap_conts (s : State) (slot n : Nat) (c : Clap) : (s.setClap slot n c).conts = s.conts := rfl
@[simp] theorem State.setClap_reels (s : State) (slot n : Nat) (c : Clap) : (s.setClap slot n c).reels = s.reels := rfl
@[simp] theorem State.setClap_memory (s : State) (slot n : Nat) (c : Clap) : (s.setClap slot n c).memory = s.memory := rfl
@[simp] theorem State.setClap_resil (s : State) (slot n : Nat) (c : Clap) : (s.setClap slot n c).resil = s.resil := rfl
@[simp] theorem State.setClap_flume (s : State) (slot n : Nat) (c : Clap) : (s.setClap slot n c).flume = s.flume := rfl
@[simp] theorem State.setClap_attn (s : State) (slot n : Nat) (c : Clap) : (s.setClap slot n c).attn = s.attn := rfl
@[simp] theorem State.setClap_hostPort (s : State) (slot n : Nat) (c : Clap) : (s.setClap slot n c).hostPort = s.hostPort := rfl
@[simp] theorem State.setClap_power (s : State) (slot n : Nat) (c : Clap) : (s.setClap slot n c).power = s.power := rfl
@[simp] theorem State.setClap_pins (s : State) (slot n : Nat) (c : Clap) : (s.setClap slot n c).pins = s.pins := rfl
@[simp] theorem State.setClap_powered (s : State) (slot n : Nat) (c : Clap) : (s.setClap slot n c).powered = s.powered := rfl
@[simp] theorem State.setClap_regs (s : State) (slot n : Nat) (c : Clap) : (s.setClap slot n c).regs = s.regs := rfl
@[simp] theorem State.setClap_outputs (s : State) (slot n : Nat) (c : Clap) : (s.setClap slot n c).outputs = s.outputs := rfl
@[simp] theorem State.setClap_freshCount (s : State) (slot n : Nat) (c : Clap) : (s.setClap slot n c).freshCount = s.freshCount := rfl

/-! `State.setRjob` changes `resil`. -/

@[simp] theorem State.setRjob_pending (s : State) (slot : Nat) (r : ResJob) : (s.setRjob slot r).pending = s.pending := rfl
@[simp] theorem State.setRjob_umauth (s : State) (slot : Nat) (r : ResJob) : (s.setRjob slot r).umauth = s.umauth := rfl
@[simp] theorem State.setRjob_xanca (s : State) (slot : Nat) (r : ResJob) : (s.setRjob slot r).xanca = s.xanca := rfl
@[simp] theorem State.setRjob_timecode (s : State) (slot : Nat) (r : ResJob) : (s.setRjob slot r).timecode = s.timecode := rfl
@[simp] theorem State.setRjob_diag (s : State) (slot : Nat) (r : ResJob) : (s.setRjob slot r).diag = s.diag := rfl
@[simp] theorem State.setRjob_security (s : State) (slot : Nat) (r : ResJob) : (s.setRjob slot r).security = s.security := rfl
@[simp] theorem State.setRjob_cores (s : State) (slot : Nat) (r : ResJob) : (s.setRjob slot r).cores = s.cores := rfl
@[simp] theorem State.setRjob_sched (s : State) (slot : Nat) (r : ResJob) : (s.setRjob slot r).sched = s.sched := rfl
@[simp] theorem State.setRjob_fabric (s : State) (slot : Nat) (r : ResJob) : (s.setRjob slot r).fabric = s.fabric := rfl
@[simp] theorem State.setRjob_spads (s : State) (slot : Nat) (r : ResJob) : (s.setRjob slot r).spads = s.spads := rfl
@[simp] theorem State.setRjob_conts (s : State) (slot : Nat) (r : ResJob) : (s.setRjob slot r).conts = s.conts := rfl
@[simp] theorem State.setRjob_streams (s : State) (slot : Nat) (r : ResJob) : (s.setRjob slot r).streams = s.streams := rfl
@[simp] theorem State.setRjob_reels (s : State) (slot : Nat) (r : ResJob) : (s.setRjob slot r).reels = s.reels := rfl
@[simp] theorem State.setRjob_memory (s : State) (slot : Nat) (r : ResJob) : (s.setRjob slot r).memory = s.memory := rfl
@[simp] theorem State.setRjob_flume (s : State) (slot : Nat) (r : ResJob) : (s.setRjob slot r).flume = s.flume := rfl
@[simp] theorem State.setRjob_attn (s : State) (slot : Nat) (r : ResJob) : (s.setRjob slot r).attn = s.attn := rfl
@[simp] theorem State.setRjob_hostPort (s : State) (slot : Nat) (r : ResJob) : (s.setRjob slot r).hostPort = s.hostPort := rfl
@[simp] theorem State.setRjob_power (s : State) (slot : Nat) (r : ResJob) : (s.setRjob slot r).power = s.power := rfl
@[simp] theorem State.setRjob_pins (s : State) (slot : Nat) (r : ResJob) : (s.setRjob slot r).pins = s.pins := rfl
@[simp] theorem State.setRjob_powered (s : State) (slot : Nat) (r : ResJob) : (s.setRjob slot r).powered = s.powered := rfl
@[simp] theorem State.setRjob_regs (s : State) (slot : Nat) (r : ResJob) : (s.setRjob slot r).regs = s.regs := rfl
@[simp] theorem State.setRjob_outputs (s : State) (slot : Nat) (r : ResJob) : (s.setRjob slot r).outputs = s.outputs := rfl
@[simp] theorem State.setRjob_freshCount (s : State) (slot : Nat) (r : ResJob) : (s.setRjob slot r).freshCount = s.freshCount := rfl

/-! `State.setFrameTag` changes `conts`. -/

@[simp] theorem State.setFrameTag_pending (s : State) (p a : Nat) (t : FrameTag) : (s.setFrameTag p a t).pending = s.pending := rfl
@[simp] theorem State.setFrameTag_umauth (s : State) (p a : Nat) (t : FrameTag) : (s.setFrameTag p a t).umauth = s.umauth := rfl
@[simp] theorem State.setFrameTag_xanca (s : State) (p a : Nat) (t : FrameTag) : (s.setFrameTag p a t).xanca = s.xanca := rfl
@[simp] theorem State.setFrameTag_timecode (s : State) (p a : Nat) (t : FrameTag) : (s.setFrameTag p a t).timecode = s.timecode := rfl
@[simp] theorem State.setFrameTag_diag (s : State) (p a : Nat) (t : FrameTag) : (s.setFrameTag p a t).diag = s.diag := rfl
@[simp] theorem State.setFrameTag_security (s : State) (p a : Nat) (t : FrameTag) : (s.setFrameTag p a t).security = s.security := rfl
@[simp] theorem State.setFrameTag_cores (s : State) (p a : Nat) (t : FrameTag) : (s.setFrameTag p a t).cores = s.cores := rfl
@[simp] theorem State.setFrameTag_sched (s : State) (p a : Nat) (t : FrameTag) : (s.setFrameTag p a t).sched = s.sched := rfl
@[simp] theorem State.setFrameTag_fabric (s : State) (p a : Nat) (t : FrameTag) : (s.setFrameTag p a t).fabric = s.fabric := rfl
@[simp] theorem State.setFrameTag_spads (s : State) (p a : Nat) (t : FrameTag) : (s.setFrameTag p a t).spads = s.spads := rfl
@[simp] theorem State.setFrameTag_streams (s : State) (p a : Nat) (t : FrameTag) : (s.setFrameTag p a t).streams = s.streams := rfl
@[simp] theorem State.setFrameTag_reels (s : State) (p a : Nat) (t : FrameTag) : (s.setFrameTag p a t).reels = s.reels := rfl
@[simp] theorem State.setFrameTag_memory (s : State) (p a : Nat) (t : FrameTag) : (s.setFrameTag p a t).memory = s.memory := rfl
@[simp] theorem State.setFrameTag_resil (s : State) (p a : Nat) (t : FrameTag) : (s.setFrameTag p a t).resil = s.resil := rfl
@[simp] theorem State.setFrameTag_flume (s : State) (p a : Nat) (t : FrameTag) : (s.setFrameTag p a t).flume = s.flume := rfl
@[simp] theorem State.setFrameTag_attn (s : State) (p a : Nat) (t : FrameTag) : (s.setFrameTag p a t).attn = s.attn := rfl
@[simp] theorem State.setFrameTag_hostPort (s : State) (p a : Nat) (t : FrameTag) : (s.setFrameTag p a t).hostPort = s.hostPort := rfl
@[simp] theorem State.setFrameTag_power (s : State) (p a : Nat) (t : FrameTag) : (s.setFrameTag p a t).power = s.power := rfl
@[simp] theorem State.setFrameTag_pins (s : State) (p a : Nat) (t : FrameTag) : (s.setFrameTag p a t).pins = s.pins := rfl
@[simp] theorem State.setFrameTag_powered (s : State) (p a : Nat) (t : FrameTag) : (s.setFrameTag p a t).powered = s.powered := rfl
@[simp] theorem State.setFrameTag_regs (s : State) (p a : Nat) (t : FrameTag) : (s.setFrameTag p a t).regs = s.regs := rfl
@[simp] theorem State.setFrameTag_outputs (s : State) (p a : Nat) (t : FrameTag) : (s.setFrameTag p a t).outputs = s.outputs := rfl
@[simp] theorem State.setFrameTag_freshCount (s : State) (p a : Nat) (t : FrameTag) : (s.setFrameTag p a t).freshCount = s.freshCount := rfl

/-! `State.setReel` changes `reels`. -/

@[simp] theorem State.setReel_pending (s : State) (c : Nat) (x : Reel) : (s.setReel c x).pending = s.pending := rfl
@[simp] theorem State.setReel_umauth (s : State) (c : Nat) (x : Reel) : (s.setReel c x).umauth = s.umauth := rfl
@[simp] theorem State.setReel_xanca (s : State) (c : Nat) (x : Reel) : (s.setReel c x).xanca = s.xanca := rfl
@[simp] theorem State.setReel_timecode (s : State) (c : Nat) (x : Reel) : (s.setReel c x).timecode = s.timecode := rfl
@[simp] theorem State.setReel_diag (s : State) (c : Nat) (x : Reel) : (s.setReel c x).diag = s.diag := rfl
@[simp] theorem State.setReel_security (s : State) (c : Nat) (x : Reel) : (s.setReel c x).security = s.security := rfl
@[simp] theorem State.setReel_cores (s : State) (c : Nat) (x : Reel) : (s.setReel c x).cores = s.cores := rfl
@[simp] theorem State.setReel_sched (s : State) (c : Nat) (x : Reel) : (s.setReel c x).sched = s.sched := rfl
@[simp] theorem State.setReel_fabric (s : State) (c : Nat) (x : Reel) : (s.setReel c x).fabric = s.fabric := rfl
@[simp] theorem State.setReel_spads (s : State) (c : Nat) (x : Reel) : (s.setReel c x).spads = s.spads := rfl
@[simp] theorem State.setReel_conts (s : State) (c : Nat) (x : Reel) : (s.setReel c x).conts = s.conts := rfl
@[simp] theorem State.setReel_streams (s : State) (c : Nat) (x : Reel) : (s.setReel c x).streams = s.streams := rfl
@[simp] theorem State.setReel_memory (s : State) (c : Nat) (x : Reel) : (s.setReel c x).memory = s.memory := rfl
@[simp] theorem State.setReel_resil (s : State) (c : Nat) (x : Reel) : (s.setReel c x).resil = s.resil := rfl
@[simp] theorem State.setReel_flume (s : State) (c : Nat) (x : Reel) : (s.setReel c x).flume = s.flume := rfl
@[simp] theorem State.setReel_attn (s : State) (c : Nat) (x : Reel) : (s.setReel c x).attn = s.attn := rfl
@[simp] theorem State.setReel_hostPort (s : State) (c : Nat) (x : Reel) : (s.setReel c x).hostPort = s.hostPort := rfl
@[simp] theorem State.setReel_power (s : State) (c : Nat) (x : Reel) : (s.setReel c x).power = s.power := rfl
@[simp] theorem State.setReel_pins (s : State) (c : Nat) (x : Reel) : (s.setReel c x).pins = s.pins := rfl
@[simp] theorem State.setReel_powered (s : State) (c : Nat) (x : Reel) : (s.setReel c x).powered = s.powered := rfl
@[simp] theorem State.setReel_regs (s : State) (c : Nat) (x : Reel) : (s.setReel c x).regs = s.regs := rfl
@[simp] theorem State.setReel_outputs (s : State) (c : Nat) (x : Reel) : (s.setReel c x).outputs = s.outputs := rfl
@[simp] theorem State.setReel_freshCount (s : State) (c : Nat) (x : Reel) : (s.setReel c x).freshCount = s.freshCount := rfl

/-! `State.setDecodes` changes `hostPort`. -/

@[simp] theorem State.setDecodes_pending (s : State) (e : Nat) (l : List Decode) : (s.setDecodes e l).pending = s.pending := rfl
@[simp] theorem State.setDecodes_umauth (s : State) (e : Nat) (l : List Decode) : (s.setDecodes e l).umauth = s.umauth := rfl
@[simp] theorem State.setDecodes_xanca (s : State) (e : Nat) (l : List Decode) : (s.setDecodes e l).xanca = s.xanca := rfl
@[simp] theorem State.setDecodes_timecode (s : State) (e : Nat) (l : List Decode) : (s.setDecodes e l).timecode = s.timecode := rfl
@[simp] theorem State.setDecodes_diag (s : State) (e : Nat) (l : List Decode) : (s.setDecodes e l).diag = s.diag := rfl
@[simp] theorem State.setDecodes_security (s : State) (e : Nat) (l : List Decode) : (s.setDecodes e l).security = s.security := rfl
@[simp] theorem State.setDecodes_cores (s : State) (e : Nat) (l : List Decode) : (s.setDecodes e l).cores = s.cores := rfl
@[simp] theorem State.setDecodes_sched (s : State) (e : Nat) (l : List Decode) : (s.setDecodes e l).sched = s.sched := rfl
@[simp] theorem State.setDecodes_fabric (s : State) (e : Nat) (l : List Decode) : (s.setDecodes e l).fabric = s.fabric := rfl
@[simp] theorem State.setDecodes_spads (s : State) (e : Nat) (l : List Decode) : (s.setDecodes e l).spads = s.spads := rfl
@[simp] theorem State.setDecodes_conts (s : State) (e : Nat) (l : List Decode) : (s.setDecodes e l).conts = s.conts := rfl
@[simp] theorem State.setDecodes_streams (s : State) (e : Nat) (l : List Decode) : (s.setDecodes e l).streams = s.streams := rfl
@[simp] theorem State.setDecodes_reels (s : State) (e : Nat) (l : List Decode) : (s.setDecodes e l).reels = s.reels := rfl
@[simp] theorem State.setDecodes_memory (s : State) (e : Nat) (l : List Decode) : (s.setDecodes e l).memory = s.memory := rfl
@[simp] theorem State.setDecodes_resil (s : State) (e : Nat) (l : List Decode) : (s.setDecodes e l).resil = s.resil := rfl
@[simp] theorem State.setDecodes_flume (s : State) (e : Nat) (l : List Decode) : (s.setDecodes e l).flume = s.flume := rfl
@[simp] theorem State.setDecodes_attn (s : State) (e : Nat) (l : List Decode) : (s.setDecodes e l).attn = s.attn := rfl
@[simp] theorem State.setDecodes_power (s : State) (e : Nat) (l : List Decode) : (s.setDecodes e l).power = s.power := rfl
@[simp] theorem State.setDecodes_pins (s : State) (e : Nat) (l : List Decode) : (s.setDecodes e l).pins = s.pins := rfl
@[simp] theorem State.setDecodes_powered (s : State) (e : Nat) (l : List Decode) : (s.setDecodes e l).powered = s.powered := rfl
@[simp] theorem State.setDecodes_regs (s : State) (e : Nat) (l : List Decode) : (s.setDecodes e l).regs = s.regs := rfl
@[simp] theorem State.setDecodes_outputs (s : State) (e : Nat) (l : List Decode) : (s.setDecodes e l).outputs = s.outputs := rfl
@[simp] theorem State.setDecodes_freshCount (s : State) (e : Nat) (l : List Decode) : (s.setDecodes e l).freshCount = s.freshCount := rfl

/-! `State.setCore` changes `cores`. -/

@[simp] theorem State.setCore_pending (s : State) (p : Nat) (c : Core) : (s.setCore p c).pending = s.pending := rfl
@[simp] theorem State.setCore_umauth (s : State) (p : Nat) (c : Core) : (s.setCore p c).umauth = s.umauth := rfl
@[simp] theorem State.setCore_xanca (s : State) (p : Nat) (c : Core) : (s.setCore p c).xanca = s.xanca := rfl
@[simp] theorem State.setCore_timecode (s : State) (p : Nat) (c : Core) : (s.setCore p c).timecode = s.timecode := rfl
@[simp] theorem State.setCore_diag (s : State) (p : Nat) (c : Core) : (s.setCore p c).diag = s.diag := rfl
@[simp] theorem State.setCore_security (s : State) (p : Nat) (c : Core) : (s.setCore p c).security = s.security := rfl
@[simp] theorem State.setCore_sched (s : State) (p : Nat) (c : Core) : (s.setCore p c).sched = s.sched := rfl
@[simp] theorem State.setCore_fabric (s : State) (p : Nat) (c : Core) : (s.setCore p c).fabric = s.fabric := rfl
@[simp] theorem State.setCore_spads (s : State) (p : Nat) (c : Core) : (s.setCore p c).spads = s.spads := rfl
@[simp] theorem State.setCore_conts (s : State) (p : Nat) (c : Core) : (s.setCore p c).conts = s.conts := rfl
@[simp] theorem State.setCore_streams (s : State) (p : Nat) (c : Core) : (s.setCore p c).streams = s.streams := rfl
@[simp] theorem State.setCore_reels (s : State) (p : Nat) (c : Core) : (s.setCore p c).reels = s.reels := rfl
@[simp] theorem State.setCore_memory (s : State) (p : Nat) (c : Core) : (s.setCore p c).memory = s.memory := rfl
@[simp] theorem State.setCore_resil (s : State) (p : Nat) (c : Core) : (s.setCore p c).resil = s.resil := rfl
@[simp] theorem State.setCore_flume (s : State) (p : Nat) (c : Core) : (s.setCore p c).flume = s.flume := rfl
@[simp] theorem State.setCore_attn (s : State) (p : Nat) (c : Core) : (s.setCore p c).attn = s.attn := rfl
@[simp] theorem State.setCore_hostPort (s : State) (p : Nat) (c : Core) : (s.setCore p c).hostPort = s.hostPort := rfl
@[simp] theorem State.setCore_power (s : State) (p : Nat) (c : Core) : (s.setCore p c).power = s.power := rfl
@[simp] theorem State.setCore_pins (s : State) (p : Nat) (c : Core) : (s.setCore p c).pins = s.pins := rfl
@[simp] theorem State.setCore_powered (s : State) (p : Nat) (c : Core) : (s.setCore p c).powered = s.powered := rfl
@[simp] theorem State.setCore_regs (s : State) (p : Nat) (c : Core) : (s.setCore p c).regs = s.regs := rfl
@[simp] theorem State.setCore_outputs (s : State) (p : Nat) (c : Core) : (s.setCore p c).outputs = s.outputs := rfl
@[simp] theorem State.setCore_freshCount (s : State) (p : Nat) (c : Core) : (s.setCore p c).freshCount = s.freshCount := rfl

/-! `State.setPort` changes `fabric`. -/

@[simp] theorem State.setPort_pending (s : State) (p : Nat) (x : Port) : (s.setPort p x).pending = s.pending := rfl
@[simp] theorem State.setPort_umauth (s : State) (p : Nat) (x : Port) : (s.setPort p x).umauth = s.umauth := rfl
@[simp] theorem State.setPort_xanca (s : State) (p : Nat) (x : Port) : (s.setPort p x).xanca = s.xanca := rfl
@[simp] theorem State.setPort_timecode (s : State) (p : Nat) (x : Port) : (s.setPort p x).timecode = s.timecode := rfl
@[simp] theorem State.setPort_diag (s : State) (p : Nat) (x : Port) : (s.setPort p x).diag = s.diag := rfl
@[simp] theorem State.setPort_security (s : State) (p : Nat) (x : Port) : (s.setPort p x).security = s.security := rfl
@[simp] theorem State.setPort_cores (s : State) (p : Nat) (x : Port) : (s.setPort p x).cores = s.cores := rfl
@[simp] theorem State.setPort_sched (s : State) (p : Nat) (x : Port) : (s.setPort p x).sched = s.sched := rfl
@[simp] theorem State.setPort_spads (s : State) (p : Nat) (x : Port) : (s.setPort p x).spads = s.spads := rfl
@[simp] theorem State.setPort_conts (s : State) (p : Nat) (x : Port) : (s.setPort p x).conts = s.conts := rfl
@[simp] theorem State.setPort_streams (s : State) (p : Nat) (x : Port) : (s.setPort p x).streams = s.streams := rfl
@[simp] theorem State.setPort_reels (s : State) (p : Nat) (x : Port) : (s.setPort p x).reels = s.reels := rfl
@[simp] theorem State.setPort_memory (s : State) (p : Nat) (x : Port) : (s.setPort p x).memory = s.memory := rfl
@[simp] theorem State.setPort_resil (s : State) (p : Nat) (x : Port) : (s.setPort p x).resil = s.resil := rfl
@[simp] theorem State.setPort_flume (s : State) (p : Nat) (x : Port) : (s.setPort p x).flume = s.flume := rfl
@[simp] theorem State.setPort_attn (s : State) (p : Nat) (x : Port) : (s.setPort p x).attn = s.attn := rfl
@[simp] theorem State.setPort_hostPort (s : State) (p : Nat) (x : Port) : (s.setPort p x).hostPort = s.hostPort := rfl
@[simp] theorem State.setPort_power (s : State) (p : Nat) (x : Port) : (s.setPort p x).power = s.power := rfl
@[simp] theorem State.setPort_pins (s : State) (p : Nat) (x : Port) : (s.setPort p x).pins = s.pins := rfl
@[simp] theorem State.setPort_powered (s : State) (p : Nat) (x : Port) : (s.setPort p x).powered = s.powered := rfl
@[simp] theorem State.setPort_regs (s : State) (p : Nat) (x : Port) : (s.setPort p x).regs = s.regs := rfl
@[simp] theorem State.setPort_outputs (s : State) (p : Nat) (x : Port) : (s.setPort p x).outputs = s.outputs := rfl
@[simp] theorem State.setPort_freshCount (s : State) (p : Nat) (x : Port) : (s.setPort p x).freshCount = s.freshCount := rfl

/-! `State.setChannel` changes `flume`. -/

@[simp] theorem State.setChannel_pending (s : State) (k : Nat) (x : FlumeChannel) : (s.setChannel k x).pending = s.pending := rfl
@[simp] theorem State.setChannel_umauth (s : State) (k : Nat) (x : FlumeChannel) : (s.setChannel k x).umauth = s.umauth := rfl
@[simp] theorem State.setChannel_xanca (s : State) (k : Nat) (x : FlumeChannel) : (s.setChannel k x).xanca = s.xanca := rfl
@[simp] theorem State.setChannel_timecode (s : State) (k : Nat) (x : FlumeChannel) : (s.setChannel k x).timecode = s.timecode := rfl
@[simp] theorem State.setChannel_diag (s : State) (k : Nat) (x : FlumeChannel) : (s.setChannel k x).diag = s.diag := rfl
@[simp] theorem State.setChannel_security (s : State) (k : Nat) (x : FlumeChannel) : (s.setChannel k x).security = s.security := rfl
@[simp] theorem State.setChannel_cores (s : State) (k : Nat) (x : FlumeChannel) : (s.setChannel k x).cores = s.cores := rfl
@[simp] theorem State.setChannel_sched (s : State) (k : Nat) (x : FlumeChannel) : (s.setChannel k x).sched = s.sched := rfl
@[simp] theorem State.setChannel_fabric (s : State) (k : Nat) (x : FlumeChannel) : (s.setChannel k x).fabric = s.fabric := rfl
@[simp] theorem State.setChannel_spads (s : State) (k : Nat) (x : FlumeChannel) : (s.setChannel k x).spads = s.spads := rfl
@[simp] theorem State.setChannel_conts (s : State) (k : Nat) (x : FlumeChannel) : (s.setChannel k x).conts = s.conts := rfl
@[simp] theorem State.setChannel_streams (s : State) (k : Nat) (x : FlumeChannel) : (s.setChannel k x).streams = s.streams := rfl
@[simp] theorem State.setChannel_reels (s : State) (k : Nat) (x : FlumeChannel) : (s.setChannel k x).reels = s.reels := rfl
@[simp] theorem State.setChannel_memory (s : State) (k : Nat) (x : FlumeChannel) : (s.setChannel k x).memory = s.memory := rfl
@[simp] theorem State.setChannel_resil (s : State) (k : Nat) (x : FlumeChannel) : (s.setChannel k x).resil = s.resil := rfl
@[simp] theorem State.setChannel_attn (s : State) (k : Nat) (x : FlumeChannel) : (s.setChannel k x).attn = s.attn := rfl
@[simp] theorem State.setChannel_hostPort (s : State) (k : Nat) (x : FlumeChannel) : (s.setChannel k x).hostPort = s.hostPort := rfl
@[simp] theorem State.setChannel_power (s : State) (k : Nat) (x : FlumeChannel) : (s.setChannel k x).power = s.power := rfl
@[simp] theorem State.setChannel_pins (s : State) (k : Nat) (x : FlumeChannel) : (s.setChannel k x).pins = s.pins := rfl
@[simp] theorem State.setChannel_powered (s : State) (k : Nat) (x : FlumeChannel) : (s.setChannel k x).powered = s.powered := rfl
@[simp] theorem State.setChannel_regs (s : State) (k : Nat) (x : FlumeChannel) : (s.setChannel k x).regs = s.regs := rfl
@[simp] theorem State.setChannel_outputs (s : State) (k : Nat) (x : FlumeChannel) : (s.setChannel k x).outputs = s.outputs := rfl
@[simp] theorem State.setChannel_freshCount (s : State) (k : Nat) (x : FlumeChannel) : (s.setChannel k x).freshCount = s.freshCount := rfl

/-! `State.setTimer` changes `flume`. -/

@[simp] theorem State.setTimer_pending (s : State) (t : Nat) (x : FlumeTimer) : (s.setTimer t x).pending = s.pending := rfl
@[simp] theorem State.setTimer_umauth (s : State) (t : Nat) (x : FlumeTimer) : (s.setTimer t x).umauth = s.umauth := rfl
@[simp] theorem State.setTimer_xanca (s : State) (t : Nat) (x : FlumeTimer) : (s.setTimer t x).xanca = s.xanca := rfl
@[simp] theorem State.setTimer_timecode (s : State) (t : Nat) (x : FlumeTimer) : (s.setTimer t x).timecode = s.timecode := rfl
@[simp] theorem State.setTimer_diag (s : State) (t : Nat) (x : FlumeTimer) : (s.setTimer t x).diag = s.diag := rfl
@[simp] theorem State.setTimer_security (s : State) (t : Nat) (x : FlumeTimer) : (s.setTimer t x).security = s.security := rfl
@[simp] theorem State.setTimer_cores (s : State) (t : Nat) (x : FlumeTimer) : (s.setTimer t x).cores = s.cores := rfl
@[simp] theorem State.setTimer_sched (s : State) (t : Nat) (x : FlumeTimer) : (s.setTimer t x).sched = s.sched := rfl
@[simp] theorem State.setTimer_fabric (s : State) (t : Nat) (x : FlumeTimer) : (s.setTimer t x).fabric = s.fabric := rfl
@[simp] theorem State.setTimer_spads (s : State) (t : Nat) (x : FlumeTimer) : (s.setTimer t x).spads = s.spads := rfl
@[simp] theorem State.setTimer_conts (s : State) (t : Nat) (x : FlumeTimer) : (s.setTimer t x).conts = s.conts := rfl
@[simp] theorem State.setTimer_streams (s : State) (t : Nat) (x : FlumeTimer) : (s.setTimer t x).streams = s.streams := rfl
@[simp] theorem State.setTimer_reels (s : State) (t : Nat) (x : FlumeTimer) : (s.setTimer t x).reels = s.reels := rfl
@[simp] theorem State.setTimer_memory (s : State) (t : Nat) (x : FlumeTimer) : (s.setTimer t x).memory = s.memory := rfl
@[simp] theorem State.setTimer_resil (s : State) (t : Nat) (x : FlumeTimer) : (s.setTimer t x).resil = s.resil := rfl
@[simp] theorem State.setTimer_attn (s : State) (t : Nat) (x : FlumeTimer) : (s.setTimer t x).attn = s.attn := rfl
@[simp] theorem State.setTimer_hostPort (s : State) (t : Nat) (x : FlumeTimer) : (s.setTimer t x).hostPort = s.hostPort := rfl
@[simp] theorem State.setTimer_power (s : State) (t : Nat) (x : FlumeTimer) : (s.setTimer t x).power = s.power := rfl
@[simp] theorem State.setTimer_pins (s : State) (t : Nat) (x : FlumeTimer) : (s.setTimer t x).pins = s.pins := rfl
@[simp] theorem State.setTimer_powered (s : State) (t : Nat) (x : FlumeTimer) : (s.setTimer t x).powered = s.powered := rfl
@[simp] theorem State.setTimer_regs (s : State) (t : Nat) (x : FlumeTimer) : (s.setTimer t x).regs = s.regs := rfl
@[simp] theorem State.setTimer_outputs (s : State) (t : Nat) (x : FlumeTimer) : (s.setTimer t x).outputs = s.outputs := rfl
@[simp] theorem State.setTimer_freshCount (s : State) (t : Nat) (x : FlumeTimer) : (s.setTimer t x).freshCount = s.freshCount := rfl

/-! `State.setQp` changes `hostPort`. -/

@[simp] theorem State.setQp_pending (s : State) (n : Nat) (q : QueuePair) : (s.setQp n q).pending = s.pending := rfl
@[simp] theorem State.setQp_umauth (s : State) (n : Nat) (q : QueuePair) : (s.setQp n q).umauth = s.umauth := rfl
@[simp] theorem State.setQp_xanca (s : State) (n : Nat) (q : QueuePair) : (s.setQp n q).xanca = s.xanca := rfl
@[simp] theorem State.setQp_timecode (s : State) (n : Nat) (q : QueuePair) : (s.setQp n q).timecode = s.timecode := rfl
@[simp] theorem State.setQp_diag (s : State) (n : Nat) (q : QueuePair) : (s.setQp n q).diag = s.diag := rfl
@[simp] theorem State.setQp_security (s : State) (n : Nat) (q : QueuePair) : (s.setQp n q).security = s.security := rfl
@[simp] theorem State.setQp_cores (s : State) (n : Nat) (q : QueuePair) : (s.setQp n q).cores = s.cores := rfl
@[simp] theorem State.setQp_sched (s : State) (n : Nat) (q : QueuePair) : (s.setQp n q).sched = s.sched := rfl
@[simp] theorem State.setQp_fabric (s : State) (n : Nat) (q : QueuePair) : (s.setQp n q).fabric = s.fabric := rfl
@[simp] theorem State.setQp_spads (s : State) (n : Nat) (q : QueuePair) : (s.setQp n q).spads = s.spads := rfl
@[simp] theorem State.setQp_conts (s : State) (n : Nat) (q : QueuePair) : (s.setQp n q).conts = s.conts := rfl
@[simp] theorem State.setQp_streams (s : State) (n : Nat) (q : QueuePair) : (s.setQp n q).streams = s.streams := rfl
@[simp] theorem State.setQp_reels (s : State) (n : Nat) (q : QueuePair) : (s.setQp n q).reels = s.reels := rfl
@[simp] theorem State.setQp_memory (s : State) (n : Nat) (q : QueuePair) : (s.setQp n q).memory = s.memory := rfl
@[simp] theorem State.setQp_resil (s : State) (n : Nat) (q : QueuePair) : (s.setQp n q).resil = s.resil := rfl
@[simp] theorem State.setQp_flume (s : State) (n : Nat) (q : QueuePair) : (s.setQp n q).flume = s.flume := rfl
@[simp] theorem State.setQp_attn (s : State) (n : Nat) (q : QueuePair) : (s.setQp n q).attn = s.attn := rfl
@[simp] theorem State.setQp_power (s : State) (n : Nat) (q : QueuePair) : (s.setQp n q).power = s.power := rfl
@[simp] theorem State.setQp_pins (s : State) (n : Nat) (q : QueuePair) : (s.setQp n q).pins = s.pins := rfl
@[simp] theorem State.setQp_powered (s : State) (n : Nat) (q : QueuePair) : (s.setQp n q).powered = s.powered := rfl
@[simp] theorem State.setQp_regs (s : State) (n : Nat) (q : QueuePair) : (s.setQp n q).regs = s.regs := rfl
@[simp] theorem State.setQp_outputs (s : State) (n : Nat) (q : QueuePair) : (s.setQp n q).outputs = s.outputs := rfl
@[simp] theorem State.setQp_freshCount (s : State) (n : Nat) (q : QueuePair) : (s.setQp n q).freshCount = s.freshCount := rfl

/-! `State.setJob` changes `sched`. -/

@[simp] theorem State.setJob_pending (s : State) (slot : Nat) (j : Job) : (s.setJob slot j).pending = s.pending := rfl
@[simp] theorem State.setJob_umauth (s : State) (slot : Nat) (j : Job) : (s.setJob slot j).umauth = s.umauth := rfl
@[simp] theorem State.setJob_xanca (s : State) (slot : Nat) (j : Job) : (s.setJob slot j).xanca = s.xanca := rfl
@[simp] theorem State.setJob_timecode (s : State) (slot : Nat) (j : Job) : (s.setJob slot j).timecode = s.timecode := rfl
@[simp] theorem State.setJob_diag (s : State) (slot : Nat) (j : Job) : (s.setJob slot j).diag = s.diag := rfl
@[simp] theorem State.setJob_security (s : State) (slot : Nat) (j : Job) : (s.setJob slot j).security = s.security := rfl
@[simp] theorem State.setJob_cores (s : State) (slot : Nat) (j : Job) : (s.setJob slot j).cores = s.cores := rfl
@[simp] theorem State.setJob_fabric (s : State) (slot : Nat) (j : Job) : (s.setJob slot j).fabric = s.fabric := rfl
@[simp] theorem State.setJob_spads (s : State) (slot : Nat) (j : Job) : (s.setJob slot j).spads = s.spads := rfl
@[simp] theorem State.setJob_conts (s : State) (slot : Nat) (j : Job) : (s.setJob slot j).conts = s.conts := rfl
@[simp] theorem State.setJob_streams (s : State) (slot : Nat) (j : Job) : (s.setJob slot j).streams = s.streams := rfl
@[simp] theorem State.setJob_reels (s : State) (slot : Nat) (j : Job) : (s.setJob slot j).reels = s.reels := rfl
@[simp] theorem State.setJob_memory (s : State) (slot : Nat) (j : Job) : (s.setJob slot j).memory = s.memory := rfl
@[simp] theorem State.setJob_resil (s : State) (slot : Nat) (j : Job) : (s.setJob slot j).resil = s.resil := rfl
@[simp] theorem State.setJob_flume (s : State) (slot : Nat) (j : Job) : (s.setJob slot j).flume = s.flume := rfl
@[simp] theorem State.setJob_attn (s : State) (slot : Nat) (j : Job) : (s.setJob slot j).attn = s.attn := rfl
@[simp] theorem State.setJob_hostPort (s : State) (slot : Nat) (j : Job) : (s.setJob slot j).hostPort = s.hostPort := rfl
@[simp] theorem State.setJob_power (s : State) (slot : Nat) (j : Job) : (s.setJob slot j).power = s.power := rfl
@[simp] theorem State.setJob_pins (s : State) (slot : Nat) (j : Job) : (s.setJob slot j).pins = s.pins := rfl
@[simp] theorem State.setJob_powered (s : State) (slot : Nat) (j : Job) : (s.setJob slot j).powered = s.powered := rfl
@[simp] theorem State.setJob_regs (s : State) (slot : Nat) (j : Job) : (s.setJob slot j).regs = s.regs := rfl
@[simp] theorem State.setJob_outputs (s : State) (slot : Nat) (j : Job) : (s.setJob slot j).outputs = s.outputs := rfl
@[simp] theorem State.setJob_freshCount (s : State) (slot : Nat) (j : Job) : (s.setJob slot j).freshCount = s.freshCount := rfl

/-! `State.setFjob` changes `fabric`. -/

@[simp] theorem State.setFjob_pending (s : State) (slot : Nat) (f : FabricJob) : (s.setFjob slot f).pending = s.pending := rfl
@[simp] theorem State.setFjob_umauth (s : State) (slot : Nat) (f : FabricJob) : (s.setFjob slot f).umauth = s.umauth := rfl
@[simp] theorem State.setFjob_xanca (s : State) (slot : Nat) (f : FabricJob) : (s.setFjob slot f).xanca = s.xanca := rfl
@[simp] theorem State.setFjob_timecode (s : State) (slot : Nat) (f : FabricJob) : (s.setFjob slot f).timecode = s.timecode := rfl
@[simp] theorem State.setFjob_diag (s : State) (slot : Nat) (f : FabricJob) : (s.setFjob slot f).diag = s.diag := rfl
@[simp] theorem State.setFjob_security (s : State) (slot : Nat) (f : FabricJob) : (s.setFjob slot f).security = s.security := rfl
@[simp] theorem State.setFjob_cores (s : State) (slot : Nat) (f : FabricJob) : (s.setFjob slot f).cores = s.cores := rfl
@[simp] theorem State.setFjob_sched (s : State) (slot : Nat) (f : FabricJob) : (s.setFjob slot f).sched = s.sched := rfl
@[simp] theorem State.setFjob_spads (s : State) (slot : Nat) (f : FabricJob) : (s.setFjob slot f).spads = s.spads := rfl
@[simp] theorem State.setFjob_conts (s : State) (slot : Nat) (f : FabricJob) : (s.setFjob slot f).conts = s.conts := rfl
@[simp] theorem State.setFjob_streams (s : State) (slot : Nat) (f : FabricJob) : (s.setFjob slot f).streams = s.streams := rfl
@[simp] theorem State.setFjob_reels (s : State) (slot : Nat) (f : FabricJob) : (s.setFjob slot f).reels = s.reels := rfl
@[simp] theorem State.setFjob_memory (s : State) (slot : Nat) (f : FabricJob) : (s.setFjob slot f).memory = s.memory := rfl
@[simp] theorem State.setFjob_resil (s : State) (slot : Nat) (f : FabricJob) : (s.setFjob slot f).resil = s.resil := rfl
@[simp] theorem State.setFjob_flume (s : State) (slot : Nat) (f : FabricJob) : (s.setFjob slot f).flume = s.flume := rfl
@[simp] theorem State.setFjob_attn (s : State) (slot : Nat) (f : FabricJob) : (s.setFjob slot f).attn = s.attn := rfl
@[simp] theorem State.setFjob_hostPort (s : State) (slot : Nat) (f : FabricJob) : (s.setFjob slot f).hostPort = s.hostPort := rfl
@[simp] theorem State.setFjob_power (s : State) (slot : Nat) (f : FabricJob) : (s.setFjob slot f).power = s.power := rfl
@[simp] theorem State.setFjob_pins (s : State) (slot : Nat) (f : FabricJob) : (s.setFjob slot f).pins = s.pins := rfl
@[simp] theorem State.setFjob_powered (s : State) (slot : Nat) (f : FabricJob) : (s.setFjob slot f).powered = s.powered := rfl
@[simp] theorem State.setFjob_regs (s : State) (slot : Nat) (f : FabricJob) : (s.setFjob slot f).regs = s.regs := rfl
@[simp] theorem State.setFjob_outputs (s : State) (slot : Nat) (f : FabricJob) : (s.setFjob slot f).outputs = s.outputs := rfl
@[simp] theorem State.setFjob_freshCount (s : State) (slot : Nat) (f : FabricJob) : (s.setFjob slot f).freshCount = s.freshCount := rfl

/-! `State.setKvPool` changes `attn`. -/

@[simp] theorem State.setKvPool_pending (s : State) (slot : Nat) (x : KvPool) : (s.setKvPool slot x).pending = s.pending := rfl
@[simp] theorem State.setKvPool_umauth (s : State) (slot : Nat) (x : KvPool) : (s.setKvPool slot x).umauth = s.umauth := rfl
@[simp] theorem State.setKvPool_xanca (s : State) (slot : Nat) (x : KvPool) : (s.setKvPool slot x).xanca = s.xanca := rfl
@[simp] theorem State.setKvPool_timecode (s : State) (slot : Nat) (x : KvPool) : (s.setKvPool slot x).timecode = s.timecode := rfl
@[simp] theorem State.setKvPool_diag (s : State) (slot : Nat) (x : KvPool) : (s.setKvPool slot x).diag = s.diag := rfl
@[simp] theorem State.setKvPool_security (s : State) (slot : Nat) (x : KvPool) : (s.setKvPool slot x).security = s.security := rfl
@[simp] theorem State.setKvPool_cores (s : State) (slot : Nat) (x : KvPool) : (s.setKvPool slot x).cores = s.cores := rfl
@[simp] theorem State.setKvPool_sched (s : State) (slot : Nat) (x : KvPool) : (s.setKvPool slot x).sched = s.sched := rfl
@[simp] theorem State.setKvPool_fabric (s : State) (slot : Nat) (x : KvPool) : (s.setKvPool slot x).fabric = s.fabric := rfl
@[simp] theorem State.setKvPool_spads (s : State) (slot : Nat) (x : KvPool) : (s.setKvPool slot x).spads = s.spads := rfl
@[simp] theorem State.setKvPool_conts (s : State) (slot : Nat) (x : KvPool) : (s.setKvPool slot x).conts = s.conts := rfl
@[simp] theorem State.setKvPool_streams (s : State) (slot : Nat) (x : KvPool) : (s.setKvPool slot x).streams = s.streams := rfl
@[simp] theorem State.setKvPool_reels (s : State) (slot : Nat) (x : KvPool) : (s.setKvPool slot x).reels = s.reels := rfl
@[simp] theorem State.setKvPool_memory (s : State) (slot : Nat) (x : KvPool) : (s.setKvPool slot x).memory = s.memory := rfl
@[simp] theorem State.setKvPool_resil (s : State) (slot : Nat) (x : KvPool) : (s.setKvPool slot x).resil = s.resil := rfl
@[simp] theorem State.setKvPool_flume (s : State) (slot : Nat) (x : KvPool) : (s.setKvPool slot x).flume = s.flume := rfl
@[simp] theorem State.setKvPool_hostPort (s : State) (slot : Nat) (x : KvPool) : (s.setKvPool slot x).hostPort = s.hostPort := rfl
@[simp] theorem State.setKvPool_power (s : State) (slot : Nat) (x : KvPool) : (s.setKvPool slot x).power = s.power := rfl
@[simp] theorem State.setKvPool_pins (s : State) (slot : Nat) (x : KvPool) : (s.setKvPool slot x).pins = s.pins := rfl
@[simp] theorem State.setKvPool_powered (s : State) (slot : Nat) (x : KvPool) : (s.setKvPool slot x).powered = s.powered := rfl
@[simp] theorem State.setKvPool_regs (s : State) (slot : Nat) (x : KvPool) : (s.setKvPool slot x).regs = s.regs := rfl
@[simp] theorem State.setKvPool_outputs (s : State) (slot : Nat) (x : KvPool) : (s.setKvPool slot x).outputs = s.outputs := rfl
@[simp] theorem State.setKvPool_freshCount (s : State) (slot : Nat) (x : KvPool) : (s.setKvPool slot x).freshCount = s.freshCount := rfl

/-! `State.setKvSeq` changes `attn`. -/

@[simp] theorem State.setKvSeq_pending (s : State) (id : Nat) (x : KvSeq) : (s.setKvSeq id x).pending = s.pending := rfl
@[simp] theorem State.setKvSeq_umauth (s : State) (id : Nat) (x : KvSeq) : (s.setKvSeq id x).umauth = s.umauth := rfl
@[simp] theorem State.setKvSeq_xanca (s : State) (id : Nat) (x : KvSeq) : (s.setKvSeq id x).xanca = s.xanca := rfl
@[simp] theorem State.setKvSeq_timecode (s : State) (id : Nat) (x : KvSeq) : (s.setKvSeq id x).timecode = s.timecode := rfl
@[simp] theorem State.setKvSeq_diag (s : State) (id : Nat) (x : KvSeq) : (s.setKvSeq id x).diag = s.diag := rfl
@[simp] theorem State.setKvSeq_security (s : State) (id : Nat) (x : KvSeq) : (s.setKvSeq id x).security = s.security := rfl
@[simp] theorem State.setKvSeq_cores (s : State) (id : Nat) (x : KvSeq) : (s.setKvSeq id x).cores = s.cores := rfl
@[simp] theorem State.setKvSeq_sched (s : State) (id : Nat) (x : KvSeq) : (s.setKvSeq id x).sched = s.sched := rfl
@[simp] theorem State.setKvSeq_fabric (s : State) (id : Nat) (x : KvSeq) : (s.setKvSeq id x).fabric = s.fabric := rfl
@[simp] theorem State.setKvSeq_spads (s : State) (id : Nat) (x : KvSeq) : (s.setKvSeq id x).spads = s.spads := rfl
@[simp] theorem State.setKvSeq_conts (s : State) (id : Nat) (x : KvSeq) : (s.setKvSeq id x).conts = s.conts := rfl
@[simp] theorem State.setKvSeq_streams (s : State) (id : Nat) (x : KvSeq) : (s.setKvSeq id x).streams = s.streams := rfl
@[simp] theorem State.setKvSeq_reels (s : State) (id : Nat) (x : KvSeq) : (s.setKvSeq id x).reels = s.reels := rfl
@[simp] theorem State.setKvSeq_memory (s : State) (id : Nat) (x : KvSeq) : (s.setKvSeq id x).memory = s.memory := rfl
@[simp] theorem State.setKvSeq_resil (s : State) (id : Nat) (x : KvSeq) : (s.setKvSeq id x).resil = s.resil := rfl
@[simp] theorem State.setKvSeq_flume (s : State) (id : Nat) (x : KvSeq) : (s.setKvSeq id x).flume = s.flume := rfl
@[simp] theorem State.setKvSeq_hostPort (s : State) (id : Nat) (x : KvSeq) : (s.setKvSeq id x).hostPort = s.hostPort := rfl
@[simp] theorem State.setKvSeq_power (s : State) (id : Nat) (x : KvSeq) : (s.setKvSeq id x).power = s.power := rfl
@[simp] theorem State.setKvSeq_pins (s : State) (id : Nat) (x : KvSeq) : (s.setKvSeq id x).pins = s.pins := rfl
@[simp] theorem State.setKvSeq_powered (s : State) (id : Nat) (x : KvSeq) : (s.setKvSeq id x).powered = s.powered := rfl
@[simp] theorem State.setKvSeq_regs (s : State) (id : Nat) (x : KvSeq) : (s.setKvSeq id x).regs = s.regs := rfl
@[simp] theorem State.setKvSeq_outputs (s : State) (id : Nat) (x : KvSeq) : (s.setKvSeq id x).outputs = s.outputs := rfl
@[simp] theorem State.setKvSeq_freshCount (s : State) (id : Nat) (x : KvSeq) : (s.setKvSeq id x).freshCount = s.freshCount := rfl

/-! `State.setMap` changes `memory`. -/

@[simp] theorem State.setMap_pending (s : State) (slot : Nat) (m : MapInfo) : (s.setMap slot m).pending = s.pending := rfl
@[simp] theorem State.setMap_umauth (s : State) (slot : Nat) (m : MapInfo) : (s.setMap slot m).umauth = s.umauth := rfl
@[simp] theorem State.setMap_xanca (s : State) (slot : Nat) (m : MapInfo) : (s.setMap slot m).xanca = s.xanca := rfl
@[simp] theorem State.setMap_timecode (s : State) (slot : Nat) (m : MapInfo) : (s.setMap slot m).timecode = s.timecode := rfl
@[simp] theorem State.setMap_diag (s : State) (slot : Nat) (m : MapInfo) : (s.setMap slot m).diag = s.diag := rfl
@[simp] theorem State.setMap_security (s : State) (slot : Nat) (m : MapInfo) : (s.setMap slot m).security = s.security := rfl
@[simp] theorem State.setMap_cores (s : State) (slot : Nat) (m : MapInfo) : (s.setMap slot m).cores = s.cores := rfl
@[simp] theorem State.setMap_sched (s : State) (slot : Nat) (m : MapInfo) : (s.setMap slot m).sched = s.sched := rfl
@[simp] theorem State.setMap_fabric (s : State) (slot : Nat) (m : MapInfo) : (s.setMap slot m).fabric = s.fabric := rfl
@[simp] theorem State.setMap_spads (s : State) (slot : Nat) (m : MapInfo) : (s.setMap slot m).spads = s.spads := rfl
@[simp] theorem State.setMap_conts (s : State) (slot : Nat) (m : MapInfo) : (s.setMap slot m).conts = s.conts := rfl
@[simp] theorem State.setMap_streams (s : State) (slot : Nat) (m : MapInfo) : (s.setMap slot m).streams = s.streams := rfl
@[simp] theorem State.setMap_reels (s : State) (slot : Nat) (m : MapInfo) : (s.setMap slot m).reels = s.reels := rfl
@[simp] theorem State.setMap_resil (s : State) (slot : Nat) (m : MapInfo) : (s.setMap slot m).resil = s.resil := rfl
@[simp] theorem State.setMap_flume (s : State) (slot : Nat) (m : MapInfo) : (s.setMap slot m).flume = s.flume := rfl
@[simp] theorem State.setMap_attn (s : State) (slot : Nat) (m : MapInfo) : (s.setMap slot m).attn = s.attn := rfl
@[simp] theorem State.setMap_hostPort (s : State) (slot : Nat) (m : MapInfo) : (s.setMap slot m).hostPort = s.hostPort := rfl
@[simp] theorem State.setMap_power (s : State) (slot : Nat) (m : MapInfo) : (s.setMap slot m).power = s.power := rfl
@[simp] theorem State.setMap_pins (s : State) (slot : Nat) (m : MapInfo) : (s.setMap slot m).pins = s.pins := rfl
@[simp] theorem State.setMap_powered (s : State) (slot : Nat) (m : MapInfo) : (s.setMap slot m).powered = s.powered := rfl
@[simp] theorem State.setMap_regs (s : State) (slot : Nat) (m : MapInfo) : (s.setMap slot m).regs = s.regs := rfl
@[simp] theorem State.setMap_outputs (s : State) (slot : Nat) (m : MapInfo) : (s.setMap slot m).outputs = s.outputs := rfl
@[simp] theorem State.setMap_freshCount (s : State) (slot : Nat) (m : MapInfo) : (s.setMap slot m).freshCount = s.freshCount := rfl

/-! `State.setReelJob` changes `reels`. -/

@[simp] theorem State.setReelJob_pending (s : State) (slot : Nat) (r : ReelJob) : (s.setReelJob slot r).pending = s.pending := rfl
@[simp] theorem State.setReelJob_umauth (s : State) (slot : Nat) (r : ReelJob) : (s.setReelJob slot r).umauth = s.umauth := rfl
@[simp] theorem State.setReelJob_xanca (s : State) (slot : Nat) (r : ReelJob) : (s.setReelJob slot r).xanca = s.xanca := rfl
@[simp] theorem State.setReelJob_timecode (s : State) (slot : Nat) (r : ReelJob) : (s.setReelJob slot r).timecode = s.timecode := rfl
@[simp] theorem State.setReelJob_diag (s : State) (slot : Nat) (r : ReelJob) : (s.setReelJob slot r).diag = s.diag := rfl
@[simp] theorem State.setReelJob_security (s : State) (slot : Nat) (r : ReelJob) : (s.setReelJob slot r).security = s.security := rfl
@[simp] theorem State.setReelJob_cores (s : State) (slot : Nat) (r : ReelJob) : (s.setReelJob slot r).cores = s.cores := rfl
@[simp] theorem State.setReelJob_sched (s : State) (slot : Nat) (r : ReelJob) : (s.setReelJob slot r).sched = s.sched := rfl
@[simp] theorem State.setReelJob_fabric (s : State) (slot : Nat) (r : ReelJob) : (s.setReelJob slot r).fabric = s.fabric := rfl
@[simp] theorem State.setReelJob_spads (s : State) (slot : Nat) (r : ReelJob) : (s.setReelJob slot r).spads = s.spads := rfl
@[simp] theorem State.setReelJob_conts (s : State) (slot : Nat) (r : ReelJob) : (s.setReelJob slot r).conts = s.conts := rfl
@[simp] theorem State.setReelJob_streams (s : State) (slot : Nat) (r : ReelJob) : (s.setReelJob slot r).streams = s.streams := rfl
@[simp] theorem State.setReelJob_memory (s : State) (slot : Nat) (r : ReelJob) : (s.setReelJob slot r).memory = s.memory := rfl
@[simp] theorem State.setReelJob_resil (s : State) (slot : Nat) (r : ReelJob) : (s.setReelJob slot r).resil = s.resil := rfl
@[simp] theorem State.setReelJob_flume (s : State) (slot : Nat) (r : ReelJob) : (s.setReelJob slot r).flume = s.flume := rfl
@[simp] theorem State.setReelJob_attn (s : State) (slot : Nat) (r : ReelJob) : (s.setReelJob slot r).attn = s.attn := rfl
@[simp] theorem State.setReelJob_hostPort (s : State) (slot : Nat) (r : ReelJob) : (s.setReelJob slot r).hostPort = s.hostPort := rfl
@[simp] theorem State.setReelJob_power (s : State) (slot : Nat) (r : ReelJob) : (s.setReelJob slot r).power = s.power := rfl
@[simp] theorem State.setReelJob_pins (s : State) (slot : Nat) (r : ReelJob) : (s.setReelJob slot r).pins = s.pins := rfl
@[simp] theorem State.setReelJob_powered (s : State) (slot : Nat) (r : ReelJob) : (s.setReelJob slot r).powered = s.powered := rfl
@[simp] theorem State.setReelJob_regs (s : State) (slot : Nat) (r : ReelJob) : (s.setReelJob slot r).regs = s.regs := rfl
@[simp] theorem State.setReelJob_outputs (s : State) (slot : Nat) (r : ReelJob) : (s.setReelJob slot r).outputs = s.outputs := rfl
@[simp] theorem State.setReelJob_freshCount (s : State) (slot : Nat) (r : ReelJob) : (s.setReelJob slot r).freshCount = s.freshCount := rfl

/-! `State.setShard` changes `reels`. -/

@[simp] theorem State.setShard_pending (s : State) (k : Nat) (x : Shard) : (s.setShard k x).pending = s.pending := rfl
@[simp] theorem State.setShard_umauth (s : State) (k : Nat) (x : Shard) : (s.setShard k x).umauth = s.umauth := rfl
@[simp] theorem State.setShard_xanca (s : State) (k : Nat) (x : Shard) : (s.setShard k x).xanca = s.xanca := rfl
@[simp] theorem State.setShard_timecode (s : State) (k : Nat) (x : Shard) : (s.setShard k x).timecode = s.timecode := rfl
@[simp] theorem State.setShard_diag (s : State) (k : Nat) (x : Shard) : (s.setShard k x).diag = s.diag := rfl
@[simp] theorem State.setShard_security (s : State) (k : Nat) (x : Shard) : (s.setShard k x).security = s.security := rfl
@[simp] theorem State.setShard_cores (s : State) (k : Nat) (x : Shard) : (s.setShard k x).cores = s.cores := rfl
@[simp] theorem State.setShard_sched (s : State) (k : Nat) (x : Shard) : (s.setShard k x).sched = s.sched := rfl
@[simp] theorem State.setShard_fabric (s : State) (k : Nat) (x : Shard) : (s.setShard k x).fabric = s.fabric := rfl
@[simp] theorem State.setShard_spads (s : State) (k : Nat) (x : Shard) : (s.setShard k x).spads = s.spads := rfl
@[simp] theorem State.setShard_conts (s : State) (k : Nat) (x : Shard) : (s.setShard k x).conts = s.conts := rfl
@[simp] theorem State.setShard_streams (s : State) (k : Nat) (x : Shard) : (s.setShard k x).streams = s.streams := rfl
@[simp] theorem State.setShard_memory (s : State) (k : Nat) (x : Shard) : (s.setShard k x).memory = s.memory := rfl
@[simp] theorem State.setShard_resil (s : State) (k : Nat) (x : Shard) : (s.setShard k x).resil = s.resil := rfl
@[simp] theorem State.setShard_flume (s : State) (k : Nat) (x : Shard) : (s.setShard k x).flume = s.flume := rfl
@[simp] theorem State.setShard_attn (s : State) (k : Nat) (x : Shard) : (s.setShard k x).attn = s.attn := rfl
@[simp] theorem State.setShard_hostPort (s : State) (k : Nat) (x : Shard) : (s.setShard k x).hostPort = s.hostPort := rfl
@[simp] theorem State.setShard_power (s : State) (k : Nat) (x : Shard) : (s.setShard k x).power = s.power := rfl
@[simp] theorem State.setShard_pins (s : State) (k : Nat) (x : Shard) : (s.setShard k x).pins = s.pins := rfl
@[simp] theorem State.setShard_powered (s : State) (k : Nat) (x : Shard) : (s.setShard k x).powered = s.powered := rfl
@[simp] theorem State.setShard_regs (s : State) (k : Nat) (x : Shard) : (s.setShard k x).regs = s.regs := rfl
@[simp] theorem State.setShard_outputs (s : State) (k : Nat) (x : Shard) : (s.setShard k x).outputs = s.outputs := rfl
@[simp] theorem State.setShard_freshCount (s : State) (k : Nat) (x : Shard) : (s.setShard k x).freshCount = s.freshCount := rfl

/-! `State.setReg` changes `regs`. -/

@[simp] theorem State.setReg_pending (s : State) (u off v : Nat) : (s.setReg u off v).pending = s.pending := rfl
@[simp] theorem State.setReg_umauth (s : State) (u off v : Nat) : (s.setReg u off v).umauth = s.umauth := rfl
@[simp] theorem State.setReg_xanca (s : State) (u off v : Nat) : (s.setReg u off v).xanca = s.xanca := rfl
@[simp] theorem State.setReg_timecode (s : State) (u off v : Nat) : (s.setReg u off v).timecode = s.timecode := rfl
@[simp] theorem State.setReg_diag (s : State) (u off v : Nat) : (s.setReg u off v).diag = s.diag := rfl
@[simp] theorem State.setReg_security (s : State) (u off v : Nat) : (s.setReg u off v).security = s.security := rfl
@[simp] theorem State.setReg_cores (s : State) (u off v : Nat) : (s.setReg u off v).cores = s.cores := rfl
@[simp] theorem State.setReg_sched (s : State) (u off v : Nat) : (s.setReg u off v).sched = s.sched := rfl
@[simp] theorem State.setReg_fabric (s : State) (u off v : Nat) : (s.setReg u off v).fabric = s.fabric := rfl
@[simp] theorem State.setReg_spads (s : State) (u off v : Nat) : (s.setReg u off v).spads = s.spads := rfl
@[simp] theorem State.setReg_conts (s : State) (u off v : Nat) : (s.setReg u off v).conts = s.conts := rfl
@[simp] theorem State.setReg_streams (s : State) (u off v : Nat) : (s.setReg u off v).streams = s.streams := rfl
@[simp] theorem State.setReg_reels (s : State) (u off v : Nat) : (s.setReg u off v).reels = s.reels := rfl
@[simp] theorem State.setReg_memory (s : State) (u off v : Nat) : (s.setReg u off v).memory = s.memory := rfl
@[simp] theorem State.setReg_resil (s : State) (u off v : Nat) : (s.setReg u off v).resil = s.resil := rfl
@[simp] theorem State.setReg_flume (s : State) (u off v : Nat) : (s.setReg u off v).flume = s.flume := rfl
@[simp] theorem State.setReg_attn (s : State) (u off v : Nat) : (s.setReg u off v).attn = s.attn := rfl
@[simp] theorem State.setReg_hostPort (s : State) (u off v : Nat) : (s.setReg u off v).hostPort = s.hostPort := rfl
@[simp] theorem State.setReg_power (s : State) (u off v : Nat) : (s.setReg u off v).power = s.power := rfl
@[simp] theorem State.setReg_pins (s : State) (u off v : Nat) : (s.setReg u off v).pins = s.pins := rfl
@[simp] theorem State.setReg_powered (s : State) (u off v : Nat) : (s.setReg u off v).powered = s.powered := rfl
@[simp] theorem State.setReg_outputs (s : State) (u off v : Nat) : (s.setReg u off v).outputs = s.outputs := rfl
@[simp] theorem State.setReg_freshCount (s : State) (u off v : Nat) : (s.setReg u off v).freshCount = s.freshCount := rfl

/-! `State.setSession` changes `umauth`. -/

@[simp] theorem State.setSession_pending (s : State) (n : Nat) (x : Session) : (s.setSession n x).pending = s.pending := rfl
@[simp] theorem State.setSession_xanca (s : State) (n : Nat) (x : Session) : (s.setSession n x).xanca = s.xanca := rfl
@[simp] theorem State.setSession_timecode (s : State) (n : Nat) (x : Session) : (s.setSession n x).timecode = s.timecode := rfl
@[simp] theorem State.setSession_diag (s : State) (n : Nat) (x : Session) : (s.setSession n x).diag = s.diag := rfl
@[simp] theorem State.setSession_security (s : State) (n : Nat) (x : Session) : (s.setSession n x).security = s.security := rfl
@[simp] theorem State.setSession_cores (s : State) (n : Nat) (x : Session) : (s.setSession n x).cores = s.cores := rfl
@[simp] theorem State.setSession_sched (s : State) (n : Nat) (x : Session) : (s.setSession n x).sched = s.sched := rfl
@[simp] theorem State.setSession_fabric (s : State) (n : Nat) (x : Session) : (s.setSession n x).fabric = s.fabric := rfl
@[simp] theorem State.setSession_spads (s : State) (n : Nat) (x : Session) : (s.setSession n x).spads = s.spads := rfl
@[simp] theorem State.setSession_conts (s : State) (n : Nat) (x : Session) : (s.setSession n x).conts = s.conts := rfl
@[simp] theorem State.setSession_streams (s : State) (n : Nat) (x : Session) : (s.setSession n x).streams = s.streams := rfl
@[simp] theorem State.setSession_reels (s : State) (n : Nat) (x : Session) : (s.setSession n x).reels = s.reels := rfl
@[simp] theorem State.setSession_memory (s : State) (n : Nat) (x : Session) : (s.setSession n x).memory = s.memory := rfl
@[simp] theorem State.setSession_resil (s : State) (n : Nat) (x : Session) : (s.setSession n x).resil = s.resil := rfl
@[simp] theorem State.setSession_flume (s : State) (n : Nat) (x : Session) : (s.setSession n x).flume = s.flume := rfl
@[simp] theorem State.setSession_attn (s : State) (n : Nat) (x : Session) : (s.setSession n x).attn = s.attn := rfl
@[simp] theorem State.setSession_hostPort (s : State) (n : Nat) (x : Session) : (s.setSession n x).hostPort = s.hostPort := rfl
@[simp] theorem State.setSession_power (s : State) (n : Nat) (x : Session) : (s.setSession n x).power = s.power := rfl
@[simp] theorem State.setSession_pins (s : State) (n : Nat) (x : Session) : (s.setSession n x).pins = s.pins := rfl
@[simp] theorem State.setSession_powered (s : State) (n : Nat) (x : Session) : (s.setSession n x).powered = s.powered := rfl
@[simp] theorem State.setSession_regs (s : State) (n : Nat) (x : Session) : (s.setSession n x).regs = s.regs := rfl
@[simp] theorem State.setSession_outputs (s : State) (n : Nat) (x : Session) : (s.setSession n x).outputs = s.outputs := rfl
@[simp] theorem State.setSession_freshCount (s : State) (n : Nat) (x : Session) : (s.setSession n x).freshCount = s.freshCount := rfl

/-! `State.setQueue` changes `umauth`. -/

@[simp] theorem State.setQueue_pending (s : State) (k : Nat) (q : Queue) : (s.setQueue k q).pending = s.pending := rfl
@[simp] theorem State.setQueue_xanca (s : State) (k : Nat) (q : Queue) : (s.setQueue k q).xanca = s.xanca := rfl
@[simp] theorem State.setQueue_timecode (s : State) (k : Nat) (q : Queue) : (s.setQueue k q).timecode = s.timecode := rfl
@[simp] theorem State.setQueue_diag (s : State) (k : Nat) (q : Queue) : (s.setQueue k q).diag = s.diag := rfl
@[simp] theorem State.setQueue_security (s : State) (k : Nat) (q : Queue) : (s.setQueue k q).security = s.security := rfl
@[simp] theorem State.setQueue_cores (s : State) (k : Nat) (q : Queue) : (s.setQueue k q).cores = s.cores := rfl
@[simp] theorem State.setQueue_sched (s : State) (k : Nat) (q : Queue) : (s.setQueue k q).sched = s.sched := rfl
@[simp] theorem State.setQueue_fabric (s : State) (k : Nat) (q : Queue) : (s.setQueue k q).fabric = s.fabric := rfl
@[simp] theorem State.setQueue_spads (s : State) (k : Nat) (q : Queue) : (s.setQueue k q).spads = s.spads := rfl
@[simp] theorem State.setQueue_conts (s : State) (k : Nat) (q : Queue) : (s.setQueue k q).conts = s.conts := rfl
@[simp] theorem State.setQueue_streams (s : State) (k : Nat) (q : Queue) : (s.setQueue k q).streams = s.streams := rfl
@[simp] theorem State.setQueue_reels (s : State) (k : Nat) (q : Queue) : (s.setQueue k q).reels = s.reels := rfl
@[simp] theorem State.setQueue_memory (s : State) (k : Nat) (q : Queue) : (s.setQueue k q).memory = s.memory := rfl
@[simp] theorem State.setQueue_resil (s : State) (k : Nat) (q : Queue) : (s.setQueue k q).resil = s.resil := rfl
@[simp] theorem State.setQueue_flume (s : State) (k : Nat) (q : Queue) : (s.setQueue k q).flume = s.flume := rfl
@[simp] theorem State.setQueue_attn (s : State) (k : Nat) (q : Queue) : (s.setQueue k q).attn = s.attn := rfl
@[simp] theorem State.setQueue_hostPort (s : State) (k : Nat) (q : Queue) : (s.setQueue k q).hostPort = s.hostPort := rfl
@[simp] theorem State.setQueue_power (s : State) (k : Nat) (q : Queue) : (s.setQueue k q).power = s.power := rfl
@[simp] theorem State.setQueue_pins (s : State) (k : Nat) (q : Queue) : (s.setQueue k q).pins = s.pins := rfl
@[simp] theorem State.setQueue_powered (s : State) (k : Nat) (q : Queue) : (s.setQueue k q).powered = s.powered := rfl
@[simp] theorem State.setQueue_regs (s : State) (k : Nat) (q : Queue) : (s.setQueue k q).regs = s.regs := rfl
@[simp] theorem State.setQueue_outputs (s : State) (k : Nat) (q : Queue) : (s.setQueue k q).outputs = s.outputs := rfl
@[simp] theorem State.setQueue_freshCount (s : State) (k : Nat) (q : Queue) : (s.setQueue k q).freshCount = s.freshCount := rfl

/-! `State.emit` changes `outputs`. -/

@[simp] theorem State.emit_pending (s : State) (o : Output) : (s.emit o).pending = s.pending := rfl
@[simp] theorem State.emit_umauth (s : State) (o : Output) : (s.emit o).umauth = s.umauth := rfl
@[simp] theorem State.emit_xanca (s : State) (o : Output) : (s.emit o).xanca = s.xanca := rfl
@[simp] theorem State.emit_timecode (s : State) (o : Output) : (s.emit o).timecode = s.timecode := rfl
@[simp] theorem State.emit_diag (s : State) (o : Output) : (s.emit o).diag = s.diag := rfl
@[simp] theorem State.emit_security (s : State) (o : Output) : (s.emit o).security = s.security := rfl
@[simp] theorem State.emit_cores (s : State) (o : Output) : (s.emit o).cores = s.cores := rfl
@[simp] theorem State.emit_sched (s : State) (o : Output) : (s.emit o).sched = s.sched := rfl
@[simp] theorem State.emit_fabric (s : State) (o : Output) : (s.emit o).fabric = s.fabric := rfl
@[simp] theorem State.emit_spads (s : State) (o : Output) : (s.emit o).spads = s.spads := rfl
@[simp] theorem State.emit_conts (s : State) (o : Output) : (s.emit o).conts = s.conts := rfl
@[simp] theorem State.emit_streams (s : State) (o : Output) : (s.emit o).streams = s.streams := rfl
@[simp] theorem State.emit_reels (s : State) (o : Output) : (s.emit o).reels = s.reels := rfl
@[simp] theorem State.emit_memory (s : State) (o : Output) : (s.emit o).memory = s.memory := rfl
@[simp] theorem State.emit_resil (s : State) (o : Output) : (s.emit o).resil = s.resil := rfl
@[simp] theorem State.emit_flume (s : State) (o : Output) : (s.emit o).flume = s.flume := rfl
@[simp] theorem State.emit_attn (s : State) (o : Output) : (s.emit o).attn = s.attn := rfl
@[simp] theorem State.emit_hostPort (s : State) (o : Output) : (s.emit o).hostPort = s.hostPort := rfl
@[simp] theorem State.emit_power (s : State) (o : Output) : (s.emit o).power = s.power := rfl
@[simp] theorem State.emit_pins (s : State) (o : Output) : (s.emit o).pins = s.pins := rfl
@[simp] theorem State.emit_powered (s : State) (o : Output) : (s.emit o).powered = s.powered := rfl
@[simp] theorem State.emit_regs (s : State) (o : Output) : (s.emit o).regs = s.regs := rfl
@[simp] theorem State.emit_freshCount (s : State) (o : Output) : (s.emit o).freshCount = s.freshCount := rfl

/-! `State.setXentry` changes `xanca`. -/

@[simp] theorem State.setXentry_pending (s : State) (u : Nat) (e : XEntry) : (s.setXentry u e).pending = s.pending := rfl
@[simp] theorem State.setXentry_umauth (s : State) (u : Nat) (e : XEntry) : (s.setXentry u e).umauth = s.umauth := rfl
@[simp] theorem State.setXentry_timecode (s : State) (u : Nat) (e : XEntry) : (s.setXentry u e).timecode = s.timecode := rfl
@[simp] theorem State.setXentry_diag (s : State) (u : Nat) (e : XEntry) : (s.setXentry u e).diag = s.diag := rfl
@[simp] theorem State.setXentry_security (s : State) (u : Nat) (e : XEntry) : (s.setXentry u e).security = s.security := rfl
@[simp] theorem State.setXentry_cores (s : State) (u : Nat) (e : XEntry) : (s.setXentry u e).cores = s.cores := rfl
@[simp] theorem State.setXentry_sched (s : State) (u : Nat) (e : XEntry) : (s.setXentry u e).sched = s.sched := rfl
@[simp] theorem State.setXentry_fabric (s : State) (u : Nat) (e : XEntry) : (s.setXentry u e).fabric = s.fabric := rfl
@[simp] theorem State.setXentry_spads (s : State) (u : Nat) (e : XEntry) : (s.setXentry u e).spads = s.spads := rfl
@[simp] theorem State.setXentry_conts (s : State) (u : Nat) (e : XEntry) : (s.setXentry u e).conts = s.conts := rfl
@[simp] theorem State.setXentry_streams (s : State) (u : Nat) (e : XEntry) : (s.setXentry u e).streams = s.streams := rfl
@[simp] theorem State.setXentry_reels (s : State) (u : Nat) (e : XEntry) : (s.setXentry u e).reels = s.reels := rfl
@[simp] theorem State.setXentry_memory (s : State) (u : Nat) (e : XEntry) : (s.setXentry u e).memory = s.memory := rfl
@[simp] theorem State.setXentry_resil (s : State) (u : Nat) (e : XEntry) : (s.setXentry u e).resil = s.resil := rfl
@[simp] theorem State.setXentry_flume (s : State) (u : Nat) (e : XEntry) : (s.setXentry u e).flume = s.flume := rfl
@[simp] theorem State.setXentry_attn (s : State) (u : Nat) (e : XEntry) : (s.setXentry u e).attn = s.attn := rfl
@[simp] theorem State.setXentry_hostPort (s : State) (u : Nat) (e : XEntry) : (s.setXentry u e).hostPort = s.hostPort := rfl
@[simp] theorem State.setXentry_power (s : State) (u : Nat) (e : XEntry) : (s.setXentry u e).power = s.power := rfl
@[simp] theorem State.setXentry_pins (s : State) (u : Nat) (e : XEntry) : (s.setXentry u e).pins = s.pins := rfl
@[simp] theorem State.setXentry_powered (s : State) (u : Nat) (e : XEntry) : (s.setXentry u e).powered = s.powered := rfl
@[simp] theorem State.setXentry_regs (s : State) (u : Nat) (e : XEntry) : (s.setXentry u e).regs = s.regs := rfl
@[simp] theorem State.setXentry_outputs (s : State) (u : Nat) (e : XEntry) : (s.setXentry u e).outputs = s.outputs := rfl
@[simp] theorem State.setXentry_freshCount (s : State) (u : Nat) (e : XEntry) : (s.setXentry u e).freshCount = s.freshCount := rfl

/-! `State.setEmpty` changes `spads`. -/

@[simp] theorem State.setEmpty_pending (s : State) (p l : Nat) : (s.setEmpty p l).pending = s.pending := rfl
@[simp] theorem State.setEmpty_umauth (s : State) (p l : Nat) : (s.setEmpty p l).umauth = s.umauth := rfl
@[simp] theorem State.setEmpty_xanca (s : State) (p l : Nat) : (s.setEmpty p l).xanca = s.xanca := rfl
@[simp] theorem State.setEmpty_timecode (s : State) (p l : Nat) : (s.setEmpty p l).timecode = s.timecode := rfl
@[simp] theorem State.setEmpty_diag (s : State) (p l : Nat) : (s.setEmpty p l).diag = s.diag := rfl
@[simp] theorem State.setEmpty_security (s : State) (p l : Nat) : (s.setEmpty p l).security = s.security := rfl
@[simp] theorem State.setEmpty_cores (s : State) (p l : Nat) : (s.setEmpty p l).cores = s.cores := rfl
@[simp] theorem State.setEmpty_sched (s : State) (p l : Nat) : (s.setEmpty p l).sched = s.sched := rfl
@[simp] theorem State.setEmpty_fabric (s : State) (p l : Nat) : (s.setEmpty p l).fabric = s.fabric := rfl
@[simp] theorem State.setEmpty_conts (s : State) (p l : Nat) : (s.setEmpty p l).conts = s.conts := rfl
@[simp] theorem State.setEmpty_streams (s : State) (p l : Nat) : (s.setEmpty p l).streams = s.streams := rfl
@[simp] theorem State.setEmpty_reels (s : State) (p l : Nat) : (s.setEmpty p l).reels = s.reels := rfl
@[simp] theorem State.setEmpty_memory (s : State) (p l : Nat) : (s.setEmpty p l).memory = s.memory := rfl
@[simp] theorem State.setEmpty_resil (s : State) (p l : Nat) : (s.setEmpty p l).resil = s.resil := rfl
@[simp] theorem State.setEmpty_flume (s : State) (p l : Nat) : (s.setEmpty p l).flume = s.flume := rfl
@[simp] theorem State.setEmpty_attn (s : State) (p l : Nat) : (s.setEmpty p l).attn = s.attn := rfl
@[simp] theorem State.setEmpty_hostPort (s : State) (p l : Nat) : (s.setEmpty p l).hostPort = s.hostPort := rfl
@[simp] theorem State.setEmpty_power (s : State) (p l : Nat) : (s.setEmpty p l).power = s.power := rfl
@[simp] theorem State.setEmpty_pins (s : State) (p l : Nat) : (s.setEmpty p l).pins = s.pins := rfl
@[simp] theorem State.setEmpty_powered (s : State) (p l : Nat) : (s.setEmpty p l).powered = s.powered := rfl
@[simp] theorem State.setEmpty_regs (s : State) (p l : Nat) : (s.setEmpty p l).regs = s.regs := rfl
@[simp] theorem State.setEmpty_outputs (s : State) (p l : Nat) : (s.setEmpty p l).outputs = s.outputs := rfl
@[simp] theorem State.setEmpty_freshCount (s : State) (p l : Nat) : (s.setEmpty p l).freshCount = s.freshCount := rfl

/-! `State.setTurnout` changes `spads`. -/

@[simp] theorem State.setTurnout_pending (s : State) (p t : Nat) (x : Turnout) : (s.setTurnout p t x).pending = s.pending := rfl
@[simp] theorem State.setTurnout_umauth (s : State) (p t : Nat) (x : Turnout) : (s.setTurnout p t x).umauth = s.umauth := rfl
@[simp] theorem State.setTurnout_xanca (s : State) (p t : Nat) (x : Turnout) : (s.setTurnout p t x).xanca = s.xanca := rfl
@[simp] theorem State.setTurnout_timecode (s : State) (p t : Nat) (x : Turnout) : (s.setTurnout p t x).timecode = s.timecode := rfl
@[simp] theorem State.setTurnout_diag (s : State) (p t : Nat) (x : Turnout) : (s.setTurnout p t x).diag = s.diag := rfl
@[simp] theorem State.setTurnout_security (s : State) (p t : Nat) (x : Turnout) : (s.setTurnout p t x).security = s.security := rfl
@[simp] theorem State.setTurnout_cores (s : State) (p t : Nat) (x : Turnout) : (s.setTurnout p t x).cores = s.cores := rfl
@[simp] theorem State.setTurnout_sched (s : State) (p t : Nat) (x : Turnout) : (s.setTurnout p t x).sched = s.sched := rfl
@[simp] theorem State.setTurnout_fabric (s : State) (p t : Nat) (x : Turnout) : (s.setTurnout p t x).fabric = s.fabric := rfl
@[simp] theorem State.setTurnout_conts (s : State) (p t : Nat) (x : Turnout) : (s.setTurnout p t x).conts = s.conts := rfl
@[simp] theorem State.setTurnout_streams (s : State) (p t : Nat) (x : Turnout) : (s.setTurnout p t x).streams = s.streams := rfl
@[simp] theorem State.setTurnout_reels (s : State) (p t : Nat) (x : Turnout) : (s.setTurnout p t x).reels = s.reels := rfl
@[simp] theorem State.setTurnout_memory (s : State) (p t : Nat) (x : Turnout) : (s.setTurnout p t x).memory = s.memory := rfl
@[simp] theorem State.setTurnout_resil (s : State) (p t : Nat) (x : Turnout) : (s.setTurnout p t x).resil = s.resil := rfl
@[simp] theorem State.setTurnout_flume (s : State) (p t : Nat) (x : Turnout) : (s.setTurnout p t x).flume = s.flume := rfl
@[simp] theorem State.setTurnout_attn (s : State) (p t : Nat) (x : Turnout) : (s.setTurnout p t x).attn = s.attn := rfl
@[simp] theorem State.setTurnout_hostPort (s : State) (p t : Nat) (x : Turnout) : (s.setTurnout p t x).hostPort = s.hostPort := rfl
@[simp] theorem State.setTurnout_power (s : State) (p t : Nat) (x : Turnout) : (s.setTurnout p t x).power = s.power := rfl
@[simp] theorem State.setTurnout_pins (s : State) (p t : Nat) (x : Turnout) : (s.setTurnout p t x).pins = s.pins := rfl
@[simp] theorem State.setTurnout_powered (s : State) (p t : Nat) (x : Turnout) : (s.setTurnout p t x).powered = s.powered := rfl
@[simp] theorem State.setTurnout_regs (s : State) (p t : Nat) (x : Turnout) : (s.setTurnout p t x).regs = s.regs := rfl
@[simp] theorem State.setTurnout_outputs (s : State) (p t : Nat) (x : Turnout) : (s.setTurnout p t x).outputs = s.outputs := rfl
@[simp] theorem State.setTurnout_freshCount (s : State) (p t : Nat) (x : Turnout) : (s.setTurnout p t x).freshCount = s.freshCount := rfl

/-! `State.setPool` changes `streams`. -/

@[simp] theorem State.setPool_pending (s : State) (slot pool : Nat) (x : Pool) : (s.setPool slot pool x).pending = s.pending := rfl
@[simp] theorem State.setPool_umauth (s : State) (slot pool : Nat) (x : Pool) : (s.setPool slot pool x).umauth = s.umauth := rfl
@[simp] theorem State.setPool_xanca (s : State) (slot pool : Nat) (x : Pool) : (s.setPool slot pool x).xanca = s.xanca := rfl
@[simp] theorem State.setPool_timecode (s : State) (slot pool : Nat) (x : Pool) : (s.setPool slot pool x).timecode = s.timecode := rfl
@[simp] theorem State.setPool_diag (s : State) (slot pool : Nat) (x : Pool) : (s.setPool slot pool x).diag = s.diag := rfl
@[simp] theorem State.setPool_security (s : State) (slot pool : Nat) (x : Pool) : (s.setPool slot pool x).security = s.security := rfl
@[simp] theorem State.setPool_cores (s : State) (slot pool : Nat) (x : Pool) : (s.setPool slot pool x).cores = s.cores := rfl
@[simp] theorem State.setPool_sched (s : State) (slot pool : Nat) (x : Pool) : (s.setPool slot pool x).sched = s.sched := rfl
@[simp] theorem State.setPool_fabric (s : State) (slot pool : Nat) (x : Pool) : (s.setPool slot pool x).fabric = s.fabric := rfl
@[simp] theorem State.setPool_spads (s : State) (slot pool : Nat) (x : Pool) : (s.setPool slot pool x).spads = s.spads := rfl
@[simp] theorem State.setPool_conts (s : State) (slot pool : Nat) (x : Pool) : (s.setPool slot pool x).conts = s.conts := rfl
@[simp] theorem State.setPool_reels (s : State) (slot pool : Nat) (x : Pool) : (s.setPool slot pool x).reels = s.reels := rfl
@[simp] theorem State.setPool_memory (s : State) (slot pool : Nat) (x : Pool) : (s.setPool slot pool x).memory = s.memory := rfl
@[simp] theorem State.setPool_resil (s : State) (slot pool : Nat) (x : Pool) : (s.setPool slot pool x).resil = s.resil := rfl
@[simp] theorem State.setPool_flume (s : State) (slot pool : Nat) (x : Pool) : (s.setPool slot pool x).flume = s.flume := rfl
@[simp] theorem State.setPool_attn (s : State) (slot pool : Nat) (x : Pool) : (s.setPool slot pool x).attn = s.attn := rfl
@[simp] theorem State.setPool_hostPort (s : State) (slot pool : Nat) (x : Pool) : (s.setPool slot pool x).hostPort = s.hostPort := rfl
@[simp] theorem State.setPool_power (s : State) (slot pool : Nat) (x : Pool) : (s.setPool slot pool x).power = s.power := rfl
@[simp] theorem State.setPool_pins (s : State) (slot pool : Nat) (x : Pool) : (s.setPool slot pool x).pins = s.pins := rfl
@[simp] theorem State.setPool_powered (s : State) (slot pool : Nat) (x : Pool) : (s.setPool slot pool x).powered = s.powered := rfl
@[simp] theorem State.setPool_regs (s : State) (slot pool : Nat) (x : Pool) : (s.setPool slot pool x).regs = s.regs := rfl
@[simp] theorem State.setPool_outputs (s : State) (slot pool : Nat) (x : Pool) : (s.setPool slot pool x).outputs = s.outputs := rfl
@[simp] theorem State.setPool_freshCount (s : State) (slot pool : Nat) (x : Pool) : (s.setPool slot pool x).freshCount = s.freshCount := rfl

/-! `State.setStream` changes `streams`. -/

@[simp] theorem State.setStream_pending (s : State) (id : Nat) (x : Stream) : (s.setStream id x).pending = s.pending := rfl
@[simp] theorem State.setStream_umauth (s : State) (id : Nat) (x : Stream) : (s.setStream id x).umauth = s.umauth := rfl
@[simp] theorem State.setStream_xanca (s : State) (id : Nat) (x : Stream) : (s.setStream id x).xanca = s.xanca := rfl
@[simp] theorem State.setStream_timecode (s : State) (id : Nat) (x : Stream) : (s.setStream id x).timecode = s.timecode := rfl
@[simp] theorem State.setStream_diag (s : State) (id : Nat) (x : Stream) : (s.setStream id x).diag = s.diag := rfl
@[simp] theorem State.setStream_security (s : State) (id : Nat) (x : Stream) : (s.setStream id x).security = s.security := rfl
@[simp] theorem State.setStream_cores (s : State) (id : Nat) (x : Stream) : (s.setStream id x).cores = s.cores := rfl
@[simp] theorem State.setStream_sched (s : State) (id : Nat) (x : Stream) : (s.setStream id x).sched = s.sched := rfl
@[simp] theorem State.setStream_fabric (s : State) (id : Nat) (x : Stream) : (s.setStream id x).fabric = s.fabric := rfl
@[simp] theorem State.setStream_spads (s : State) (id : Nat) (x : Stream) : (s.setStream id x).spads = s.spads := rfl
@[simp] theorem State.setStream_conts (s : State) (id : Nat) (x : Stream) : (s.setStream id x).conts = s.conts := rfl
@[simp] theorem State.setStream_reels (s : State) (id : Nat) (x : Stream) : (s.setStream id x).reels = s.reels := rfl
@[simp] theorem State.setStream_memory (s : State) (id : Nat) (x : Stream) : (s.setStream id x).memory = s.memory := rfl
@[simp] theorem State.setStream_resil (s : State) (id : Nat) (x : Stream) : (s.setStream id x).resil = s.resil := rfl
@[simp] theorem State.setStream_flume (s : State) (id : Nat) (x : Stream) : (s.setStream id x).flume = s.flume := rfl
@[simp] theorem State.setStream_attn (s : State) (id : Nat) (x : Stream) : (s.setStream id x).attn = s.attn := rfl
@[simp] theorem State.setStream_hostPort (s : State) (id : Nat) (x : Stream) : (s.setStream id x).hostPort = s.hostPort := rfl
@[simp] theorem State.setStream_power (s : State) (id : Nat) (x : Stream) : (s.setStream id x).power = s.power := rfl
@[simp] theorem State.setStream_pins (s : State) (id : Nat) (x : Stream) : (s.setStream id x).pins = s.pins := rfl
@[simp] theorem State.setStream_powered (s : State) (id : Nat) (x : Stream) : (s.setStream id x).powered = s.powered := rfl
@[simp] theorem State.setStream_regs (s : State) (id : Nat) (x : Stream) : (s.setStream id x).regs = s.regs := rfl
@[simp] theorem State.setStream_outputs (s : State) (id : Nat) (x : Stream) : (s.setStream id x).outputs = s.outputs := rfl
@[simp] theorem State.setStream_freshCount (s : State) (id : Nat) (x : Stream) : (s.setStream id x).freshCount = s.freshCount := rfl

/-! `State.setKernel` changes `cores`. -/

@[simp] theorem State.setKernel_pending (s : State) (slot id : Nat) (k : Kernel) : (s.setKernel slot id k).pending = s.pending := rfl
@[simp] theorem State.setKernel_umauth (s : State) (slot id : Nat) (k : Kernel) : (s.setKernel slot id k).umauth = s.umauth := rfl
@[simp] theorem State.setKernel_xanca (s : State) (slot id : Nat) (k : Kernel) : (s.setKernel slot id k).xanca = s.xanca := rfl
@[simp] theorem State.setKernel_timecode (s : State) (slot id : Nat) (k : Kernel) : (s.setKernel slot id k).timecode = s.timecode := rfl
@[simp] theorem State.setKernel_diag (s : State) (slot id : Nat) (k : Kernel) : (s.setKernel slot id k).diag = s.diag := rfl
@[simp] theorem State.setKernel_security (s : State) (slot id : Nat) (k : Kernel) : (s.setKernel slot id k).security = s.security := rfl
@[simp] theorem State.setKernel_sched (s : State) (slot id : Nat) (k : Kernel) : (s.setKernel slot id k).sched = s.sched := rfl
@[simp] theorem State.setKernel_fabric (s : State) (slot id : Nat) (k : Kernel) : (s.setKernel slot id k).fabric = s.fabric := rfl
@[simp] theorem State.setKernel_spads (s : State) (slot id : Nat) (k : Kernel) : (s.setKernel slot id k).spads = s.spads := rfl
@[simp] theorem State.setKernel_conts (s : State) (slot id : Nat) (k : Kernel) : (s.setKernel slot id k).conts = s.conts := rfl
@[simp] theorem State.setKernel_streams (s : State) (slot id : Nat) (k : Kernel) : (s.setKernel slot id k).streams = s.streams := rfl
@[simp] theorem State.setKernel_reels (s : State) (slot id : Nat) (k : Kernel) : (s.setKernel slot id k).reels = s.reels := rfl
@[simp] theorem State.setKernel_memory (s : State) (slot id : Nat) (k : Kernel) : (s.setKernel slot id k).memory = s.memory := rfl
@[simp] theorem State.setKernel_resil (s : State) (slot id : Nat) (k : Kernel) : (s.setKernel slot id k).resil = s.resil := rfl
@[simp] theorem State.setKernel_flume (s : State) (slot id : Nat) (k : Kernel) : (s.setKernel slot id k).flume = s.flume := rfl
@[simp] theorem State.setKernel_attn (s : State) (slot id : Nat) (k : Kernel) : (s.setKernel slot id k).attn = s.attn := rfl
@[simp] theorem State.setKernel_hostPort (s : State) (slot id : Nat) (k : Kernel) : (s.setKernel slot id k).hostPort = s.hostPort := rfl
@[simp] theorem State.setKernel_power (s : State) (slot id : Nat) (k : Kernel) : (s.setKernel slot id k).power = s.power := rfl
@[simp] theorem State.setKernel_pins (s : State) (slot id : Nat) (k : Kernel) : (s.setKernel slot id k).pins = s.pins := rfl
@[simp] theorem State.setKernel_powered (s : State) (slot id : Nat) (k : Kernel) : (s.setKernel slot id k).powered = s.powered := rfl
@[simp] theorem State.setKernel_regs (s : State) (slot id : Nat) (k : Kernel) : (s.setKernel slot id k).regs = s.regs := rfl
@[simp] theorem State.setKernel_outputs (s : State) (slot id : Nat) (k : Kernel) : (s.setKernel slot id k).outputs = s.outputs := rfl
@[simp] theorem State.setKernel_freshCount (s : State) (slot id : Nat) (k : Kernel) : (s.setKernel slot id k).freshCount = s.freshCount := rfl

end Sys2Proof.Machine
end

