-- ==== Sys2Proof/Laws/Ops.lean ====
section
/-! SUPPORT. What the shared operations leave alone: replies and records touch the transport, the outputs and (for the damage
mark of R428) the diagnosis unit; the other lemmas name the record that each operation is about. -/

namespace Sys2Proof.Machine

/-- A fold of updates that each keep a projection keeps it. -/
theorem foldl_field {α β : Type} (g : State → β) (f : State → α → State) (h : ∀ s a, g (f s a) = g s) (l : List α) (s : State) :
    g (l.foldl f s) = g s := by
  induction l generalizing s with
  | nil => rfl
  | cons a t ih => rw [List.foldl_cons, ih, h]

/-! `State.sendDatagram` changes `outputs`. -/

@[simp] theorem State.sendDatagram_pending (s : State) (n kind tseq : Nat) (body : List Byte) (m : Option Msg) :
    (s.sendDatagram n kind tseq body m).pending = s.pending := rfl
@[simp] theorem State.sendDatagram_umauth (s : State) (n kind tseq : Nat) (body : List Byte) (m : Option Msg) :
    (s.sendDatagram n kind tseq body m).umauth = s.umauth := rfl
@[simp] theorem State.sendDatagram_xanca (s : State) (n kind tseq : Nat) (body : List Byte) (m : Option Msg) :
    (s.sendDatagram n kind tseq body m).xanca = s.xanca := rfl
@[simp] theorem State.sendDatagram_timecode (s : State) (n kind tseq : Nat) (body : List Byte) (m : Option Msg) :
    (s.sendDatagram n kind tseq body m).timecode = s.timecode := rfl
@[simp] theorem State.sendDatagram_diag (s : State) (n kind tseq : Nat) (body : List Byte) (m : Option Msg) :
    (s.sendDatagram n kind tseq body m).diag = s.diag := rfl
@[simp] theorem State.sendDatagram_security (s : State) (n kind tseq : Nat) (body : List Byte) (m : Option Msg) :
    (s.sendDatagram n kind tseq body m).security = s.security := rfl
@[simp] theorem State.sendDatagram_cores (s : State) (n kind tseq : Nat) (body : List Byte) (m : Option Msg) :
    (s.sendDatagram n kind tseq body m).cores = s.cores := rfl
@[simp] theorem State.sendDatagram_sched (s : State) (n kind tseq : Nat) (body : List Byte) (m : Option Msg) :
    (s.sendDatagram n kind tseq body m).sched = s.sched := rfl
@[simp] theorem State.sendDatagram_fabric (s : State) (n kind tseq : Nat) (body : List Byte) (m : Option Msg) :
    (s.sendDatagram n kind tseq body m).fabric = s.fabric := rfl
@[simp] theorem State.sendDatagram_spads (s : State) (n kind tseq : Nat) (body : List Byte) (m : Option Msg) :
    (s.sendDatagram n kind tseq body m).spads = s.spads := rfl
@[simp] theorem State.sendDatagram_conts (s : State) (n kind tseq : Nat) (body : List Byte) (m : Option Msg) :
    (s.sendDatagram n kind tseq body m).conts = s.conts := rfl
@[simp] theorem State.sendDatagram_streams (s : State) (n kind tseq : Nat) (body : List Byte) (m : Option Msg) :
    (s.sendDatagram n kind tseq body m).streams = s.streams := rfl
@[simp] theorem State.sendDatagram_reels (s : State) (n kind tseq : Nat) (body : List Byte) (m : Option Msg) :
    (s.sendDatagram n kind tseq body m).reels = s.reels := rfl
@[simp] theorem State.sendDatagram_memory (s : State) (n kind tseq : Nat) (body : List Byte) (m : Option Msg) :
    (s.sendDatagram n kind tseq body m).memory = s.memory := rfl
@[simp] theorem State.sendDatagram_resil (s : State) (n kind tseq : Nat) (body : List Byte) (m : Option Msg) :
    (s.sendDatagram n kind tseq body m).resil = s.resil := rfl
@[simp] theorem State.sendDatagram_flume (s : State) (n kind tseq : Nat) (body : List Byte) (m : Option Msg) :
    (s.sendDatagram n kind tseq body m).flume = s.flume := rfl
@[simp] theorem State.sendDatagram_attn (s : State) (n kind tseq : Nat) (body : List Byte) (m : Option Msg) :
    (s.sendDatagram n kind tseq body m).attn = s.attn := rfl
@[simp] theorem State.sendDatagram_hostPort (s : State) (n kind tseq : Nat) (body : List Byte) (m : Option Msg) :
    (s.sendDatagram n kind tseq body m).hostPort = s.hostPort := rfl
@[simp] theorem State.sendDatagram_power (s : State) (n kind tseq : Nat) (body : List Byte) (m : Option Msg) :
    (s.sendDatagram n kind tseq body m).power = s.power := rfl
@[simp] theorem State.sendDatagram_pins (s : State) (n kind tseq : Nat) (body : List Byte) (m : Option Msg) :
    (s.sendDatagram n kind tseq body m).pins = s.pins := rfl
@[simp] theorem State.sendDatagram_powered (s : State) (n kind tseq : Nat) (body : List Byte) (m : Option Msg) :
    (s.sendDatagram n kind tseq body m).powered = s.powered := rfl
@[simp] theorem State.sendDatagram_regs (s : State) (n kind tseq : Nat) (body : List Byte) (m : Option Msg) :
    (s.sendDatagram n kind tseq body m).regs = s.regs := rfl
@[simp] theorem State.sendDatagram_freshCount (s : State) (n kind tseq : Nat) (body : List Byte) (m : Option Msg) :
    (s.sendDatagram n kind tseq body m).freshCount = s.freshCount := rfl

/-! `State.transmit` changes `umauth`, `outputs`. -/

@[simp] theorem State.transmit_pending (s : State) (n mid : Nat) (m : Msg) :
    (s.transmit n mid m).pending = s.pending := rfl
@[simp] theorem State.transmit_xanca (s : State) (n mid : Nat) (m : Msg) :
    (s.transmit n mid m).xanca = s.xanca := rfl
@[simp] theorem State.transmit_timecode (s : State) (n mid : Nat) (m : Msg) :
    (s.transmit n mid m).timecode = s.timecode := rfl
@[simp] theorem State.transmit_diag (s : State) (n mid : Nat) (m : Msg) :
    (s.transmit n mid m).diag = s.diag := rfl
@[simp] theorem State.transmit_security (s : State) (n mid : Nat) (m : Msg) :
    (s.transmit n mid m).security = s.security := rfl
@[simp] theorem State.transmit_cores (s : State) (n mid : Nat) (m : Msg) :
    (s.transmit n mid m).cores = s.cores := rfl
@[simp] theorem State.transmit_sched (s : State) (n mid : Nat) (m : Msg) :
    (s.transmit n mid m).sched = s.sched := rfl
@[simp] theorem State.transmit_fabric (s : State) (n mid : Nat) (m : Msg) :
    (s.transmit n mid m).fabric = s.fabric := rfl
@[simp] theorem State.transmit_spads (s : State) (n mid : Nat) (m : Msg) :
    (s.transmit n mid m).spads = s.spads := rfl
@[simp] theorem State.transmit_conts (s : State) (n mid : Nat) (m : Msg) :
    (s.transmit n mid m).conts = s.conts := rfl
@[simp] theorem State.transmit_streams (s : State) (n mid : Nat) (m : Msg) :
    (s.transmit n mid m).streams = s.streams := rfl
@[simp] theorem State.transmit_reels (s : State) (n mid : Nat) (m : Msg) :
    (s.transmit n mid m).reels = s.reels := rfl
@[simp] theorem State.transmit_memory (s : State) (n mid : Nat) (m : Msg) :
    (s.transmit n mid m).memory = s.memory := rfl
@[simp] theorem State.transmit_resil (s : State) (n mid : Nat) (m : Msg) :
    (s.transmit n mid m).resil = s.resil := rfl
@[simp] theorem State.transmit_flume (s : State) (n mid : Nat) (m : Msg) :
    (s.transmit n mid m).flume = s.flume := rfl
@[simp] theorem State.transmit_attn (s : State) (n mid : Nat) (m : Msg) :
    (s.transmit n mid m).attn = s.attn := rfl
@[simp] theorem State.transmit_hostPort (s : State) (n mid : Nat) (m : Msg) :
    (s.transmit n mid m).hostPort = s.hostPort := rfl
@[simp] theorem State.transmit_power (s : State) (n mid : Nat) (m : Msg) :
    (s.transmit n mid m).power = s.power := rfl
@[simp] theorem State.transmit_pins (s : State) (n mid : Nat) (m : Msg) :
    (s.transmit n mid m).pins = s.pins := rfl
@[simp] theorem State.transmit_powered (s : State) (n mid : Nat) (m : Msg) :
    (s.transmit n mid m).powered = s.powered := rfl
@[simp] theorem State.transmit_regs (s : State) (n mid : Nat) (m : Msg) :
    (s.transmit n mid m).regs = s.regs := rfl
@[simp] theorem State.transmit_freshCount (s : State) (n mid : Nat) (m : Msg) :
    (s.transmit n mid m).freshCount = s.freshCount := rfl

/-! `State.sendOn` changes `umauth`, `outputs`. -/

@[simp] theorem State.sendOn_pending (s : State) (n mid : Nat) (m : Msg) :
    (s.sendOn n mid m).pending = s.pending := by unfold State.sendOn; dsimp only; split_ifs <;> simp
@[simp] theorem State.sendOn_xanca (s : State) (n mid : Nat) (m : Msg) :
    (s.sendOn n mid m).xanca = s.xanca := by unfold State.sendOn; dsimp only; split_ifs <;> simp
@[simp] theorem State.sendOn_timecode (s : State) (n mid : Nat) (m : Msg) :
    (s.sendOn n mid m).timecode = s.timecode := by unfold State.sendOn; dsimp only; split_ifs <;> simp
@[simp] theorem State.sendOn_diag (s : State) (n mid : Nat) (m : Msg) :
    (s.sendOn n mid m).diag = s.diag := by unfold State.sendOn; dsimp only; split_ifs <;> simp
@[simp] theorem State.sendOn_security (s : State) (n mid : Nat) (m : Msg) :
    (s.sendOn n mid m).security = s.security := by unfold State.sendOn; dsimp only; split_ifs <;> simp
@[simp] theorem State.sendOn_cores (s : State) (n mid : Nat) (m : Msg) :
    (s.sendOn n mid m).cores = s.cores := by unfold State.sendOn; dsimp only; split_ifs <;> simp
@[simp] theorem State.sendOn_sched (s : State) (n mid : Nat) (m : Msg) :
    (s.sendOn n mid m).sched = s.sched := by unfold State.sendOn; dsimp only; split_ifs <;> simp
@[simp] theorem State.sendOn_fabric (s : State) (n mid : Nat) (m : Msg) :
    (s.sendOn n mid m).fabric = s.fabric := by unfold State.sendOn; dsimp only; split_ifs <;> simp
@[simp] theorem State.sendOn_spads (s : State) (n mid : Nat) (m : Msg) :
    (s.sendOn n mid m).spads = s.spads := by unfold State.sendOn; dsimp only; split_ifs <;> simp
@[simp] theorem State.sendOn_conts (s : State) (n mid : Nat) (m : Msg) :
    (s.sendOn n mid m).conts = s.conts := by unfold State.sendOn; dsimp only; split_ifs <;> simp
@[simp] theorem State.sendOn_streams (s : State) (n mid : Nat) (m : Msg) :
    (s.sendOn n mid m).streams = s.streams := by unfold State.sendOn; dsimp only; split_ifs <;> simp
@[simp] theorem State.sendOn_reels (s : State) (n mid : Nat) (m : Msg) :
    (s.sendOn n mid m).reels = s.reels := by unfold State.sendOn; dsimp only; split_ifs <;> simp
@[simp] theorem State.sendOn_memory (s : State) (n mid : Nat) (m : Msg) :
    (s.sendOn n mid m).memory = s.memory := by unfold State.sendOn; dsimp only; split_ifs <;> simp
@[simp] theorem State.sendOn_resil (s : State) (n mid : Nat) (m : Msg) :
    (s.sendOn n mid m).resil = s.resil := by unfold State.sendOn; dsimp only; split_ifs <;> simp
@[simp] theorem State.sendOn_flume (s : State) (n mid : Nat) (m : Msg) :
    (s.sendOn n mid m).flume = s.flume := by unfold State.sendOn; dsimp only; split_ifs <;> simp
@[simp] theorem State.sendOn_attn (s : State) (n mid : Nat) (m : Msg) :
    (s.sendOn n mid m).attn = s.attn := by unfold State.sendOn; dsimp only; split_ifs <;> simp
@[simp] theorem State.sendOn_hostPort (s : State) (n mid : Nat) (m : Msg) :
    (s.sendOn n mid m).hostPort = s.hostPort := by unfold State.sendOn; dsimp only; split_ifs <;> simp
@[simp] theorem State.sendOn_power (s : State) (n mid : Nat) (m : Msg) :
    (s.sendOn n mid m).power = s.power := by unfold State.sendOn; dsimp only; split_ifs <;> simp
@[simp] theorem State.sendOn_pins (s : State) (n mid : Nat) (m : Msg) :
    (s.sendOn n mid m).pins = s.pins := by unfold State.sendOn; dsimp only; split_ifs <;> simp
@[simp] theorem State.sendOn_powered (s : State) (n mid : Nat) (m : Msg) :
    (s.sendOn n mid m).powered = s.powered := by unfold State.sendOn; dsimp only; split_ifs <;> simp
@[simp] theorem State.sendOn_regs (s : State) (n mid : Nat) (m : Msg) :
    (s.sendOn n mid m).regs = s.regs := by unfold State.sendOn; dsimp only; split_ifs <;> simp
@[simp] theorem State.sendOn_freshCount (s : State) (n mid : Nat) (m : Msg) :
    (s.sendOn n mid m).freshCount = s.freshCount := by unfold State.sendOn; dsimp only; split_ifs <;> simp

/-! `State.postTo` changes `umauth`, `outputs`. -/

@[simp] theorem State.postTo_pending (s : State) (k : Nat) (m : Msg) :
    (s.postTo k m).pending = s.pending := by unfold State.postTo; dsimp only; split_ifs <;> simp
@[simp] theorem State.postTo_xanca (s : State) (k : Nat) (m : Msg) :
    (s.postTo k m).xanca = s.xanca := by unfold State.postTo; dsimp only; split_ifs <;> simp
@[simp] theorem State.postTo_timecode (s : State) (k : Nat) (m : Msg) :
    (s.postTo k m).timecode = s.timecode := by unfold State.postTo; dsimp only; split_ifs <;> simp
@[simp] theorem State.postTo_diag (s : State) (k : Nat) (m : Msg) :
    (s.postTo k m).diag = s.diag := by unfold State.postTo; dsimp only; split_ifs <;> simp
@[simp] theorem State.postTo_security (s : State) (k : Nat) (m : Msg) :
    (s.postTo k m).security = s.security := by unfold State.postTo; dsimp only; split_ifs <;> simp
@[simp] theorem State.postTo_cores (s : State) (k : Nat) (m : Msg) :
    (s.postTo k m).cores = s.cores := by unfold State.postTo; dsimp only; split_ifs <;> simp
@[simp] theorem State.postTo_sched (s : State) (k : Nat) (m : Msg) :
    (s.postTo k m).sched = s.sched := by unfold State.postTo; dsimp only; split_ifs <;> simp
@[simp] theorem State.postTo_fabric (s : State) (k : Nat) (m : Msg) :
    (s.postTo k m).fabric = s.fabric := by unfold State.postTo; dsimp only; split_ifs <;> simp
@[simp] theorem State.postTo_spads (s : State) (k : Nat) (m : Msg) :
    (s.postTo k m).spads = s.spads := by unfold State.postTo; dsimp only; split_ifs <;> simp
@[simp] theorem State.postTo_conts (s : State) (k : Nat) (m : Msg) :
    (s.postTo k m).conts = s.conts := by unfold State.postTo; dsimp only; split_ifs <;> simp
@[simp] theorem State.postTo_streams (s : State) (k : Nat) (m : Msg) :
    (s.postTo k m).streams = s.streams := by unfold State.postTo; dsimp only; split_ifs <;> simp
@[simp] theorem State.postTo_reels (s : State) (k : Nat) (m : Msg) :
    (s.postTo k m).reels = s.reels := by unfold State.postTo; dsimp only; split_ifs <;> simp
@[simp] theorem State.postTo_memory (s : State) (k : Nat) (m : Msg) :
    (s.postTo k m).memory = s.memory := by unfold State.postTo; dsimp only; split_ifs <;> simp
@[simp] theorem State.postTo_resil (s : State) (k : Nat) (m : Msg) :
    (s.postTo k m).resil = s.resil := by unfold State.postTo; dsimp only; split_ifs <;> simp
@[simp] theorem State.postTo_flume (s : State) (k : Nat) (m : Msg) :
    (s.postTo k m).flume = s.flume := by unfold State.postTo; dsimp only; split_ifs <;> simp
@[simp] theorem State.postTo_attn (s : State) (k : Nat) (m : Msg) :
    (s.postTo k m).attn = s.attn := by unfold State.postTo; dsimp only; split_ifs <;> simp
@[simp] theorem State.postTo_hostPort (s : State) (k : Nat) (m : Msg) :
    (s.postTo k m).hostPort = s.hostPort := by unfold State.postTo; dsimp only; split_ifs <;> simp
@[simp] theorem State.postTo_power (s : State) (k : Nat) (m : Msg) :
    (s.postTo k m).power = s.power := by unfold State.postTo; dsimp only; split_ifs <;> simp
@[simp] theorem State.postTo_pins (s : State) (k : Nat) (m : Msg) :
    (s.postTo k m).pins = s.pins := by unfold State.postTo; dsimp only; split_ifs <;> simp
@[simp] theorem State.postTo_powered (s : State) (k : Nat) (m : Msg) :
    (s.postTo k m).powered = s.powered := by unfold State.postTo; dsimp only; split_ifs <;> simp
@[simp] theorem State.postTo_regs (s : State) (k : Nat) (m : Msg) :
    (s.postTo k m).regs = s.regs := by unfold State.postTo; dsimp only; split_ifs <;> simp
@[simp] theorem State.postTo_freshCount (s : State) (k : Nat) (m : Msg) :
    (s.postTo k m).freshCount = s.freshCount := by unfold State.postTo; dsimp only; split_ifs <;> simp

/-! `State.post` changes `umauth`, `outputs`. -/

@[simp] theorem State.post_pending (s : State) (h : CmdHdr) (m : Msg) :
    (s.post h m).pending = s.pending := by
  unfold State.post; split
  · dsimp only; split
    · split <;> rfl
    · exact foldl_field (·.pending) _ (fun s a => by simp) _ _
  · simp
@[simp] theorem State.post_xanca (s : State) (h : CmdHdr) (m : Msg) :
    (s.post h m).xanca = s.xanca := by
  unfold State.post; split
  · dsimp only; split
    · split <;> rfl
    · exact foldl_field (·.xanca) _ (fun s a => by simp) _ _
  · simp
@[simp] theorem State.post_timecode (s : State) (h : CmdHdr) (m : Msg) :
    (s.post h m).timecode = s.timecode := by
  unfold State.post; split
  · dsimp only; split
    · split <;> rfl
    · exact foldl_field (·.timecode) _ (fun s a => by simp) _ _
  · simp
@[simp] theorem State.post_diag (s : State) (h : CmdHdr) (m : Msg) :
    (s.post h m).diag = s.diag := by
  unfold State.post; split
  · dsimp only; split
    · split <;> rfl
    · exact foldl_field (·.diag) _ (fun s a => by simp) _ _
  · simp
@[simp] theorem State.post_security (s : State) (h : CmdHdr) (m : Msg) :
    (s.post h m).security = s.security := by
  unfold State.post; split
  · dsimp only; split
    · split <;> rfl
    · exact foldl_field (·.security) _ (fun s a => by simp) _ _
  · simp
@[simp] theorem State.post_cores (s : State) (h : CmdHdr) (m : Msg) :
    (s.post h m).cores = s.cores := by
  unfold State.post; split
  · dsimp only; split
    · split <;> rfl
    · exact foldl_field (·.cores) _ (fun s a => by simp) _ _
  · simp
@[simp] theorem State.post_sched (s : State) (h : CmdHdr) (m : Msg) :
    (s.post h m).sched = s.sched := by
  unfold State.post; split
  · dsimp only; split
    · split <;> rfl
    · exact foldl_field (·.sched) _ (fun s a => by simp) _ _
  · simp
@[simp] theorem State.post_fabric (s : State) (h : CmdHdr) (m : Msg) :
    (s.post h m).fabric = s.fabric := by
  unfold State.post; split
  · dsimp only; split
    · split <;> rfl
    · exact foldl_field (·.fabric) _ (fun s a => by simp) _ _
  · simp
@[simp] theorem State.post_spads (s : State) (h : CmdHdr) (m : Msg) :
    (s.post h m).spads = s.spads := by
  unfold State.post; split
  · dsimp only; split
    · split <;> rfl
    · exact foldl_field (·.spads) _ (fun s a => by simp) _ _
  · simp
@[simp] theorem State.post_conts (s : State) (h : CmdHdr) (m : Msg) :
    (s.post h m).conts = s.conts := by
  unfold State.post; split
  · dsimp only; split
    · split <;> rfl
    · exact foldl_field (·.conts) _ (fun s a => by simp) _ _
  · simp
@[simp] theorem State.post_streams (s : State) (h : CmdHdr) (m : Msg) :
    (s.post h m).streams = s.streams := by
  unfold State.post; split
  · dsimp only; split
    · split <;> rfl
    · exact foldl_field (·.streams) _ (fun s a => by simp) _ _
  · simp
@[simp] theorem State.post_reels (s : State) (h : CmdHdr) (m : Msg) :
    (s.post h m).reels = s.reels := by
  unfold State.post; split
  · dsimp only; split
    · split <;> rfl
    · exact foldl_field (·.reels) _ (fun s a => by simp) _ _
  · simp
@[simp] theorem State.post_memory (s : State) (h : CmdHdr) (m : Msg) :
    (s.post h m).memory = s.memory := by
  unfold State.post; split
  · dsimp only; split
    · split <;> rfl
    · exact foldl_field (·.memory) _ (fun s a => by simp) _ _
  · simp
@[simp] theorem State.post_resil (s : State) (h : CmdHdr) (m : Msg) :
    (s.post h m).resil = s.resil := by
  unfold State.post; split
  · dsimp only; split
    · split <;> rfl
    · exact foldl_field (·.resil) _ (fun s a => by simp) _ _
  · simp
@[simp] theorem State.post_flume (s : State) (h : CmdHdr) (m : Msg) :
    (s.post h m).flume = s.flume := by
  unfold State.post; split
  · dsimp only; split
    · split <;> rfl
    · exact foldl_field (·.flume) _ (fun s a => by simp) _ _
  · simp
@[simp] theorem State.post_attn (s : State) (h : CmdHdr) (m : Msg) :
    (s.post h m).attn = s.attn := by
  unfold State.post; split
  · dsimp only; split
    · split <;> rfl
    · exact foldl_field (·.attn) _ (fun s a => by simp) _ _
  · simp
@[simp] theorem State.post_hostPort (s : State) (h : CmdHdr) (m : Msg) :
    (s.post h m).hostPort = s.hostPort := by
  unfold State.post; split
  · dsimp only; split
    · split <;> rfl
    · exact foldl_field (·.hostPort) _ (fun s a => by simp) _ _
  · simp
@[simp] theorem State.post_power (s : State) (h : CmdHdr) (m : Msg) :
    (s.post h m).power = s.power := by
  unfold State.post; split
  · dsimp only; split
    · split <;> rfl
    · exact foldl_field (·.power) _ (fun s a => by simp) _ _
  · simp
@[simp] theorem State.post_pins (s : State) (h : CmdHdr) (m : Msg) :
    (s.post h m).pins = s.pins := by
  unfold State.post; split
  · dsimp only; split
    · split <;> rfl
    · exact foldl_field (·.pins) _ (fun s a => by simp) _ _
  · simp
@[simp] theorem State.post_powered (s : State) (h : CmdHdr) (m : Msg) :
    (s.post h m).powered = s.powered := by
  unfold State.post; split
  · dsimp only; split
    · split <;> rfl
    · exact foldl_field (·.powered) _ (fun s a => by simp) _ _
  · simp
@[simp] theorem State.post_regs (s : State) (h : CmdHdr) (m : Msg) :
    (s.post h m).regs = s.regs := by
  unfold State.post; split
  · dsimp only; split
    · split <;> rfl
    · exact foldl_field (·.regs) _ (fun s a => by simp) _ _
  · simp
@[simp] theorem State.post_freshCount (s : State) (h : CmdHdr) (m : Msg) :
    (s.post h m).freshCount = s.freshCount := by
  unfold State.post; split
  · dsimp only; split
    · split <;> rfl
    · exact foldl_field (·.freshCount) _ (fun s a => by simp) _ _
  · simp

/-! `State.recordCmd` changes `umauth`, `outputs`. -/

@[simp] theorem State.recordCmd_pending (s : State) (h : CmdHdr) (type status : Nat) (body : List Byte) :
    (s.recordCmd h type status body).pending = s.pending := by simp [State.recordCmd]
@[simp] theorem State.recordCmd_xanca (s : State) (h : CmdHdr) (type status : Nat) (body : List Byte) :
    (s.recordCmd h type status body).xanca = s.xanca := by simp [State.recordCmd]
@[simp] theorem State.recordCmd_timecode (s : State) (h : CmdHdr) (type status : Nat) (body : List Byte) :
    (s.recordCmd h type status body).timecode = s.timecode := by simp [State.recordCmd]
@[simp] theorem State.recordCmd_diag (s : State) (h : CmdHdr) (type status : Nat) (body : List Byte) :
    (s.recordCmd h type status body).diag = s.diag := by simp [State.recordCmd]
@[simp] theorem State.recordCmd_security (s : State) (h : CmdHdr) (type status : Nat) (body : List Byte) :
    (s.recordCmd h type status body).security = s.security := by simp [State.recordCmd]
@[simp] theorem State.recordCmd_cores (s : State) (h : CmdHdr) (type status : Nat) (body : List Byte) :
    (s.recordCmd h type status body).cores = s.cores := by simp [State.recordCmd]
@[simp] theorem State.recordCmd_sched (s : State) (h : CmdHdr) (type status : Nat) (body : List Byte) :
    (s.recordCmd h type status body).sched = s.sched := by simp [State.recordCmd]
@[simp] theorem State.recordCmd_fabric (s : State) (h : CmdHdr) (type status : Nat) (body : List Byte) :
    (s.recordCmd h type status body).fabric = s.fabric := by simp [State.recordCmd]
@[simp] theorem State.recordCmd_spads (s : State) (h : CmdHdr) (type status : Nat) (body : List Byte) :
    (s.recordCmd h type status body).spads = s.spads := by simp [State.recordCmd]
@[simp] theorem State.recordCmd_conts (s : State) (h : CmdHdr) (type status : Nat) (body : List Byte) :
    (s.recordCmd h type status body).conts = s.conts := by simp [State.recordCmd]
@[simp] theorem State.recordCmd_streams (s : State) (h : CmdHdr) (type status : Nat) (body : List Byte) :
    (s.recordCmd h type status body).streams = s.streams := by simp [State.recordCmd]
@[simp] theorem State.recordCmd_reels (s : State) (h : CmdHdr) (type status : Nat) (body : List Byte) :
    (s.recordCmd h type status body).reels = s.reels := by simp [State.recordCmd]
@[simp] theorem State.recordCmd_memory (s : State) (h : CmdHdr) (type status : Nat) (body : List Byte) :
    (s.recordCmd h type status body).memory = s.memory := by simp [State.recordCmd]
@[simp] theorem State.recordCmd_resil (s : State) (h : CmdHdr) (type status : Nat) (body : List Byte) :
    (s.recordCmd h type status body).resil = s.resil := by simp [State.recordCmd]
@[simp] theorem State.recordCmd_flume (s : State) (h : CmdHdr) (type status : Nat) (body : List Byte) :
    (s.recordCmd h type status body).flume = s.flume := by simp [State.recordCmd]
@[simp] theorem State.recordCmd_attn (s : State) (h : CmdHdr) (type status : Nat) (body : List Byte) :
    (s.recordCmd h type status body).attn = s.attn := by simp [State.recordCmd]
@[simp] theorem State.recordCmd_hostPort (s : State) (h : CmdHdr) (type status : Nat) (body : List Byte) :
    (s.recordCmd h type status body).hostPort = s.hostPort := by simp [State.recordCmd]
@[simp] theorem State.recordCmd_power (s : State) (h : CmdHdr) (type status : Nat) (body : List Byte) :
    (s.recordCmd h type status body).power = s.power := by simp [State.recordCmd]
@[simp] theorem State.recordCmd_pins (s : State) (h : CmdHdr) (type status : Nat) (body : List Byte) :
    (s.recordCmd h type status body).pins = s.pins := by simp [State.recordCmd]
@[simp] theorem State.recordCmd_powered (s : State) (h : CmdHdr) (type status : Nat) (body : List Byte) :
    (s.recordCmd h type status body).powered = s.powered := by simp [State.recordCmd]
@[simp] theorem State.recordCmd_regs (s : State) (h : CmdHdr) (type status : Nat) (body : List Byte) :
    (s.recordCmd h type status body).regs = s.regs := by simp [State.recordCmd]
@[simp] theorem State.recordCmd_freshCount (s : State) (h : CmdHdr) (type status : Nat) (body : List Byte) :
    (s.recordCmd h type status body).freshCount = s.freshCount := by simp [State.recordCmd]

/-! `State.recordQueue` changes `umauth`, `outputs`. -/

@[simp] theorem State.recordQueue_pending (s : State) (q type status : Nat) (body : List Byte) :
    (s.recordQueue q type status body).pending = s.pending := by simp [State.recordQueue]
@[simp] theorem State.recordQueue_xanca (s : State) (q type status : Nat) (body : List Byte) :
    (s.recordQueue q type status body).xanca = s.xanca := by simp [State.recordQueue]
@[simp] theorem State.recordQueue_timecode (s : State) (q type status : Nat) (body : List Byte) :
    (s.recordQueue q type status body).timecode = s.timecode := by simp [State.recordQueue]
@[simp] theorem State.recordQueue_diag (s : State) (q type status : Nat) (body : List Byte) :
    (s.recordQueue q type status body).diag = s.diag := by simp [State.recordQueue]
@[simp] theorem State.recordQueue_security (s : State) (q type status : Nat) (body : List Byte) :
    (s.recordQueue q type status body).security = s.security := by simp [State.recordQueue]
@[simp] theorem State.recordQueue_cores (s : State) (q type status : Nat) (body : List Byte) :
    (s.recordQueue q type status body).cores = s.cores := by simp [State.recordQueue]
@[simp] theorem State.recordQueue_sched (s : State) (q type status : Nat) (body : List Byte) :
    (s.recordQueue q type status body).sched = s.sched := by simp [State.recordQueue]
@[simp] theorem State.recordQueue_fabric (s : State) (q type status : Nat) (body : List Byte) :
    (s.recordQueue q type status body).fabric = s.fabric := by simp [State.recordQueue]
@[simp] theorem State.recordQueue_spads (s : State) (q type status : Nat) (body : List Byte) :
    (s.recordQueue q type status body).spads = s.spads := by simp [State.recordQueue]
@[simp] theorem State.recordQueue_conts (s : State) (q type status : Nat) (body : List Byte) :
    (s.recordQueue q type status body).conts = s.conts := by simp [State.recordQueue]
@[simp] theorem State.recordQueue_streams (s : State) (q type status : Nat) (body : List Byte) :
    (s.recordQueue q type status body).streams = s.streams := by simp [State.recordQueue]
@[simp] theorem State.recordQueue_reels (s : State) (q type status : Nat) (body : List Byte) :
    (s.recordQueue q type status body).reels = s.reels := by simp [State.recordQueue]
@[simp] theorem State.recordQueue_memory (s : State) (q type status : Nat) (body : List Byte) :
    (s.recordQueue q type status body).memory = s.memory := by simp [State.recordQueue]
@[simp] theorem State.recordQueue_resil (s : State) (q type status : Nat) (body : List Byte) :
    (s.recordQueue q type status body).resil = s.resil := by simp [State.recordQueue]
@[simp] theorem State.recordQueue_flume (s : State) (q type status : Nat) (body : List Byte) :
    (s.recordQueue q type status body).flume = s.flume := by simp [State.recordQueue]
@[simp] theorem State.recordQueue_attn (s : State) (q type status : Nat) (body : List Byte) :
    (s.recordQueue q type status body).attn = s.attn := by simp [State.recordQueue]
@[simp] theorem State.recordQueue_hostPort (s : State) (q type status : Nat) (body : List Byte) :
    (s.recordQueue q type status body).hostPort = s.hostPort := by simp [State.recordQueue]
@[simp] theorem State.recordQueue_power (s : State) (q type status : Nat) (body : List Byte) :
    (s.recordQueue q type status body).power = s.power := by simp [State.recordQueue]
@[simp] theorem State.recordQueue_pins (s : State) (q type status : Nat) (body : List Byte) :
    (s.recordQueue q type status body).pins = s.pins := by simp [State.recordQueue]
@[simp] theorem State.recordQueue_powered (s : State) (q type status : Nat) (body : List Byte) :
    (s.recordQueue q type status body).powered = s.powered := by simp [State.recordQueue]
@[simp] theorem State.recordQueue_regs (s : State) (q type status : Nat) (body : List Byte) :
    (s.recordQueue q type status body).regs = s.regs := by simp [State.recordQueue]
@[simp] theorem State.recordQueue_freshCount (s : State) (q type status : Nat) (body : List Byte) :
    (s.recordQueue q type status body).freshCount = s.freshCount := by simp [State.recordQueue]

/-! `State.recordAll` changes `umauth`, `outputs`. -/

@[simp] theorem State.recordAll_pending (s : State) (type status : Nat) (body : List Byte) :
    (s.recordAll type status body).pending = s.pending := foldl_field (·.pending) _ (fun s a => by simp) _ _
@[simp] theorem State.recordAll_xanca (s : State) (type status : Nat) (body : List Byte) :
    (s.recordAll type status body).xanca = s.xanca := foldl_field (·.xanca) _ (fun s a => by simp) _ _
@[simp] theorem State.recordAll_timecode (s : State) (type status : Nat) (body : List Byte) :
    (s.recordAll type status body).timecode = s.timecode := foldl_field (·.timecode) _ (fun s a => by simp) _ _
@[simp] theorem State.recordAll_diag (s : State) (type status : Nat) (body : List Byte) :
    (s.recordAll type status body).diag = s.diag := foldl_field (·.diag) _ (fun s a => by simp) _ _
@[simp] theorem State.recordAll_security (s : State) (type status : Nat) (body : List Byte) :
    (s.recordAll type status body).security = s.security := foldl_field (·.security) _ (fun s a => by simp) _ _
@[simp] theorem State.recordAll_cores (s : State) (type status : Nat) (body : List Byte) :
    (s.recordAll type status body).cores = s.cores := foldl_field (·.cores) _ (fun s a => by simp) _ _
@[simp] theorem State.recordAll_sched (s : State) (type status : Nat) (body : List Byte) :
    (s.recordAll type status body).sched = s.sched := foldl_field (·.sched) _ (fun s a => by simp) _ _
@[simp] theorem State.recordAll_fabric (s : State) (type status : Nat) (body : List Byte) :
    (s.recordAll type status body).fabric = s.fabric := foldl_field (·.fabric) _ (fun s a => by simp) _ _
@[simp] theorem State.recordAll_spads (s : State) (type status : Nat) (body : List Byte) :
    (s.recordAll type status body).spads = s.spads := foldl_field (·.spads) _ (fun s a => by simp) _ _
@[simp] theorem State.recordAll_conts (s : State) (type status : Nat) (body : List Byte) :
    (s.recordAll type status body).conts = s.conts := foldl_field (·.conts) _ (fun s a => by simp) _ _
@[simp] theorem State.recordAll_streams (s : State) (type status : Nat) (body : List Byte) :
    (s.recordAll type status body).streams = s.streams := foldl_field (·.streams) _ (fun s a => by simp) _ _
@[simp] theorem State.recordAll_reels (s : State) (type status : Nat) (body : List Byte) :
    (s.recordAll type status body).reels = s.reels := foldl_field (·.reels) _ (fun s a => by simp) _ _
@[simp] theorem State.recordAll_memory (s : State) (type status : Nat) (body : List Byte) :
    (s.recordAll type status body).memory = s.memory := foldl_field (·.memory) _ (fun s a => by simp) _ _
@[simp] theorem State.recordAll_resil (s : State) (type status : Nat) (body : List Byte) :
    (s.recordAll type status body).resil = s.resil := foldl_field (·.resil) _ (fun s a => by simp) _ _
@[simp] theorem State.recordAll_flume (s : State) (type status : Nat) (body : List Byte) :
    (s.recordAll type status body).flume = s.flume := foldl_field (·.flume) _ (fun s a => by simp) _ _
@[simp] theorem State.recordAll_attn (s : State) (type status : Nat) (body : List Byte) :
    (s.recordAll type status body).attn = s.attn := foldl_field (·.attn) _ (fun s a => by simp) _ _
@[simp] theorem State.recordAll_hostPort (s : State) (type status : Nat) (body : List Byte) :
    (s.recordAll type status body).hostPort = s.hostPort := foldl_field (·.hostPort) _ (fun s a => by simp) _ _
@[simp] theorem State.recordAll_power (s : State) (type status : Nat) (body : List Byte) :
    (s.recordAll type status body).power = s.power := foldl_field (·.power) _ (fun s a => by simp) _ _
@[simp] theorem State.recordAll_pins (s : State) (type status : Nat) (body : List Byte) :
    (s.recordAll type status body).pins = s.pins := foldl_field (·.pins) _ (fun s a => by simp) _ _
@[simp] theorem State.recordAll_powered (s : State) (type status : Nat) (body : List Byte) :
    (s.recordAll type status body).powered = s.powered := foldl_field (·.powered) _ (fun s a => by simp) _ _
@[simp] theorem State.recordAll_regs (s : State) (type status : Nat) (body : List Byte) :
    (s.recordAll type status body).regs = s.regs := foldl_field (·.regs) _ (fun s a => by simp) _ _
@[simp] theorem State.recordAll_freshCount (s : State) (type status : Nat) (body : List Byte) :
    (s.recordAll type status body).freshCount = s.freshCount := foldl_field (·.freshCount) _ (fun s a => by simp) _ _

/-! `State.complete` changes `umauth`. -/

@[simp] theorem State.complete_pending (s : State) (h : CmdHdr) :
    (s.complete h).pending = s.pending := by unfold State.complete; dsimp only; split <;> rfl
@[simp] theorem State.complete_xanca (s : State) (h : CmdHdr) :
    (s.complete h).xanca = s.xanca := by unfold State.complete; dsimp only; split <;> rfl
@[simp] theorem State.complete_timecode (s : State) (h : CmdHdr) :
    (s.complete h).timecode = s.timecode := by unfold State.complete; dsimp only; split <;> rfl
@[simp] theorem State.complete_diag (s : State) (h : CmdHdr) :
    (s.complete h).diag = s.diag := by unfold State.complete; dsimp only; split <;> rfl
@[simp] theorem State.complete_security (s : State) (h : CmdHdr) :
    (s.complete h).security = s.security := by unfold State.complete; dsimp only; split <;> rfl
@[simp] theorem State.complete_cores (s : State) (h : CmdHdr) :
    (s.complete h).cores = s.cores := by unfold State.complete; dsimp only; split <;> rfl
@[simp] theorem State.complete_sched (s : State) (h : CmdHdr) :
    (s.complete h).sched = s.sched := by unfold State.complete; dsimp only; split <;> rfl
@[simp] theorem State.complete_fabric (s : State) (h : CmdHdr) :
    (s.complete h).fabric = s.fabric := by unfold State.complete; dsimp only; split <;> rfl
@[simp] theorem State.complete_spads (s : State) (h : CmdHdr) :
    (s.complete h).spads = s.spads := by unfold State.complete; dsimp only; split <;> rfl
@[simp] theorem State.complete_conts (s : State) (h : CmdHdr) :
    (s.complete h).conts = s.conts := by unfold State.complete; dsimp only; split <;> rfl
@[simp] theorem State.complete_streams (s : State) (h : CmdHdr) :
    (s.complete h).streams = s.streams := by unfold State.complete; dsimp only; split <;> rfl
@[simp] theorem State.complete_reels (s : State) (h : CmdHdr) :
    (s.complete h).reels = s.reels := by unfold State.complete; dsimp only; split <;> rfl
@[simp] theorem State.complete_memory (s : State) (h : CmdHdr) :
    (s.complete h).memory = s.memory := by unfold State.complete; dsimp only; split <;> rfl
@[simp] theorem State.complete_resil (s : State) (h : CmdHdr) :
    (s.complete h).resil = s.resil := by unfold State.complete; dsimp only; split <;> rfl
@[simp] theorem State.complete_flume (s : State) (h : CmdHdr) :
    (s.complete h).flume = s.flume := by unfold State.complete; dsimp only; split <;> rfl
@[simp] theorem State.complete_attn (s : State) (h : CmdHdr) :
    (s.complete h).attn = s.attn := by unfold State.complete; dsimp only; split <;> rfl
@[simp] theorem State.complete_hostPort (s : State) (h : CmdHdr) :
    (s.complete h).hostPort = s.hostPort := by unfold State.complete; dsimp only; split <;> rfl
@[simp] theorem State.complete_power (s : State) (h : CmdHdr) :
    (s.complete h).power = s.power := by unfold State.complete; dsimp only; split <;> rfl
@[simp] theorem State.complete_pins (s : State) (h : CmdHdr) :
    (s.complete h).pins = s.pins := by unfold State.complete; dsimp only; split <;> rfl
@[simp] theorem State.complete_powered (s : State) (h : CmdHdr) :
    (s.complete h).powered = s.powered := by unfold State.complete; dsimp only; split <;> rfl
@[simp] theorem State.complete_regs (s : State) (h : CmdHdr) :
    (s.complete h).regs = s.regs := by unfold State.complete; dsimp only; split <;> rfl
@[simp] theorem State.complete_outputs (s : State) (h : CmdHdr) :
    (s.complete h).outputs = s.outputs := by unfold State.complete; dsimp only; split <;> rfl
@[simp] theorem State.complete_freshCount (s : State) (h : CmdHdr) :
    (s.complete h).freshCount = s.freshCount := by unfold State.complete; dsimp only; split <;> rfl

/-! `State.damage` changes `diag`. -/

@[simp] theorem State.damage_pending (s : State) (slot : Nat) :
    (s.damage slot).pending = s.pending := by unfold State.damage; dsimp only; split <;> rfl
@[simp] theorem State.damage_umauth (s : State) (slot : Nat) :
    (s.damage slot).umauth = s.umauth := by unfold State.damage; dsimp only; split <;> rfl
@[simp] theorem State.damage_xanca (s : State) (slot : Nat) :
    (s.damage slot).xanca = s.xanca := by unfold State.damage; dsimp only; split <;> rfl
@[simp] theorem State.damage_timecode (s : State) (slot : Nat) :
    (s.damage slot).timecode = s.timecode := by unfold State.damage; dsimp only; split <;> rfl
@[simp] theorem State.damage_security (s : State) (slot : Nat) :
    (s.damage slot).security = s.security := by unfold State.damage; dsimp only; split <;> rfl
@[simp] theorem State.damage_cores (s : State) (slot : Nat) :
    (s.damage slot).cores = s.cores := by unfold State.damage; dsimp only; split <;> rfl
@[simp] theorem State.damage_sched (s : State) (slot : Nat) :
    (s.damage slot).sched = s.sched := by unfold State.damage; dsimp only; split <;> rfl
@[simp] theorem State.damage_fabric (s : State) (slot : Nat) :
    (s.damage slot).fabric = s.fabric := by unfold State.damage; dsimp only; split <;> rfl
@[simp] theorem State.damage_spads (s : State) (slot : Nat) :
    (s.damage slot).spads = s.spads := by unfold State.damage; dsimp only; split <;> rfl
@[simp] theorem State.damage_conts (s : State) (slot : Nat) :
    (s.damage slot).conts = s.conts := by unfold State.damage; dsimp only; split <;> rfl
@[simp] theorem State.damage_streams (s : State) (slot : Nat) :
    (s.damage slot).streams = s.streams := by unfold State.damage; dsimp only; split <;> rfl
@[simp] theorem State.damage_reels (s : State) (slot : Nat) :
    (s.damage slot).reels = s.reels := by unfold State.damage; dsimp only; split <;> rfl
@[simp] theorem State.damage_memory (s : State) (slot : Nat) :
    (s.damage slot).memory = s.memory := by unfold State.damage; dsimp only; split <;> rfl
@[simp] theorem State.damage_resil (s : State) (slot : Nat) :
    (s.damage slot).resil = s.resil := by unfold State.damage; dsimp only; split <;> rfl
@[simp] theorem State.damage_flume (s : State) (slot : Nat) :
    (s.damage slot).flume = s.flume := by unfold State.damage; dsimp only; split <;> rfl
@[simp] theorem State.damage_attn (s : State) (slot : Nat) :
    (s.damage slot).attn = s.attn := by unfold State.damage; dsimp only; split <;> rfl
@[simp] theorem State.damage_hostPort (s : State) (slot : Nat) :
    (s.damage slot).hostPort = s.hostPort := by unfold State.damage; dsimp only; split <;> rfl
@[simp] theorem State.damage_power (s : State) (slot : Nat) :
    (s.damage slot).power = s.power := by unfold State.damage; dsimp only; split <;> rfl
@[simp] theorem State.damage_pins (s : State) (slot : Nat) :
    (s.damage slot).pins = s.pins := by unfold State.damage; dsimp only; split <;> rfl
@[simp] theorem State.damage_powered (s : State) (slot : Nat) :
    (s.damage slot).powered = s.powered := by unfold State.damage; dsimp only; split <;> rfl
@[simp] theorem State.damage_regs (s : State) (slot : Nat) :
    (s.damage slot).regs = s.regs := by unfold State.damage; dsimp only; split <;> rfl
@[simp] theorem State.damage_outputs (s : State) (slot : Nat) :
    (s.damage slot).outputs = s.outputs := by unfold State.damage; dsimp only; split <;> rfl
@[simp] theorem State.damage_freshCount (s : State) (slot : Nat) :
    (s.damage slot).freshCount = s.freshCount := by unfold State.damage; dsimp only; split <;> rfl

/-! `State.damagedBy` changes `diag`. -/

@[simp] theorem State.damagedBy_pending (s : State) (h : CmdHdr) (status : Nat) :
    (s.damagedBy h status).pending = s.pending := by
  unfold State.damagedBy; split
  · split <;> simp
  · rfl
@[simp] theorem State.damagedBy_umauth (s : State) (h : CmdHdr) (status : Nat) :
    (s.damagedBy h status).umauth = s.umauth := by
  unfold State.damagedBy; split
  · split <;> simp
  · rfl
@[simp] theorem State.damagedBy_xanca (s : State) (h : CmdHdr) (status : Nat) :
    (s.damagedBy h status).xanca = s.xanca := by
  unfold State.damagedBy; split
  · split <;> simp
  · rfl
@[simp] theorem State.damagedBy_timecode (s : State) (h : CmdHdr) (status : Nat) :
    (s.damagedBy h status).timecode = s.timecode := by
  unfold State.damagedBy; split
  · split <;> simp
  · rfl
@[simp] theorem State.damagedBy_security (s : State) (h : CmdHdr) (status : Nat) :
    (s.damagedBy h status).security = s.security := by
  unfold State.damagedBy; split
  · split <;> simp
  · rfl
@[simp] theorem State.damagedBy_cores (s : State) (h : CmdHdr) (status : Nat) :
    (s.damagedBy h status).cores = s.cores := by
  unfold State.damagedBy; split
  · split <;> simp
  · rfl
@[simp] theorem State.damagedBy_sched (s : State) (h : CmdHdr) (status : Nat) :
    (s.damagedBy h status).sched = s.sched := by
  unfold State.damagedBy; split
  · split <;> simp
  · rfl
@[simp] theorem State.damagedBy_fabric (s : State) (h : CmdHdr) (status : Nat) :
    (s.damagedBy h status).fabric = s.fabric := by
  unfold State.damagedBy; split
  · split <;> simp
  · rfl
@[simp] theorem State.damagedBy_spads (s : State) (h : CmdHdr) (status : Nat) :
    (s.damagedBy h status).spads = s.spads := by
  unfold State.damagedBy; split
  · split <;> simp
  · rfl
@[simp] theorem State.damagedBy_conts (s : State) (h : CmdHdr) (status : Nat) :
    (s.damagedBy h status).conts = s.conts := by
  unfold State.damagedBy; split
  · split <;> simp
  · rfl
@[simp] theorem State.damagedBy_streams (s : State) (h : CmdHdr) (status : Nat) :
    (s.damagedBy h status).streams = s.streams := by
  unfold State.damagedBy; split
  · split <;> simp
  · rfl
@[simp] theorem State.damagedBy_reels (s : State) (h : CmdHdr) (status : Nat) :
    (s.damagedBy h status).reels = s.reels := by
  unfold State.damagedBy; split
  · split <;> simp
  · rfl
@[simp] theorem State.damagedBy_memory (s : State) (h : CmdHdr) (status : Nat) :
    (s.damagedBy h status).memory = s.memory := by
  unfold State.damagedBy; split
  · split <;> simp
  · rfl
@[simp] theorem State.damagedBy_resil (s : State) (h : CmdHdr) (status : Nat) :
    (s.damagedBy h status).resil = s.resil := by
  unfold State.damagedBy; split
  · split <;> simp
  · rfl
@[simp] theorem State.damagedBy_flume (s : State) (h : CmdHdr) (status : Nat) :
    (s.damagedBy h status).flume = s.flume := by
  unfold State.damagedBy; split
  · split <;> simp
  · rfl
@[simp] theorem State.damagedBy_attn (s : State) (h : CmdHdr) (status : Nat) :
    (s.damagedBy h status).attn = s.attn := by
  unfold State.damagedBy; split
  · split <;> simp
  · rfl
@[simp] theorem State.damagedBy_hostPort (s : State) (h : CmdHdr) (status : Nat) :
    (s.damagedBy h status).hostPort = s.hostPort := by
  unfold State.damagedBy; split
  · split <;> simp
  · rfl
@[simp] theorem State.damagedBy_power (s : State) (h : CmdHdr) (status : Nat) :
    (s.damagedBy h status).power = s.power := by
  unfold State.damagedBy; split
  · split <;> simp
  · rfl
@[simp] theorem State.damagedBy_pins (s : State) (h : CmdHdr) (status : Nat) :
    (s.damagedBy h status).pins = s.pins := by
  unfold State.damagedBy; split
  · split <;> simp
  · rfl
@[simp] theorem State.damagedBy_powered (s : State) (h : CmdHdr) (status : Nat) :
    (s.damagedBy h status).powered = s.powered := by
  unfold State.damagedBy; split
  · split <;> simp
  · rfl
@[simp] theorem State.damagedBy_regs (s : State) (h : CmdHdr) (status : Nat) :
    (s.damagedBy h status).regs = s.regs := by
  unfold State.damagedBy; split
  · split <;> simp
  · rfl
@[simp] theorem State.damagedBy_outputs (s : State) (h : CmdHdr) (status : Nat) :
    (s.damagedBy h status).outputs = s.outputs := by
  unfold State.damagedBy; split
  · split <;> simp
  · rfl
@[simp] theorem State.damagedBy_freshCount (s : State) (h : CmdHdr) (status : Nat) :
    (s.damagedBy h status).freshCount = s.freshCount := by
  unfold State.damagedBy; split
  · split <;> simp
  · rfl

/-! `State.finish` changes `umauth`, `diag`, `outputs`. -/

@[simp] theorem State.finish_pending (s : State) (c : Command) (status detail : Nat) (result : List Byte) :
    (s.finish c status detail result).pending = s.pending := by unfold State.finish; split <;> simp
@[simp] theorem State.finish_xanca (s : State) (c : Command) (status detail : Nat) (result : List Byte) :
    (s.finish c status detail result).xanca = s.xanca := by unfold State.finish; split <;> simp
@[simp] theorem State.finish_timecode (s : State) (c : Command) (status detail : Nat) (result : List Byte) :
    (s.finish c status detail result).timecode = s.timecode := by unfold State.finish; split <;> simp
@[simp] theorem State.finish_security (s : State) (c : Command) (status detail : Nat) (result : List Byte) :
    (s.finish c status detail result).security = s.security := by unfold State.finish; split <;> simp
@[simp] theorem State.finish_cores (s : State) (c : Command) (status detail : Nat) (result : List Byte) :
    (s.finish c status detail result).cores = s.cores := by unfold State.finish; split <;> simp
@[simp] theorem State.finish_sched (s : State) (c : Command) (status detail : Nat) (result : List Byte) :
    (s.finish c status detail result).sched = s.sched := by unfold State.finish; split <;> simp
@[simp] theorem State.finish_fabric (s : State) (c : Command) (status detail : Nat) (result : List Byte) :
    (s.finish c status detail result).fabric = s.fabric := by unfold State.finish; split <;> simp
@[simp] theorem State.finish_spads (s : State) (c : Command) (status detail : Nat) (result : List Byte) :
    (s.finish c status detail result).spads = s.spads := by unfold State.finish; split <;> simp
@[simp] theorem State.finish_conts (s : State) (c : Command) (status detail : Nat) (result : List Byte) :
    (s.finish c status detail result).conts = s.conts := by unfold State.finish; split <;> simp
@[simp] theorem State.finish_streams (s : State) (c : Command) (status detail : Nat) (result : List Byte) :
    (s.finish c status detail result).streams = s.streams := by unfold State.finish; split <;> simp
@[simp] theorem State.finish_reels (s : State) (c : Command) (status detail : Nat) (result : List Byte) :
    (s.finish c status detail result).reels = s.reels := by unfold State.finish; split <;> simp
@[simp] theorem State.finish_memory (s : State) (c : Command) (status detail : Nat) (result : List Byte) :
    (s.finish c status detail result).memory = s.memory := by unfold State.finish; split <;> simp
@[simp] theorem State.finish_resil (s : State) (c : Command) (status detail : Nat) (result : List Byte) :
    (s.finish c status detail result).resil = s.resil := by unfold State.finish; split <;> simp
@[simp] theorem State.finish_flume (s : State) (c : Command) (status detail : Nat) (result : List Byte) :
    (s.finish c status detail result).flume = s.flume := by unfold State.finish; split <;> simp
@[simp] theorem State.finish_attn (s : State) (c : Command) (status detail : Nat) (result : List Byte) :
    (s.finish c status detail result).attn = s.attn := by unfold State.finish; split <;> simp
@[simp] theorem State.finish_hostPort (s : State) (c : Command) (status detail : Nat) (result : List Byte) :
    (s.finish c status detail result).hostPort = s.hostPort := by unfold State.finish; split <;> simp
@[simp] theorem State.finish_power (s : State) (c : Command) (status detail : Nat) (result : List Byte) :
    (s.finish c status detail result).power = s.power := by unfold State.finish; split <;> simp
@[simp] theorem State.finish_pins (s : State) (c : Command) (status detail : Nat) (result : List Byte) :
    (s.finish c status detail result).pins = s.pins := by unfold State.finish; split <;> simp
@[simp] theorem State.finish_powered (s : State) (c : Command) (status detail : Nat) (result : List Byte) :
    (s.finish c status detail result).powered = s.powered := by unfold State.finish; split <;> simp
@[simp] theorem State.finish_regs (s : State) (c : Command) (status detail : Nat) (result : List Byte) :
    (s.finish c status detail result).regs = s.regs := by unfold State.finish; split <;> simp
@[simp] theorem State.finish_freshCount (s : State) (c : Command) (status detail : Nat) (result : List Byte) :
    (s.finish c status detail result).freshCount = s.freshCount := by unfold State.finish; split <;> simp

/-! `State.badParam` changes `umauth`, `diag`, `outputs`. -/

@[simp] theorem State.badParam_pending (s : State) (c : Command) (off : Nat) :
    (s.badParam c off).pending = s.pending := by simp [State.badParam]
@[simp] theorem State.badParam_xanca (s : State) (c : Command) (off : Nat) :
    (s.badParam c off).xanca = s.xanca := by simp [State.badParam]
@[simp] theorem State.badParam_timecode (s : State) (c : Command) (off : Nat) :
    (s.badParam c off).timecode = s.timecode := by simp [State.badParam]
@[simp] theorem State.badParam_security (s : State) (c : Command) (off : Nat) :
    (s.badParam c off).security = s.security := by simp [State.badParam]
@[simp] theorem State.badParam_cores (s : State) (c : Command) (off : Nat) :
    (s.badParam c off).cores = s.cores := by simp [State.badParam]
@[simp] theorem State.badParam_sched (s : State) (c : Command) (off : Nat) :
    (s.badParam c off).sched = s.sched := by simp [State.badParam]
@[simp] theorem State.badParam_fabric (s : State) (c : Command) (off : Nat) :
    (s.badParam c off).fabric = s.fabric := by simp [State.badParam]
@[simp] theorem State.badParam_spads (s : State) (c : Command) (off : Nat) :
    (s.badParam c off).spads = s.spads := by simp [State.badParam]
@[simp] theorem State.badParam_conts (s : State) (c : Command) (off : Nat) :
    (s.badParam c off).conts = s.conts := by simp [State.badParam]
@[simp] theorem State.badParam_streams (s : State) (c : Command) (off : Nat) :
    (s.badParam c off).streams = s.streams := by simp [State.badParam]
@[simp] theorem State.badParam_reels (s : State) (c : Command) (off : Nat) :
    (s.badParam c off).reels = s.reels := by simp [State.badParam]
@[simp] theorem State.badParam_memory (s : State) (c : Command) (off : Nat) :
    (s.badParam c off).memory = s.memory := by simp [State.badParam]
@[simp] theorem State.badParam_resil (s : State) (c : Command) (off : Nat) :
    (s.badParam c off).resil = s.resil := by simp [State.badParam]
@[simp] theorem State.badParam_flume (s : State) (c : Command) (off : Nat) :
    (s.badParam c off).flume = s.flume := by simp [State.badParam]
@[simp] theorem State.badParam_attn (s : State) (c : Command) (off : Nat) :
    (s.badParam c off).attn = s.attn := by simp [State.badParam]
@[simp] theorem State.badParam_hostPort (s : State) (c : Command) (off : Nat) :
    (s.badParam c off).hostPort = s.hostPort := by simp [State.badParam]
@[simp] theorem State.badParam_power (s : State) (c : Command) (off : Nat) :
    (s.badParam c off).power = s.power := by simp [State.badParam]
@[simp] theorem State.badParam_pins (s : State) (c : Command) (off : Nat) :
    (s.badParam c off).pins = s.pins := by simp [State.badParam]
@[simp] theorem State.badParam_powered (s : State) (c : Command) (off : Nat) :
    (s.badParam c off).powered = s.powered := by simp [State.badParam]
@[simp] theorem State.badParam_regs (s : State) (c : Command) (off : Nat) :
    (s.badParam c off).regs = s.regs := by simp [State.badParam]
@[simp] theorem State.badParam_freshCount (s : State) (c : Command) (off : Nat) :
    (s.badParam c off).freshCount = s.freshCount := by simp [State.badParam]

/-! `State.defer` changes `umauth`, `outputs`. -/

@[simp] theorem State.defer_pending (s : State) (c : Command) (detail : Nat) (result : List Byte) :
    (s.defer c detail result).pending = s.pending := by simp [State.defer]
@[simp] theorem State.defer_xanca (s : State) (c : Command) (detail : Nat) (result : List Byte) :
    (s.defer c detail result).xanca = s.xanca := by simp [State.defer]
@[simp] theorem State.defer_timecode (s : State) (c : Command) (detail : Nat) (result : List Byte) :
    (s.defer c detail result).timecode = s.timecode := by simp [State.defer]
@[simp] theorem State.defer_diag (s : State) (c : Command) (detail : Nat) (result : List Byte) :
    (s.defer c detail result).diag = s.diag := by simp [State.defer]
@[simp] theorem State.defer_security (s : State) (c : Command) (detail : Nat) (result : List Byte) :
    (s.defer c detail result).security = s.security := by simp [State.defer]
@[simp] theorem State.defer_cores (s : State) (c : Command) (detail : Nat) (result : List Byte) :
    (s.defer c detail result).cores = s.cores := by simp [State.defer]
@[simp] theorem State.defer_sched (s : State) (c : Command) (detail : Nat) (result : List Byte) :
    (s.defer c detail result).sched = s.sched := by simp [State.defer]
@[simp] theorem State.defer_fabric (s : State) (c : Command) (detail : Nat) (result : List Byte) :
    (s.defer c detail result).fabric = s.fabric := by simp [State.defer]
@[simp] theorem State.defer_spads (s : State) (c : Command) (detail : Nat) (result : List Byte) :
    (s.defer c detail result).spads = s.spads := by simp [State.defer]
@[simp] theorem State.defer_conts (s : State) (c : Command) (detail : Nat) (result : List Byte) :
    (s.defer c detail result).conts = s.conts := by simp [State.defer]
@[simp] theorem State.defer_streams (s : State) (c : Command) (detail : Nat) (result : List Byte) :
    (s.defer c detail result).streams = s.streams := by simp [State.defer]
@[simp] theorem State.defer_reels (s : State) (c : Command) (detail : Nat) (result : List Byte) :
    (s.defer c detail result).reels = s.reels := by simp [State.defer]
@[simp] theorem State.defer_memory (s : State) (c : Command) (detail : Nat) (result : List Byte) :
    (s.defer c detail result).memory = s.memory := by simp [State.defer]
@[simp] theorem State.defer_resil (s : State) (c : Command) (detail : Nat) (result : List Byte) :
    (s.defer c detail result).resil = s.resil := by simp [State.defer]
@[simp] theorem State.defer_flume (s : State) (c : Command) (detail : Nat) (result : List Byte) :
    (s.defer c detail result).flume = s.flume := by simp [State.defer]
@[simp] theorem State.defer_attn (s : State) (c : Command) (detail : Nat) (result : List Byte) :
    (s.defer c detail result).attn = s.attn := by simp [State.defer]
@[simp] theorem State.defer_hostPort (s : State) (c : Command) (detail : Nat) (result : List Byte) :
    (s.defer c detail result).hostPort = s.hostPort := by simp [State.defer]
@[simp] theorem State.defer_power (s : State) (c : Command) (detail : Nat) (result : List Byte) :
    (s.defer c detail result).power = s.power := by simp [State.defer]
@[simp] theorem State.defer_pins (s : State) (c : Command) (detail : Nat) (result : List Byte) :
    (s.defer c detail result).pins = s.pins := by simp [State.defer]
@[simp] theorem State.defer_powered (s : State) (c : Command) (detail : Nat) (result : List Byte) :
    (s.defer c detail result).powered = s.powered := by simp [State.defer]
@[simp] theorem State.defer_regs (s : State) (c : Command) (detail : Nat) (result : List Byte) :
    (s.defer c detail result).regs = s.regs := by simp [State.defer]
@[simp] theorem State.defer_freshCount (s : State) (c : Command) (detail : Nat) (result : List Byte) :
    (s.defer c detail result).freshCount = s.freshCount := by simp [State.defer]

/-! `State.deferredDoneWith` changes `umauth`, `diag`, `outputs`. -/

@[simp] theorem State.deferredDoneWith_pending (s : State) (h : CmdHdr) (status : Nat) (body : List Byte) :
    (s.deferredDoneWith h status body).pending = s.pending := by simp [State.deferredDoneWith]
@[simp] theorem State.deferredDoneWith_xanca (s : State) (h : CmdHdr) (status : Nat) (body : List Byte) :
    (s.deferredDoneWith h status body).xanca = s.xanca := by simp [State.deferredDoneWith]
@[simp] theorem State.deferredDoneWith_timecode (s : State) (h : CmdHdr) (status : Nat) (body : List Byte) :
    (s.deferredDoneWith h status body).timecode = s.timecode := by simp [State.deferredDoneWith]
@[simp] theorem State.deferredDoneWith_security (s : State) (h : CmdHdr) (status : Nat) (body : List Byte) :
    (s.deferredDoneWith h status body).security = s.security := by simp [State.deferredDoneWith]
@[simp] theorem State.deferredDoneWith_cores (s : State) (h : CmdHdr) (status : Nat) (body : List Byte) :
    (s.deferredDoneWith h status body).cores = s.cores := by simp [State.deferredDoneWith]
@[simp] theorem State.deferredDoneWith_sched (s : State) (h : CmdHdr) (status : Nat) (body : List Byte) :
    (s.deferredDoneWith h status body).sched = s.sched := by simp [State.deferredDoneWith]
@[simp] theorem State.deferredDoneWith_fabric (s : State) (h : CmdHdr) (status : Nat) (body : List Byte) :
    (s.deferredDoneWith h status body).fabric = s.fabric := by simp [State.deferredDoneWith]
@[simp] theorem State.deferredDoneWith_spads (s : State) (h : CmdHdr) (status : Nat) (body : List Byte) :
    (s.deferredDoneWith h status body).spads = s.spads := by simp [State.deferredDoneWith]
@[simp] theorem State.deferredDoneWith_conts (s : State) (h : CmdHdr) (status : Nat) (body : List Byte) :
    (s.deferredDoneWith h status body).conts = s.conts := by simp [State.deferredDoneWith]
@[simp] theorem State.deferredDoneWith_streams (s : State) (h : CmdHdr) (status : Nat) (body : List Byte) :
    (s.deferredDoneWith h status body).streams = s.streams := by simp [State.deferredDoneWith]
@[simp] theorem State.deferredDoneWith_reels (s : State) (h : CmdHdr) (status : Nat) (body : List Byte) :
    (s.deferredDoneWith h status body).reels = s.reels := by simp [State.deferredDoneWith]
@[simp] theorem State.deferredDoneWith_memory (s : State) (h : CmdHdr) (status : Nat) (body : List Byte) :
    (s.deferredDoneWith h status body).memory = s.memory := by simp [State.deferredDoneWith]
@[simp] theorem State.deferredDoneWith_resil (s : State) (h : CmdHdr) (status : Nat) (body : List Byte) :
    (s.deferredDoneWith h status body).resil = s.resil := by simp [State.deferredDoneWith]
@[simp] theorem State.deferredDoneWith_flume (s : State) (h : CmdHdr) (status : Nat) (body : List Byte) :
    (s.deferredDoneWith h status body).flume = s.flume := by simp [State.deferredDoneWith]
@[simp] theorem State.deferredDoneWith_attn (s : State) (h : CmdHdr) (status : Nat) (body : List Byte) :
    (s.deferredDoneWith h status body).attn = s.attn := by simp [State.deferredDoneWith]
@[simp] theorem State.deferredDoneWith_hostPort (s : State) (h : CmdHdr) (status : Nat) (body : List Byte) :
    (s.deferredDoneWith h status body).hostPort = s.hostPort := by simp [State.deferredDoneWith]
@[simp] theorem State.deferredDoneWith_power (s : State) (h : CmdHdr) (status : Nat) (body : List Byte) :
    (s.deferredDoneWith h status body).power = s.power := by simp [State.deferredDoneWith]
@[simp] theorem State.deferredDoneWith_pins (s : State) (h : CmdHdr) (status : Nat) (body : List Byte) :
    (s.deferredDoneWith h status body).pins = s.pins := by simp [State.deferredDoneWith]
@[simp] theorem State.deferredDoneWith_powered (s : State) (h : CmdHdr) (status : Nat) (body : List Byte) :
    (s.deferredDoneWith h status body).powered = s.powered := by simp [State.deferredDoneWith]
@[simp] theorem State.deferredDoneWith_regs (s : State) (h : CmdHdr) (status : Nat) (body : List Byte) :
    (s.deferredDoneWith h status body).regs = s.regs := by simp [State.deferredDoneWith]
@[simp] theorem State.deferredDoneWith_freshCount (s : State) (h : CmdHdr) (status : Nat) (body : List Byte) :
    (s.deferredDoneWith h status body).freshCount = s.freshCount := by simp [State.deferredDoneWith]

/-! `State.deferredDone` changes `umauth`, `diag`, `outputs`. -/

@[simp] theorem State.deferredDone_pending (s : State) (h : CmdHdr) (status detail : Nat) :
    (s.deferredDone h status detail).pending = s.pending := by simp [State.deferredDone]
@[simp] theorem State.deferredDone_xanca (s : State) (h : CmdHdr) (status detail : Nat) :
    (s.deferredDone h status detail).xanca = s.xanca := by simp [State.deferredDone]
@[simp] theorem State.deferredDone_timecode (s : State) (h : CmdHdr) (status detail : Nat) :
    (s.deferredDone h status detail).timecode = s.timecode := by simp [State.deferredDone]
@[simp] theorem State.deferredDone_security (s : State) (h : CmdHdr) (status detail : Nat) :
    (s.deferredDone h status detail).security = s.security := by simp [State.deferredDone]
@[simp] theorem State.deferredDone_cores (s : State) (h : CmdHdr) (status detail : Nat) :
    (s.deferredDone h status detail).cores = s.cores := by simp [State.deferredDone]
@[simp] theorem State.deferredDone_sched (s : State) (h : CmdHdr) (status detail : Nat) :
    (s.deferredDone h status detail).sched = s.sched := by simp [State.deferredDone]
@[simp] theorem State.deferredDone_fabric (s : State) (h : CmdHdr) (status detail : Nat) :
    (s.deferredDone h status detail).fabric = s.fabric := by simp [State.deferredDone]
@[simp] theorem State.deferredDone_spads (s : State) (h : CmdHdr) (status detail : Nat) :
    (s.deferredDone h status detail).spads = s.spads := by simp [State.deferredDone]
@[simp] theorem State.deferredDone_conts (s : State) (h : CmdHdr) (status detail : Nat) :
    (s.deferredDone h status detail).conts = s.conts := by simp [State.deferredDone]
@[simp] theorem State.deferredDone_streams (s : State) (h : CmdHdr) (status detail : Nat) :
    (s.deferredDone h status detail).streams = s.streams := by simp [State.deferredDone]
@[simp] theorem State.deferredDone_reels (s : State) (h : CmdHdr) (status detail : Nat) :
    (s.deferredDone h status detail).reels = s.reels := by simp [State.deferredDone]
@[simp] theorem State.deferredDone_memory (s : State) (h : CmdHdr) (status detail : Nat) :
    (s.deferredDone h status detail).memory = s.memory := by simp [State.deferredDone]
@[simp] theorem State.deferredDone_resil (s : State) (h : CmdHdr) (status detail : Nat) :
    (s.deferredDone h status detail).resil = s.resil := by simp [State.deferredDone]
@[simp] theorem State.deferredDone_flume (s : State) (h : CmdHdr) (status detail : Nat) :
    (s.deferredDone h status detail).flume = s.flume := by simp [State.deferredDone]
@[simp] theorem State.deferredDone_attn (s : State) (h : CmdHdr) (status detail : Nat) :
    (s.deferredDone h status detail).attn = s.attn := by simp [State.deferredDone]
@[simp] theorem State.deferredDone_hostPort (s : State) (h : CmdHdr) (status detail : Nat) :
    (s.deferredDone h status detail).hostPort = s.hostPort := by simp [State.deferredDone]
@[simp] theorem State.deferredDone_power (s : State) (h : CmdHdr) (status detail : Nat) :
    (s.deferredDone h status detail).power = s.power := by simp [State.deferredDone]
@[simp] theorem State.deferredDone_pins (s : State) (h : CmdHdr) (status detail : Nat) :
    (s.deferredDone h status detail).pins = s.pins := by simp [State.deferredDone]
@[simp] theorem State.deferredDone_powered (s : State) (h : CmdHdr) (status detail : Nat) :
    (s.deferredDone h status detail).powered = s.powered := by simp [State.deferredDone]
@[simp] theorem State.deferredDone_regs (s : State) (h : CmdHdr) (status detail : Nat) :
    (s.deferredDone h status detail).regs = s.regs := by simp [State.deferredDone]
@[simp] theorem State.deferredDone_freshCount (s : State) (h : CmdHdr) (status detail : Nat) :
    (s.deferredDone h status detail).freshCount = s.freshCount := by simp [State.deferredDone]

/-! `State.setFld` changes `regs`. -/

@[simp] theorem State.setFld_pending (s : State) (u off hi lo v : Nat) :
    (s.setFld u off hi lo v).pending = s.pending := rfl
@[simp] theorem State.setFld_umauth (s : State) (u off hi lo v : Nat) :
    (s.setFld u off hi lo v).umauth = s.umauth := rfl
@[simp] theorem State.setFld_xanca (s : State) (u off hi lo v : Nat) :
    (s.setFld u off hi lo v).xanca = s.xanca := rfl
@[simp] theorem State.setFld_timecode (s : State) (u off hi lo v : Nat) :
    (s.setFld u off hi lo v).timecode = s.timecode := rfl
@[simp] theorem State.setFld_diag (s : State) (u off hi lo v : Nat) :
    (s.setFld u off hi lo v).diag = s.diag := rfl
@[simp] theorem State.setFld_security (s : State) (u off hi lo v : Nat) :
    (s.setFld u off hi lo v).security = s.security := rfl
@[simp] theorem State.setFld_cores (s : State) (u off hi lo v : Nat) :
    (s.setFld u off hi lo v).cores = s.cores := rfl
@[simp] theorem State.setFld_sched (s : State) (u off hi lo v : Nat) :
    (s.setFld u off hi lo v).sched = s.sched := rfl
@[simp] theorem State.setFld_fabric (s : State) (u off hi lo v : Nat) :
    (s.setFld u off hi lo v).fabric = s.fabric := rfl
@[simp] theorem State.setFld_spads (s : State) (u off hi lo v : Nat) :
    (s.setFld u off hi lo v).spads = s.spads := rfl
@[simp] theorem State.setFld_conts (s : State) (u off hi lo v : Nat) :
    (s.setFld u off hi lo v).conts = s.conts := rfl
@[simp] theorem State.setFld_streams (s : State) (u off hi lo v : Nat) :
    (s.setFld u off hi lo v).streams = s.streams := rfl
@[simp] theorem State.setFld_reels (s : State) (u off hi lo v : Nat) :
    (s.setFld u off hi lo v).reels = s.reels := rfl
@[simp] theorem State.setFld_memory (s : State) (u off hi lo v : Nat) :
    (s.setFld u off hi lo v).memory = s.memory := rfl
@[simp] theorem State.setFld_resil (s : State) (u off hi lo v : Nat) :
    (s.setFld u off hi lo v).resil = s.resil := rfl
@[simp] theorem State.setFld_flume (s : State) (u off hi lo v : Nat) :
    (s.setFld u off hi lo v).flume = s.flume := rfl
@[simp] theorem State.setFld_attn (s : State) (u off hi lo v : Nat) :
    (s.setFld u off hi lo v).attn = s.attn := rfl
@[simp] theorem State.setFld_hostPort (s : State) (u off hi lo v : Nat) :
    (s.setFld u off hi lo v).hostPort = s.hostPort := rfl
@[simp] theorem State.setFld_power (s : State) (u off hi lo v : Nat) :
    (s.setFld u off hi lo v).power = s.power := rfl
@[simp] theorem State.setFld_pins (s : State) (u off hi lo v : Nat) :
    (s.setFld u off hi lo v).pins = s.pins := rfl
@[simp] theorem State.setFld_powered (s : State) (u off hi lo v : Nat) :
    (s.setFld u off hi lo v).powered = s.powered := rfl
@[simp] theorem State.setFld_outputs (s : State) (u off hi lo v : Nat) :
    (s.setFld u off hi lo v).outputs = s.outputs := rfl
@[simp] theorem State.setFld_freshCount (s : State) (u off hi lo v : Nat) :
    (s.setFld u off hi lo v).freshCount = s.freshCount := rfl

/-! `State.bump` changes `regs`. -/

@[simp] theorem State.bump_pending (s : State) (u off hi lo n : Nat) :
    (s.bump u off hi lo n).pending = s.pending := rfl
@[simp] theorem State.bump_umauth (s : State) (u off hi lo n : Nat) :
    (s.bump u off hi lo n).umauth = s.umauth := rfl
@[simp] theorem State.bump_xanca (s : State) (u off hi lo n : Nat) :
    (s.bump u off hi lo n).xanca = s.xanca := rfl
@[simp] theorem State.bump_timecode (s : State) (u off hi lo n : Nat) :
    (s.bump u off hi lo n).timecode = s.timecode := rfl
@[simp] theorem State.bump_diag (s : State) (u off hi lo n : Nat) :
    (s.bump u off hi lo n).diag = s.diag := rfl
@[simp] theorem State.bump_security (s : State) (u off hi lo n : Nat) :
    (s.bump u off hi lo n).security = s.security := rfl
@[simp] theorem State.bump_cores (s : State) (u off hi lo n : Nat) :
    (s.bump u off hi lo n).cores = s.cores := rfl
@[simp] theorem State.bump_sched (s : State) (u off hi lo n : Nat) :
    (s.bump u off hi lo n).sched = s.sched := rfl
@[simp] theorem State.bump_fabric (s : State) (u off hi lo n : Nat) :
    (s.bump u off hi lo n).fabric = s.fabric := rfl
@[simp] theorem State.bump_spads (s : State) (u off hi lo n : Nat) :
    (s.bump u off hi lo n).spads = s.spads := rfl
@[simp] theorem State.bump_conts (s : State) (u off hi lo n : Nat) :
    (s.bump u off hi lo n).conts = s.conts := rfl
@[simp] theorem State.bump_streams (s : State) (u off hi lo n : Nat) :
    (s.bump u off hi lo n).streams = s.streams := rfl
@[simp] theorem State.bump_reels (s : State) (u off hi lo n : Nat) :
    (s.bump u off hi lo n).reels = s.reels := rfl
@[simp] theorem State.bump_memory (s : State) (u off hi lo n : Nat) :
    (s.bump u off hi lo n).memory = s.memory := rfl
@[simp] theorem State.bump_resil (s : State) (u off hi lo n : Nat) :
    (s.bump u off hi lo n).resil = s.resil := rfl
@[simp] theorem State.bump_flume (s : State) (u off hi lo n : Nat) :
    (s.bump u off hi lo n).flume = s.flume := rfl
@[simp] theorem State.bump_attn (s : State) (u off hi lo n : Nat) :
    (s.bump u off hi lo n).attn = s.attn := rfl
@[simp] theorem State.bump_hostPort (s : State) (u off hi lo n : Nat) :
    (s.bump u off hi lo n).hostPort = s.hostPort := rfl
@[simp] theorem State.bump_power (s : State) (u off hi lo n : Nat) :
    (s.bump u off hi lo n).power = s.power := rfl
@[simp] theorem State.bump_pins (s : State) (u off hi lo n : Nat) :
    (s.bump u off hi lo n).pins = s.pins := rfl
@[simp] theorem State.bump_powered (s : State) (u off hi lo n : Nat) :
    (s.bump u off hi lo n).powered = s.powered := rfl
@[simp] theorem State.bump_outputs (s : State) (u off hi lo n : Nat) :
    (s.bump u off hi lo n).outputs = s.outputs := rfl
@[simp] theorem State.bump_freshCount (s : State) (u off hi lo n : Nat) :
    (s.bump u off hi lo n).freshCount = s.freshCount := rfl

/-! `State.xancaChange` changes `umauth`, `xanca`, `outputs`. -/

@[simp] theorem State.xancaChange_pending (s : State) (changes : List (Nat × XEntry)) :
    (s.xancaChange changes).pending = s.pending := by
  unfold State.xancaChange; dsimp only
  rw [foldl_field (·.pending) _ (fun s a => by simp)]; dsimp only
  rw [foldl_field (·.pending) _ (fun s a => by simp)]
@[simp] theorem State.xancaChange_timecode (s : State) (changes : List (Nat × XEntry)) :
    (s.xancaChange changes).timecode = s.timecode := by
  unfold State.xancaChange; dsimp only
  rw [foldl_field (·.timecode) _ (fun s a => by simp)]; dsimp only
  rw [foldl_field (·.timecode) _ (fun s a => by simp)]
@[simp] theorem State.xancaChange_diag (s : State) (changes : List (Nat × XEntry)) :
    (s.xancaChange changes).diag = s.diag := by
  unfold State.xancaChange; dsimp only
  rw [foldl_field (·.diag) _ (fun s a => by simp)]; dsimp only
  rw [foldl_field (·.diag) _ (fun s a => by simp)]
@[simp] theorem State.xancaChange_security (s : State) (changes : List (Nat × XEntry)) :
    (s.xancaChange changes).security = s.security := by
  unfold State.xancaChange; dsimp only
  rw [foldl_field (·.security) _ (fun s a => by simp)]; dsimp only
  rw [foldl_field (·.security) _ (fun s a => by simp)]
@[simp] theorem State.xancaChange_cores (s : State) (changes : List (Nat × XEntry)) :
    (s.xancaChange changes).cores = s.cores := by
  unfold State.xancaChange; dsimp only
  rw [foldl_field (·.cores) _ (fun s a => by simp)]; dsimp only
  rw [foldl_field (·.cores) _ (fun s a => by simp)]
@[simp] theorem State.xancaChange_sched (s : State) (changes : List (Nat × XEntry)) :
    (s.xancaChange changes).sched = s.sched := by
  unfold State.xancaChange; dsimp only
  rw [foldl_field (·.sched) _ (fun s a => by simp)]; dsimp only
  rw [foldl_field (·.sched) _ (fun s a => by simp)]
@[simp] theorem State.xancaChange_fabric (s : State) (changes : List (Nat × XEntry)) :
    (s.xancaChange changes).fabric = s.fabric := by
  unfold State.xancaChange; dsimp only
  rw [foldl_field (·.fabric) _ (fun s a => by simp)]; dsimp only
  rw [foldl_field (·.fabric) _ (fun s a => by simp)]
@[simp] theorem State.xancaChange_spads (s : State) (changes : List (Nat × XEntry)) :
    (s.xancaChange changes).spads = s.spads := by
  unfold State.xancaChange; dsimp only
  rw [foldl_field (·.spads) _ (fun s a => by simp)]; dsimp only
  rw [foldl_field (·.spads) _ (fun s a => by simp)]
@[simp] theorem State.xancaChange_conts (s : State) (changes : List (Nat × XEntry)) :
    (s.xancaChange changes).conts = s.conts := by
  unfold State.xancaChange; dsimp only
  rw [foldl_field (·.conts) _ (fun s a => by simp)]; dsimp only
  rw [foldl_field (·.conts) _ (fun s a => by simp)]
@[simp] theorem State.xancaChange_streams (s : State) (changes : List (Nat × XEntry)) :
    (s.xancaChange changes).streams = s.streams := by
  unfold State.xancaChange; dsimp only
  rw [foldl_field (·.streams) _ (fun s a => by simp)]; dsimp only
  rw [foldl_field (·.streams) _ (fun s a => by simp)]
@[simp] theorem State.xancaChange_reels (s : State) (changes : List (Nat × XEntry)) :
    (s.xancaChange changes).reels = s.reels := by
  unfold State.xancaChange; dsimp only
  rw [foldl_field (·.reels) _ (fun s a => by simp)]; dsimp only
  rw [foldl_field (·.reels) _ (fun s a => by simp)]
@[simp] theorem State.xancaChange_memory (s : State) (changes : List (Nat × XEntry)) :
    (s.xancaChange changes).memory = s.memory := by
  unfold State.xancaChange; dsimp only
  rw [foldl_field (·.memory) _ (fun s a => by simp)]; dsimp only
  rw [foldl_field (·.memory) _ (fun s a => by simp)]
@[simp] theorem State.xancaChange_resil (s : State) (changes : List (Nat × XEntry)) :
    (s.xancaChange changes).resil = s.resil := by
  unfold State.xancaChange; dsimp only
  rw [foldl_field (·.resil) _ (fun s a => by simp)]; dsimp only
  rw [foldl_field (·.resil) _ (fun s a => by simp)]
@[simp] theorem State.xancaChange_flume (s : State) (changes : List (Nat × XEntry)) :
    (s.xancaChange changes).flume = s.flume := by
  unfold State.xancaChange; dsimp only
  rw [foldl_field (·.flume) _ (fun s a => by simp)]; dsimp only
  rw [foldl_field (·.flume) _ (fun s a => by simp)]
@[simp] theorem State.xancaChange_attn (s : State) (changes : List (Nat × XEntry)) :
    (s.xancaChange changes).attn = s.attn := by
  unfold State.xancaChange; dsimp only
  rw [foldl_field (·.attn) _ (fun s a => by simp)]; dsimp only
  rw [foldl_field (·.attn) _ (fun s a => by simp)]
@[simp] theorem State.xancaChange_hostPort (s : State) (changes : List (Nat × XEntry)) :
    (s.xancaChange changes).hostPort = s.hostPort := by
  unfold State.xancaChange; dsimp only
  rw [foldl_field (·.hostPort) _ (fun s a => by simp)]; dsimp only
  rw [foldl_field (·.hostPort) _ (fun s a => by simp)]
@[simp] theorem State.xancaChange_power (s : State) (changes : List (Nat × XEntry)) :
    (s.xancaChange changes).power = s.power := by
  unfold State.xancaChange; dsimp only
  rw [foldl_field (·.power) _ (fun s a => by simp)]; dsimp only
  rw [foldl_field (·.power) _ (fun s a => by simp)]
@[simp] theorem State.xancaChange_pins (s : State) (changes : List (Nat × XEntry)) :
    (s.xancaChange changes).pins = s.pins := by
  unfold State.xancaChange; dsimp only
  rw [foldl_field (·.pins) _ (fun s a => by simp)]; dsimp only
  rw [foldl_field (·.pins) _ (fun s a => by simp)]
@[simp] theorem State.xancaChange_powered (s : State) (changes : List (Nat × XEntry)) :
    (s.xancaChange changes).powered = s.powered := by
  unfold State.xancaChange; dsimp only
  rw [foldl_field (·.powered) _ (fun s a => by simp)]; dsimp only
  rw [foldl_field (·.powered) _ (fun s a => by simp)]
@[simp] theorem State.xancaChange_regs (s : State) (changes : List (Nat × XEntry)) :
    (s.xancaChange changes).regs = s.regs := by
  unfold State.xancaChange; dsimp only
  rw [foldl_field (·.regs) _ (fun s a => by simp)]; dsimp only
  rw [foldl_field (·.regs) _ (fun s a => by simp)]
@[simp] theorem State.xancaChange_freshCount (s : State) (changes : List (Nat × XEntry)) :
    (s.xancaChange changes).freshCount = s.freshCount := by
  unfold State.xancaChange; dsimp only
  rw [foldl_field (·.freshCount) _ (fun s a => by simp)]; dsimp only
  rw [foldl_field (·.freshCount) _ (fun s a => by simp)]

/-! `State.csReport` changes `umauth`, `xanca`, `outputs`. -/

@[simp] theorem State.csReport_pending (s : State) (b : Nat) (failure : Bool) :
    (s.csReport b failure).pending = s.pending := by unfold State.csReport; dsimp only; split <;> simp
@[simp] theorem State.csReport_timecode (s : State) (b : Nat) (failure : Bool) :
    (s.csReport b failure).timecode = s.timecode := by unfold State.csReport; dsimp only; split <;> simp
@[simp] theorem State.csReport_diag (s : State) (b : Nat) (failure : Bool) :
    (s.csReport b failure).diag = s.diag := by unfold State.csReport; dsimp only; split <;> simp
@[simp] theorem State.csReport_security (s : State) (b : Nat) (failure : Bool) :
    (s.csReport b failure).security = s.security := by unfold State.csReport; dsimp only; split <;> simp
@[simp] theorem State.csReport_cores (s : State) (b : Nat) (failure : Bool) :
    (s.csReport b failure).cores = s.cores := by unfold State.csReport; dsimp only; split <;> simp
@[simp] theorem State.csReport_sched (s : State) (b : Nat) (failure : Bool) :
    (s.csReport b failure).sched = s.sched := by unfold State.csReport; dsimp only; split <;> simp
@[simp] theorem State.csReport_fabric (s : State) (b : Nat) (failure : Bool) :
    (s.csReport b failure).fabric = s.fabric := by unfold State.csReport; dsimp only; split <;> simp
@[simp] theorem State.csReport_spads (s : State) (b : Nat) (failure : Bool) :
    (s.csReport b failure).spads = s.spads := by unfold State.csReport; dsimp only; split <;> simp
@[simp] theorem State.csReport_conts (s : State) (b : Nat) (failure : Bool) :
    (s.csReport b failure).conts = s.conts := by unfold State.csReport; dsimp only; split <;> simp
@[simp] theorem State.csReport_streams (s : State) (b : Nat) (failure : Bool) :
    (s.csReport b failure).streams = s.streams := by unfold State.csReport; dsimp only; split <;> simp
@[simp] theorem State.csReport_reels (s : State) (b : Nat) (failure : Bool) :
    (s.csReport b failure).reels = s.reels := by unfold State.csReport; dsimp only; split <;> simp
@[simp] theorem State.csReport_memory (s : State) (b : Nat) (failure : Bool) :
    (s.csReport b failure).memory = s.memory := by unfold State.csReport; dsimp only; split <;> simp
@[simp] theorem State.csReport_resil (s : State) (b : Nat) (failure : Bool) :
    (s.csReport b failure).resil = s.resil := by unfold State.csReport; dsimp only; split <;> simp
@[simp] theorem State.csReport_flume (s : State) (b : Nat) (failure : Bool) :
    (s.csReport b failure).flume = s.flume := by unfold State.csReport; dsimp only; split <;> simp
@[simp] theorem State.csReport_attn (s : State) (b : Nat) (failure : Bool) :
    (s.csReport b failure).attn = s.attn := by unfold State.csReport; dsimp only; split <;> simp
@[simp] theorem State.csReport_hostPort (s : State) (b : Nat) (failure : Bool) :
    (s.csReport b failure).hostPort = s.hostPort := by unfold State.csReport; dsimp only; split <;> simp
@[simp] theorem State.csReport_power (s : State) (b : Nat) (failure : Bool) :
    (s.csReport b failure).power = s.power := by unfold State.csReport; dsimp only; split <;> simp
@[simp] theorem State.csReport_pins (s : State) (b : Nat) (failure : Bool) :
    (s.csReport b failure).pins = s.pins := by unfold State.csReport; dsimp only; split <;> simp
@[simp] theorem State.csReport_powered (s : State) (b : Nat) (failure : Bool) :
    (s.csReport b failure).powered = s.powered := by unfold State.csReport; dsimp only; split <;> simp
@[simp] theorem State.csReport_regs (s : State) (b : Nat) (failure : Bool) :
    (s.csReport b failure).regs = s.regs := by unfold State.csReport; dsimp only; split <;> simp
@[simp] theorem State.csReport_freshCount (s : State) (b : Nat) (failure : Bool) :
    (s.csReport b failure).freshCount = s.freshCount := by unfold State.csReport; dsimp only; split <;> simp

/-! `State.csWake` changes `umauth`, `xanca`, `diag`, `outputs`. -/

@[simp] theorem State.csWake_pending (s : State) :
    (s.csWake).pending = s.pending := by
  unfold State.csWake; dsimp only
  rw [foldl_field (·.pending) _ (fun s a => by simp)]
@[simp] theorem State.csWake_timecode (s : State) :
    (s.csWake).timecode = s.timecode := by
  unfold State.csWake; dsimp only
  rw [foldl_field (·.timecode) _ (fun s a => by simp)]
@[simp] theorem State.csWake_security (s : State) :
    (s.csWake).security = s.security := by
  unfold State.csWake; dsimp only
  rw [foldl_field (·.security) _ (fun s a => by simp)]
@[simp] theorem State.csWake_cores (s : State) :
    (s.csWake).cores = s.cores := by
  unfold State.csWake; dsimp only
  rw [foldl_field (·.cores) _ (fun s a => by simp)]
@[simp] theorem State.csWake_sched (s : State) :
    (s.csWake).sched = s.sched := by
  unfold State.csWake; dsimp only
  rw [foldl_field (·.sched) _ (fun s a => by simp)]
@[simp] theorem State.csWake_fabric (s : State) :
    (s.csWake).fabric = s.fabric := by
  unfold State.csWake; dsimp only
  rw [foldl_field (·.fabric) _ (fun s a => by simp)]
@[simp] theorem State.csWake_spads (s : State) :
    (s.csWake).spads = s.spads := by
  unfold State.csWake; dsimp only
  rw [foldl_field (·.spads) _ (fun s a => by simp)]
@[simp] theorem State.csWake_conts (s : State) :
    (s.csWake).conts = s.conts := by
  unfold State.csWake; dsimp only
  rw [foldl_field (·.conts) _ (fun s a => by simp)]
@[simp] theorem State.csWake_streams (s : State) :
    (s.csWake).streams = s.streams := by
  unfold State.csWake; dsimp only
  rw [foldl_field (·.streams) _ (fun s a => by simp)]
@[simp] theorem State.csWake_reels (s : State) :
    (s.csWake).reels = s.reels := by
  unfold State.csWake; dsimp only
  rw [foldl_field (·.reels) _ (fun s a => by simp)]
@[simp] theorem State.csWake_memory (s : State) :
    (s.csWake).memory = s.memory := by
  unfold State.csWake; dsimp only
  rw [foldl_field (·.memory) _ (fun s a => by simp)]
@[simp] theorem State.csWake_resil (s : State) :
    (s.csWake).resil = s.resil := by
  unfold State.csWake; dsimp only
  rw [foldl_field (·.resil) _ (fun s a => by simp)]
@[simp] theorem State.csWake_flume (s : State) :
    (s.csWake).flume = s.flume := by
  unfold State.csWake; dsimp only
  rw [foldl_field (·.flume) _ (fun s a => by simp)]
@[simp] theorem State.csWake_attn (s : State) :
    (s.csWake).attn = s.attn := by
  unfold State.csWake; dsimp only
  rw [foldl_field (·.attn) _ (fun s a => by simp)]
@[simp] theorem State.csWake_hostPort (s : State) :
    (s.csWake).hostPort = s.hostPort := by
  unfold State.csWake; dsimp only
  rw [foldl_field (·.hostPort) _ (fun s a => by simp)]
@[simp] theorem State.csWake_power (s : State) :
    (s.csWake).power = s.power := by
  unfold State.csWake; dsimp only
  rw [foldl_field (·.power) _ (fun s a => by simp)]
@[simp] theorem State.csWake_pins (s : State) :
    (s.csWake).pins = s.pins := by
  unfold State.csWake; dsimp only
  rw [foldl_field (·.pins) _ (fun s a => by simp)]
@[simp] theorem State.csWake_powered (s : State) :
    (s.csWake).powered = s.powered := by
  unfold State.csWake; dsimp only
  rw [foldl_field (·.powered) _ (fun s a => by simp)]
@[simp] theorem State.csWake_regs (s : State) :
    (s.csWake).regs = s.regs := by
  unfold State.csWake; dsimp only
  rw [foldl_field (·.regs) _ (fun s a => by simp)]
@[simp] theorem State.csWake_freshCount (s : State) :
    (s.csWake).freshCount = s.freshCount := by
  unfold State.csWake; dsimp only
  rw [foldl_field (·.freshCount) _ (fun s a => by simp)]

/-! `State.csApply` changes `umauth`, `xanca`, `diag`, `outputs`. -/

@[simp] theorem State.csApply_pending (s : State) (ready failed : Nat) :
    (s.csApply ready failed).pending = s.pending := by
  unfold State.csApply; dsimp only
  rw [State.csWake_pending, foldl_field (·.pending) _ (fun s a => by simp)]
@[simp] theorem State.csApply_timecode (s : State) (ready failed : Nat) :
    (s.csApply ready failed).timecode = s.timecode := by
  unfold State.csApply; dsimp only
  rw [State.csWake_timecode, foldl_field (·.timecode) _ (fun s a => by simp)]
@[simp] theorem State.csApply_security (s : State) (ready failed : Nat) :
    (s.csApply ready failed).security = s.security := by
  unfold State.csApply; dsimp only
  rw [State.csWake_security, foldl_field (·.security) _ (fun s a => by simp)]
@[simp] theorem State.csApply_cores (s : State) (ready failed : Nat) :
    (s.csApply ready failed).cores = s.cores := by
  unfold State.csApply; dsimp only
  rw [State.csWake_cores, foldl_field (·.cores) _ (fun s a => by simp)]
@[simp] theorem State.csApply_sched (s : State) (ready failed : Nat) :
    (s.csApply ready failed).sched = s.sched := by
  unfold State.csApply; dsimp only
  rw [State.csWake_sched, foldl_field (·.sched) _ (fun s a => by simp)]
@[simp] theorem State.csApply_fabric (s : State) (ready failed : Nat) :
    (s.csApply ready failed).fabric = s.fabric := by
  unfold State.csApply; dsimp only
  rw [State.csWake_fabric, foldl_field (·.fabric) _ (fun s a => by simp)]
@[simp] theorem State.csApply_spads (s : State) (ready failed : Nat) :
    (s.csApply ready failed).spads = s.spads := by
  unfold State.csApply; dsimp only
  rw [State.csWake_spads, foldl_field (·.spads) _ (fun s a => by simp)]
@[simp] theorem State.csApply_conts (s : State) (ready failed : Nat) :
    (s.csApply ready failed).conts = s.conts := by
  unfold State.csApply; dsimp only
  rw [State.csWake_conts, foldl_field (·.conts) _ (fun s a => by simp)]
@[simp] theorem State.csApply_streams (s : State) (ready failed : Nat) :
    (s.csApply ready failed).streams = s.streams := by
  unfold State.csApply; dsimp only
  rw [State.csWake_streams, foldl_field (·.streams) _ (fun s a => by simp)]
@[simp] theorem State.csApply_reels (s : State) (ready failed : Nat) :
    (s.csApply ready failed).reels = s.reels := by
  unfold State.csApply; dsimp only
  rw [State.csWake_reels, foldl_field (·.reels) _ (fun s a => by simp)]
@[simp] theorem State.csApply_memory (s : State) (ready failed : Nat) :
    (s.csApply ready failed).memory = s.memory := by
  unfold State.csApply; dsimp only
  rw [State.csWake_memory, foldl_field (·.memory) _ (fun s a => by simp)]
@[simp] theorem State.csApply_resil (s : State) (ready failed : Nat) :
    (s.csApply ready failed).resil = s.resil := by
  unfold State.csApply; dsimp only
  rw [State.csWake_resil, foldl_field (·.resil) _ (fun s a => by simp)]
@[simp] theorem State.csApply_flume (s : State) (ready failed : Nat) :
    (s.csApply ready failed).flume = s.flume := by
  unfold State.csApply; dsimp only
  rw [State.csWake_flume, foldl_field (·.flume) _ (fun s a => by simp)]
@[simp] theorem State.csApply_attn (s : State) (ready failed : Nat) :
    (s.csApply ready failed).attn = s.attn := by
  unfold State.csApply; dsimp only
  rw [State.csWake_attn, foldl_field (·.attn) _ (fun s a => by simp)]
@[simp] theorem State.csApply_hostPort (s : State) (ready failed : Nat) :
    (s.csApply ready failed).hostPort = s.hostPort := by
  unfold State.csApply; dsimp only
  rw [State.csWake_hostPort, foldl_field (·.hostPort) _ (fun s a => by simp)]
@[simp] theorem State.csApply_power (s : State) (ready failed : Nat) :
    (s.csApply ready failed).power = s.power := by
  unfold State.csApply; dsimp only
  rw [State.csWake_power, foldl_field (·.power) _ (fun s a => by simp)]
@[simp] theorem State.csApply_pins (s : State) (ready failed : Nat) :
    (s.csApply ready failed).pins = s.pins := by
  unfold State.csApply; dsimp only
  rw [State.csWake_pins, foldl_field (·.pins) _ (fun s a => by simp)]
@[simp] theorem State.csApply_powered (s : State) (ready failed : Nat) :
    (s.csApply ready failed).powered = s.powered := by
  unfold State.csApply; dsimp only
  rw [State.csWake_powered, foldl_field (·.powered) _ (fun s a => by simp)]
@[simp] theorem State.csApply_regs (s : State) (ready failed : Nat) :
    (s.csApply ready failed).regs = s.regs := by
  unfold State.csApply; dsimp only
  rw [State.csWake_regs, foldl_field (·.regs) _ (fun s a => by simp)]
@[simp] theorem State.csApply_freshCount (s : State) (ready failed : Nat) :
    (s.csApply ready failed).freshCount = s.freshCount := by
  unfold State.csApply; dsimp only
  rw [State.csWake_freshCount, foldl_field (·.freshCount) _ (fun s a => by simp)]

/-! `State.csSetBits` changes `umauth`, `xanca`, `diag`, `outputs`. -/

@[simp] theorem State.csSetBits_pending (s : State) (bs : List Nat) :
    (s.csSetBits bs).pending = s.pending := by simp [State.csSetBits]
@[simp] theorem State.csSetBits_timecode (s : State) (bs : List Nat) :
    (s.csSetBits bs).timecode = s.timecode := by simp [State.csSetBits]
@[simp] theorem State.csSetBits_security (s : State) (bs : List Nat) :
    (s.csSetBits bs).security = s.security := by simp [State.csSetBits]
@[simp] theorem State.csSetBits_cores (s : State) (bs : List Nat) :
    (s.csSetBits bs).cores = s.cores := by simp [State.csSetBits]
@[simp] theorem State.csSetBits_sched (s : State) (bs : List Nat) :
    (s.csSetBits bs).sched = s.sched := by simp [State.csSetBits]
@[simp] theorem State.csSetBits_fabric (s : State) (bs : List Nat) :
    (s.csSetBits bs).fabric = s.fabric := by simp [State.csSetBits]
@[simp] theorem State.csSetBits_spads (s : State) (bs : List Nat) :
    (s.csSetBits bs).spads = s.spads := by simp [State.csSetBits]
@[simp] theorem State.csSetBits_conts (s : State) (bs : List Nat) :
    (s.csSetBits bs).conts = s.conts := by simp [State.csSetBits]
@[simp] theorem State.csSetBits_streams (s : State) (bs : List Nat) :
    (s.csSetBits bs).streams = s.streams := by simp [State.csSetBits]
@[simp] theorem State.csSetBits_reels (s : State) (bs : List Nat) :
    (s.csSetBits bs).reels = s.reels := by simp [State.csSetBits]
@[simp] theorem State.csSetBits_memory (s : State) (bs : List Nat) :
    (s.csSetBits bs).memory = s.memory := by simp [State.csSetBits]
@[simp] theorem State.csSetBits_resil (s : State) (bs : List Nat) :
    (s.csSetBits bs).resil = s.resil := by simp [State.csSetBits]
@[simp] theorem State.csSetBits_flume (s : State) (bs : List Nat) :
    (s.csSetBits bs).flume = s.flume := by simp [State.csSetBits]
@[simp] theorem State.csSetBits_attn (s : State) (bs : List Nat) :
    (s.csSetBits bs).attn = s.attn := by simp [State.csSetBits]
@[simp] theorem State.csSetBits_hostPort (s : State) (bs : List Nat) :
    (s.csSetBits bs).hostPort = s.hostPort := by simp [State.csSetBits]
@[simp] theorem State.csSetBits_power (s : State) (bs : List Nat) :
    (s.csSetBits bs).power = s.power := by simp [State.csSetBits]
@[simp] theorem State.csSetBits_pins (s : State) (bs : List Nat) :
    (s.csSetBits bs).pins = s.pins := by simp [State.csSetBits]
@[simp] theorem State.csSetBits_powered (s : State) (bs : List Nat) :
    (s.csSetBits bs).powered = s.powered := by simp [State.csSetBits]
@[simp] theorem State.csSetBits_regs (s : State) (bs : List Nat) :
    (s.csSetBits bs).regs = s.regs := by simp [State.csSetBits]
@[simp] theorem State.csSetBits_freshCount (s : State) (bs : List Nat) :
    (s.csSetBits bs).freshCount = s.freshCount := by simp [State.csSetBits]

/-! `State.csClearBits` changes `umauth`, `xanca`, `diag`, `outputs`. -/

@[simp] theorem State.csClearBits_pending (s : State) (bs : List Nat) :
    (s.csClearBits bs).pending = s.pending := by simp [State.csClearBits]
@[simp] theorem State.csClearBits_timecode (s : State) (bs : List Nat) :
    (s.csClearBits bs).timecode = s.timecode := by simp [State.csClearBits]
@[simp] theorem State.csClearBits_security (s : State) (bs : List Nat) :
    (s.csClearBits bs).security = s.security := by simp [State.csClearBits]
@[simp] theorem State.csClearBits_cores (s : State) (bs : List Nat) :
    (s.csClearBits bs).cores = s.cores := by simp [State.csClearBits]
@[simp] theorem State.csClearBits_sched (s : State) (bs : List Nat) :
    (s.csClearBits bs).sched = s.sched := by simp [State.csClearBits]
@[simp] theorem State.csClearBits_fabric (s : State) (bs : List Nat) :
    (s.csClearBits bs).fabric = s.fabric := by simp [State.csClearBits]
@[simp] theorem State.csClearBits_spads (s : State) (bs : List Nat) :
    (s.csClearBits bs).spads = s.spads := by simp [State.csClearBits]
@[simp] theorem State.csClearBits_conts (s : State) (bs : List Nat) :
    (s.csClearBits bs).conts = s.conts := by simp [State.csClearBits]
@[simp] theorem State.csClearBits_streams (s : State) (bs : List Nat) :
    (s.csClearBits bs).streams = s.streams := by simp [State.csClearBits]
@[simp] theorem State.csClearBits_reels (s : State) (bs : List Nat) :
    (s.csClearBits bs).reels = s.reels := by simp [State.csClearBits]
@[simp] theorem State.csClearBits_memory (s : State) (bs : List Nat) :
    (s.csClearBits bs).memory = s.memory := by simp [State.csClearBits]
@[simp] theorem State.csClearBits_resil (s : State) (bs : List Nat) :
    (s.csClearBits bs).resil = s.resil := by simp [State.csClearBits]
@[simp] theorem State.csClearBits_flume (s : State) (bs : List Nat) :
    (s.csClearBits bs).flume = s.flume := by simp [State.csClearBits]
@[simp] theorem State.csClearBits_attn (s : State) (bs : List Nat) :
    (s.csClearBits bs).attn = s.attn := by simp [State.csClearBits]
@[simp] theorem State.csClearBits_hostPort (s : State) (bs : List Nat) :
    (s.csClearBits bs).hostPort = s.hostPort := by simp [State.csClearBits]
@[simp] theorem State.csClearBits_power (s : State) (bs : List Nat) :
    (s.csClearBits bs).power = s.power := by simp [State.csClearBits]
@[simp] theorem State.csClearBits_pins (s : State) (bs : List Nat) :
    (s.csClearBits bs).pins = s.pins := by simp [State.csClearBits]
@[simp] theorem State.csClearBits_powered (s : State) (bs : List Nat) :
    (s.csClearBits bs).powered = s.powered := by simp [State.csClearBits]
@[simp] theorem State.csClearBits_regs (s : State) (bs : List Nat) :
    (s.csClearBits bs).regs = s.regs := by simp [State.csClearBits]
@[simp] theorem State.csClearBits_freshCount (s : State) (bs : List Nat) :
    (s.csClearBits bs).freshCount = s.freshCount := by simp [State.csClearBits]

/-! `State.csDrop` changes `umauth`, `xanca`, `diag`, `outputs`. -/

@[simp] theorem State.csDrop_pending (s : State) (b : Nat) :
    (s.csDrop b).pending = s.pending := by simp [State.csDrop]
@[simp] theorem State.csDrop_timecode (s : State) (b : Nat) :
    (s.csDrop b).timecode = s.timecode := by simp [State.csDrop]
@[simp] theorem State.csDrop_security (s : State) (b : Nat) :
    (s.csDrop b).security = s.security := by simp [State.csDrop]
@[simp] theorem State.csDrop_cores (s : State) (b : Nat) :
    (s.csDrop b).cores = s.cores := by simp [State.csDrop]
@[simp] theorem State.csDrop_sched (s : State) (b : Nat) :
    (s.csDrop b).sched = s.sched := by simp [State.csDrop]
@[simp] theorem State.csDrop_fabric (s : State) (b : Nat) :
    (s.csDrop b).fabric = s.fabric := by simp [State.csDrop]
@[simp] theorem State.csDrop_spads (s : State) (b : Nat) :
    (s.csDrop b).spads = s.spads := by simp [State.csDrop]
@[simp] theorem State.csDrop_conts (s : State) (b : Nat) :
    (s.csDrop b).conts = s.conts := by simp [State.csDrop]
@[simp] theorem State.csDrop_streams (s : State) (b : Nat) :
    (s.csDrop b).streams = s.streams := by simp [State.csDrop]
@[simp] theorem State.csDrop_reels (s : State) (b : Nat) :
    (s.csDrop b).reels = s.reels := by simp [State.csDrop]
@[simp] theorem State.csDrop_memory (s : State) (b : Nat) :
    (s.csDrop b).memory = s.memory := by simp [State.csDrop]
@[simp] theorem State.csDrop_resil (s : State) (b : Nat) :
    (s.csDrop b).resil = s.resil := by simp [State.csDrop]
@[simp] theorem State.csDrop_flume (s : State) (b : Nat) :
    (s.csDrop b).flume = s.flume := by simp [State.csDrop]
@[simp] theorem State.csDrop_attn (s : State) (b : Nat) :
    (s.csDrop b).attn = s.attn := by simp [State.csDrop]
@[simp] theorem State.csDrop_hostPort (s : State) (b : Nat) :
    (s.csDrop b).hostPort = s.hostPort := by simp [State.csDrop]
@[simp] theorem State.csDrop_power (s : State) (b : Nat) :
    (s.csDrop b).power = s.power := by simp [State.csDrop]
@[simp] theorem State.csDrop_pins (s : State) (b : Nat) :
    (s.csDrop b).pins = s.pins := by simp [State.csDrop]
@[simp] theorem State.csDrop_powered (s : State) (b : Nat) :
    (s.csDrop b).powered = s.powered := by simp [State.csDrop]
@[simp] theorem State.csDrop_regs (s : State) (b : Nat) :
    (s.csDrop b).regs = s.regs := by simp [State.csDrop]
@[simp] theorem State.csDrop_freshCount (s : State) (b : Nat) :
    (s.csDrop b).freshCount = s.freshCount := by simp [State.csDrop]

/-! `State.csRecompute` changes `umauth`, `xanca`, `diag`, `outputs`. -/

@[simp] theorem State.csRecompute_pending (s : State) :
    (s.csRecompute).pending = s.pending := by simp [State.csRecompute]
@[simp] theorem State.csRecompute_timecode (s : State) :
    (s.csRecompute).timecode = s.timecode := by simp [State.csRecompute]
@[simp] theorem State.csRecompute_security (s : State) :
    (s.csRecompute).security = s.security := by simp [State.csRecompute]
@[simp] theorem State.csRecompute_cores (s : State) :
    (s.csRecompute).cores = s.cores := by simp [State.csRecompute]
@[simp] theorem State.csRecompute_sched (s : State) :
    (s.csRecompute).sched = s.sched := by simp [State.csRecompute]
@[simp] theorem State.csRecompute_fabric (s : State) :
    (s.csRecompute).fabric = s.fabric := by simp [State.csRecompute]
@[simp] theorem State.csRecompute_spads (s : State) :
    (s.csRecompute).spads = s.spads := by simp [State.csRecompute]
@[simp] theorem State.csRecompute_conts (s : State) :
    (s.csRecompute).conts = s.conts := by simp [State.csRecompute]
@[simp] theorem State.csRecompute_streams (s : State) :
    (s.csRecompute).streams = s.streams := by simp [State.csRecompute]
@[simp] theorem State.csRecompute_reels (s : State) :
    (s.csRecompute).reels = s.reels := by simp [State.csRecompute]
@[simp] theorem State.csRecompute_memory (s : State) :
    (s.csRecompute).memory = s.memory := by simp [State.csRecompute]
@[simp] theorem State.csRecompute_resil (s : State) :
    (s.csRecompute).resil = s.resil := by simp [State.csRecompute]
@[simp] theorem State.csRecompute_flume (s : State) :
    (s.csRecompute).flume = s.flume := by simp [State.csRecompute]
@[simp] theorem State.csRecompute_attn (s : State) :
    (s.csRecompute).attn = s.attn := by simp [State.csRecompute]
@[simp] theorem State.csRecompute_hostPort (s : State) :
    (s.csRecompute).hostPort = s.hostPort := by simp [State.csRecompute]
@[simp] theorem State.csRecompute_power (s : State) :
    (s.csRecompute).power = s.power := by simp [State.csRecompute]
@[simp] theorem State.csRecompute_pins (s : State) :
    (s.csRecompute).pins = s.pins := by simp [State.csRecompute]
@[simp] theorem State.csRecompute_powered (s : State) :
    (s.csRecompute).powered = s.powered := by simp [State.csRecompute]
@[simp] theorem State.csRecompute_regs (s : State) :
    (s.csRecompute).regs = s.regs := by simp [State.csRecompute]
@[simp] theorem State.csRecompute_freshCount (s : State) :
    (s.csRecompute).freshCount = s.freshCount := by simp [State.csRecompute]

/-! `State.countError` changes `diag`, `regs`. -/

@[simp] theorem State.countError_pending (s : State) (r : ErrorReport) :
    (s.countError r).pending = s.pending := rfl
@[simp] theorem State.countError_umauth (s : State) (r : ErrorReport) :
    (s.countError r).umauth = s.umauth := rfl
@[simp] theorem State.countError_xanca (s : State) (r : ErrorReport) :
    (s.countError r).xanca = s.xanca := rfl
@[simp] theorem State.countError_timecode (s : State) (r : ErrorReport) :
    (s.countError r).timecode = s.timecode := rfl
@[simp] theorem State.countError_security (s : State) (r : ErrorReport) :
    (s.countError r).security = s.security := rfl
@[simp] theorem State.countError_cores (s : State) (r : ErrorReport) :
    (s.countError r).cores = s.cores := rfl
@[simp] theorem State.countError_sched (s : State) (r : ErrorReport) :
    (s.countError r).sched = s.sched := rfl
@[simp] theorem State.countError_fabric (s : State) (r : ErrorReport) :
    (s.countError r).fabric = s.fabric := rfl
@[simp] theorem State.countError_spads (s : State) (r : ErrorReport) :
    (s.countError r).spads = s.spads := rfl
@[simp] theorem State.countError_conts (s : State) (r : ErrorReport) :
    (s.countError r).conts = s.conts := rfl
@[simp] theorem State.countError_streams (s : State) (r : ErrorReport) :
    (s.countError r).streams = s.streams := rfl
@[simp] theorem State.countError_reels (s : State) (r : ErrorReport) :
    (s.countError r).reels = s.reels := rfl
@[simp] theorem State.countError_memory (s : State) (r : ErrorReport) :
    (s.countError r).memory = s.memory := rfl
@[simp] theorem State.countError_resil (s : State) (r : ErrorReport) :
    (s.countError r).resil = s.resil := rfl
@[simp] theorem State.countError_flume (s : State) (r : ErrorReport) :
    (s.countError r).flume = s.flume := rfl
@[simp] theorem State.countError_attn (s : State) (r : ErrorReport) :
    (s.countError r).attn = s.attn := rfl
@[simp] theorem State.countError_hostPort (s : State) (r : ErrorReport) :
    (s.countError r).hostPort = s.hostPort := rfl
@[simp] theorem State.countError_power (s : State) (r : ErrorReport) :
    (s.countError r).power = s.power := rfl
@[simp] theorem State.countError_pins (s : State) (r : ErrorReport) :
    (s.countError r).pins = s.pins := rfl
@[simp] theorem State.countError_powered (s : State) (r : ErrorReport) :
    (s.countError r).powered = s.powered := rfl
@[simp] theorem State.countError_outputs (s : State) (r : ErrorReport) :
    (s.countError r).outputs = s.outputs := rfl
@[simp] theorem State.countError_freshCount (s : State) (r : ErrorReport) :
    (s.countError r).freshCount = s.freshCount := rfl

/-! `State.logEntry` changes `umauth`, `timecode`, `diag`, `outputs`. -/

@[simp] theorem State.logEntry_pending (s : State) (r : ErrorReport) (dtc : Stamp) (outcome : Nat) :
    (s.logEntry r dtc outcome).pending = s.pending := by unfold State.logEntry; dsimp only [State.stamp, State.stampAt]; split <;> simp
@[simp] theorem State.logEntry_xanca (s : State) (r : ErrorReport) (dtc : Stamp) (outcome : Nat) :
    (s.logEntry r dtc outcome).xanca = s.xanca := by unfold State.logEntry; dsimp only [State.stamp, State.stampAt]; split <;> simp
@[simp] theorem State.logEntry_security (s : State) (r : ErrorReport) (dtc : Stamp) (outcome : Nat) :
    (s.logEntry r dtc outcome).security = s.security := by unfold State.logEntry; dsimp only [State.stamp, State.stampAt]; split <;> simp
@[simp] theorem State.logEntry_cores (s : State) (r : ErrorReport) (dtc : Stamp) (outcome : Nat) :
    (s.logEntry r dtc outcome).cores = s.cores := by unfold State.logEntry; dsimp only [State.stamp, State.stampAt]; split <;> simp
@[simp] theorem State.logEntry_sched (s : State) (r : ErrorReport) (dtc : Stamp) (outcome : Nat) :
    (s.logEntry r dtc outcome).sched = s.sched := by unfold State.logEntry; dsimp only [State.stamp, State.stampAt]; split <;> simp
@[simp] theorem State.logEntry_fabric (s : State) (r : ErrorReport) (dtc : Stamp) (outcome : Nat) :
    (s.logEntry r dtc outcome).fabric = s.fabric := by unfold State.logEntry; dsimp only [State.stamp, State.stampAt]; split <;> simp
@[simp] theorem State.logEntry_spads (s : State) (r : ErrorReport) (dtc : Stamp) (outcome : Nat) :
    (s.logEntry r dtc outcome).spads = s.spads := by unfold State.logEntry; dsimp only [State.stamp, State.stampAt]; split <;> simp
@[simp] theorem State.logEntry_conts (s : State) (r : ErrorReport) (dtc : Stamp) (outcome : Nat) :
    (s.logEntry r dtc outcome).conts = s.conts := by unfold State.logEntry; dsimp only [State.stamp, State.stampAt]; split <;> simp
@[simp] theorem State.logEntry_streams (s : State) (r : ErrorReport) (dtc : Stamp) (outcome : Nat) :
    (s.logEntry r dtc outcome).streams = s.streams := by unfold State.logEntry; dsimp only [State.stamp, State.stampAt]; split <;> simp
@[simp] theorem State.logEntry_reels (s : State) (r : ErrorReport) (dtc : Stamp) (outcome : Nat) :
    (s.logEntry r dtc outcome).reels = s.reels := by unfold State.logEntry; dsimp only [State.stamp, State.stampAt]; split <;> simp
@[simp] theorem State.logEntry_memory (s : State) (r : ErrorReport) (dtc : Stamp) (outcome : Nat) :
    (s.logEntry r dtc outcome).memory = s.memory := by unfold State.logEntry; dsimp only [State.stamp, State.stampAt]; split <;> simp
@[simp] theorem State.logEntry_resil (s : State) (r : ErrorReport) (dtc : Stamp) (outcome : Nat) :
    (s.logEntry r dtc outcome).resil = s.resil := by unfold State.logEntry; dsimp only [State.stamp, State.stampAt]; split <;> simp
@[simp] theorem State.logEntry_flume (s : State) (r : ErrorReport) (dtc : Stamp) (outcome : Nat) :
    (s.logEntry r dtc outcome).flume = s.flume := by unfold State.logEntry; dsimp only [State.stamp, State.stampAt]; split <;> simp
@[simp] theorem State.logEntry_attn (s : State) (r : ErrorReport) (dtc : Stamp) (outcome : Nat) :
    (s.logEntry r dtc outcome).attn = s.attn := by unfold State.logEntry; dsimp only [State.stamp, State.stampAt]; split <;> simp
@[simp] theorem State.logEntry_hostPort (s : State) (r : ErrorReport) (dtc : Stamp) (outcome : Nat) :
    (s.logEntry r dtc outcome).hostPort = s.hostPort := by unfold State.logEntry; dsimp only [State.stamp, State.stampAt]; split <;> simp
@[simp] theorem State.logEntry_power (s : State) (r : ErrorReport) (dtc : Stamp) (outcome : Nat) :
    (s.logEntry r dtc outcome).power = s.power := by unfold State.logEntry; dsimp only [State.stamp, State.stampAt]; split <;> simp
@[simp] theorem State.logEntry_pins (s : State) (r : ErrorReport) (dtc : Stamp) (outcome : Nat) :
    (s.logEntry r dtc outcome).pins = s.pins := by unfold State.logEntry; dsimp only [State.stamp, State.stampAt]; split <;> simp
@[simp] theorem State.logEntry_powered (s : State) (r : ErrorReport) (dtc : Stamp) (outcome : Nat) :
    (s.logEntry r dtc outcome).powered = s.powered := by unfold State.logEntry; dsimp only [State.stamp, State.stampAt]; split <;> simp
@[simp] theorem State.logEntry_regs (s : State) (r : ErrorReport) (dtc : Stamp) (outcome : Nat) :
    (s.logEntry r dtc outcome).regs = s.regs := by unfold State.logEntry; dsimp only [State.stamp, State.stampAt]; split <;> simp
@[simp] theorem State.logEntry_freshCount (s : State) (r : ErrorReport) (dtc : Stamp) (outcome : Nat) :
    (s.logEntry r dtc outcome).freshCount = s.freshCount := by unfold State.logEntry; dsimp only [State.stamp, State.stampAt]; split <;> simp

/-! `State.logError` changes `umauth`, `timecode`, `diag`, `regs`, `outputs`. -/

@[simp] theorem State.logError_pending (s : State) (r : ErrorReport) :
    (s.logError r).pending = s.pending := by
  unfold State.logError; dsimp only [State.stamp, State.stampAt]; split
  · simp
  · simp
@[simp] theorem State.logError_xanca (s : State) (r : ErrorReport) :
    (s.logError r).xanca = s.xanca := by
  unfold State.logError; dsimp only [State.stamp, State.stampAt]; split
  · simp
  · simp
@[simp] theorem State.logError_security (s : State) (r : ErrorReport) :
    (s.logError r).security = s.security := by
  unfold State.logError; dsimp only [State.stamp, State.stampAt]; split
  · simp
  · simp
@[simp] theorem State.logError_cores (s : State) (r : ErrorReport) :
    (s.logError r).cores = s.cores := by
  unfold State.logError; dsimp only [State.stamp, State.stampAt]; split
  · simp
  · simp
@[simp] theorem State.logError_sched (s : State) (r : ErrorReport) :
    (s.logError r).sched = s.sched := by
  unfold State.logError; dsimp only [State.stamp, State.stampAt]; split
  · simp
  · simp
@[simp] theorem State.logError_fabric (s : State) (r : ErrorReport) :
    (s.logError r).fabric = s.fabric := by
  unfold State.logError; dsimp only [State.stamp, State.stampAt]; split
  · simp
  · simp
@[simp] theorem State.logError_spads (s : State) (r : ErrorReport) :
    (s.logError r).spads = s.spads := by
  unfold State.logError; dsimp only [State.stamp, State.stampAt]; split
  · simp
  · simp
@[simp] theorem State.logError_conts (s : State) (r : ErrorReport) :
    (s.logError r).conts = s.conts := by
  unfold State.logError; dsimp only [State.stamp, State.stampAt]; split
  · simp
  · simp
@[simp] theorem State.logError_streams (s : State) (r : ErrorReport) :
    (s.logError r).streams = s.streams := by
  unfold State.logError; dsimp only [State.stamp, State.stampAt]; split
  · simp
  · simp
@[simp] theorem State.logError_reels (s : State) (r : ErrorReport) :
    (s.logError r).reels = s.reels := by
  unfold State.logError; dsimp only [State.stamp, State.stampAt]; split
  · simp
  · simp
@[simp] theorem State.logError_memory (s : State) (r : ErrorReport) :
    (s.logError r).memory = s.memory := by
  unfold State.logError; dsimp only [State.stamp, State.stampAt]; split
  · simp
  · simp
@[simp] theorem State.logError_resil (s : State) (r : ErrorReport) :
    (s.logError r).resil = s.resil := by
  unfold State.logError; dsimp only [State.stamp, State.stampAt]; split
  · simp
  · simp
@[simp] theorem State.logError_flume (s : State) (r : ErrorReport) :
    (s.logError r).flume = s.flume := by
  unfold State.logError; dsimp only [State.stamp, State.stampAt]; split
  · simp
  · simp
@[simp] theorem State.logError_attn (s : State) (r : ErrorReport) :
    (s.logError r).attn = s.attn := by
  unfold State.logError; dsimp only [State.stamp, State.stampAt]; split
  · simp
  · simp
@[simp] theorem State.logError_hostPort (s : State) (r : ErrorReport) :
    (s.logError r).hostPort = s.hostPort := by
  unfold State.logError; dsimp only [State.stamp, State.stampAt]; split
  · simp
  · simp
@[simp] theorem State.logError_power (s : State) (r : ErrorReport) :
    (s.logError r).power = s.power := by
  unfold State.logError; dsimp only [State.stamp, State.stampAt]; split
  · simp
  · simp
@[simp] theorem State.logError_pins (s : State) (r : ErrorReport) :
    (s.logError r).pins = s.pins := by
  unfold State.logError; dsimp only [State.stamp, State.stampAt]; split
  · simp
  · simp
@[simp] theorem State.logError_powered (s : State) (r : ErrorReport) :
    (s.logError r).powered = s.powered := by
  unfold State.logError; dsimp only [State.stamp, State.stampAt]; split
  · simp
  · simp
@[simp] theorem State.logError_freshCount (s : State) (r : ErrorReport) :
    (s.logError r).freshCount = s.freshCount := by
  unfold State.logError; dsimp only [State.stamp, State.stampAt]; split
  · simp
  · simp

/-! `State.stampAt` changes `timecode`. -/

@[simp] theorem State.stampAt_pending (s : State) (u ns : Nat) : (s.stampAt u ns).2.pending = s.pending := rfl
@[simp] theorem State.stampAt_umauth (s : State) (u ns : Nat) : (s.stampAt u ns).2.umauth = s.umauth := rfl
@[simp] theorem State.stampAt_xanca (s : State) (u ns : Nat) : (s.stampAt u ns).2.xanca = s.xanca := rfl
@[simp] theorem State.stampAt_diag (s : State) (u ns : Nat) : (s.stampAt u ns).2.diag = s.diag := rfl
@[simp] theorem State.stampAt_security (s : State) (u ns : Nat) : (s.stampAt u ns).2.security = s.security := rfl
@[simp] theorem State.stampAt_cores (s : State) (u ns : Nat) : (s.stampAt u ns).2.cores = s.cores := rfl
@[simp] theorem State.stampAt_sched (s : State) (u ns : Nat) : (s.stampAt u ns).2.sched = s.sched := rfl
@[simp] theorem State.stampAt_fabric (s : State) (u ns : Nat) : (s.stampAt u ns).2.fabric = s.fabric := rfl
@[simp] theorem State.stampAt_spads (s : State) (u ns : Nat) : (s.stampAt u ns).2.spads = s.spads := rfl
@[simp] theorem State.stampAt_conts (s : State) (u ns : Nat) : (s.stampAt u ns).2.conts = s.conts := rfl
@[simp] theorem State.stampAt_streams (s : State) (u ns : Nat) : (s.stampAt u ns).2.streams = s.streams := rfl
@[simp] theorem State.stampAt_reels (s : State) (u ns : Nat) : (s.stampAt u ns).2.reels = s.reels := rfl
@[simp] theorem State.stampAt_memory (s : State) (u ns : Nat) : (s.stampAt u ns).2.memory = s.memory := rfl
@[simp] theorem State.stampAt_resil (s : State) (u ns : Nat) : (s.stampAt u ns).2.resil = s.resil := rfl
@[simp] theorem State.stampAt_flume (s : State) (u ns : Nat) : (s.stampAt u ns).2.flume = s.flume := rfl
@[simp] theorem State.stampAt_attn (s : State) (u ns : Nat) : (s.stampAt u ns).2.attn = s.attn := rfl
@[simp] theorem State.stampAt_hostPort (s : State) (u ns : Nat) : (s.stampAt u ns).2.hostPort = s.hostPort := rfl
@[simp] theorem State.stampAt_power (s : State) (u ns : Nat) : (s.stampAt u ns).2.power = s.power := rfl
@[simp] theorem State.stampAt_pins (s : State) (u ns : Nat) : (s.stampAt u ns).2.pins = s.pins := rfl
@[simp] theorem State.stampAt_powered (s : State) (u ns : Nat) : (s.stampAt u ns).2.powered = s.powered := rfl
@[simp] theorem State.stampAt_regs (s : State) (u ns : Nat) : (s.stampAt u ns).2.regs = s.regs := rfl
@[simp] theorem State.stampAt_outputs (s : State) (u ns : Nat) : (s.stampAt u ns).2.outputs = s.outputs := rfl
@[simp] theorem State.stampAt_freshCount (s : State) (u ns : Nat) : (s.stampAt u ns).2.freshCount = s.freshCount := rfl

/-! `State.stamp` changes `timecode`. -/

@[simp] theorem State.stamp_pending (s : State) (u : Nat) : (s.stamp u).2.pending = s.pending := rfl
@[simp] theorem State.stamp_umauth (s : State) (u : Nat) : (s.stamp u).2.umauth = s.umauth := rfl
@[simp] theorem State.stamp_xanca (s : State) (u : Nat) : (s.stamp u).2.xanca = s.xanca := rfl
@[simp] theorem State.stamp_diag (s : State) (u : Nat) : (s.stamp u).2.diag = s.diag := rfl
@[simp] theorem State.stamp_security (s : State) (u : Nat) : (s.stamp u).2.security = s.security := rfl
@[simp] theorem State.stamp_cores (s : State) (u : Nat) : (s.stamp u).2.cores = s.cores := rfl
@[simp] theorem State.stamp_sched (s : State) (u : Nat) : (s.stamp u).2.sched = s.sched := rfl
@[simp] theorem State.stamp_fabric (s : State) (u : Nat) : (s.stamp u).2.fabric = s.fabric := rfl
@[simp] theorem State.stamp_spads (s : State) (u : Nat) : (s.stamp u).2.spads = s.spads := rfl
@[simp] theorem State.stamp_conts (s : State) (u : Nat) : (s.stamp u).2.conts = s.conts := rfl
@[simp] theorem State.stamp_streams (s : State) (u : Nat) : (s.stamp u).2.streams = s.streams := rfl
@[simp] theorem State.stamp_reels (s : State) (u : Nat) : (s.stamp u).2.reels = s.reels := rfl
@[simp] theorem State.stamp_memory (s : State) (u : Nat) : (s.stamp u).2.memory = s.memory := rfl
@[simp] theorem State.stamp_resil (s : State) (u : Nat) : (s.stamp u).2.resil = s.resil := rfl
@[simp] theorem State.stamp_flume (s : State) (u : Nat) : (s.stamp u).2.flume = s.flume := rfl
@[simp] theorem State.stamp_attn (s : State) (u : Nat) : (s.stamp u).2.attn = s.attn := rfl
@[simp] theorem State.stamp_hostPort (s : State) (u : Nat) : (s.stamp u).2.hostPort = s.hostPort := rfl
@[simp] theorem State.stamp_power (s : State) (u : Nat) : (s.stamp u).2.power = s.power := rfl
@[simp] theorem State.stamp_pins (s : State) (u : Nat) : (s.stamp u).2.pins = s.pins := rfl
@[simp] theorem State.stamp_powered (s : State) (u : Nat) : (s.stamp u).2.powered = s.powered := rfl
@[simp] theorem State.stamp_regs (s : State) (u : Nat) : (s.stamp u).2.regs = s.regs := rfl
@[simp] theorem State.stamp_outputs (s : State) (u : Nat) : (s.stamp u).2.outputs = s.outputs := rfl
@[simp] theorem State.stamp_freshCount (s : State) (u : Nat) : (s.stamp u).2.freshCount = s.freshCount := rfl

/-! `State.draw` changes `freshCount`. -/

@[simp] theorem State.draw_pending (s : State) : (s.draw).2.pending = s.pending := rfl
@[simp] theorem State.draw_umauth (s : State) : (s.draw).2.umauth = s.umauth := rfl
@[simp] theorem State.draw_xanca (s : State) : (s.draw).2.xanca = s.xanca := rfl
@[simp] theorem State.draw_timecode (s : State) : (s.draw).2.timecode = s.timecode := rfl
@[simp] theorem State.draw_diag (s : State) : (s.draw).2.diag = s.diag := rfl
@[simp] theorem State.draw_security (s : State) : (s.draw).2.security = s.security := rfl
@[simp] theorem State.draw_cores (s : State) : (s.draw).2.cores = s.cores := rfl
@[simp] theorem State.draw_sched (s : State) : (s.draw).2.sched = s.sched := rfl
@[simp] theorem State.draw_fabric (s : State) : (s.draw).2.fabric = s.fabric := rfl
@[simp] theorem State.draw_spads (s : State) : (s.draw).2.spads = s.spads := rfl
@[simp] theorem State.draw_conts (s : State) : (s.draw).2.conts = s.conts := rfl
@[simp] theorem State.draw_streams (s : State) : (s.draw).2.streams = s.streams := rfl
@[simp] theorem State.draw_reels (s : State) : (s.draw).2.reels = s.reels := rfl
@[simp] theorem State.draw_memory (s : State) : (s.draw).2.memory = s.memory := rfl
@[simp] theorem State.draw_resil (s : State) : (s.draw).2.resil = s.resil := rfl
@[simp] theorem State.draw_flume (s : State) : (s.draw).2.flume = s.flume := rfl
@[simp] theorem State.draw_attn (s : State) : (s.draw).2.attn = s.attn := rfl
@[simp] theorem State.draw_hostPort (s : State) : (s.draw).2.hostPort = s.hostPort := rfl
@[simp] theorem State.draw_power (s : State) : (s.draw).2.power = s.power := rfl
@[simp] theorem State.draw_pins (s : State) : (s.draw).2.pins = s.pins := rfl
@[simp] theorem State.draw_powered (s : State) : (s.draw).2.powered = s.powered := rfl
@[simp] theorem State.draw_regs (s : State) : (s.draw).2.regs = s.regs := rfl
@[simp] theorem State.draw_outputs (s : State) : (s.draw).2.outputs = s.outputs := rfl

end Sys2Proof.Machine
end

