-- ==== Sys2Proof/Laws/Checks.lean ====
section
/-! SUPPORT. When a command's effect happens: the device is powered, its condition holds, its parameter checks pass. -/

namespace Sys2Proof.Machine

/-- A powered device has the effect. -/
theorem State.live_powered {s : State} (f : State → State) (h : s.powered = true) : s.live f = .next (f s) := by
  simp [State.live, h]

/-- An unpowered device is left as it is. -/
theorem State.live_off {s : State} (f : State → State) (h : s.powered = false) : s.live f = .next s := by
  simp [State.live, h]

/-- Every command that is guarded by power answers a next state. -/
theorem State.live_next (s : State) (f : State → State) : s.live f = .next (if s.powered then f s else s) := by
  unfold State.live; split <;> rfl

@[simp] theorem State.onlyIf_true (s : State) (f : State → State) : s.onlyIf true f = f s := rfl
@[simp] theorem State.onlyIf_false (s : State) (f : State → State) : s.onlyIf false f = s := rfl

/-- A condition that holds leaves the effect. -/
theorem State.onlyIf_of {s : State} {b : Bool} {f : State → State} (h : b = true) : s.onlyIf b f = f s := by subst h; rfl
/-- A condition that fails leaves the state. -/
theorem State.onlyIf_not {s : State} {b : Bool} {f : State → State} (h : b = false) : s.onlyIf b f = s := by subst h; rfl

@[simp] theorem badIf_eq_none (b : Bool) (o : Nat) : badIf b o = none ↔ b = false := by cases b <;> simp [badIf]
@[simp] theorem failIf_eq_none (b : Bool) (st d : Nat) : failIf b st d = none ↔ b = false := by cases b <;> simp [failIf]

@[simp] theorem firstFail_nil : firstFail [] = none := rfl
@[simp] theorem firstFail_cons_eq_none (x : Check) (l : List Check) :
    firstFail (x :: l) = none ↔ x = none ∧ firstFail l = none := by
  cases x <;> simp [firstFail]

/-- Checks that all pass leave the effect. -/
theorem State.checked_pass {s : State} {c : Command} {l : List Check} {f : State → State} (h : firstFail l = none) :
    s.checked c l f = f s := by simp [State.checked, h]

/-- The first check that fails answers the command. -/
theorem State.checked_fail {s : State} {c : Command} {l : List Check} {f : State → State} {st d : Nat}
    (h : firstFail l = some (st, d)) : s.checked c l f = s.finish c st d [] := by simp [State.checked, h]

/-- Frames are counted in the registers and draw a free value; nothing else changes. -/
@[simp] theorem State.rxBytes_umauth (s : State) (n : Nat) : (s.rxBytes n).umauth = s.umauth := rfl
@[simp] theorem State.rxBytes_security (s : State) (n : Nat) : (s.rxBytes n).security = s.security := rfl
@[simp] theorem State.rxBytes_timecode (s : State) (n : Nat) : (s.rxBytes n).timecode = s.timecode := rfl
@[simp] theorem State.rxBytes_powered (s : State) (n : Nat) : (s.rxBytes n).powered = s.powered := rfl

/-- Sessions lie in the transport's record. -/
theorem State.session_congr {s t : State} (h : s.umauth = t.umauth) (n : Nat) : s.session n = t.session n := by
  simp [State.session, h]

@[simp] theorem State.rxBytes_session (s : State) (n k : Nat) : (s.rxBytes n).session k = s.session k := rfl

end Sys2Proof.Machine
end

