-- ==== Sys2Proof/Laws/TMap.lean ====
section
/-! SUPPORT. Finite maps: reading after writing, and the canonical form. -/

namespace Sys2Proof.TMap

variable {α : Type}

@[simp] theorem get_nil (d : α) (k : Nat) : get d ([] : TMap α) k = d := rfl

theorem get_cons (d : α) (a : Nat) (v : α) (t : TMap α) (k : Nat) :
    get d ((a, v) :: t) k = if a = k then v else get d t k := rfl

@[simp] theorem get_insert_self (d : α) (m : TMap α) (k : Nat) (v : α) : get d (insert m k v) k = v := by
  induction m with
  | nil => simp [insert, get]
  | cons e t ih => simp only [insert]; split <;> [simp [get]; split <;> simp_all [get]]

theorem get_insert_of_ne (d : α) (m : TMap α) (k : Nat) (v : α) (j : Nat) (h : j ≠ k) :
    get d (insert m k v) j = get d m j := by
  induction m with
  | nil => simp [insert, get, Ne.symm h]
  | cons e t ih =>
    simp only [insert]
    split
    · simp [get, Ne.symm h]
    · split
      · next h1 => simp [get, Ne.symm h, h1]
      · simp [get, ih]

@[simp] theorem get_erase_self (d : α) (m : TMap α) (k : Nat) : get d (erase m k) k = d := by
  induction m with
  | nil => rfl
  | cons e t ih =>
    rcases e with ⟨a, b⟩
    by_cases h : a = k
    · simpa [erase, h] using ih
    · simpa [erase, h, get] using ih

theorem get_erase_of_ne (d : α) (m : TMap α) (k j : Nat) (h : j ≠ k) : get d (erase m k) j = get d m j := by
  induction m with
  | nil => rfl
  | cons e t ih =>
    rcases e with ⟨a, b⟩
    have ih' : get d (t.filter fun e => !decide (e.1 = k)) j = get d t j := by simpa [erase] using ih
    by_cases h1 : a = k
    · subst h1; simpa [erase, get, Ne.symm h] using ih'
    · simp [erase, h1, get, ih']

@[simp] theorem get_set_self [DecidableEq α] (d : α) (m : TMap α) (k : Nat) (v : α) : get d (set d m k v) k = v := by
  unfold set; split
  · next h => simp [h]
  · simp

theorem get_set_of_ne [DecidableEq α] (d : α) (m : TMap α) (k : Nat) (v : α) (j : Nat) (h : j ≠ k) :
    get d (set d m k v) j = get d m j := by
  unfold set; split
  · exact get_erase_of_ne d m k j h
  · exact get_insert_of_ne d m k v j h

theorem mem_insert (m : TMap α) (k : Nat) (v : α) (e : Nat × α) (h : e ∈ insert m k v) : e = (k, v) ∨ e ∈ m := by
  induction m with
  | nil => simpa [insert] using h
  | cons a t ih =>
    simp only [insert] at h
    split at h
    · rcases List.mem_cons.1 h with h | h
      · exact .inl h
      · exact .inr h
    · split at h
      · simp at h; rcases h with h | h
        · exact .inl h
        · exact .inr (by simp [h])
      · simp at h; rcases h with h | h
        · exact .inr (by simp [h])
        · rcases ih h with h | h
          · exact .inl h
          · exact .inr (by simp [h])

theorem sorted_insert (m : TMap α) (k : Nat) (v : α) (h : Sorted m) : Sorted (insert m k v) := by
  induction m with
  | nil => simp [insert]
  | cons a t ih =>
    rcases a with ⟨a, b⟩
    simp only [Sorted, List.pairwise_cons] at h
    simp only [insert]
    split
    · next hk =>
      simp only [Sorted, List.pairwise_cons]
      refine ⟨fun e he => ?_, h⟩
      rcases List.mem_cons.1 he with rfl | he
      · exact hk
      · exact lt_trans hk (h.1 e he)
    · split
      · next hk => subst hk; exact List.pairwise_cons.2 h
      · next h1 h2 =>
        refine List.pairwise_cons.2 ⟨fun e he => ?_, ih h.2⟩
        rcases mem_insert t k v e he with rfl | he
        · simp only; omega
        · exact h.1 e he

theorem sorted_erase (m : TMap α) (k : Nat) (h : Sorted m) : Sorted (erase m k) := List.Pairwise.filter _ h

/-- A write keeps the canonical form. -/
theorem wf_set [DecidableEq α] (d : α) (m : TMap α) (k : Nat) (v : α) (h : Wf d m) : Wf d (set d m k v) := by
  unfold set; split
  · exact ⟨sorted_erase m k h.1, fun e he => h.2 e (List.mem_filter.1 he).1⟩
  · next hv =>
    refine ⟨sorted_insert m k v h.1, fun e he => ?_⟩
    rcases mem_insert m k v e he with rfl | he
    · exact hv
    · exact h.2 e he

theorem wf_nil (d : α) : Wf d ([] : TMap α) := ⟨List.Pairwise.nil, by simp⟩

/-- Dropping entries keeps the canonical form. -/
theorem wf_filter (d : α) (m : TMap α) (p : Nat × α → Bool) (h : Wf d m) : Wf d (m.filter p) :=
  ⟨List.Pairwise.filter _ h.1, fun e he => h.2 e (List.mem_filter.1 he).1⟩

end Sys2Proof.TMap
end

