-- ==== Sys2Proof/Laws/Leads.lean ====
section
/-! SUPPORT. Two relations between the state before and after a command, and how they go through folds, choices and record
updates. The files LeadsOps to LeadsBoot say of each operation that it leads on, and of each command that it answers a next state
that the state before leads to. -/

namespace Sys2Proof.Machine

/-- What every command and every tick keeps: the waiting commands, what has been sent, the count of free values drawn, the
stability of the Xanca table (R59) and the canonical forms of the two memories. -/
structure State.Keeps (s t : State) : Prop where
  pending : t.pending = s.pending
  outputs : s.outputs <+: t.outputs
  fresh : s.freshCount ≤ t.freshCount
  stable : s.tableStable → t.tableStable
  memory : s.memory.wf → t.memory.wf
  spads : s.spads.wf → t.spads.wf

/-- What all but three commands keep besides: no image becomes authorised (R464), the identity key stays and no leaf comes back
(R469, R470), and the host key stays (R474). -/
structure State.Leads (s t : State) : Prop extends State.Keeps s t where
  committed : t.security.committed = true → s.security.committed = true
  keyGen : t.security.keyGen = s.security.keyGen
  leaf : s.security.nextIndex ≤ t.security.nextIndex
  chain : t.security.chain = s.security.chain
  hostKey : t.security.hostKey = s.security.hostKey

namespace State.Leads
variable {s0 s t : State}

theorem refl (s : State) : Leads s s :=
  ⟨⟨rfl, List.prefix_refl _, Nat.le_refl _, id, id, id⟩, id, rfl, Nat.le_refl _, rfl, rfl⟩

theorem trans {a b c : State} (h : Leads a b) (g : Leads b c) : Leads a c :=
  ⟨⟨g.pending.trans h.pending, h.outputs.trans g.outputs, h.fresh.trans g.fresh, fun x => g.stable (h.stable x),
   fun x => g.memory (h.memory x), fun x => g.spads (h.spads x)⟩, fun x => h.committed (g.committed x), g.keyGen.trans h.keyGen,
   h.leaf.trans g.leaf, g.chain.trans h.chain, g.hostKey.trans h.hostKey⟩

theorem updw {umauth : Umauth} {xanca : Xanca} {timecode : Timecode} {diag : Diag} {security : Security} {cores : Cores}
    {sched : Sched} {fabric : Fabric} {spads : Spads} {conts : Conts} {streams : Streams} {reels : Reels} {memory : Memory} {resil : Resil} {flume : Flume} {attn : Attn} {hostPort : HostPort} {power : Power} {pins : Pins} {powered : Bool} {regs : TMap Nat}
    (h : Leads s0 s) (h4 : xanca.generation % 2 = s.xanca.generation % 2) (h5 : s.memory.wf → memory.wf) (h6
    : s.spads.wf → spads.wf)
    (ha : security.committed = true → s.security.committed = true) (hb : security.keyGen = s.security.keyGen)
    (hc : s.security.nextIndex ≤ security.nextIndex) (hd : security.chain = s.security.chain)
    (he : security.hostKey = s.security.hostKey) :
    Leads s0 (State.mk s.pending umauth xanca timecode diag security cores sched fabric spads conts streams reels memory resil flume attn hostPort power pins powered regs s.outputs s.freshCount) :=
  h.trans ⟨⟨rfl, List.prefix_refl _, Nat.le_refl _, fun h => h4.trans h, h5, h6⟩, ha, hb, hc, hd, he⟩

theorem upd {umauth : Umauth} {xanca : Xanca} {timecode : Timecode} {diag : Diag} {security : Security} {cores : Cores}
    {sched : Sched} {fabric : Fabric} {spads : Spads} {conts : Conts} {streams : Streams} {reels : Reels} {memory : Memory} {resil : Resil} {flume : Flume} {attn : Attn} {hostPort : HostPort} {power : Power} {pins : Pins} {powered : Bool} {regs : TMap Nat}
    (h : Leads s0 s) (h4 : xanca.generation = s.xanca.generation) (h5 : memory.bytes = s.memory.bytes)
    (h6 : memory.poison = s.memory.poison) (h7 : spads.bytes = s.spads.bytes) (h8 : spads.full = s.spads.full)
    (h9 : spads.poison = s.spads.poison) (ha : security.committed = s.security.committed)
    (hb : security.keyGen = s.security.keyGen) (hc : security.nextIndex = s.security.nextIndex)
    (hd : security.chain = s.security.chain) (he : security.hostKey = s.security.hostKey) :
    Leads s0 (State.mk s.pending umauth xanca timecode diag security cores sched fabric spads conts streams reels memory resil flume attn hostPort power pins powered regs s.outputs s.freshCount) :=
  h.updw (by rw [h4]) (by simp [Memory.wf, h5, h6]) (by simp [Spads.wf, h7, h8, h9]) (by simp [ha]) hb (Nat.le_of_eq hc.symm) hd he

theorem foldl {α} {f : State → α → State} {l : List α} (h : Leads s0 s) (hf : ∀ s a, Leads s0 s → Leads s0 (f s a))
    : Leads s0 (l.foldl f s) := by
  induction l generalizing s with
  | nil => exact h
  | cons a l ih => exact ih (hf _ _ h)

theorem ite {c : Prop} [Decidable c] {a b : State} (ha : Leads s0 a) (hb : Leads s0 b) : Leads s0 (if c then a else b) := by
  split <;> assumption

theorem ite1 {α} {c : Prop} [Decidable c] {a b : State × α} (ha : Leads s0 a.1) (hb : Leads s0 b.1) :
    Leads s0 (if c then a else b).1 := by
  split <;> assumption

theorem ite2 {α} {c : Prop} [Decidable c] {a b : α × State} (ha : Leads s0 a.2) (hb : Leads s0 b.2) :
    Leads s0 (if c then a else b).2 := by
  split <;> assumption

theorem fst {α} {p : State × α} {t : State} {a : α} (h : Leads s0 p.1) (e : p = (t, a)) : Leads s0 t := by subst e; exact h

theorem snd {α} {p : α × State} {t : State} {a : α} (h : Leads s0 p.2) (e : p = (a, t)) : Leads s0 t := by subst e; exact h

theorem foldl1 {α β} {f : State × β → α → State × β} {l : List α} {p : State × β} (h : Leads s0 p.1)
    (hf : ∀ p a, Leads s0 p.1 → Leads s0 (f p a).1) : Leads s0 (l.foldl f p).1 := by
  induction l generalizing p with
  | nil => exact h
  | cons a l ih => exact ih (hf _ _ h)

theorem foldl2 {α β} {f : β × State → α → β × State} {l : List α} {p : β × State} (h : Leads s0 p.2)
    (hf : ∀ p a, Leads s0 p.2 → Leads s0 (f p a).2) : Leads s0 (l.foldl f p).2 := by
  induction l generalizing p with
  | nil => exact h
  | cons a l ih => exact ih (hf _ _ h)

theorem foldlM {ε α β} {f : State × β → α → Except ε (State × β)} {l : List α} {p q : State × β} (h : Leads s0 p.1)
    (hf : ∀ p a q, f p a = .ok q → Leads s0 p.1 → Leads s0 q.1) (e : l.foldlM f p = .ok q) : Leads s0 q.1 := by
  induction l generalizing p with
  | nil => cases e; exact h
  | cons a l ih =>
    rw [List.foldlM_cons] at e
    cases hp : f p a with
    | error x => rw [hp] at e; cases e
    | ok r => rw [hp] at e; exact ih (hf _ _ _ hp h) e
/-- What a live meaning does where its effect leads on. -/
theorem live {f : State → State} (hf : Leads s (f s)) : ∃ t, s.live f = .next t ∧ Leads s t := by
  unfold State.live
  split
  · exact ⟨_, rfl, hf⟩
  · exact ⟨_, rfl, refl s⟩
end State.Leads

namespace State.Keeps

theorem trans {a b c : State} (h : Keeps a b) (g : Keeps b c) : Keeps a c :=
  ⟨g.pending.trans h.pending, h.outputs.trans g.outputs, h.fresh.trans g.fresh, fun x => g.stable (h.stable x),
   fun x => g.memory (h.memory x), fun x => g.spads (h.spads x)⟩

theorem security (s : State) (x : Security) : Keeps s { s with security := x } :=
  ⟨rfl, List.prefix_refl _, Nat.le_refl _, id, id, id⟩
end State.Keeps

theorem wf_putBytes (m : TMap Byte) (k : Nat) (l : List Byte) (h : TMap.Wf 0 m) : TMap.Wf 0 (putBytes m k l) := by
  induction l generalizing m k with
  | nil => exact h
  | cons b l ih => exact ih _ _ (TMap.wf_set _ _ _ _ h)
theorem wf_foldl_set {α β} [DecidableEq α] (d : α) (m : TMap α) (l : List β) (k : β → Nat) (v : β → α) (h : TMap.Wf d m) :
    TMap.Wf d (l.foldl (fun m g => m.set d (k g) (v g)) m) := by
  induction l generalizing m with
  | nil => exact h
  | cons b l ih => exact ih _ (TMap.wf_set _ _ _ _ h)

end Sys2Proof.Machine
end

