-- ==== Sys2Proof/Laws/LeadsOps.lean ====
section
/-! SUPPORT. The state leads on to the state after: the shared operations of replies, records, the Xanca table and power. -/

namespace Sys2Proof.Machine

theorem State.stampAt_leads {s0 : State} {s : State} (u : Nat) (ns : Nat) (hL : s0.Leads s) :
    s0.Leads (State.stampAt s u ns).2 := by
  unfold State.stampAt
  repeat' first
    | with_reducible assumption
    | with_reducible apply State.Leads.ite
    | with_reducible refine State.Leads.ite1 ?_ ?_
    | intro _
    | fail_if_no_progress (with_reducible refine State.Leads.upd ?_ rfl rfl rfl rfl rfl rfl rfl rfl rfl rfl rfl)

theorem State.stamp_leads {s0 : State} {s : State} (u : Nat) (hL : s0.Leads s) :
    s0.Leads (State.stamp s u).2 := by
  unfold State.stamp
  repeat' first
    | with_reducible assumption
    | with_reducible apply State.stampAt_leads

theorem State.draw_leads {s0 s : State} (hL : s0.Leads s) : s0.Leads (State.draw s).2 :=
  hL.trans ⟨⟨rfl, List.prefix_refl _, Nat.le_succ _, id, id, id⟩, id, rfl, Nat.le_refl _, rfl, rfl⟩

theorem State.setReg_leads {s0 : State} {s : State} (u : Nat) (off : Nat) (v : Nat) (hL : s0.Leads s) :
    s0.Leads (State.setReg s u off v) := by
  unfold State.setReg
  repeat' first
    | with_reducible assumption
    | with_reducible apply State.Leads.ite
    | with_reducible refine State.Leads.ite1 ?_ ?_
    | intro _
    | fail_if_no_progress (with_reducible refine State.Leads.upd ?_ rfl rfl rfl rfl rfl rfl rfl rfl rfl rfl rfl)

theorem State.setFld_leads {s0 : State} {s : State} (u : Nat) (off : Nat) (hi : Nat) (lo : Nat) (v : Nat) (hL : s0.Leads s) :
    s0.Leads (State.setFld s u off hi lo v) := by
  unfold State.setFld
  repeat' first
    | with_reducible assumption
    | with_reducible apply State.setReg_leads

theorem State.bump_leads {s0 : State} {s : State} (u : Nat) (off : Nat) (hi : Nat) (lo : Nat) (n : Nat) (hL : s0.Leads s) :
    s0.Leads (State.bump s u off hi lo n) := by
  unfold State.bump
  repeat' first
    | with_reducible assumption
    | with_reducible apply State.setFld_leads

theorem State.setSession_leads {s0 : State} {s : State} (n : Nat) (x : Session) (hL : s0.Leads s) :
    s0.Leads (State.setSession s n x) := by
  unfold State.setSession
  repeat' first
    | with_reducible assumption
    | with_reducible apply State.Leads.ite
    | with_reducible refine State.Leads.ite1 ?_ ?_
    | intro _
    | fail_if_no_progress (with_reducible refine State.Leads.upd ?_ rfl rfl rfl rfl rfl rfl rfl rfl rfl rfl rfl)

theorem State.setQueue_leads {s0 : State} {s : State} (k : Nat) (q : Queue) (hL : s0.Leads s) :
    s0.Leads (State.setQueue s k q) := by
  unfold State.setQueue
  repeat' first
    | with_reducible assumption
    | with_reducible apply State.Leads.ite
    | with_reducible refine State.Leads.ite1 ?_ ?_
    | intro _
    | fail_if_no_progress (with_reducible refine State.Leads.upd ?_ rfl rfl rfl rfl rfl rfl rfl rfl rfl rfl rfl)

theorem State.emit_leads {s0 s : State} (o : Output) (hL : s0.Leads s) : s0.Leads (State.emit s o) :=
  hL.trans ⟨⟨rfl, List.prefix_append _ _, Nat.le_refl _, id, id, id⟩, id, rfl, Nat.le_refl _, rfl, rfl⟩

theorem State.sendDatagram_leads {s0 : State} {s : State} (n : Nat) (kind : Nat) (tseq : Nat) (body : List Byte) (m
    : Option Msg) (hL : s0.Leads s) :
    s0.Leads (State.sendDatagram s n kind tseq body m) := by
  unfold State.sendDatagram
  repeat' first
    | with_reducible assumption
    | with_reducible apply State.emit_leads

theorem State.transmit_leads {s0 : State} {s : State} (n : Nat) (mid : Nat) (m : Msg) (hL : s0.Leads s) :
    s0.Leads (State.transmit s n mid m) := by
  unfold State.transmit
  repeat' first
    | with_reducible assumption
    | with_reducible apply State.setSession_leads
    | with_reducible apply State.sendDatagram_leads

theorem State.sendOn_leads {s0 : State} {s : State} (n : Nat) (mid : Nat) (m : Msg) (hL : s0.Leads s) :
    s0.Leads (State.sendOn s n mid m) := by
  unfold State.sendOn
  repeat' first
    | with_reducible assumption
    | with_reducible apply State.setSession_leads
    | with_reducible apply State.transmit_leads
    | with_reducible apply State.Leads.ite

theorem State.pump_leads {s0 s : State} (k n : Nat) (hL : s0.Leads s) : s0.Leads (State.pump k s n) := by
  induction k generalizing s with
  | zero => exact hL
  | succ k ih =>
    unfold State.pump
    repeat' first
      | with_reducible assumption
      | with_reducible apply State.setSession_leads
      | with_reducible apply State.transmit_leads
      | with_reducible apply ih
      | with_reducible apply State.Leads.ite
      | with_reducible refine State.Leads.ite1 ?_ ?_
      | intro _
      | fail_if_no_progress (with_reducible refine State.Leads.upd ?_ rfl rfl rfl rfl rfl rfl rfl rfl rfl rfl rfl)
      | with_reducible refine State.Leads.snd ?_ (by assumption)
      | with_reducible refine State.Leads.fst ?_ (by assumption)
      | extract_lets
      | split

theorem State.postTo_leads {s0 : State} {s : State} (k : Nat) (m : Msg) (hL : s0.Leads s) :
    s0.Leads (State.postTo s k m) := by
  unfold State.postTo
  repeat' first
    | with_reducible assumption
    | with_reducible apply State.setQueue_leads
    | with_reducible apply State.sendOn_leads
    | with_reducible apply State.Leads.ite
    | with_reducible refine State.Leads.ite1 ?_ ?_
    | intro _
    | fail_if_no_progress (with_reducible refine State.Leads.upd ?_ rfl rfl rfl rfl rfl rfl rfl rfl rfl rfl rfl)

theorem State.post_leads {s0 : State} {s : State} (h : CmdHdr) (m : Msg) (hL : s0.Leads s) :
    s0.Leads (State.post s h m) := by
  unfold State.post
  repeat' first
    | with_reducible assumption
    | with_reducible apply State.postTo_leads
    | with_reducible apply State.Leads.ite
    | with_reducible refine State.Leads.ite1 ?_ ?_
    | intro _
    | with_reducible refine State.Leads.foldl ?_ (fun _ _ _ => ?_)
    | fail_if_no_progress (with_reducible refine State.Leads.upd ?_ rfl rfl rfl rfl rfl rfl rfl rfl rfl rfl rfl)

theorem State.recordCmd_leads {s0 : State} {s : State} (h : CmdHdr) (type : Nat) (status : Nat) (body : List Byte) (hL
    : s0.Leads s) :
    s0.Leads (State.recordCmd s h type status body) := by
  unfold State.recordCmd
  repeat' first
    | with_reducible assumption
    | with_reducible apply State.post_leads

theorem State.recordQueue_leads {s0 : State} {s : State} (q : Nat) (type : Nat) (status : Nat) (body : List Byte) (hL
    : s0.Leads s) :
    s0.Leads (State.recordQueue s q type status body) := by
  unfold State.recordQueue
  repeat' first
    | with_reducible assumption
    | with_reducible apply State.postTo_leads

theorem State.recordAll_leads {s0 : State} {s : State} (type : Nat) (status : Nat) (body : List Byte) (hL : s0.Leads s) :
    s0.Leads (State.recordAll s type status body) := by
  unfold State.recordAll
  repeat' first
    | with_reducible assumption
    | with_reducible apply State.postTo_leads
    | with_reducible apply State.Leads.ite
    | with_reducible refine State.Leads.ite1 ?_ ?_
    | intro _
    | with_reducible refine State.Leads.foldl ?_ (fun _ _ _ => ?_)

theorem State.complete_leads {s0 : State} {s : State} (h : CmdHdr) (hL : s0.Leads s) :
    s0.Leads (State.complete s h) := by
  unfold State.complete
  repeat' first
    | with_reducible assumption
    | with_reducible apply State.setQueue_leads
    | with_reducible apply State.Leads.ite
    | with_reducible refine State.Leads.ite1 ?_ ?_
    | intro _
    | fail_if_no_progress (with_reducible refine State.Leads.upd ?_ rfl rfl rfl rfl rfl rfl rfl rfl rfl rfl rfl)

theorem State.damage_leads {s0 : State} {s : State} (slot : Nat) (hL : s0.Leads s) :
    s0.Leads (State.damage s slot) := by
  unfold State.damage
  repeat' first
    | with_reducible assumption
    | with_reducible apply State.Leads.ite
    | with_reducible refine State.Leads.ite1 ?_ ?_
    | intro _
    | fail_if_no_progress (with_reducible refine State.Leads.upd ?_ rfl rfl rfl rfl rfl rfl rfl rfl rfl rfl rfl)

theorem State.damagedBy_leads {s0 : State} {s : State} (h : CmdHdr) (status : Nat) (hL : s0.Leads s) :
    s0.Leads (State.damagedBy s h status) := by
  unfold State.damagedBy
  repeat' first
    | with_reducible assumption
    | with_reducible apply State.damage_leads
    | with_reducible apply State.Leads.ite
    | with_reducible refine State.Leads.ite1 ?_ ?_
    | intro _
    | fail_if_no_progress (with_reducible refine State.Leads.upd ?_ rfl rfl rfl rfl rfl rfl rfl rfl rfl rfl rfl)
    | with_reducible refine State.Leads.snd ?_ (by assumption)
    | with_reducible refine State.Leads.fst ?_ (by assumption)
    | extract_lets
    | split

theorem State.finish_leads {s0 : State} {s : State} (c : Command) (status : Nat) (detail : Nat) (result : List Byte)
    (hL : s0.Leads s) :
    s0.Leads (State.finish s c status detail result) := by
  unfold State.finish
  repeat' first
    | with_reducible assumption
    | with_reducible apply State.post_leads
    | with_reducible apply State.complete_leads
    | with_reducible apply State.damagedBy_leads
    | with_reducible apply State.Leads.ite

theorem State.badParam_leads {s0 : State} {s : State} (c : Command) (off : Nat) (hL : s0.Leads s) :
    s0.Leads (State.badParam s c off) := by
  unfold State.badParam
  repeat' first
    | with_reducible assumption
    | with_reducible apply State.finish_leads

theorem State.defer_leads {s0 : State} {s : State} (c : Command) (detail : Nat) (result : List Byte) (hL : s0.Leads s) :
    s0.Leads (State.defer s c detail result) := by
  unfold State.defer
  repeat' first
    | with_reducible assumption
    | with_reducible apply State.post_leads

theorem State.deferredDoneWith_leads {s0 : State} {s : State} (h : CmdHdr) (status : Nat) (body : List Byte) (hL : s0.Leads s) :
    s0.Leads (State.deferredDoneWith s h status body) := by
  unfold State.deferredDoneWith
  repeat' first
    | with_reducible assumption
    | with_reducible apply State.post_leads
    | with_reducible apply State.complete_leads
    | with_reducible apply State.damagedBy_leads

theorem State.deferredDone_leads {s0 : State} {s : State} (h : CmdHdr) (status : Nat) (detail : Nat) (hL : s0.Leads s) :
    s0.Leads (State.deferredDone s h status detail) := by
  unfold State.deferredDone
  repeat' first
    | with_reducible assumption
    | with_reducible apply State.deferredDoneWith_leads

theorem State.checked_leads {s0 : State} {s : State} (c : Command) (checks : List Check) (effect : State → State) (hL
    : s0.Leads s) (h_effect : ∀ (x0 : State), s0.Leads x0 → s0.Leads (effect x0)) :
    s0.Leads (State.checked s c checks effect) := by
  unfold State.checked
  repeat' first
    | with_reducible assumption
    | with_reducible apply h_effect
    | with_reducible apply State.finish_leads
    | with_reducible apply State.Leads.ite
    | with_reducible refine State.Leads.ite1 ?_ ?_
    | intro _
    | fail_if_no_progress (with_reducible refine State.Leads.upd ?_ rfl rfl rfl rfl rfl rfl rfl rfl rfl rfl rfl)
    | with_reducible refine State.Leads.snd ?_ (by assumption)
    | with_reducible refine State.Leads.fst ?_ (by assumption)
    | extract_lets
    | split

theorem State.setXentry_leads {s0 : State} {s : State} (u : Nat) (e : XEntry) (hL : s0.Leads s) :
    s0.Leads (State.setXentry s u e) := by
  unfold State.setXentry
  repeat' first
    | with_reducible assumption
    | with_reducible apply State.Leads.ite
    | with_reducible refine State.Leads.ite1 ?_ ?_
    | intro _
    | fail_if_no_progress (with_reducible refine State.Leads.upd ?_ rfl rfl rfl rfl rfl rfl rfl rfl rfl rfl rfl)

theorem State.xancaChange_leads {s0 s : State} (changes : List (Nat × XEntry)) (hL : s0.Leads s) : s0.Leads
    (State.xancaChange s changes) := by
  have h1 : s0.Leads (changes.foldl (fun (s : State) c =>
        let old := s.xentry c.1
        let e := { c.2 with stateTc := if c.2.state ≠ old.state || c.2.logical ≠ old.logical then s.now else old.stateTc }
        s.setXentry c.1 e) s) := State.Leads.foldl hL (fun _ _ h => State.setXentry_leads _ _ h)
  have h2 : ∀ u : State, (changes.foldl (fun (s : State) c =>
        let old := s.xentry c.1
        let e := { c.2 with stateTc := if c.2.state ≠ old.state || c.2.logical ≠ old.logical then s.now else old.stateTc }
        s.setXentry c.1 e) u).xanca.generation = u.xanca.generation := by
    induction changes with
    | nil => exact fun _ => rfl
    | cons a l ih => exact fun _ => ih (State.Leads.foldl hL (fun _ _ h => State.setXentry_leads _ _ h)) _
  unfold State.xancaChange
  refine State.Leads.foldl (h1.updw ?_ id id id rfl (Nat.le_refl _) rfl rfl) (fun _ _ h => State.recordAll_leads _ _ _ h)
  show (s.xanca.generation + 2) % 2 = _
  rw [h2 s]; omega

theorem State.csReport_leads {s0 : State} {s : State} (b : Nat) (failure : Bool) (hL : s0.Leads s) :
    s0.Leads (State.csReport s b failure) := by
  unfold State.csReport
  repeat' first
    | with_reducible assumption
    | with_reducible apply State.recordAll_leads
    | with_reducible apply State.Leads.ite
    | with_reducible refine State.Leads.ite1 ?_ ?_
    | intro _
    | fail_if_no_progress (with_reducible refine State.Leads.upd ?_ rfl rfl rfl rfl rfl rfl rfl rfl rfl rfl rfl)

theorem State.countError_leads {s0 : State} {s : State} (r : ErrorReport) (hL : s0.Leads s) :
    s0.Leads (State.countError s r) := by
  unfold State.countError
  repeat' first
    | with_reducible assumption
    | with_reducible apply State.setFld_leads
    | with_reducible apply State.Leads.ite
    | with_reducible refine State.Leads.ite1 ?_ ?_
    | intro _
    | fail_if_no_progress (with_reducible refine State.Leads.upd ?_ rfl rfl rfl rfl rfl rfl rfl rfl rfl rfl rfl)

theorem State.logEntry_leads {s0 : State} {s : State} (r : ErrorReport) (dtc : Stamp) (outcome : Nat) (hL : s0.Leads s) :
    s0.Leads (State.logEntry s r dtc outcome) := by
  unfold State.logEntry
  repeat' first
    | with_reducible assumption
    | with_reducible apply State.stamp_leads
    | with_reducible apply State.recordAll_leads
    | with_reducible apply State.Leads.ite
    | with_reducible refine State.Leads.ite1 ?_ ?_
    | intro _
    | fail_if_no_progress (with_reducible refine State.Leads.upd ?_ rfl rfl rfl rfl rfl rfl rfl rfl rfl rfl rfl)

theorem State.logError_leads {s0 : State} {s : State} (r : ErrorReport) (hL : s0.Leads s) :
    s0.Leads (State.logError s r) := by
  unfold State.logError
  repeat' first
    | with_reducible assumption
    | with_reducible apply State.stamp_leads
    | with_reducible apply State.countError_leads
    | with_reducible apply State.logEntry_leads
    | with_reducible apply State.Leads.ite
    | with_reducible refine State.Leads.ite1 ?_ ?_
    | intro _
    | fail_if_no_progress (with_reducible refine State.Leads.upd ?_ rfl rfl rfl rfl rfl rfl rfl rfl rfl rfl rfl)
    | with_reducible refine State.Leads.snd ?_ (by assumption)
    | with_reducible refine State.Leads.fst ?_ (by assumption)
    | extract_lets
    | split

theorem State.csWake_leads {s0 : State} {s : State} (hL : s0.Leads s) :
    s0.Leads (State.csWake s) := by
  unfold State.csWake
  repeat' first
    | with_reducible assumption
    | with_reducible apply State.deferredDone_leads
    | with_reducible apply State.Leads.ite
    | with_reducible refine State.Leads.ite1 ?_ ?_
    | intro _
    | with_reducible refine State.Leads.foldl ?_ (fun _ _ _ => ?_)
    | fail_if_no_progress (with_reducible refine State.Leads.upd ?_ rfl rfl rfl rfl rfl rfl rfl rfl rfl rfl rfl)

theorem State.csApply_leads {s0 : State} {s : State} (ready : Nat) (failed : Nat) (hL : s0.Leads s) :
    s0.Leads (State.csApply s ready failed) := by
  unfold State.csApply
  repeat' first
    | with_reducible assumption
    | with_reducible apply State.csReport_leads
    | with_reducible apply State.csWake_leads
    | with_reducible apply State.Leads.ite
    | with_reducible refine State.Leads.ite1 ?_ ?_
    | intro _
    | with_reducible refine State.Leads.foldl ?_ (fun _ _ _ => ?_)
    | fail_if_no_progress (with_reducible refine State.Leads.upd ?_ rfl rfl rfl rfl rfl rfl rfl rfl rfl rfl rfl)

theorem State.csSetBits_leads {s0 : State} {s : State} (bs : List Nat) (hL : s0.Leads s) :
    s0.Leads (State.csSetBits s bs) := by
  unfold State.csSetBits
  repeat' first
    | with_reducible assumption
    | with_reducible apply State.csApply_leads

theorem State.csClearBits_leads {s0 : State} {s : State} (bs : List Nat) (hL : s0.Leads s) :
    s0.Leads (State.csClearBits s bs) := by
  unfold State.csClearBits
  repeat' first
    | with_reducible assumption
    | with_reducible apply State.csApply_leads

theorem State.csDrop_leads {s0 : State} {s : State} (b : Nat) (hL : s0.Leads s) :
    s0.Leads (State.csDrop s b) := by
  unfold State.csDrop
  repeat' first
    | with_reducible assumption
    | with_reducible apply State.csClearBits_leads

theorem State.csRecompute_leads {s0 : State} {s : State} (hL : s0.Leads s) :
    s0.Leads (State.csRecompute s) := by
  unfold State.csRecompute
  repeat' first
    | with_reducible assumption
    | with_reducible apply State.csApply_leads

theorem State.onlyIf_leads {s0 : State} {s : State} (b : Bool) (f : State → State) (hL : s0.Leads s) (h_f : ∀ (x0
    : State), s0.Leads x0 → s0.Leads (f x0)) :
    s0.Leads (State.onlyIf s b f) := by
  unfold State.onlyIf
  repeat' first
    | with_reducible assumption
    | with_reducible apply h_f
    | with_reducible apply State.Leads.ite

theorem State.rxBytes_leads {s0 : State} {s : State} (n : Nat) (hL : s0.Leads s) :
    s0.Leads (State.rxBytes s n) := by
  unfold State.rxBytes
  repeat' first
    | with_reducible assumption
    | with_reducible apply State.draw_leads
    | with_reducible apply State.bump_leads

theorem State.powerStateRecord_leads {s0 : State} {s : State} (old : DState) (new : DState) (cause : Nat) (moveNs : Nat)
    (hL : s0.Leads s) :
    s0.Leads (State.powerStateRecord s old new cause moveNs) := by
  unfold State.powerStateRecord
  repeat' first
    | with_reducible assumption
    | with_reducible apply State.recordAll_leads

theorem State.dozeExit_leads {s0 : State} {s : State} (cause : Nat) (hL : s0.Leads s) :
    s0.Leads (State.dozeExit s cause) := by
  unfold State.dozeExit
  repeat' first
    | with_reducible assumption
    | with_reducible apply State.draw_leads
    | with_reducible apply State.powerStateRecord_leads
    | with_reducible apply State.Leads.ite
    | with_reducible refine State.Leads.ite1 ?_ ?_
    | intro _
    | fail_if_no_progress (with_reducible refine State.Leads.upd ?_ rfl rfl rfl rfl rfl rfl rfl rfl rfl rfl rfl)

theorem State.reclamp_leads {s0 : State} {s : State} (hL : s0.Leads s) :
    s0.Leads (State.reclamp s) := by
  unfold State.reclamp
  repeat' first
    | with_reducible assumption
    | with_reducible apply State.recordAll_leads
    | with_reducible apply State.Leads.ite
    | with_reducible refine State.Leads.ite1 ?_ ?_
    | intro _
    | fail_if_no_progress (with_reducible refine State.Leads.upd ?_ rfl rfl rfl rfl rfl rfl rfl rfl rfl rfl rfl)

theorem State.setVoltage_leads {s0 : State} {s : State} (mv : Nat) (hL : s0.Leads s) :
    s0.Leads (State.setVoltage s mv) := by
  unfold State.setVoltage
  repeat' first
    | with_reducible assumption
    | with_reducible apply State.emit_leads
    | with_reducible apply State.Leads.ite
    | with_reducible refine State.Leads.ite1 ?_ ?_
    | intro _
    | fail_if_no_progress (with_reducible refine State.Leads.upd ?_ rfl rfl rfl rfl rfl rfl rfl rfl rfl rfl rfl)

theorem State.setFrequency_leads {s0 : State} {s : State} (p : Nat) (hL : s0.Leads s) :
    s0.Leads (State.setFrequency s p) := by
  unfold State.setFrequency
  repeat' first
    | with_reducible assumption
    | with_reducible apply State.Leads.ite
    | with_reducible refine State.Leads.ite1 ?_ ?_
    | intro _
    | fail_if_no_progress (with_reducible refine State.Leads.upd ?_ rfl rfl rfl rfl rfl rfl rfl rfl rfl rfl rfl)

theorem State.lowerPoint_leads {s0 : State} {s : State} (hL : s0.Leads s) :
    s0.Leads (State.lowerPoint s) := by
  unfold State.lowerPoint
  repeat' first
    | with_reducible assumption
    | with_reducible apply State.setVoltage_leads
    | with_reducible apply State.setFrequency_leads
    | with_reducible apply State.Leads.ite
    | with_reducible refine State.Leads.ite1 ?_ ?_
    | intro _
    | fail_if_no_progress (with_reducible refine State.Leads.upd ?_ rfl rfl rfl rfl rfl rfl rfl rfl rfl rfl rfl)

theorem State.raisePoint_leads {s0 : State} {s : State} (hL : s0.Leads s) :
    s0.Leads (State.raisePoint s) := by
  unfold State.raisePoint
  repeat' first
    | with_reducible assumption
    | with_reducible apply State.setVoltage_leads
    | with_reducible apply State.Leads.ite
    | with_reducible refine State.Leads.ite1 ?_ ?_
    | intro _
    | fail_if_no_progress (with_reducible refine State.Leads.upd ?_ rfl rfl rfl rfl rfl rfl rfl rfl rfl rfl rfl)

theorem State.setHbmTemp_leads {s0 : State} {s : State} (k : Nat) (t : Nat) (hL : s0.Leads s) :
    s0.Leads (State.setHbmTemp s k t) := by
  unfold State.setHbmTemp
  repeat' first
    | with_reducible assumption
    | with_reducible apply State.setFld_leads

theorem execPowerEstimate_leads (watts : Nat) (dynamic : Nat) (s : State)
    : ∃ nxt, execPowerEstimate watts dynamic s = .next nxt ∧ s.Leads nxt := by
  unfold execPowerEstimate
  refine State.Leads.live ?_
  have hL := State.Leads.refl s
  repeat' first
    | with_reducible assumption
    | with_reducible apply State.reclamp_leads
    | with_reducible apply State.Leads.ite
    | with_reducible refine State.Leads.ite1 ?_ ?_
    | intro _
    | fail_if_no_progress (with_reducible refine State.Leads.upd ?_ rfl rfl rfl rfl rfl rfl rfl rfl rfl rfl rfl)

theorem execExcursionBackstop_leads  (s : State) : ∃ nxt, execExcursionBackstop s = .next nxt ∧ s.Leads nxt := by
  unfold execExcursionBackstop
  refine State.Leads.live ?_
  have hL := State.Leads.refl s
  repeat' first
    | with_reducible assumption
    | with_reducible apply State.onlyIf_leads
    | with_reducible apply State.reclamp_leads
    | with_reducible apply State.Leads.ite
    | with_reducible refine State.Leads.ite1 ?_ ?_
    | intro _
    | fail_if_no_progress (with_reducible refine State.Leads.upd ?_ rfl rfl rfl rfl rfl rfl rfl rfl rfl rfl rfl)

theorem execClampReleaseStep_leads  (s : State) : ∃ nxt, execClampReleaseStep s = .next nxt ∧ s.Leads nxt := by
  unfold execClampReleaseStep
  refine State.Leads.live ?_
  have hL := State.Leads.refl s
  repeat' first
    | with_reducible assumption
    | with_reducible apply State.onlyIf_leads
    | with_reducible apply State.Leads.ite
    | with_reducible refine State.Leads.ite1 ?_ ?_
    | intro _
    | fail_if_no_progress (with_reducible refine State.Leads.upd ?_ rfl rfl rfl rfl rfl rfl rfl rfl rfl rfl rfl)

theorem execThrotInAssert_leads  (s : State) : ∃ nxt, execThrotInAssert s = .next nxt ∧ s.Leads nxt := by
  unfold execThrotInAssert
  refine State.Leads.live ?_
  have hL := State.Leads.refl s
  repeat' first
    | with_reducible assumption
    | with_reducible apply State.onlyIf_leads
    | with_reducible apply State.reclamp_leads
    | with_reducible apply State.Leads.ite
    | with_reducible refine State.Leads.ite1 ?_ ?_
    | intro _
    | fail_if_no_progress (with_reducible refine State.Leads.upd ?_ rfl rfl rfl rfl rfl rfl rfl rfl rfl rfl rfl)

theorem execThrotInDeassert_leads  (s : State) : ∃ nxt, execThrotInDeassert s = .next nxt ∧ s.Leads nxt := by
  unfold execThrotInDeassert
  refine State.Leads.live ?_
  have hL := State.Leads.refl s
  repeat' first
    | with_reducible assumption
    | with_reducible apply State.reclamp_leads
    | with_reducible apply State.Leads.ite
    | with_reducible refine State.Leads.ite1 ?_ ?_
    | intro _
    | fail_if_no_progress (with_reducible refine State.Leads.upd ?_ rfl rfl rfl rfl rfl rfl rfl rfl rfl rfl rfl)

theorem execGafferTick_leads  (s : State) : ∃ nxt, execGafferTick s = .next nxt ∧ s.Leads nxt := by
  unfold execGafferTick
  refine State.Leads.live ?_
  have hL := State.Leads.refl s
  repeat' first
    | with_reducible assumption
    | with_reducible apply State.lowerPoint_leads
    | with_reducible apply State.raisePoint_leads
    | with_reducible apply State.Leads.ite

theorem execSetpointReached_leads  (s : State) : ∃ nxt, execSetpointReached s = .next nxt ∧ s.Leads nxt := by
  unfold execSetpointReached
  refine State.Leads.live ?_
  have hL := State.Leads.refl s
  repeat' first
    | with_reducible assumption
    | with_reducible apply State.setFrequency_leads
    | with_reducible apply State.Leads.ite
    | with_reducible refine State.Leads.ite1 ?_ ?_
    | intro _
    | fail_if_no_progress (with_reducible refine State.Leads.upd ?_ rfl rfl rfl rfl rfl rfl rfl rfl rfl rfl rfl)
    | with_reducible refine State.Leads.snd ?_ (by assumption)
    | with_reducible refine State.Leads.fst ?_ (by assumption)
    | extract_lets
    | split

theorem execSetpAlert_leads (low : Bool) (s : State) : ∃ nxt, execSetpAlert low s = .next nxt ∧ s.Leads nxt := by
  unfold execSetpAlert
  refine State.Leads.live ?_
  have hL := State.Leads.refl s
  repeat' first
    | with_reducible assumption
    | with_reducible apply State.Leads.ite
    | with_reducible refine State.Leads.ite1 ?_ ?_
    | intro _
    | fail_if_no_progress (with_reducible refine State.Leads.upd ?_ rfl rfl rfl rfl rfl rfl rfl rfl rfl rfl rfl)

theorem execRailSample_leads (mv : List Nat) (ma : List Nat) (s : State) : ∃ nxt, execRailSample mv ma s = .next nxt
    ∧ s.Leads nxt := by
  unfold execRailSample
  refine State.Leads.live ?_
  have hL := State.Leads.refl s
  repeat' first
    | with_reducible assumption
    | with_reducible apply State.setReg_leads
    | with_reducible apply State.Leads.ite
    | with_reducible refine State.Leads.ite1 ?_ ?_
    | intro _
    | with_reducible refine State.Leads.foldl ?_ (fun _ _ _ => ?_)

theorem execTempSample_leads (cmp : Nat) (iod : Nat) (hbm : List Nat) (opt : List Nat) (s : State)
    : ∃ nxt, execTempSample cmp iod hbm opt s = .next nxt ∧ s.Leads nxt := by
  unfold execTempSample
  refine State.Leads.live ?_
  have hL := State.Leads.refl s
  repeat' first
    | with_reducible assumption
    | with_reducible apply State.setFld_leads
    | with_reducible apply State.reclamp_leads
    | with_reducible apply State.setHbmTemp_leads
    | with_reducible apply State.Leads.ite
    | with_reducible refine State.Leads.ite1 ?_ ?_
    | intro _
    | with_reducible refine State.Leads.foldl ?_ (fun _ _ _ => ?_)
    | fail_if_no_progress (with_reducible refine State.Leads.upd ?_ rfl rfl rfl rfl rfl rfl rfl rfl rfl rfl rfl)

theorem execTelemetryRead_leads (c : Command) (s : State) : ∃ nxt, execTelemetryRead c s = .next nxt ∧ s.Leads nxt := by
  unfold execTelemetryRead
  refine State.Leads.live ?_
  have hL := State.Leads.refl s
  repeat' first
    | with_reducible assumption
    | with_reducible apply State.finish_leads
    | with_reducible apply State.checked_leads
    | with_reducible apply State.Leads.ite
    | with_reducible refine State.Leads.ite1 ?_ ?_
    | intro _
    | fail_if_no_progress (with_reducible refine State.Leads.upd ?_ rfl rfl rfl rfl rfl rfl rfl rfl rfl rfl rfl)

theorem execPowerLimitSet_leads (c : Command) (s : State) : ∃ nxt, execPowerLimitSet c s = .next nxt ∧ s.Leads nxt := by
  unfold execPowerLimitSet
  refine State.Leads.live ?_
  have hL := State.Leads.refl s
  repeat' first
    | with_reducible assumption
    | with_reducible apply State.finish_leads
    | with_reducible apply State.checked_leads
    | with_reducible apply State.reclamp_leads
    | with_reducible apply State.Leads.ite
    | with_reducible refine State.Leads.ite1 ?_ ?_
    | intro _
    | fail_if_no_progress (with_reducible refine State.Leads.upd ?_ rfl rfl rfl rfl rfl rfl rfl rfl rfl rfl rfl)

theorem execI3cIndexWrite_leads (data : List Byte) (s : State) : ∃ nxt, execI3cIndexWrite data s = .next nxt ∧ s.Leads nxt := by
  unfold execI3cIndexWrite
  refine State.Leads.live ?_
  have hL := State.Leads.refl s
  repeat' first
    | with_reducible assumption
    | with_reducible apply State.emit_leads
    | with_reducible apply State.Leads.ite
    | with_reducible refine State.Leads.ite1 ?_ ?_
    | intro _
    | fail_if_no_progress (with_reducible refine State.Leads.upd ?_ rfl rfl rfl rfl rfl rfl rfl rfl rfl rfl rfl)
    | with_reducible refine State.Leads.snd ?_ (by assumption)
    | with_reducible refine State.Leads.fst ?_ (by assumption)
    | extract_lets
    | split

theorem execI3cRead_leads  (s : State) : ∃ nxt, execI3cRead s = .next nxt ∧ s.Leads nxt := by
  unfold execI3cRead
  refine State.Leads.live ?_
  have hL := State.Leads.refl s
  repeat' first
    | with_reducible assumption
    | with_reducible apply State.emit_leads
    | with_reducible apply State.Leads.ite
    | with_reducible refine State.Leads.ite1 ?_ ?_
    | intro _
    | fail_if_no_progress (with_reducible refine State.Leads.upd ?_ rfl rfl rfl rfl rfl rfl rfl rfl rfl rfl rfl)

theorem execDynamicAddressAssignment_leads (addr : Nat) (s : State)
    : ∃ nxt, execDynamicAddressAssignment addr s = .next nxt ∧ s.Leads nxt := by
  unfold execDynamicAddressAssignment
  refine State.Leads.live ?_
  have hL := State.Leads.refl s
  repeat' first
    | with_reducible assumption
    | with_reducible apply State.Leads.ite
    | with_reducible refine State.Leads.ite1 ?_ ?_
    | intro _
    | fail_if_no_progress (with_reducible refine State.Leads.upd ?_ rfl rfl rfl rfl rfl rfl rfl rfl rfl rfl rfl)

theorem execPpsInEdge_leads  (s : State) : ∃ nxt, execPpsInEdge s = .next nxt ∧ s.Leads nxt := by
  unfold execPpsInEdge
  refine State.Leads.live ?_
  have hL := State.Leads.refl s
  repeat' first
    | with_reducible assumption
    | with_reducible apply State.Leads.ite
    | with_reducible refine State.Leads.ite1 ?_ ?_
    | intro _
    | fail_if_no_progress (with_reducible refine State.Leads.upd ?_ rfl rfl rfl rfl rfl rfl rfl rfl rfl rfl rfl)

theorem execTapInstruction_leads (i : TapInstruction) (s : State) :
    ∃ t, execTapInstruction i s = .next t ∧ s.Leads t := by
  unfold execTapInstruction
  extract_lets pins
  split
  exact ⟨_, rfl, State.emit_leads _ (State.Leads.upd (State.Leads.refl s) rfl rfl rfl rfl rfl rfl rfl rfl rfl rfl rfl)⟩

theorem State.setJob_leads {s0 : State} {s : State} (slot : Nat) (j : Job) (hL : s0.Leads s) :
    s0.Leads (State.setJob s slot j) := by
  unfold State.setJob
  repeat' first
    | with_reducible assumption
    | with_reducible apply State.Leads.ite
    | with_reducible refine State.Leads.ite1 ?_ ?_
    | intro _
    | fail_if_no_progress (with_reducible refine State.Leads.upd ?_ rfl rfl rfl rfl rfl rfl rfl rfl rfl rfl rfl)

theorem State.noteLimit_leads {s0 : State} {s : State} (slot : Nat) (key : Nat) (hL : s0.Leads s) :
    s0.Leads (State.noteLimit s slot key) := by
  unfold State.noteLimit
  repeat' first
    | with_reducible assumption
    | with_reducible apply State.setJob_leads
    | with_reducible apply State.Leads.ite
    | with_reducible refine State.Leads.ite1 ?_ ?_
    | intro _
    | fail_if_no_progress (with_reducible refine State.Leads.upd ?_ rfl rfl rfl rfl rfl rfl rfl rfl rfl rfl rfl)
    | with_reducible refine State.Leads.snd ?_ (by assumption)
    | with_reducible refine State.Leads.fst ?_ (by assumption)
    | extract_lets
    | split

theorem State.tryUnloads_leads {s0 : State} {s : State} (hL : s0.Leads s) :
    s0.Leads (State.tryUnloads s) := by
  unfold State.tryUnloads
  repeat' first
    | with_reducible assumption
    | with_reducible apply State.deferredDone_leads
    | with_reducible apply State.Leads.ite
    | with_reducible refine State.Leads.ite1 ?_ ?_
    | intro _
    | with_reducible refine State.Leads.foldl ?_ (fun _ _ _ => ?_)
    | fail_if_no_progress (with_reducible refine State.Leads.upd ?_ rfl rfl rfl rfl rfl rfl rfl rfl rfl rfl rfl)
    | with_reducible refine State.Leads.snd ?_ (by assumption)
    | with_reducible refine State.Leads.fst ?_ (by assumption)
    | extract_lets
    | split

theorem State.flushQueue_leads {s0 : State} {s : State} (k : Nat) (hL : s0.Leads s) :
    s0.Leads (State.flushQueue s k) := by
  unfold State.flushQueue
  repeat' first
    | with_reducible assumption
    | with_reducible apply State.setQueue_leads
    | with_reducible apply State.post_leads
    | with_reducible apply State.tryUnloads_leads
    | with_reducible apply State.Leads.ite
    | with_reducible refine State.Leads.ite1 ?_ ?_
    | intro _
    | with_reducible refine State.Leads.foldl ?_ (fun _ _ _ => ?_)

theorem State.setFjob_leads {s0 : State} {s : State} (slot : Nat) (f : FabricJob) (hL : s0.Leads s) :
    s0.Leads (State.setFjob s slot f) := by
  unfold State.setFjob
  repeat' first
    | with_reducible assumption
    | with_reducible apply State.Leads.ite
    | with_reducible refine State.Leads.ite1 ?_ ?_
    | intro _
    | fail_if_no_progress (with_reducible refine State.Leads.upd ?_ rfl rfl rfl rfl rfl rfl rfl rfl rfl rfl rfl)

end Sys2Proof.Machine
end

