-- ==== Sys2Proof/Laws/LeadsUmauth.lean ====
section
/-! SUPPORT. The state leads on to the state after: the transport and the scratchpads. -/

namespace Sys2Proof.Machine

theorem State.receive_leads {s0 : State} {s : State} (d : Datagram) (kind : Nat) (f : State → State) (hL : s0.Leads s)
    (h_f : ∀ (x0 : State), s0.Leads x0 → s0.Leads (f x0)) :
    s0.Leads (State.receive s d kind f) := by
  unfold State.receive
  repeat' first
    | with_reducible assumption
    | with_reducible apply h_f
    | with_reducible apply State.bump_leads
    | with_reducible apply State.rxBytes_leads
    | with_reducible apply State.Leads.ite

theorem State.acknowledge_leads {s0 : State} {s : State} (n : Nat) (ack : Nat) (hL : s0.Leads s) :
    s0.Leads (State.acknowledge s n ack) := by
  unfold State.acknowledge
  repeat' first
    | with_reducible assumption
    | with_reducible apply State.setSession_leads
    | with_reducible apply State.Leads.ite
    | with_reducible refine State.Leads.ite1 ?_ ?_
    | intro _
    | fail_if_no_progress (with_reducible refine State.Leads.upd ?_ rfl rfl rfl rfl rfl rfl rfl rfl rfl rfl rfl)

theorem State.heard_leads {s0 : State} {s : State} (d : Datagram) (hL : s0.Leads s) :
    s0.Leads (State.heard s d) := by
  unfold State.heard
  repeat' first
    | with_reducible assumption
    | with_reducible apply State.setSession_leads
    | with_reducible apply State.pump_leads
    | with_reducible apply State.acknowledge_leads

theorem State.sendAck_leads {s0 : State} {s : State} (n : Nat) (hL : s0.Leads s) :
    s0.Leads (State.sendAck s n) := by
  unfold State.sendAck
  repeat' first
    | with_reducible assumption
    | with_reducible apply State.sendDatagram_leads
    | with_reducible apply State.Leads.ite

theorem State.replyDirect_leads {s0 : State} {s : State} (c : Command) (status : Nat) (detail : Nat) (hL : s0.Leads s) :
    s0.Leads (State.replyDirect s c status detail) := by
  unfold State.replyDirect
  repeat' first
    | with_reducible assumption
    | with_reducible apply State.sendOn_leads

theorem State.noteOpcode_leads {s0 : State} {s : State} (op : Nat) (hL : s0.Leads s) :
    s0.Leads (State.noteOpcode s op) := by
  unfold State.noteOpcode
  repeat' first
    | with_reducible assumption
    | with_reducible apply State.Leads.ite
    | with_reducible refine State.Leads.ite1 ?_ ?_
    | intro _
    | fail_if_no_progress (with_reducible refine State.Leads.upd ?_ rfl rfl rfl rfl rfl rfl rfl rfl rfl rfl rfl)

theorem State.deliver_leads {s0 : State} {s : State} (c : Command) (hL : s0.Leads s) :
    s0.Leads (State.deliver s c) := by
  unfold State.deliver
  repeat' first
    | with_reducible assumption
    | with_reducible apply State.bump_leads
    | with_reducible apply State.setQueue_leads
    | with_reducible apply State.post_leads
    | with_reducible apply State.dozeExit_leads
    | with_reducible apply State.replyDirect_leads
    | with_reducible apply State.noteOpcode_leads
    | with_reducible apply State.Leads.ite
    | with_reducible refine State.Leads.ite1 ?_ ?_
    | intro _
    | fail_if_no_progress (with_reducible refine State.Leads.upd ?_ rfl rfl rfl rfl rfl rfl rfl rfl rfl rfl rfl)
    | with_reducible refine State.Leads.snd ?_ (by assumption)
    | with_reducible refine State.Leads.fst ?_ (by assumption)
    | extract_lets
    | split

theorem State.deliverAll_leads {s0 : State} {s : State} (n : Nat) (ms : List Command) (hL : s0.Leads s) :
    s0.Leads (State.deliverAll s n ms) := by
  unfold State.deliverAll
  repeat' first
    | with_reducible assumption
    | with_reducible apply State.deliver_leads
    | with_reducible apply State.Leads.ite
    | with_reducible refine State.Leads.ite1 ?_ ?_
    | intro _
    | with_reducible refine State.Leads.foldl ?_ (fun _ _ _ => ?_)

theorem State.acceptBuffered_leads {s0 s : State} (k n : Nat) (hL : s0.Leads s) : s0.Leads (State.acceptBuffered k s n) := by
  induction k generalizing s with
  | zero => exact hL
  | succ k ih =>
    unfold State.acceptBuffered
    repeat' first
      | with_reducible assumption
      | with_reducible apply State.setSession_leads
      | with_reducible apply State.deliverAll_leads
      | with_reducible apply ih
      | with_reducible apply State.Leads.ite
      | with_reducible refine State.Leads.ite1 ?_ ?_
      | intro _
      | fail_if_no_progress (with_reducible refine State.Leads.upd ?_ rfl rfl rfl rfl rfl rfl rfl rfl rfl rfl rfl)
      | with_reducible refine State.Leads.snd ?_ (by assumption)
      | with_reducible refine State.Leads.fst ?_ (by assumption)
      | extract_lets
      | split

theorem State.endSession_leads {s0 : State} {s : State} (n : Nat) (report : Bool) (hL : s0.Leads s) :
    s0.Leads (State.endSession s n report) := by
  unfold State.endSession
  repeat' first
    | with_reducible assumption
    | with_reducible apply State.setSession_leads
    | with_reducible apply State.setQueue_leads
    | with_reducible apply State.recordAll_leads
    | with_reducible apply State.Leads.ite
    | with_reducible refine State.Leads.ite1 ?_ ?_
    | intro _
    | fail_if_no_progress (with_reducible refine State.Leads.upd ?_ rfl rfl rfl rfl rfl rfl rfl rfl rfl rfl rfl)

theorem execData_leads (d : Datagram) (ms : List Command) (s : State) : ∃ nxt, execData d ms s = .next nxt ∧ s.Leads nxt := by
  unfold execData
  refine State.Leads.live ?_
  have hL := State.Leads.refl s
  repeat' first
    | with_reducible assumption
    | with_reducible apply State.setSession_leads
    | with_reducible apply State.receive_leads
    | with_reducible apply State.heard_leads
    | with_reducible apply State.sendAck_leads
    | with_reducible apply State.deliverAll_leads
    | with_reducible apply State.acceptBuffered_leads
    | with_reducible apply State.Leads.ite
    | with_reducible refine State.Leads.ite1 ?_ ?_
    | intro _

theorem execAck_leads (d : Datagram) (s : State) : ∃ nxt, execAck d s = .next nxt ∧ s.Leads nxt := by
  unfold execAck
  refine State.Leads.live ?_
  have hL := State.Leads.refl s
  repeat' first
    | with_reducible assumption
    | with_reducible apply State.receive_leads
    | with_reducible apply State.heard_leads
    | with_reducible apply State.Leads.ite
    | with_reducible refine State.Leads.ite1 ?_ ?_
    | intro _

theorem execNack_leads (d : Datagram) (bitmap : Nat) (s : State) : ∃ nxt, execNack d bitmap s = .next nxt ∧ s.Leads nxt := by
  unfold execNack
  refine State.Leads.live ?_
  have hL := State.Leads.refl s
  repeat' first
    | with_reducible assumption
    | with_reducible apply State.sendDatagram_leads
    | with_reducible apply State.receive_leads
    | with_reducible apply State.heard_leads
    | with_reducible apply State.Leads.ite
    | with_reducible refine State.Leads.ite1 ?_ ?_
    | intro _
    | with_reducible refine State.Leads.foldl ?_ (fun _ _ _ => ?_)

theorem execKeepalive_leads (d : Datagram) (s : State) : ∃ nxt, execKeepalive d s = .next nxt ∧ s.Leads nxt := by
  unfold execKeepalive
  refine State.Leads.live ?_
  have hL := State.Leads.refl s
  repeat' first
    | with_reducible assumption
    | with_reducible apply State.receive_leads
    | with_reducible apply State.heard_leads
    | with_reducible apply State.Leads.ite
    | with_reducible refine State.Leads.ite1 ?_ ?_
    | intro _

theorem execClose_leads (d : Datagram) (s : State) : ∃ nxt, execClose d s = .next nxt ∧ s.Leads nxt := by
  unfold execClose
  refine State.Leads.live ?_
  have hL := State.Leads.refl s
  repeat' first
    | with_reducible assumption
    | with_reducible apply State.receive_leads
    | with_reducible apply State.endSession_leads
    | with_reducible apply State.Leads.ite
    | with_reducible refine State.Leads.ite1 ?_ ?_
    | intro _

theorem execTimedRetransmission_leads (session : Nat) (tseq : Nat) (s : State)
    : ∃ nxt, execTimedRetransmission session tseq s = .next nxt ∧ s.Leads nxt := by
  unfold execTimedRetransmission
  refine State.Leads.live ?_
  have hL := State.Leads.refl s
  repeat' first
    | with_reducible assumption
    | with_reducible apply State.setSession_leads
    | with_reducible apply State.sendDatagram_leads
    | with_reducible apply State.onlyIf_leads
    | with_reducible apply State.Leads.ite
    | with_reducible refine State.Leads.ite1 ?_ ?_
    | intro _
    | fail_if_no_progress (with_reducible refine State.Leads.upd ?_ rfl rfl rfl rfl rfl rfl rfl rfl rfl rfl rfl)
    | with_reducible refine State.Leads.snd ?_ (by assumption)
    | with_reducible refine State.Leads.fst ?_ (by assumption)
    | extract_lets
    | split

theorem execRetransmitExhausted_leads (session : Nat) (tseq : Nat) (s : State)
    : ∃ nxt, execRetransmitExhausted session tseq s = .next nxt ∧ s.Leads nxt := by
  unfold execRetransmitExhausted
  refine State.Leads.live ?_
  have hL := State.Leads.refl s
  repeat' first
    | with_reducible assumption
    | with_reducible apply State.onlyIf_leads
    | with_reducible apply State.endSession_leads
    | with_reducible apply State.Leads.ite
    | with_reducible refine State.Leads.ite1 ?_ ?_
    | intro _

theorem execSessionSilenceTimeout_leads (session : Nat) (s : State)
    : ∃ nxt, execSessionSilenceTimeout session s = .next nxt ∧ s.Leads nxt := by
  unfold execSessionSilenceTimeout
  refine State.Leads.live ?_
  have hL := State.Leads.refl s
  repeat' first
    | with_reducible assumption
    | with_reducible apply State.onlyIf_leads
    | with_reducible apply State.endSession_leads
    | with_reducible apply State.Leads.ite
    | with_reducible refine State.Leads.ite1 ?_ ?_
    | intro _

theorem execWindowReopen_leads (session : Nat) (buffers : Nat) (s : State)
    : ∃ nxt, execWindowReopen session buffers s = .next nxt ∧ s.Leads nxt := by
  unfold execWindowReopen
  refine State.Leads.live ?_
  have hL := State.Leads.refl s
  repeat' first
    | with_reducible assumption
    | with_reducible apply State.setSession_leads
    | with_reducible apply State.sendDatagram_leads
    | with_reducible apply State.onlyIf_leads
    | with_reducible apply State.Leads.ite
    | with_reducible refine State.Leads.ite1 ?_ ?_
    | intro _

theorem execCommandDispatch_leads (q : Nat) (s : State) : ∃ nxt, execCommandDispatch q s = .next nxt ∧ s.Leads nxt := by
  unfold execCommandDispatch
  refine State.Leads.live ?_
  have hL := State.Leads.refl s
  repeat' first
    | with_reducible assumption
    | with_reducible apply State.setFld_leads
    | with_reducible apply State.setQueue_leads
    | with_reducible apply State.finish_leads
    | with_reducible apply State.Leads.ite
    | with_reducible refine State.Leads.ite1 ?_ ?_
    | intro _
    | fail_if_no_progress (with_reducible refine State.Leads.upd ?_ rfl rfl rfl rfl rfl rfl rfl rfl rfl rfl rfl)
    | with_reducible refine State.Leads.snd ?_ (by assumption)
    | with_reducible refine State.Leads.fst ?_ (by assumption)
    | extract_lets
    | split

theorem execQueueBind_leads (c : Command) (s : State) : ∃ nxt, execQueueBind c s = .next nxt ∧ s.Leads nxt := by
  unfold execQueueBind
  refine State.Leads.live ?_
  have hL := State.Leads.refl s
  repeat' first
    | with_reducible assumption
    | with_reducible apply State.setQueue_leads
    | with_reducible apply State.finish_leads
    | with_reducible apply State.checked_leads
    | with_reducible apply State.Leads.ite
    | with_reducible refine State.Leads.ite1 ?_ ?_
    | intro _

theorem execQueueUnbind_leads (c : Command) (s : State) : ∃ nxt, execQueueUnbind c s = .next nxt ∧ s.Leads nxt := by
  unfold execQueueUnbind
  refine State.Leads.live ?_
  have hL := State.Leads.refl s
  repeat' first
    | with_reducible assumption
    | with_reducible apply State.setQueue_leads
    | with_reducible apply State.finish_leads
    | with_reducible apply State.defer_leads
    | with_reducible apply State.checked_leads
    | with_reducible apply State.flushQueue_leads
    | with_reducible apply State.Leads.ite
    | with_reducible refine State.Leads.ite1 ?_ ?_
    | intro _

theorem execQueueDrained_leads (q : Nat) (s : State) : ∃ nxt, execQueueDrained q s = .next nxt ∧ s.Leads nxt := by
  unfold execQueueDrained
  refine State.Leads.live ?_
  have hL := State.Leads.refl s
  repeat' first
    | with_reducible assumption
    | with_reducible apply State.setQueue_leads
    | with_reducible apply State.recordCmd_leads
    | with_reducible apply State.deferredDone_leads
    | with_reducible apply State.onlyIf_leads
    | with_reducible apply State.Leads.ite
    | with_reducible refine State.Leads.ite1 ?_ ?_
    | intro _
    | fail_if_no_progress (with_reducible refine State.Leads.upd ?_ rfl rfl rfl rfl rfl rfl rfl rfl rfl rfl rfl)
    | with_reducible refine State.Leads.snd ?_ (by assumption)
    | with_reducible refine State.Leads.fst ?_ (by assumption)
    | extract_lets
    | split

theorem execQueueAttach_leads (c : Command) (s : State) : ∃ nxt, execQueueAttach c s = .next nxt ∧ s.Leads nxt := by
  unfold execQueueAttach
  refine State.Leads.live ?_
  have hL := State.Leads.refl s
  repeat' first
    | with_reducible assumption
    | with_reducible apply State.setSession_leads
    | with_reducible apply State.setQueue_leads
    | with_reducible apply State.sendOn_leads
    | with_reducible apply State.finish_leads
    | with_reducible apply State.checked_leads
    | with_reducible apply State.Leads.ite
    | with_reducible refine State.Leads.ite1 ?_ ?_
    | intro _
    | with_reducible refine State.Leads.foldl ?_ (fun _ _ _ => ?_)

theorem execQueueStatus_leads (c : Command) (s : State) : ∃ nxt, execQueueStatus c s = .next nxt ∧ s.Leads nxt := by
  unfold execQueueStatus
  refine State.Leads.live ?_
  have hL := State.Leads.refl s
  repeat' first
    | with_reducible assumption
    | with_reducible apply State.finish_leads
    | with_reducible apply State.checked_leads
    | with_reducible apply State.Leads.ite
    | with_reducible refine State.Leads.ite1 ?_ ?_
    | intro _

theorem execQueueFlush_leads (c : Command) (s : State) : ∃ nxt, execQueueFlush c s = .next nxt ∧ s.Leads nxt := by
  unfold execQueueFlush
  refine State.Leads.live ?_
  have hL := State.Leads.refl s
  repeat' first
    | with_reducible assumption
    | with_reducible apply State.finish_leads
    | with_reducible apply State.checked_leads
    | with_reducible apply State.flushQueue_leads
    | with_reducible apply State.Leads.ite
    | with_reducible refine State.Leads.ite1 ?_ ?_
    | intro _

theorem execNop_leads (c : Command) (s : State) : ∃ nxt, execNop c s = .next nxt ∧ s.Leads nxt := by
  unfold execNop
  refine State.Leads.live ?_
  have hL := State.Leads.refl s
  repeat' first
    | with_reducible assumption
    | with_reducible apply State.finish_leads

theorem State.setEmpty_leads {s0 s : State} (p l : Nat) (hL : s0.Leads s) : s0.Leads (State.setEmpty s p l) := by
  exact hL.updw rfl id (fun h => ⟨h.1, TMap.wf_set _ _ (lineKey p l) false h.2.1, h.2.2⟩) id rfl (Nat.le_refl _) rfl rfl

theorem State.setEmptyRange_leads {s0 : State} {s : State} (p : Nat) (first : Nat) (n : Nat) (hL : s0.Leads s) :
    s0.Leads (State.setEmptyRange s p first n) := by
  unfold State.setEmptyRange
  repeat' first
    | with_reducible assumption
    | with_reducible apply State.setEmpty_leads
    | with_reducible apply State.Leads.ite
    | with_reducible refine State.Leads.ite1 ?_ ?_
    | intro _
    | with_reducible refine State.Leads.foldl ?_ (fun _ _ _ => ?_)

theorem State.storeLine_leads {s0 s : State} (p l : Nat) (data : List Byte) (poison : Bool) (hL : s0.Leads s) : s0.Leads
    (State.storeLine s p l data poison) := by
  unfold State.storeLine
  have h : s0.Leads (if s.isFull p l && s.inTake p l then s.bump (uSpad p) 0x020 63 32 1 else s) :=
    State.Leads.ite (State.bump_leads _ _ _ _ _ hL) hL
  exact h.updw rfl id (fun h => ⟨wf_putBytes _ (byteKey p (128 * l)) (data.take 128) h.1, TMap.wf_set _ _ (lineKey p l) true h.2.1,
    TMap.wf_set _ _ (lineKey p l) poison h.2.2⟩) id rfl
    (Nat.le_refl _) rfl rfl

theorem State.setTurnout_leads {s0 : State} {s : State} (p : Nat) (t : Nat) (x : Turnout) (hL : s0.Leads s) :
    s0.Leads (State.setTurnout s p t x) := by
  unfold State.setTurnout
  repeat' first
    | with_reducible assumption
    | with_reducible apply State.Leads.ite
    | with_reducible refine State.Leads.ite1 ?_ ?_
    | intro _
    | fail_if_no_progress (with_reducible refine State.Leads.upd ?_ rfl rfl rfl rfl rfl rfl rfl rfl rfl rfl rfl)

theorem State.closeTurnout_leads {s0 : State} {s : State} (p : Nat) (t : Nat) (c : Nat) (how : Nat) (by_
    : Option CmdHdr) (recStatus : Nat) (status : Nat) (detail : Nat) (hL : s0.Leads s) :
    s0.Leads (State.closeTurnout s p t c how by_ recStatus status detail) := by
  unfold State.closeTurnout
  repeat' first
    | with_reducible assumption
    | with_reducible apply State.recordCmd_leads
    | with_reducible apply State.deferredDone_leads
    | with_reducible apply State.setTurnout_leads
    | with_reducible apply State.Leads.ite
    | with_reducible refine State.Leads.ite1 ?_ ?_
    | intro _
    | fail_if_no_progress (with_reducible refine State.Leads.upd ?_ rfl rfl rfl rfl rfl rfl rfl rfl rfl rfl rfl)
    | with_reducible refine State.Leads.snd ?_ (by assumption)
    | with_reducible refine State.Leads.fst ?_ (by assumption)
    | extract_lets
    | split
    | dsimp only [id]
    | (dsimp +zetaDelta only; split)

theorem State.drainCheck_leads {s0 : State} {s : State} (p : Nat) (hL : s0.Leads s) :
    s0.Leads (State.drainCheck s p) := by
  unfold State.drainCheck
  repeat' first
    | with_reducible assumption
    | with_reducible apply State.closeTurnout_leads
    | with_reducible apply State.Leads.ite
    | with_reducible refine State.Leads.ite1 ?_ ?_
    | intro _
    | with_reducible refine State.Leads.foldl ?_ (fun _ _ _ => ?_)

theorem State.storeLines_leads {s0 : State} {s : State} (p : Nat) (first : Nat) (data : List (List Byte × Bool)) (hL
    : s0.Leads s) :
    s0.Leads (State.storeLines s p first data) := by
  unfold State.storeLines
  repeat' first
    | with_reducible assumption
    | with_reducible apply State.storeLine_leads
    | with_reducible apply State.drainCheck_leads
    | with_reducible apply State.Leads.ite
    | with_reducible refine State.Leads.ite1 ?_ ?_
    | intro _
    | with_reducible refine State.Leads.foldl ?_ (fun _ _ _ => ?_)

theorem State.remoteWrite_leads {s0 : State} {s : State} (p : Nat) (first : Nat) (data : List (List Byte × Bool)) (slot
    : Nat) (placement : Nat) (epoch : Nat) (hL : s0.Leads s) :
    s0.Leads (State.remoteWrite s p first data slot placement epoch).2 := by
  unfold State.remoteWrite
  repeat' first
    | with_reducible assumption
    | with_reducible apply State.stamp_leads
    | with_reducible apply State.bump_leads
    | with_reducible apply State.setTurnout_leads
    | with_reducible apply State.storeLines_leads
    | with_reducible apply State.Leads.ite
    | with_reducible refine State.Leads.ite1 ?_ ?_
    | intro _
    | fail_if_no_progress (with_reducible refine State.Leads.upd ?_ rfl rfl rfl rfl rfl rfl rfl rfl rfl rfl rfl)
    | with_reducible refine State.Leads.snd ?_ (by assumption)
    | with_reducible refine State.Leads.fst ?_ (by assumption)
    | extract_lets
    | split

theorem State.spadFound_leads {s0 s : State} (p l errors job flags : Nat) (hL : s0.Leads s) : s0.Leads
    (State.spadFound s p l errors job flags) := by
  unfold State.spadFound
  split
  · exact hL
  · split
    · exact State.logError_leads _ (State.bump_leads _ _ _ _ _ hL)
    · exact State.logError_leads _ (State.bump_leads _ _ _ _ _
        (hL.updw rfl id (fun h => ⟨h.1, h.2.1, TMap.wf_set _ _ (lineKey p l) true h.2.2⟩) id rfl (Nat.le_refl _) rfl rfl))

theorem State.spadTouch_leads {s0 : State} {s : State} (p : Nat) (job : Nat) (ls : List Nat) (hL : s0.Leads s) :
    s0.Leads (State.spadTouch s p job ls) := by
  unfold State.spadTouch
  repeat' first
    | with_reducible assumption
    | with_reducible apply State.spadFound_leads
    | with_reducible apply State.Leads.ite
    | with_reducible refine State.Leads.ite1 ?_ ?_
    | intro _
    | (with_reducible refine State.Leads.foldl ?_ (fun _ _ _ => ?_) <;> beta_reduce)
    | fail_if_no_progress (with_reducible refine State.Leads.upd ?_ rfl rfl rfl rfl rfl rfl rfl rfl rfl rfl rfl)

theorem execRemoteWritePacket_leads (i : Nat) (s : State) : ∃ nxt, execRemoteWritePacket i s = .next nxt ∧ s.Leads nxt := by
  unfold execRemoteWritePacket
  refine State.Leads.live ?_
  have hL := State.Leads.refl s
  repeat' first
    | with_reducible assumption
    | with_reducible apply State.stamp_leads
    | with_reducible apply State.remoteWrite_leads
    | with_reducible apply State.Leads.ite
    | with_reducible refine State.Leads.ite1 ?_ ?_
    | intro _
    | fail_if_no_progress (with_reducible refine State.Leads.upd ?_ rfl rfl rfl rfl rfl rfl rfl rfl rfl rfl rfl)
    | with_reducible refine State.Leads.snd ?_ (by assumption)
    | with_reducible refine State.Leads.fst ?_ (by assumption)
    | extract_lets
    | split

theorem execWriteRefused_leads (i : Nat) (s : State) : ∃ nxt, execWriteRefused i s = .next nxt ∧ s.Leads nxt := by
  unfold execWriteRefused
  refine State.Leads.live ?_
  have hL := State.Leads.refl s
  repeat' first
    | with_reducible assumption
    | with_reducible apply State.stamp_leads
    | with_reducible apply State.bump_leads
    | with_reducible apply State.recordCmd_leads
    | with_reducible apply State.onlyIf_leads
    | with_reducible apply State.Leads.ite
    | with_reducible refine State.Leads.ite1 ?_ ?_
    | intro _
    | fail_if_no_progress (with_reducible refine State.Leads.upd ?_ rfl rfl rfl rfl rfl rfl rfl rfl rfl rfl rfl)
    | with_reducible refine State.Leads.snd ?_ (by assumption)
    | with_reducible refine State.Leads.fst ?_ (by assumption)
    | extract_lets
    | split

theorem execTurnoutLate_leads (p : Nat) (t : Nat) (s : State) : ∃ nxt, execTurnoutLate p t s = .next nxt ∧ s.Leads nxt := by
  unfold execTurnoutLate
  refine State.Leads.live ?_
  have hL := State.Leads.refl s
  repeat' first
    | with_reducible assumption
    | with_reducible apply State.recordCmd_leads
    | with_reducible apply State.onlyIf_leads
    | with_reducible apply State.setTurnout_leads
    | with_reducible apply State.Leads.ite
    | with_reducible refine State.Leads.ite1 ?_ ?_
    | intro _
    | fail_if_no_progress (with_reducible refine State.Leads.upd ?_ rfl rfl rfl rfl rfl rfl rfl rfl rfl rfl rfl)
    | with_reducible refine State.Leads.snd ?_ (by assumption)
    | with_reducible refine State.Leads.fst ?_ (by assumption)
    | extract_lets
    | split

theorem execTurnoutDrainLimit_leads (p : Nat) (t : Nat) (s : State) : ∃ nxt, execTurnoutDrainLimit p t s = .next nxt
    ∧ s.Leads nxt := by
  unfold execTurnoutDrainLimit
  refine State.Leads.live ?_
  have hL := State.Leads.refl s
  repeat' first
    | with_reducible assumption
    | with_reducible apply State.onlyIf_leads
    | with_reducible apply State.noteLimit_leads
    | with_reducible apply State.closeTurnout_leads
    | with_reducible apply State.Leads.ite
    | with_reducible refine State.Leads.ite1 ?_ ?_
    | intro _

theorem execRemoteRead_leads (c : Nat) (first : Nat) (lines : Nat) (s : State)
    : ∃ nxt, execRemoteRead c first lines s = .next nxt ∧ s.Leads nxt := by
  unfold execRemoteRead
  refine State.Leads.live ?_
  have hL := State.Leads.refl s
  repeat' first
    | with_reducible assumption
    | with_reducible apply State.spadTouch_leads
    | with_reducible apply State.Leads.ite
    | with_reducible refine State.Leads.ite1 ?_ ?_
    | intro _
    | fail_if_no_progress (with_reducible refine State.Leads.upd ?_ rfl rfl rfl rfl rfl rfl rfl rfl rfl rfl rfl)
    | with_reducible refine State.Leads.snd ?_ (by assumption)
    | with_reducible refine State.Leads.fst ?_ (by assumption)
    | extract_lets
    | split

theorem execSpadScrub_leads (p : Nat) (line : Nat) (errors : Nat) (passEnd : Bool) (s : State)
    : ∃ nxt, execSpadScrub p line errors passEnd s = .next nxt ∧ s.Leads nxt := by
  unfold execSpadScrub
  refine State.Leads.live ?_
  have hL := State.Leads.refl s
  repeat' first
    | with_reducible assumption
    | with_reducible apply State.setReg_leads
    | with_reducible apply State.onlyIf_leads
    | with_reducible apply State.spadFound_leads
    | with_reducible apply State.spadTouch_leads
    | with_reducible apply State.Leads.ite
    | with_reducible refine State.Leads.ite1 ?_ ?_
    | intro _

theorem execTurnoutOpen_leads (c : Command) (s : State) : ∃ nxt, execTurnoutOpen c s = .next nxt ∧ s.Leads nxt := by
  unfold execTurnoutOpen
  refine State.Leads.live ?_
  have hL := State.Leads.refl s
  repeat' first
    | with_reducible assumption
    | with_reducible apply State.finish_leads
    | with_reducible apply State.checked_leads
    | with_reducible apply State.setEmptyRange_leads
    | with_reducible apply State.setTurnout_leads
    | with_reducible apply State.Leads.ite
    | with_reducible refine State.Leads.ite1 ?_ ?_
    | intro _

theorem execTurnoutClose_leads (c : Command) (s : State) : ∃ nxt, execTurnoutClose c s = .next nxt ∧ s.Leads nxt := by
  unfold execTurnoutClose
  refine State.Leads.live ?_
  have hL := State.Leads.refl s
  repeat' first
    | with_reducible assumption
    | with_reducible apply State.finish_leads
    | with_reducible apply State.defer_leads
    | with_reducible apply State.checked_leads
    | with_reducible apply State.setTurnout_leads
    | with_reducible apply State.closeTurnout_leads
    | with_reducible apply State.Leads.ite
    | with_reducible refine State.Leads.ite1 ?_ ?_
    | intro _

end Sys2Proof.Machine
end

