-- ==== Sys2Proof/Laws/LeadsMemory.lean ====
section
/-! SUPPORT. The state leads on to the state after: memory, maps, edits, the engines and attention. -/

namespace Sys2Proof.Machine

theorem State.setChunk_leads {s0 : State} {s : State} (c : Nat) (k : Nat) (phase : Nat) (dest : Nat) (hL : s0.Leads s) :
    s0.Leads (State.setChunk s c k phase dest) := by
  unfold State.setChunk
  repeat' first
    | with_reducible assumption
    | with_reducible apply State.setReg_leads

theorem State.countGranules_leads {s0 : State} {s : State} (pa : Nat) (off : Nat) (n : Nat) (hL : s0.Leads s) :
    s0.Leads (State.countGranules s pa off n) := by
  unfold State.countGranules
  repeat' first
    | with_reducible assumption
    | with_reducible apply State.bump_leads
    | with_reducible apply State.Leads.ite
    | with_reducible refine State.Leads.ite1 ?_ ?_
    | intro _
    | fail_if_no_progress (with_reducible refine State.Leads.upd ?_ rfl rfl rfl rfl rfl rfl rfl rfl rfl rfl rfl)
    | with_reducible refine State.Leads.snd ?_ (by assumption)
    | with_reducible refine State.Leads.fst ?_ (by assumption)
    | extract_lets
    | split

theorem State.trackWrite_leads {s0 : State} {s : State} (pa : Nat) (n : Nat) (hL : s0.Leads s) :
    s0.Leads (State.trackWrite s pa n) := by
  unfold State.trackWrite
  repeat' first
    | with_reducible assumption
    | with_reducible apply State.Leads.ite
    | with_reducible refine State.Leads.ite1 ?_ ?_
    | intro _
    | fail_if_no_progress (with_reducible refine State.Leads.upd ?_ rfl rfl rfl rfl rfl rfl rfl rfl rfl rfl rfl)

theorem State.writeRaw_leads {s0 s : State} (pa : Nat) (data : List Byte) (poison : Bool) (hL : s0.Leads s) : s0.Leads
    (State.writeRaw s pa data poison) := by
  unfold State.writeRaw
  extract_lets
  split
  · exact State.bump_leads _ _ _ _ _ hL
  · exact State.countGranules_leads _ _ _ (State.trackWrite_leads _ _
      (hL.updw rfl (fun h => ⟨wf_putBytes _ _ _ h.1, wf_foldl_set _ _ _ _ _ h.2⟩) id id rfl (Nat.le_refl _) rfl rfl))

theorem State.memWrite_leads {s0 : State} {s : State} (pa : Nat) (data : List Byte) (poison : Bool) (hL : s0.Leads s) :
    s0.Leads (State.memWrite s pa data poison) := by
  unfold State.memWrite
  repeat' first
    | with_reducible assumption
    | with_reducible apply State.writeRaw_leads
    | with_reducible apply State.Leads.ite
    | with_reducible refine State.Leads.ite1 ?_ ?_
    | intro _
    | with_reducible refine State.Leads.foldl ?_ (fun _ _ _ => ?_)

theorem State.memZero_leads {s0 s : State} (pa n : Nat) (hL : s0.Leads s) : s0.Leads (State.memZero s pa n) := by
  exact hL.updw rfl (fun h => ⟨TMap.wf_filter _ _ _ h.1, TMap.wf_filter _ _ _ h.2⟩) id id rfl (Nat.le_refl _) rfl rfl

theorem State.memFound_leads {s0 s : State} (pa errors sub flags : Nat) (hL : s0.Leads s) : s0.Leads
    (State.memFound s pa errors sub flags) := by
  unfold State.memFound
  split
  · exact hL
  · extract_lets
    split
    · exact hL
    · split
      · exact State.logError_leads _ (State.bump_leads _ _ _ _ _ hL)
      · exact State.logError_leads _ (State.bump_leads _ _ _ _ _
          (hL.updw rfl (fun h => ⟨h.1, TMap.wf_set _ _ (pa / 64) true h.2⟩) id id rfl (Nat.le_refl _) rfl rfl))

theorem State.memTouch_leads {s0 : State} {s : State} (pa : Nat) (n : Nat) (hL : s0.Leads s) :
    s0.Leads (State.memTouch s pa n) := by
  unfold State.memTouch
  repeat' first
    | with_reducible assumption
    | with_reducible apply State.countGranules_leads
    | with_reducible apply State.memFound_leads
    | with_reducible apply State.Leads.ite
    | with_reducible refine State.Leads.ite1 ?_ ?_
    | intro _
    | (with_reducible refine State.Leads.foldl ?_ (fun _ _ _ => ?_) <;> beta_reduce)
    | fail_if_no_progress (with_reducible refine State.Leads.upd ?_ rfl rfl rfl rfl rfl rfl rfl rfl rfl rfl rfl)

theorem State.setMap_leads {s0 : State} {s : State} (slot : Nat) (m : MapInfo) (hL : s0.Leads s) :
    s0.Leads (State.setMap s slot m) := by
  unfold State.setMap
  repeat' first
    | with_reducible assumption
    | with_reducible apply State.Leads.ite
    | with_reducible refine State.Leads.ite1 ?_ ?_
    | intro _
    | fail_if_no_progress (with_reducible refine State.Leads.upd ?_ rfl rfl rfl rfl rfl rfl rfl rfl rfl rfl rfl)

theorem State.setReelJob_leads {s0 : State} {s : State} (slot : Nat) (r : ReelJob) (hL : s0.Leads s) :
    s0.Leads (State.setReelJob s slot r) := by
  unfold State.setReelJob
  repeat' first
    | with_reducible assumption
    | with_reducible apply State.Leads.ite
    | with_reducible refine State.Leads.ite1 ?_ ?_
    | intro _
    | fail_if_no_progress (with_reducible refine State.Leads.upd ?_ rfl rfl rfl rfl rfl rfl rfl rfl rfl rfl rfl)

theorem State.setShard_leads {s0 : State} {s : State} (k : Nat) (x : Shard) (hL : s0.Leads s) :
    s0.Leads (State.setShard s k x) := by
  unfold State.setShard
  repeat' first
    | with_reducible assumption
    | with_reducible apply State.Leads.ite
    | with_reducible refine State.Leads.ite1 ?_ ?_
    | intro _
    | fail_if_no_progress (with_reducible refine State.Leads.upd ?_ rfl rfl rfl rfl rfl rfl rfl rfl rfl rfl rfl)

theorem State.guardRefused_leads {s0 : State} {s : State} (k : Nat) (slot : Nat) (src : Nat) (va : Nat) (task : Bool)
    (hL : s0.Leads s) :
    s0.Leads (State.guardRefused s k slot src va task) := by
  unfold State.guardRefused
  repeat' first
    | with_reducible assumption
    | with_reducible apply State.stamp_leads
    | with_reducible apply State.bump_leads
    | with_reducible apply State.recordAll_leads
    | with_reducible apply State.setShard_leads
    | with_reducible apply State.Leads.ite

theorem State.vtouch_leads {s0 : State} {s : State} (slot : Nat) (va : Nat) (n : Nat) (hL : s0.Leads s) :
    s0.Leads (State.vtouch s slot va n) := by
  unfold State.vtouch
  repeat' first
    | with_reducible assumption
    | with_reducible apply State.memTouch_leads
    | with_reducible apply State.Leads.ite
    | with_reducible refine State.Leads.ite1 ?_ ?_
    | intro _
    | with_reducible refine State.Leads.foldl ?_ (fun _ _ _ => ?_)
    | fail_if_no_progress (with_reducible refine State.Leads.upd ?_ rfl rfl rfl rfl rfl rfl rfl rfl rfl rfl rfl)
    | with_reducible refine State.Leads.snd ?_ (by assumption)
    | with_reducible refine State.Leads.fst ?_ (by assumption)
    | extract_lets
    | split

theorem State.vwrite_leads {s0 : State} {s : State} (slot : Nat) (va : Nat) (data : List Byte) (poison : Bool) (hL
    : s0.Leads s) :
    s0.Leads (State.vwrite s slot va data poison).1 := by
  unfold State.vwrite
  repeat' first
    | with_reducible assumption
    | with_reducible apply State.memWrite_leads
    | with_reducible apply State.Leads.ite
    | with_reducible refine State.Leads.ite1 ?_ ?_
    | intro _
    | with_reducible refine State.Leads.foldl1 ?_ (fun _ _ _ => ?_)
    | fail_if_no_progress (with_reducible refine State.Leads.upd ?_ rfl rfl rfl rfl rfl rfl rfl rfl rfl rfl rfl)
    | with_reducible refine State.Leads.snd ?_ (by assumption)
    | with_reducible refine State.Leads.fst ?_ (by assumption)
    | extract_lets
    | split

theorem State.noteFault_leads {s0 : State} {s : State} (slot : Nat) (src : Nat) (f : VFault) (hL : s0.Leads s) :
    s0.Leads (State.noteFault s slot src f).2 := by
  unfold State.noteFault
  repeat' first
    | with_reducible assumption
    | with_reducible apply State.stamp_leads
    | with_reducible apply State.setReg_leads
    | with_reducible apply State.bump_leads

theorem State.vfault_leads {s0 : State} {s : State} (h : CmdHdr) (slot : Nat) (src : Nat) (f : VFault) (hL : s0.Leads s) :
    s0.Leads (State.vfault s h slot src f) := by
  unfold State.vfault
  repeat' first
    | with_reducible assumption
    | with_reducible apply State.recordCmd_leads
    | with_reducible apply State.noteFault_leads

theorem State.farTouch_leads {s0 : State} {s : State} (slot : Nat) (a : Nat) (n : Nat) (hL : s0.Leads s) :
    s0.Leads (State.farTouch s slot a n) := by
  unfold State.farTouch
  repeat' first
    | with_reducible assumption
    | with_reducible apply State.spadTouch_leads
    | with_reducible apply State.vtouch_leads
    | with_reducible apply State.Leads.ite
    | with_reducible refine State.Leads.ite1 ?_ ?_
    | intro _
    | fail_if_no_progress (with_reducible refine State.Leads.upd ?_ rfl rfl rfl rfl rfl rfl rfl rfl rfl rfl rfl)
    | with_reducible refine State.Leads.snd ?_ (by assumption)
    | with_reducible refine State.Leads.fst ?_ (by assumption)
    | extract_lets
    | split

theorem State.farWrite_leads {s0 : State} {s : State} (slot : Nat) (a : Nat) (data : List Byte) (poison : Bool)
    (placement : Nat) (epoch : Nat) (inAllot : Bool) (hL : s0.Leads s) :
    s0.Leads (State.farWrite s slot a data poison placement epoch inAllot).1 := by
  unfold State.farWrite
  repeat' first
    | with_reducible assumption
    | with_reducible apply State.remoteWrite_leads
    | with_reducible apply State.vwrite_leads
    | with_reducible apply State.Leads.ite
    | with_reducible refine State.Leads.ite1 ?_ ?_
    | intro _
    | with_reducible refine State.Leads.foldl1 ?_ (fun _ _ _ => ?_)
    | fail_if_no_progress (with_reducible refine State.Leads.upd ?_ rfl rfl rfl rfl rfl rfl rfl rfl rfl rfl rfl)
    | with_reducible refine State.Leads.snd ?_ (by assumption)
    | with_reducible refine State.Leads.fst ?_ (by assumption)
    | extract_lets
    | split

theorem State.farFault_leads {s0 : State} {s : State} (h : CmdHdr) (slot : Nat) (src : Nat) (x : FarFail) (hL : s0.Leads s) :
    s0.Leads (State.farFault s h slot src x) := by
  unfold State.farFault
  repeat' first
    | with_reducible assumption
    | with_reducible apply State.guardRefused_leads
    | with_reducible apply State.vfault_leads
    | with_reducible apply State.Leads.ite
    | with_reducible refine State.Leads.ite1 ?_ ?_
    | intro _
    | fail_if_no_progress (with_reducible refine State.Leads.upd ?_ rfl rfl rfl rfl rfl rfl rfl rfl rfl rfl rfl)
    | with_reducible refine State.Leads.snd ?_ (by assumption)
    | with_reducible refine State.Leads.fst ?_ (by assumption)
    | extract_lets
    | split

theorem State.setKvPool_leads {s0 : State} {s : State} (slot : Nat) (x : KvPool) (hL : s0.Leads s) :
    s0.Leads (State.setKvPool s slot x) := by
  unfold State.setKvPool
  repeat' first
    | with_reducible assumption
    | with_reducible apply State.Leads.ite
    | with_reducible refine State.Leads.ite1 ?_ ?_
    | intro _
    | fail_if_no_progress (with_reducible refine State.Leads.upd ?_ rfl rfl rfl rfl rfl rfl rfl rfl rfl rfl rfl)

theorem State.setKvSeq_leads {s0 : State} {s : State} (id : Nat) (x : KvSeq) (hL : s0.Leads s) :
    s0.Leads (State.setKvSeq s id x) := by
  unfold State.setKvSeq
  repeat' first
    | with_reducible assumption
    | with_reducible apply State.Leads.ite
    | with_reducible refine State.Leads.ite1 ?_ ?_
    | intro _
    | fail_if_no_progress (with_reducible refine State.Leads.upd ?_ rfl rfl rfl rfl rfl rfl rfl rfl rfl rfl rfl)

theorem State.putEntry_leads {s0 s : State} (a e : Nat) (hL : s0.Leads s) : s0.Leads (State.putEntry s a e) := by
  exact hL.updw rfl (fun h => ⟨wf_putBytes _ _ _ h.1, h.2⟩) id id rfl (Nat.le_refl _) rfl rfl

theorem State.takeTable_leads {s0 s : State} {slot bytes a : Nat} {t : State} (e : State.takeTable s slot bytes = some
    (a, t)) (hL : s0.Leads s) : s0.Leads t := by
  unfold State.takeTable at e
  extract_lets m b m' at e
  split at e
  · cases e
  · simp only [Option.some.injEq, Prod.mk.injEq] at e
    obtain ⟨-, rfl⟩ := e
    exact State.memZero_leads _ _ (State.setMap_leads _ _ hL)

theorem State.putLeaf_leads {s0 s : State} {slot va shift v : Nat} {l : List (Nat × Nat × Nat)} {n : Nat} {t : State}
    (e : State.putLeaf s slot va shift v l n = .ok t) (hL : s0.Leads s) : s0.Leads t := by
  induction l generalizing s n with
  | nil => cases e
  | cons x l ih =>
    obtain ⟨_, sh, width⟩ := x
    unfold State.putLeaf at e
    extract_lets a old at e
    split at e
    · split at e
      · cases e
      · cases e; exact State.putEntry_leads _ _ hL
    · split at e
      · split at e
        · cases e
        · exact ih e hL
      · split at e
        · cases e
        · exact ih e (State.putEntry_leads _ _ (State.takeTable_leads (by assumption) hL))

theorem State.countMapped_leads {s0 : State} {s : State} (slot : Nat) (shift : Nat) (add : Bool) (hL : s0.Leads s) :
    s0.Leads (State.countMapped s slot shift add) := by
  unfold State.countMapped
  repeat' first
    | with_reducible assumption
    | with_reducible apply State.setMap_leads

theorem State.mapPage_leads {s0 s : State} {slot va shift pa : Nat} {write : Bool} {t : State} (e
    : State.mapPage s slot va shift pa write = .ok t) (hL : s0.Leads s) : s0.Leads t := by
  unfold State.mapPage at e
  extract_lets had at e
  split at e
  · cases e
  · cases e
    exact State.Leads.ite (State.putLeaf_leads (by assumption) hL) (State.countMapped_leads _ _ _ (State.putLeaf_leads (by assumption) hL))

theorem State.unmapPage_leads {s0 : State} {s : State} (slot : Nat) (va : Nat) (hL : s0.Leads s) :
    s0.Leads (State.unmapPage s slot va) := by
  unfold State.unmapPage
  repeat' first
    | with_reducible assumption
    | with_reducible apply State.putEntry_leads
    | with_reducible apply State.countMapped_leads
    | with_reducible apply State.Leads.ite
    | with_reducible refine State.Leads.ite1 ?_ ?_
    | intro _
    | fail_if_no_progress (with_reducible refine State.Leads.upd ?_ rfl rfl rfl rfl rfl rfl rfl rfl rfl rfl rfl)
    | with_reducible refine State.Leads.snd ?_ (by assumption)
    | with_reducible refine State.Leads.fst ?_ (by assumption)
    | extract_lets
    | split

theorem State.mapEdit_leads {s0 s : State} {c : Command} {slot : Nat} {r : Nat × Bool} {t : State} (e
    : State.mapEdit s c slot = .ok (t, r)) (hL : s0.Leads s) : s0.Leads t := by
  unfold State.mapEdit at e
  refine State.Leads.foldlM (q := (t, r)) hL (fun p a q e h => ?_) e
  obtain ⟨s, k, hit⟩ := p
  dsimp only at e h
  (repeat' split at e) <;> first
    | cases e; done
    | (cases e; first
        | exact h
        | exact State.mapPage_leads (by assumption) h
        | exact State.unmapPage_leads _ _ h
        | exact State.putEntry_leads _ _ h)

theorem State.startShoot_leads {s0 : State} {s : State} (x : Shoot) (hL : s0.Leads s) :
    s0.Leads (State.startShoot s x) := by
  unfold State.startShoot
  repeat' first
    | with_reducible assumption
    | with_reducible apply State.Leads.ite
    | with_reducible refine State.Leads.ite1 ?_ ?_
    | intro _
    | fail_if_no_progress (with_reducible refine State.Leads.upd ?_ rfl rfl rfl rfl rfl rfl rfl rfl rfl rfl rfl)

theorem State.freePage_leads {s0 : State} {s : State} (slot : Nat) (page : Nat) (hL : s0.Leads s) :
    s0.Leads (State.freePage s slot page) := by
  unfold State.freePage
  repeat' first
    | with_reducible assumption
    | with_reducible apply State.setKvPool_leads
    | with_reducible apply State.Leads.ite

theorem State.poolLow_leads {s0 : State} {s : State} (slot : Nat) (hL : s0.Leads s) :
    s0.Leads (State.poolLow s slot) := by
  unfold State.poolLow
  repeat' first
    | with_reducible assumption
    | with_reducible apply State.recordCmd_leads
    | with_reducible apply State.setKvPool_leads
    | with_reducible apply State.Leads.ite
    | with_reducible refine State.Leads.ite1 ?_ ?_
    | intro _
    | fail_if_no_progress (with_reducible refine State.Leads.upd ?_ rfl rfl rfl rfl rfl rfl rfl rfl rfl rfl rfl)
    | with_reducible refine State.Leads.snd ?_ (by assumption)
    | with_reducible refine State.Leads.fst ?_ (by assumption)
    | extract_lets
    | split

theorem State.editPage_leads {s0 : State} {s : State} (slot : Nat) (page : Nat) (f : KvPage → KvPage) (hL : s0.Leads s) :
    s0.Leads (State.editPage s slot page f) := by
  unfold State.editPage
  repeat' first
    | with_reducible assumption
    | with_reducible apply State.setKvPool_leads

theorem execShootdownComplete_leads (i : Nat) (s : State) : ∃ nxt, execShootdownComplete i s = .next nxt ∧ s.Leads nxt := by
  unfold execShootdownComplete
  refine State.Leads.live ?_
  have hL := State.Leads.refl s
  repeat' first
    | with_reducible assumption
    | with_reducible apply State.bump_leads
    | with_reducible apply State.finish_leads
    | with_reducible apply State.deferredDone_leads
    | with_reducible apply State.freePage_leads
    | with_reducible apply State.editPage_leads
    | with_reducible apply State.answered_leads
    | with_reducible apply State.Leads.ite
    | with_reducible refine State.Leads.ite1 ?_ ?_
    | intro _
    | with_reducible refine State.Leads.foldl ?_ (fun _ _ _ => ?_)
    | fail_if_no_progress (with_reducible refine State.Leads.upd ?_ rfl rfl rfl rfl rfl rfl rfl rfl rfl rfl rfl)
    | with_reducible refine State.Leads.snd ?_ (by assumption)
    | with_reducible refine State.Leads.fst ?_ (by assumption)
    | extract_lets
    | split

theorem State.takePage_leads {s0 s : State} {slot a : Nat} {t : State} (e : State.takePage s slot = some (a, t)) (hL
    : s0.Leads s) : s0.Leads t := by
  unfold State.takePage at e
  extract_lets x at e
  split at e
  · cases e
  · cases e; exact State.poolLow_leads _ (State.setKvPool_leads _ _ hL)

theorem State.kvMap_leads {s0 s : State} {c : Command} {slot : Nat} {r : EditOut} {t : State} (e
    : State.kvMap s c slot = .ok (t, r)) (hL : s0.Leads s) : s0.Leads t := by
  unfold State.kvMap at e
  extract_lets x ls at e
  split at e
  · cases e
  · refine State.Leads.foldlM (q := (t, r)) hL (fun p a q e h => ?_) e
    obtain ⟨s, o⟩ := p
    dsimp only at e h
    split at e
    · cases e
    · split at e
      · cases e
      · have h1 := State.takePage_leads (by assumption) h
        split at e
        · cases e
        · cases e
          exact State.mapPage_leads (by assumption) (State.Leads.ite (State.memZero_leads _ _ h1) h1)

theorem State.kvShare_leads {s0 s : State} {c : Command} {slot : Nat} {r : EditOut} {t : State} (e
    : State.kvShare s c slot = .ok (t, r)) (hL : s0.Leads s) : s0.Leads t := by
  unfold State.kvShare at e
  extract_lets a id b src dst share at e
  split at e
  · cases e
  · rename_i u o heq
    cases e
    refine State.setKvSeq_leads _ _ (State.Leads.foldlM (q := (u, r)) hL (fun p a q e h => ?_) heq)
    obtain ⟨s, o⟩ := p
    dsimp only [share] at e h
    (repeat' split at e) <;> first
      | cases e; done
      | (cases e; exact State.mapPage_leads (by assumption) (State.editPage_leads _ _ _ h))

theorem State.dropLeaves_leads {s0 s : State} {slot : Nat} {ls : List Nat} {ordinary : Bool} {kind : Nat} {r : EditOut}
    {t : State} (e : State.dropLeaves s slot ls ordinary kind = .ok (t, r)) (hL : s0.Leads s) : s0.Leads t := by
  unfold State.dropLeaves at e
  refine State.Leads.foldlM (q := (t, r)) hL (fun p a q e h => ?_) e
  obtain ⟨s, o⟩ := p
  dsimp only at e h
  (repeat' split at e) <;> first
    | cases e; done
    | (cases e; first
        | exact h
        | exact State.editPage_leads _ _ _ (State.unmapPage_leads _ _ h)
        | exact State.unmapPage_leads _ _ h
        | (dsimp only; exact State.editPage_leads _ _ _ (State.unmapPage_leads _ _ h)))

theorem State.kvFree_leads {s0 s : State} {c : Command} {slot : Nat} {r : EditOut} {t : State} (e
    : State.kvFree s c slot = .ok (t, r)) (hL : s0.Leads s) : s0.Leads t := by
  unfold State.kvFree at e
  extract_lets id x n at e
  split at e
  · cases e
  · cases e
    have h := State.dropLeaves_leads (by assumption) hL
    exact State.Leads.ite (State.setKvSeq_leads _ _ h) h

theorem State.seqDrop_leads {s0 s : State} {c : Command} {slot : Nat} {r : EditOut} {t : State} (e
    : State.seqDrop s c slot = .ok (t, r)) (hL : s0.Leads s) : s0.Leads t := by
  unfold State.seqDrop at e
  extract_lets id x n at e
  split at e
  · cases e
  · cases e
    exact State.setKvSeq_leads _ _ (State.dropLeaves_leads (by assumption) hL)

theorem State.editEffect_leads {s0 s : State} {c : Command} {slot : Nat} {r : EditOut} {t : State} (e
    : State.editEffect s c slot = .ok (t, r)) (hL : s0.Leads s) : s0.Leads t := by
  unfold State.editEffect at e
  (repeat' split at e) <;> first
    | cases e; done
    | (cases e; exact State.mapEdit_leads (by assumption) hL)
    | exact State.kvMap_leads e hL
    | exact State.kvShare_leads e hL
    | exact State.kvFree_leads e hL
    | exact State.seqDrop_leads e hL

theorem State.applyEdit_leads {s0 : State} {s : State} (c : Command) (slot : Nat) (answered : Bool) (hL : s0.Leads s) :
    s0.Leads (State.applyEdit s c slot answered) := by
  unfold State.applyEdit
  repeat' first
    | with_reducible assumption
    | with_reducible apply State.finish_leads
    | with_reducible apply State.defer_leads
    | with_reducible apply State.deferredDone_leads
    | with_reducible apply State.startShoot_leads
    | with_reducible apply State.answered_leads
    | with_reducible refine State.editEffect_leads (by assumption) ?_
    | with_reducible apply State.Leads.ite
    | with_reducible refine State.Leads.ite1 ?_ ?_
    | intro _
    | fail_if_no_progress (with_reducible refine State.Leads.upd ?_ rfl rfl rfl rfl rfl rfl rfl rfl rfl rfl rfl)
    | with_reducible refine State.Leads.snd ?_ (by assumption)
    | with_reducible refine State.Leads.fst ?_ (by assumption)
    | extract_lets
    | split

theorem State.runEdit_leads {s0 : State} {s : State} (c : Command) (slot : Nat) (hL : s0.Leads s) :
    s0.Leads (State.runEdit s c slot) := by
  unfold State.runEdit
  repeat' first
    | with_reducible assumption
    | with_reducible apply State.finish_leads
    | with_reducible apply State.defer_leads
    | with_reducible apply State.applyEdit_leads
    | with_reducible refine State.editEffect_leads (by assumption) ?_
    | with_reducible apply State.Leads.ite
    | with_reducible refine State.Leads.ite1 ?_ ?_
    | intro _
    | fail_if_no_progress (with_reducible refine State.Leads.upd ?_ rfl rfl rfl rfl rfl rfl rfl rfl rfl rfl rfl)
    | with_reducible refine State.Leads.snd ?_ (by assumption)
    | with_reducible refine State.Leads.fst ?_ (by assumption)
    | extract_lets
    | split

theorem State.applyHeld_leads {s0 s : State} (k : Nat) (hL : s0.Leads s) : s0.Leads (State.applyHeld k s) := by
  induction k generalizing s with
  | zero => exact hL
  | succ k ih =>
    unfold State.applyHeld
    repeat' first
      | with_reducible assumption
      | with_reducible apply State.applyEdit_leads
      | with_reducible apply ih
      | with_reducible apply State.Leads.ite
      | with_reducible refine State.Leads.ite1 ?_ ?_
      | intro _
      | fail_if_no_progress (with_reducible refine State.Leads.upd ?_ rfl rfl rfl rfl rfl rfl rfl rfl rfl rfl rfl)
      | with_reducible refine State.Leads.snd ?_ (by assumption)
      | with_reducible refine State.Leads.fst ?_ (by assumption)
      | extract_lets
      | split

theorem State.setCore_leads {s0 : State} {s : State} (p : Nat) (c : Core) (hL : s0.Leads s) :
    s0.Leads (State.setCore s p c) := by
  unfold State.setCore
  repeat' first
    | with_reducible assumption
    | with_reducible apply State.Leads.ite
    | with_reducible refine State.Leads.ite1 ?_ ?_
    | intro _
    | fail_if_no_progress (with_reducible refine State.Leads.upd ?_ rfl rfl rfl rfl rfl rfl rfl rfl rfl rfl rfl)

theorem State.setNonfinite_leads {s0 : State} {s : State} (p : Nat) (slot : Nat) (hL : s0.Leads s) :
    s0.Leads (State.setNonfinite s p slot) := by
  unfold State.setNonfinite
  repeat' first
    | with_reducible assumption
    | with_reducible apply State.Leads.ite
    | with_reducible refine State.Leads.ite1 ?_ ?_
    | intro _
    | fail_if_no_progress (with_reducible refine State.Leads.upd ?_ rfl rfl rfl rfl rfl rfl rfl rfl rfl rfl rfl)

theorem State.opeDrain_leads {s0 : State} {s : State} (p : Nat) (b : Nat) (slot : Nat) (hL : s0.Leads s) :
    s0.Leads (State.opeDrain s p b slot) := by
  unfold State.opeDrain
  repeat' first
    | with_reducible assumption
    | with_reducible apply State.storeLine_leads
    | with_reducible apply State.setCore_leads
    | with_reducible apply State.setNonfinite_leads
    | with_reducible apply State.Leads.ite
    | with_reducible refine State.Leads.ite1 ?_ ?_
    | intro _
    | with_reducible refine State.Leads.foldl ?_ (fun _ _ _ => ?_)
    | fail_if_no_progress (with_reducible refine State.Leads.upd ?_ rfl rfl rfl rfl rfl rfl rfl rfl rfl rfl rfl)
    | with_reducible refine State.Leads.snd ?_ (by assumption)
    | with_reducible refine State.Leads.fst ?_ (by assumption)
    | extract_lets
    | split

theorem State.vecCvt_leads {s0 : State} {s : State} (p : Nat) (b : Nat) (slot : Nat) (hL : s0.Leads s) :
    s0.Leads (State.vecCvt s p b slot) := by
  unfold State.vecCvt
  repeat' first
    | with_reducible assumption
    | with_reducible apply State.setCore_leads
    | with_reducible apply State.setNonfinite_leads
    | with_reducible apply State.Leads.ite

theorem State.vecStore_leads {s0 : State} {s : State} (p : Nat) (b : Nat) (hL : s0.Leads s) :
    s0.Leads (State.vecStore s p b) := by
  unfold State.vecStore
  repeat' first
    | with_reducible assumption
    | with_reducible apply State.storeLine_leads
    | with_reducible apply State.Leads.ite
    | with_reducible refine State.Leads.ite1 ?_ ?_
    | intro _
    | with_reducible refine State.Leads.foldl ?_ (fun _ _ _ => ?_)
    | fail_if_no_progress (with_reducible refine State.Leads.upd ?_ rfl rfl rfl rfl rfl rfl rfl rfl rfl rfl rfl)
    | with_reducible refine State.Leads.snd ?_ (by assumption)
    | with_reducible refine State.Leads.fst ?_ (by assumption)
    | extract_lets
    | split

theorem State.setFrameTag_leads {s0 : State} {s : State} (p : Nat) (a : Nat) (t : FrameTag) (hL : s0.Leads s) :
    s0.Leads (State.setFrameTag s p a t) := by
  unfold State.setFrameTag
  repeat' first
    | with_reducible assumption
    | with_reducible apply State.Leads.ite
    | with_reducible refine State.Leads.ite1 ?_ ?_
    | intro _
    | fail_if_no_progress (with_reducible refine State.Leads.upd ?_ rfl rfl rfl rfl rfl rfl rfl rfl rfl rfl rfl)

theorem State.setFrameBytes_leads {s0 : State} {s : State} (p : Nat) (a : Nat) (spill : Option Nat) (bs : List Byte)
    (hL : s0.Leads s) :
    s0.Leads (State.setFrameBytes s p a spill bs) := by
  unfold State.setFrameBytes
  repeat' first
    | with_reducible assumption
    | with_reducible apply State.storeLine_leads
    | with_reducible apply State.spill_leads
    | with_reducible apply State.Leads.ite
    | with_reducible refine State.Leads.ite1 ?_ ?_
    | intro _
    | with_reducible refine State.Leads.foldl ?_ (fun _ _ _ => ?_)
    | fail_if_no_progress (with_reducible refine State.Leads.upd ?_ rfl rfl rfl rfl rfl rfl rfl rfl rfl rfl rfl)
    | with_reducible refine State.Leads.snd ?_ (by assumption)
    | with_reducible refine State.Leads.fst ?_ (by assumption)
    | extract_lets
    | split

theorem State.writeFrame_leads {s0 : State} {s : State} (p : Nat) (slot : Nat) (a : Nat) (spill : Option Nat) (kind
    : Nat) (rows : Nat) (key : Nat) (es : List (Word32 × Word32)) (hL : s0.Leads s) :
    s0.Leads (State.writeFrame s p slot a spill kind rows key es) := by
  unfold State.writeFrame
  repeat' first
    | with_reducible assumption
    | with_reducible apply State.bump_leads
    | with_reducible apply State.setFrameTag_leads
    | with_reducible apply State.setFrameBytes_leads
    | with_reducible apply State.spill_leads
    | with_reducible apply State.Leads.ite

theorem State.storeBytes_leads {s0 : State} {s : State} (p : Nat) (line : Nat) (bs : List Byte) (hL : s0.Leads s) :
    s0.Leads (State.storeBytes s p line bs) := by
  unfold State.storeBytes
  repeat' first
    | with_reducible assumption
    | with_reducible apply State.storeLine_leads
    | with_reducible apply State.Leads.ite
    | with_reducible refine State.Leads.ite1 ?_ ?_
    | intro _
    | with_reducible refine State.Leads.foldl ?_ (fun _ _ _ => ?_)

theorem State.contApply_leads {s0 : State} {s : State} (p : Nat) (slot : Nat) (w : Nat) (d : RowDesc) (rs
    : List RowResult) (hL : s0.Leads s) :
    s0.Leads (State.contApply s p slot w d rs) := by
  unfold State.contApply
  repeat' first
    | with_reducible assumption
    | with_reducible apply State.bump_leads
    | with_reducible apply State.storeLine_leads
    | with_reducible apply State.setNonfinite_leads
    | with_reducible apply State.setFrameTag_leads
    | with_reducible apply State.writeFrame_leads
    | with_reducible apply State.storeBytes_leads
    | with_reducible apply State.spill_leads
    | with_reducible apply State.Leads.ite
    | with_reducible refine State.Leads.ite1 ?_ ?_
    | intro _
    | with_reducible refine State.Leads.foldl ?_ (fun _ _ _ => ?_)
    | fail_if_no_progress (with_reducible refine State.Leads.upd ?_ rfl rfl rfl rfl rfl rfl rfl rfl rfl rfl rfl)
    | with_reducible refine State.Leads.snd ?_ (by assumption)
    | with_reducible refine State.Leads.fst ?_ (by assumption)
    | extract_lets
    | split

theorem State.contOp_leads {s0 : State} {s : State} (p : Nat) (slot : Nat) (w : Nat) (hL : s0.Leads s) :
    s0.Leads (State.contOp s p slot w) := by
  unfold State.contOp
  repeat' first
    | with_reducible assumption
    | with_reducible apply State.bump_leads
    | with_reducible apply State.setFrameTag_leads
    | with_reducible apply State.contApply_leads
    | with_reducible apply State.Leads.ite
    | with_reducible refine State.Leads.ite1 ?_ ?_
    | intro _
    | fail_if_no_progress (with_reducible refine State.Leads.upd ?_ rfl rfl rfl rfl rfl rfl rfl rfl rfl rfl rfl)
    | with_reducible refine State.Leads.snd ?_ (by assumption)
    | with_reducible refine State.Leads.fst ?_ (by assumption)
    | extract_lets
    | split

theorem State.setKernel_leads {s0 : State} {s : State} (slot : Nat) (id : Nat) (k : Kernel) (hL : s0.Leads s) :
    s0.Leads (State.setKernel s slot id k) := by
  unfold State.setKernel
  repeat' first
    | with_reducible assumption
    | with_reducible apply State.Leads.ite
    | with_reducible refine State.Leads.ite1 ?_ ?_
    | intro _
    | fail_if_no_progress (with_reducible refine State.Leads.upd ?_ rfl rfl rfl rfl rfl rfl rfl rfl rfl rfl rfl)

theorem State.startTask_leads {s0 : State} {s : State} (p : Nat) (t : Task) (args : List Byte) (hL : s0.Leads s) :
    s0.Leads (State.startTask s p t args) := by
  unfold State.startTask
  repeat' first
    | with_reducible assumption
    | with_reducible apply State.setJob_leads
    | with_reducible apply State.setCore_leads
    | with_reducible apply State.Leads.ite
    | with_reducible refine State.Leads.ite1 ?_ ?_
    | intro _
    | fail_if_no_progress (with_reducible refine State.Leads.upd ?_ rfl rfl rfl rfl rfl rfl rfl rfl rfl rfl rfl)

theorem State.endStall_leads {s0 : State} {s : State} (p : Nat) (hL : s0.Leads s) :
    s0.Leads (State.endStall s p) := by
  unfold State.endStall
  repeat' first
    | with_reducible assumption
    | with_reducible apply State.bump_leads
    | with_reducible apply State.setCore_leads
    | with_reducible apply State.Leads.ite
    | with_reducible refine State.Leads.ite1 ?_ ?_
    | intro _
    | fail_if_no_progress (with_reducible refine State.Leads.upd ?_ rfl rfl rfl rfl rfl rfl rfl rfl rfl rfl rfl)
    | with_reducible refine State.Leads.snd ?_ (by assumption)
    | with_reducible refine State.Leads.fst ?_ (by assumption)
    | extract_lets
    | split

theorem State.openRing_leads {s0 : State} {s : State} (x : AttnRun) (p : Nat) (hL : s0.Leads s) :
    s0.Leads (State.openRing s x p).1 := by
  unfold State.openRing
  repeat' first
    | with_reducible assumption
    | with_reducible apply State.setReg_leads
    | with_reducible apply State.setEmptyRange_leads
    | with_reducible apply State.setTurnout_leads

theorem State.closeRing_leads {s0 : State} {s : State} (x : AttnRun) (p : Nat) (t : Nat) (n : Nat) (hL : s0.Leads s) :
    s0.Leads (State.closeRing s x p t n) := by
  unfold State.closeRing
  repeat' first
    | with_reducible assumption
    | with_reducible apply State.setFld_leads
    | with_reducible apply State.closeTurnout_leads

theorem State.copyOnWrite_leads {s0 : State} {s : State} (x : AttnRun) (va : Nat) (old : Nat) (hL : s0.Leads s) :
    s0.Leads (State.copyOnWrite s x va old) := by
  unfold State.copyOnWrite
  repeat' first
    | with_reducible assumption
    | with_reducible apply State.memWrite_leads
    | with_reducible apply State.memTouch_leads
    | with_reducible apply State.startShoot_leads
    | with_reducible apply State.editPage_leads
    | with_reducible refine State.mapPage_leads (by assumption) ?_
    | with_reducible refine State.takePage_leads (by assumption) ?_
    | with_reducible apply State.Leads.ite
    | with_reducible refine State.Leads.ite1 ?_ ?_
    | intro _
    | with_reducible refine State.Leads.foldl ?_ (fun _ _ _ => ?_)
    | fail_if_no_progress (with_reducible refine State.Leads.upd ?_ rfl rfl rfl rfl rfl rfl rfl rfl rfl rfl rfl)
    | with_reducible refine State.Leads.snd ?_ (by assumption)
    | with_reducible refine State.Leads.fst ?_ (by assumption)
    | extract_lets
    | split

theorem State.appendRows_leads {s0 : State} {s : State} (x : AttnRun) (hL : s0.Leads s) :
    s0.Leads (State.appendRows s x) := by
  unfold State.appendRows
  repeat' first
    | with_reducible assumption
    | with_reducible apply State.memWrite_leads
    | with_reducible apply State.vtouch_leads
    | with_reducible apply State.setKvSeq_leads
    | with_reducible apply State.Leads.ite
    | with_reducible refine State.Leads.ite1 ?_ ?_
    | intro _
    | (with_reducible refine State.Leads.foldl ?_ (fun _ _ _ => ?_) <;> beta_reduce)
    | fail_if_no_progress (with_reducible refine State.Leads.upd ?_ rfl rfl rfl rfl rfl rfl rfl rfl rfl rfl rfl)
    | with_reducible refine State.Leads.snd ?_ (by assumption)
    | with_reducible refine State.Leads.fst ?_ (by assumption)
    | extract_lets
    | split

theorem State.setAttnRun_leads {s0 : State} {s : State} (x : AttnRun) (hL : s0.Leads s) :
    s0.Leads (State.setAttnRun s x) := by
  unfold State.setAttnRun
  repeat' first
    | with_reducible assumption
    | with_reducible apply State.Leads.ite
    | with_reducible refine State.Leads.ite1 ?_ ?_
    | intro _
    | fail_if_no_progress (with_reducible refine State.Leads.upd ?_ rfl rfl rfl rfl rfl rfl rfl rfl rfl rfl rfl)

theorem State.dropAttnRun_leads {s0 : State} {s : State} (order : Nat) (hL : s0.Leads s) :
    s0.Leads (State.dropAttnRun s order) := by
  unfold State.dropAttnRun
  repeat' first
    | with_reducible assumption
    | with_reducible apply State.Leads.ite
    | with_reducible refine State.Leads.ite1 ?_ ?_
    | intro _
    | fail_if_no_progress (with_reducible refine State.Leads.upd ?_ rfl rfl rfl rfl rfl rfl rfl rfl rfl rfl rfl)

theorem State.failRun_leads {s0 : State} {s : State} (x : AttnRun) (status : Nat) (detail : Nat) (hL : s0.Leads s) :
    s0.Leads (State.failRun s x status detail) := by
  unfold State.failRun
  repeat' first
    | with_reducible assumption
    | with_reducible apply State.bump_leads
    | with_reducible apply State.finish_leads
    | with_reducible apply State.dropAttnRun_leads
    | with_reducible apply State.Leads.ite
    | with_reducible refine State.Leads.ite1 ?_ ?_
    | intro _
    | with_reducible refine State.Leads.foldl ?_ (fun _ _ _ => ?_)
    | fail_if_no_progress (with_reducible refine State.Leads.upd ?_ rfl rfl rfl rfl rfl rfl rfl rfl rfl rfl rfl)

theorem State.startRun_leads {s0 : State} {s : State} (x : AttnRun) (hL : s0.Leads s) :
    s0.Leads (State.startRun s x) := by
  unfold State.startRun
  repeat' first
    | with_reducible assumption
    | with_reducible apply State.bump_leads
    | with_reducible apply State.vfault_leads
    | with_reducible apply State.setKvSeq_leads
    | with_reducible apply State.editPage_leads
    | with_reducible apply State.openRing_leads
    | with_reducible apply State.copyOnWrite_leads
    | with_reducible apply State.appendRows_leads
    | with_reducible apply State.setAttnRun_leads
    | with_reducible apply State.failRun_leads
    | with_reducible apply State.Leads.ite
    | with_reducible refine State.Leads.ite1 ?_ ?_
    | intro _
    | with_reducible refine State.Leads.foldl ?_ (fun _ _ _ => ?_)
    | with_reducible refine State.Leads.foldl1 ?_ (fun _ _ _ => ?_)
    | fail_if_no_progress (with_reducible refine State.Leads.upd ?_ rfl rfl rfl rfl rfl rfl rfl rfl rfl rfl rfl)
    | with_reducible refine State.Leads.snd ?_ (by assumption)
    | with_reducible refine State.Leads.fst ?_ (by assumption)
    | extract_lets
    | split

theorem State.attnPump_leads {s0 s : State} (k : Nat) (hL : s0.Leads s) : s0.Leads (State.attnPump k s) := by
  induction k generalizing s with
  | zero => exact hL
  | succ k ih =>
    unfold State.attnPump
    repeat' first
      | with_reducible assumption
      | with_reducible apply State.startRun_leads
      | with_reducible apply ih
      | with_reducible apply State.Leads.ite
      | with_reducible refine State.Leads.ite1 ?_ ?_
      | intro _
      | fail_if_no_progress (with_reducible refine State.Leads.upd ?_ rfl rfl rfl rfl rfl rfl rfl rfl rfl rfl rfl)
      | with_reducible refine State.Leads.snd ?_ (by assumption)
      | with_reducible refine State.Leads.fst ?_ (by assumption)
      | extract_lets
      | split

theorem State.pumpRuns_leads {s0 : State} {s : State} (hL : s0.Leads s) :
    s0.Leads (State.pumpRuns s) := by
  unfold State.pumpRuns
  repeat' first
    | with_reducible assumption
    | with_reducible apply State.attnPump_leads

theorem State.endRun_leads {s0 : State} {s : State} (order : Nat) (hL : s0.Leads s) :
    s0.Leads (State.endRun s order) := by
  unfold State.endRun
  repeat' first
    | with_reducible assumption
    | with_reducible apply State.setReg_leads
    | with_reducible apply State.bump_leads
    | with_reducible apply State.finish_leads
    | with_reducible apply State.setKvSeq_leads
    | with_reducible apply State.freePage_leads
    | with_reducible apply State.editPage_leads
    | with_reducible apply State.closeRing_leads
    | with_reducible apply State.dropAttnRun_leads
    | with_reducible apply State.pumpRuns_leads
    | with_reducible apply State.Leads.ite
    | with_reducible refine State.Leads.ite1 ?_ ?_
    | intro _
    | with_reducible refine State.Leads.foldl ?_ (fun _ _ _ => ?_)
    | fail_if_no_progress (with_reducible refine State.Leads.upd ?_ rfl rfl rfl rfl rfl rfl rfl rfl rfl rfl rfl)
    | with_reducible refine State.Leads.snd ?_ (by assumption)
    | with_reducible refine State.Leads.fst ?_ (by assumption)
    | extract_lets
    | split

theorem State.attnTaskEnd_leads {s0 : State} {s : State} (order : Nat) (fault : Bool) (hL : s0.Leads s) :
    s0.Leads (State.attnTaskEnd s order fault) := by
  unfold State.attnTaskEnd
  repeat' first
    | with_reducible assumption
    | with_reducible apply State.endRun_leads
    | with_reducible apply State.Leads.ite
    | with_reducible refine State.Leads.ite1 ?_ ?_
    | intro _
    | fail_if_no_progress (with_reducible refine State.Leads.upd ?_ rfl rfl rfl rfl rfl rfl rfl rfl rfl rfl rfl)
    | with_reducible refine State.Leads.snd ?_ (by assumption)
    | with_reducible refine State.Leads.fst ?_ (by assumption)
    | extract_lets
    | split

theorem execSeqCreatePool_leads (c : Command) (s : State) : ∃ nxt, execSeqCreatePool c s = .next nxt ∧ s.Leads nxt := by
  unfold execSeqCreatePool
  refine State.Leads.live ?_
  have hL := State.Leads.refl s
  repeat' first
    | with_reducible assumption
    | with_reducible apply State.finish_leads
    | with_reducible apply State.checked_leads
    | with_reducible apply State.memZero_leads
    | with_reducible apply State.setKvPool_leads
    | with_reducible apply State.Leads.ite
    | with_reducible refine State.Leads.ite1 ?_ ?_
    | intro _

theorem execSeqCreateSequence_leads (c : Command) (s : State) : ∃ nxt, execSeqCreateSequence c s = .next nxt ∧ s.Leads nxt := by
  unfold execSeqCreateSequence
  refine State.Leads.live ?_
  have hL := State.Leads.refl s
  repeat' first
    | with_reducible assumption
    | with_reducible apply State.finish_leads
    | with_reducible apply State.checked_leads
    | with_reducible apply State.setKvSeq_leads
    | with_reducible apply State.Leads.ite
    | with_reducible refine State.Leads.ite1 ?_ ?_
    | intro _

theorem execSeqDestroy_leads (c : Command) (s : State) : ∃ nxt, execSeqDestroy c s = .next nxt ∧ s.Leads nxt := by
  unfold execSeqDestroy
  refine State.Leads.live ?_
  have hL := State.Leads.refl s
  repeat' first
    | with_reducible assumption
    | with_reducible apply State.checked_leads
    | with_reducible apply State.runEdit_leads
    | with_reducible apply State.Leads.ite
    | with_reducible refine State.Leads.ite1 ?_ ?_
    | intro _

theorem execKvPageMap_leads (c : Command) (s : State) : ∃ nxt, execKvPageMap c s = .next nxt ∧ s.Leads nxt := by
  unfold execKvPageMap
  refine State.Leads.live ?_
  have hL := State.Leads.refl s
  repeat' first
    | with_reducible assumption
    | with_reducible apply State.checked_leads
    | with_reducible apply State.runEdit_leads
    | with_reducible apply State.Leads.ite
    | with_reducible refine State.Leads.ite1 ?_ ?_
    | intro _

theorem execKvPageShare_leads (c : Command) (s : State) : ∃ nxt, execKvPageShare c s = .next nxt ∧ s.Leads nxt := by
  unfold execKvPageShare
  refine State.Leads.live ?_
  have hL := State.Leads.refl s
  repeat' first
    | with_reducible assumption
    | with_reducible apply State.checked_leads
    | with_reducible apply State.runEdit_leads
    | with_reducible apply State.Leads.ite
    | with_reducible refine State.Leads.ite1 ?_ ?_
    | intro _

theorem execKvPageFree_leads (c : Command) (s : State) : ∃ nxt, execKvPageFree c s = .next nxt ∧ s.Leads nxt := by
  unfold execKvPageFree
  refine State.Leads.live ?_
  have hL := State.Leads.refl s
  repeat' first
    | with_reducible assumption
    | with_reducible apply State.checked_leads
    | with_reducible apply State.runEdit_leads
    | with_reducible apply State.Leads.ite
    | with_reducible refine State.Leads.ite1 ?_ ?_
    | intro _

theorem execAttnRun_leads (c : Command) (s : State) : ∃ nxt, execAttnRun c s = .next nxt ∧ s.Leads nxt := by
  unfold execAttnRun
  refine State.Leads.live ?_
  have hL := State.Leads.refl s
  repeat' first
    | with_reducible assumption
    | with_reducible apply State.checked_leads
    | with_reducible apply State.pumpRuns_leads
    | with_reducible apply State.Leads.ite
    | with_reducible refine State.Leads.ite1 ?_ ?_
    | intro _
    | fail_if_no_progress (with_reducible refine State.Leads.upd ?_ rfl rfl rfl rfl rfl rfl rfl rfl rfl rfl rfl)

theorem execAttnTileSend_leads (p : Nat) (s : State) : ∃ nxt, execAttnTileSend p s = .next nxt ∧ s.Leads nxt := by
  unfold execAttnTileSend
  refine State.Leads.live ?_
  have hL := State.Leads.refl s
  repeat' first
    | with_reducible assumption
    | with_reducible apply State.bump_leads
    | with_reducible apply State.onlyIf_leads
    | with_reducible apply State.remoteWrite_leads
    | with_reducible apply State.setAttnRun_leads
    | with_reducible apply State.Leads.ite
    | with_reducible refine State.Leads.ite1 ?_ ?_
    | intro _
    | with_reducible refine State.Leads.foldl ?_ (fun _ _ _ => ?_)
    | fail_if_no_progress (with_reducible refine State.Leads.upd ?_ rfl rfl rfl rfl rfl rfl rfl rfl rfl rfl rfl)
    | with_reducible refine State.Leads.snd ?_ (by assumption)
    | with_reducible refine State.Leads.fst ?_ (by assumption)
    | extract_lets
    | split

theorem execDeferredEditApply_leads (id : Nat) (s : State) : ∃ nxt, execDeferredEditApply id s = .next nxt ∧ s.Leads nxt := by
  unfold execDeferredEditApply
  refine State.Leads.live ?_
  have hL := State.Leads.refl s
  repeat' first
    | with_reducible assumption
    | with_reducible apply State.onlyIf_leads
    | with_reducible apply State.applyHeld_leads
    | with_reducible apply State.pumpRuns_leads
    | with_reducible apply State.Leads.ite
    | with_reducible refine State.Leads.ite1 ?_ ?_
    | intro _

end Sys2Proof.Machine
end

