-- ==== Sys2Proof/Laws/LeadsTime.lean ====
section
/-! SUPPORT. The state leads on to the state after: timecode, the links, the claps and the decodes. -/

namespace Sys2Proof.Machine

theorem State.tcReselect_leads {s0 : State} {s : State} (hL : s0.Leads s) :
    s0.Leads (State.tcReselect s) := by
  unfold State.tcReselect
  repeat' first
    | with_reducible assumption
    | with_reducible apply State.Leads.ite
    | with_reducible refine State.Leads.ite1 ?_ ?_
    | intro _
    | fail_if_no_progress (with_reducible refine State.Leads.upd ?_ rfl rfl rfl rfl rfl rfl rfl rfl rfl rfl rfl)

theorem State.tcMeasured_leads {s0 : State} {s : State} (offset : Int) (hL : s0.Leads s) :
    s0.Leads (State.tcMeasured s offset) := by
  unfold State.tcMeasured
  repeat' first
    | with_reducible assumption
    | with_reducible apply State.csSetBits_leads
    | with_reducible apply State.tcReselect_leads
    | with_reducible apply State.Leads.ite
    | with_reducible refine State.Leads.ite1 ?_ ?_
    | intro _
    | fail_if_no_progress (with_reducible refine State.Leads.upd ?_ rfl rfl rfl rfl rfl rfl rfl rfl rfl rfl rfl)
    | with_reducible refine State.Leads.snd ?_ (by assumption)
    | with_reducible refine State.Leads.fst ?_ (by assumption)
    | extract_lets
    | split

theorem State.tcExchange_leads {s0 : State} {s : State} (p : Nat) (l : LinkControl) (hL : s0.Leads s) :
    s0.Leads (State.tcExchange s p l) := by
  unfold State.tcExchange
  repeat' first
    | with_reducible assumption
    | with_reducible apply State.stamp_leads
    | with_reducible apply State.heard_leads
    | with_reducible apply State.tcReselect_leads
    | with_reducible apply State.tcMeasured_leads
    | with_reducible apply State.Leads.ite
    | with_reducible refine State.Leads.ite1 ?_ ?_
    | intro _
    | fail_if_no_progress (with_reducible refine State.Leads.upd ?_ rfl rfl rfl rfl rfl rfl rfl rfl rfl rfl rfl)

theorem State.tcPortDown_leads {s0 : State} {s : State} (p : Nat) (hL : s0.Leads s) :
    s0.Leads (State.tcPortDown s p) := by
  unfold State.tcPortDown
  repeat' first
    | with_reducible assumption
    | with_reducible apply State.tcReselect_leads
    | with_reducible apply State.Leads.ite
    | with_reducible refine State.Leads.ite1 ?_ ?_
    | intro _
    | fail_if_no_progress (with_reducible refine State.Leads.upd ?_ rfl rfl rfl rfl rfl rfl rfl rfl rfl rfl rfl)

theorem State.enterHoldover_leads {s0 : State} {s : State} (lostAt : Nat) (hL : s0.Leads s) :
    s0.Leads (State.enterHoldover s lostAt) := by
  unfold State.enterHoldover
  repeat' first
    | with_reducible assumption
    | with_reducible apply State.Leads.ite
    | with_reducible refine State.Leads.ite1 ?_ ?_
    | intro _
    | fail_if_no_progress (with_reducible refine State.Leads.upd ?_ rfl rfl rfl rfl rfl rfl rfl rfl rfl rfl rfl)

theorem State.tick_leads {s0 : State} {s : State} (hL : s0.Leads s) :
    s0.Leads (State.tick s) := by
  unfold State.tick
  repeat' first
    | with_reducible assumption
    | with_reducible apply State.Leads.ite
    | with_reducible refine State.Leads.ite1 ?_ ?_
    | intro _
    | fail_if_no_progress (with_reducible refine State.Leads.upd ?_ rfl rfl rfl rfl rfl rfl rfl rfl rfl rfl rfl)

theorem State.afterHeader_leads {s0 : State} {s : State} (ns : Nat) (hL : s0.Leads s) :
    s0.Leads (State.afterHeader s ns).2 := by
  unfold State.afterHeader
  repeat' first
    | with_reducible assumption
    | with_reducible apply State.Leads.ite
    | with_reducible refine State.Leads.ite1 ?_ ?_
    | intro _
    | fail_if_no_progress (with_reducible refine State.Leads.upd ?_ rfl rfl rfl rfl rfl rfl rfl rfl rfl rfl rfl)
    | with_reducible refine State.Leads.snd ?_ (by assumption)
    | with_reducible refine State.Leads.fst ?_ (by assumption)
    | extract_lets
    | split

theorem execPtpMessage_leads (m : PtpMessage) (s : State) : ∃ nxt, execPtpMessage m s = .next nxt ∧ s.Leads nxt := by
  unfold execPtpMessage
  refine State.Leads.live ?_
  have hL := State.Leads.refl s
  repeat' first
    | with_reducible assumption
    | with_reducible apply State.onlyIf_leads
    | with_reducible apply State.tcReselect_leads
    | with_reducible apply State.tcMeasured_leads
    | with_reducible apply State.Leads.ite
    | with_reducible refine State.Leads.ite1 ?_ ?_
    | intro _
    | fail_if_no_progress (with_reducible refine State.Leads.upd ?_ rfl rfl rfl rfl rfl rfl rfl rfl rfl rfl rfl)
    | with_reducible refine State.Leads.snd ?_ (by assumption)
    | with_reducible refine State.Leads.fst ?_ (by assumption)
    | extract_lets
    | split

theorem execServoAdjust_leads  (s : State) : ∃ nxt, execServoAdjust s = .next nxt ∧ s.Leads nxt := by
  unfold execServoAdjust
  refine State.Leads.live ?_
  have hL := State.Leads.refl s
  repeat' first
    | with_reducible assumption
    | with_reducible apply State.onlyIf_leads
    | with_reducible apply State.Leads.ite
    | with_reducible refine State.Leads.ite1 ?_ ?_
    | intro _
    | fail_if_no_progress (with_reducible refine State.Leads.upd ?_ rfl rfl rfl rfl rfl rfl rfl rfl rfl rfl rfl)

theorem execParentSearchTimeout_leads  (s : State) : ∃ nxt, execParentSearchTimeout s = .next nxt ∧ s.Leads nxt := by
  unfold execParentSearchTimeout
  refine State.Leads.live ?_
  have hL := State.Leads.refl s
  repeat' first
    | with_reducible assumption
    | with_reducible apply State.onlyIf_leads
    | with_reducible apply State.enterHoldover_leads
    | with_reducible apply State.Leads.ite
    | with_reducible refine State.Leads.ite1 ?_ ?_
    | intro _
    | fail_if_no_progress (with_reducible refine State.Leads.upd ?_ rfl rfl rfl rfl rfl rfl rfl rfl rfl rfl rfl)
    | with_reducible refine State.Leads.snd ?_ (by assumption)
    | with_reducible refine State.Leads.fst ?_ (by assumption)
    | extract_lets
    | split

theorem execPtpLost_leads  (s : State) : ∃ nxt, execPtpLost s = .next nxt ∧ s.Leads nxt := by
  unfold execPtpLost
  refine State.Leads.live ?_
  have hL := State.Leads.refl s
  repeat' first
    | with_reducible assumption
    | with_reducible apply State.onlyIf_leads
    | with_reducible apply State.enterHoldover_leads
    | with_reducible apply State.Leads.ite
    | with_reducible refine State.Leads.ite1 ?_ ?_
    | intro _
    | fail_if_no_progress (with_reducible refine State.Leads.upd ?_ rfl rfl rfl rfl rfl rfl rfl rfl rfl rfl rfl)

theorem execHoldoverLimitExceeded_leads  (s : State) : ∃ nxt, execHoldoverLimitExceeded s = .next nxt ∧ s.Leads nxt := by
  unfold execHoldoverLimitExceeded
  refine State.Leads.live ?_
  have hL := State.Leads.refl s
  repeat' first
    | with_reducible assumption
    | with_reducible apply State.csClearBits_leads
    | with_reducible apply State.onlyIf_leads
    | with_reducible apply State.Leads.ite
    | with_reducible refine State.Leads.ite1 ?_ ?_
    | intro _
    | fail_if_no_progress (with_reducible refine State.Leads.upd ?_ rfl rfl rfl rfl rfl rfl rfl rfl rfl rfl rfl)

theorem execUnlockedNsLimit_leads  (s : State) : ∃ nxt, execUnlockedNsLimit s = .next nxt ∧ s.Leads nxt := by
  unfold execUnlockedNsLimit
  refine State.Leads.live ?_
  have hL := State.Leads.refl s
  repeat' first
    | with_reducible assumption
    | with_reducible apply State.onlyIf_leads
    | with_reducible apply State.Leads.ite
    | with_reducible refine State.Leads.ite1 ?_ ?_
    | intro _
    | fail_if_no_progress (with_reducible refine State.Leads.upd ?_ rfl rfl rfl rfl rfl rfl rfl rfl rfl rfl rfl)

theorem State.setPort_leads {s0 : State} {s : State} (p : Nat) (x : Port) (hL : s0.Leads s) :
    s0.Leads (State.setPort s p x) := by
  unfold State.setPort
  repeat' first
    | with_reducible assumption
    | with_reducible apply State.Leads.ite
    | with_reducible refine State.Leads.ite1 ?_ ?_
    | intro _
    | fail_if_no_progress (with_reducible refine State.Leads.upd ?_ rfl rfl rfl rfl rfl rfl rfl rfl rfl rfl rfl)

theorem State.portPhase_leads {s0 : State} {s : State} (p : Nat) (ph : PortPhase) (hL : s0.Leads s) :
    s0.Leads (State.portPhase s p ph) := by
  unfold State.portPhase
  repeat' first
    | with_reducible assumption
    | with_reducible apply State.recordAll_leads
    | with_reducible apply State.csSetBits_leads
    | with_reducible apply State.csClearBits_leads
    | with_reducible apply State.tcPortDown_leads
    | with_reducible apply State.setPort_leads
    | with_reducible apply State.Leads.ite

theorem State.sealPacket_leads {s0 : State} {s : State} (p : Nat) (k : Packet) (hL : s0.Leads s) :
    s0.Leads (State.sealPacket s p k).2 := by
  unfold State.sealPacket
  repeat' first
    | with_reducible assumption
    | with_reducible apply State.stamp_leads
    | with_reducible apply State.Leads.ite
    | with_reducible refine State.Leads.ite1 ?_ ?_
    | intro _
    | fail_if_no_progress (with_reducible refine State.Leads.upd ?_ rfl rfl rfl rfl rfl rfl rfl rfl rfl rfl rfl)
    | with_reducible refine State.Leads.snd ?_ (by assumption)
    | with_reducible refine State.Leads.fst ?_ (by assumption)
    | extract_lets
    | split

theorem State.kick_leads {s0 s : State} (k p : Nat) (hL : s0.Leads s) : s0.Leads (State.kick k s p) := by
  induction k generalizing s with
  | zero => exact hL
  | succ k ih =>
    unfold State.kick
    repeat' first
      | with_reducible assumption
      | with_reducible apply State.bump_leads
      | with_reducible apply State.emit_leads
      | with_reducible apply State.setPort_leads
      | with_reducible apply State.sealPacket_leads
      | with_reducible apply ih
      | with_reducible apply State.Leads.ite
      | with_reducible refine State.Leads.ite1 ?_ ?_
      | intro _
      | fail_if_no_progress (with_reducible refine State.Leads.upd ?_ rfl rfl rfl rfl rfl rfl rfl rfl rfl rfl rfl)
      | with_reducible refine State.Leads.snd ?_ (by assumption)
      | with_reducible refine State.Leads.fst ?_ (by assumption)
      | extract_lets
      | split

theorem State.kickPort_leads {s0 : State} {s : State} (p : Nat) (hL : s0.Leads s) :
    s0.Leads (State.kickPort s p) := by
  unfold State.kickPort
  repeat' first
    | with_reducible assumption
    | with_reducible apply State.kick_leads

theorem State.enqueue_leads {s0 : State} {s : State} (p : Nat) (k : Packet) (hL : s0.Leads s) :
    s0.Leads (State.enqueue s p k) := by
  unfold State.enqueue
  repeat' first
    | with_reducible assumption
    | with_reducible apply State.setPort_leads
    | with_reducible apply State.kickPort_leads

theorem State.sendPacket_leads {s0 : State} {s : State} (k : Packet) (inPort : Nat) (hL : s0.Leads s) :
    s0.Leads (State.sendPacket s k inPort) := by
  unfold State.sendPacket
  repeat' first
    | with_reducible assumption
    | with_reducible apply State.bump_leads
    | with_reducible apply State.logError_leads
    | with_reducible apply State.enqueue_leads
    | with_reducible apply State.Leads.ite
    | with_reducible refine State.Leads.ite1 ?_ ?_
    | intro _
    | fail_if_no_progress (with_reducible refine State.Leads.upd ?_ rfl rfl rfl rfl rfl rfl rfl rfl rfl rfl rfl)
    | with_reducible refine State.Leads.snd ?_ (by assumption)
    | with_reducible refine State.Leads.fst ?_ (by assumption)
    | extract_lets
    | split

theorem State.sendWaiting_leads {s0 : State} {s : State} (hL : s0.Leads s) :
    s0.Leads (State.sendWaiting s) := by
  unfold State.sendWaiting
  repeat' first
    | with_reducible assumption
    | with_reducible apply State.sendPacket_leads
    | with_reducible apply State.Leads.ite
    | with_reducible refine State.Leads.ite1 ?_ ?_
    | intro _
    | with_reducible refine State.Leads.foldl ?_ (fun _ _ _ => ?_)
    | fail_if_no_progress (with_reducible refine State.Leads.upd ?_ rfl rfl rfl rfl rfl rfl rfl rfl rfl rfl rfl)

theorem State.portLost_leads {s0 : State} {s : State} (p : Nat) (ph : PortPhase) (hL : s0.Leads s) :
    s0.Leads (State.portLost s p ph) := by
  unfold State.portLost
  repeat' first
    | with_reducible assumption
    | with_reducible apply State.setPort_leads
    | with_reducible apply State.portPhase_leads
    | with_reducible apply State.sendPacket_leads
    | with_reducible apply State.sendWaiting_leads
    | with_reducible apply State.Leads.ite
    | with_reducible refine State.Leads.ite1 ?_ ?_
    | intro _
    | with_reducible refine State.Leads.foldl ?_ (fun _ _ _ => ?_)

theorem State.portUpNow_leads {s0 : State} {s : State} (p : Nat) (hL : s0.Leads s) :
    s0.Leads (State.portUpNow s p) := by
  unfold State.portUpNow
  repeat' first
    | with_reducible assumption
    | with_reducible apply State.setPort_leads
    | with_reducible apply State.portPhase_leads
    | with_reducible apply State.sendWaiting_leads

theorem State.originate_leads {s0 : State} {s : State} (slot : Nat) (type : Nat) (flags : Nat) (dst : Nat) (level : Nat)
    (pass : Nat) (opId : Nat) (tag : Nat) (offset : Nat) (epoch : Nat) (payload : List Byte) (hL : s0.Leads s) :
    s0.Leads (State.originate s slot type flags dst level pass opId tag offset epoch payload) := by
  unfold State.originate
  repeat' first
    | with_reducible assumption
    | with_reducible apply State.setFjob_leads
    | with_reducible apply State.sendPacket_leads

theorem State.linkAck_leads {s0 : State} {s : State} (p : Nat) (ack : Nat) (hL : s0.Leads s) :
    s0.Leads (State.linkAck s p ack) := by
  unfold State.linkAck
  repeat' first
    | with_reducible assumption
    | with_reducible apply State.setPort_leads
    | with_reducible apply State.kickPort_leads
    | with_reducible apply State.Leads.ite

theorem State.linkNack_leads {s0 : State} {s : State} (p : Nat) (seq : Nat) (hL : s0.Leads s) :
    s0.Leads (State.linkNack s p seq) := by
  unfold State.linkNack
  repeat' first
    | with_reducible assumption
    | with_reducible apply State.bump_leads
    | with_reducible apply State.emit_leads
    | with_reducible apply State.logError_leads
    | with_reducible apply State.setPort_leads
    | with_reducible apply State.portLost_leads
    | with_reducible apply State.Leads.ite
    | with_reducible refine State.Leads.ite1 ?_ ?_
    | intro _
    | with_reducible refine State.Leads.foldl ?_ (fun _ _ _ => ?_)

theorem State.acceptPacket_leads {s0 : State} {s : State} (slot : Nat) (k : Packet) (hL : s0.Leads s) :
    s0.Leads (State.acceptPacket s slot k) := by
  unfold State.acceptPacket
  repeat' first
    | with_reducible assumption
    | with_reducible apply State.setFjob_leads

theorem State.frameAt_leads {s0 : State} {s : State} (f : Frame) (type : Nat) (k : State → Option Nat → State) (hL
    : s0.Leads s) (h_k : ∀ (x0 : State) (x1 : Option Nat), s0.Leads x0 → s0.Leads (k x0 x1)) :
    s0.Leads (State.frameAt s f type k) := by
  unfold State.frameAt
  repeat' first
    | with_reducible assumption
    | with_reducible apply h_k
    | with_reducible apply State.bump_leads
    | with_reducible apply State.setPort_leads
    | with_reducible apply State.sendPacket_leads
    | with_reducible apply State.Leads.ite
    | with_reducible refine State.Leads.ite1 ?_ ?_
    | intro _
    | fail_if_no_progress (with_reducible refine State.Leads.upd ?_ rfl rfl rfl rfl rfl rfl rfl rfl rfl rfl rfl)
    | with_reducible refine State.Leads.snd ?_ (by assumption)
    | with_reducible refine State.Leads.fst ?_ (by assumption)
    | extract_lets
    | split

theorem State.frameIn_leads {s0 : State} {s : State} (f : Frame) (type : Nat) (k : State → Nat → State) (hL
    : s0.Leads s) (h_k : ∀ (x0 : State) (x1 : Nat), s0.Leads x0 → s0.Leads (k x0 x1)) :
    s0.Leads (State.frameIn s f type k) := by
  unfold State.frameIn
  repeat' first
    | with_reducible assumption
    | with_reducible apply h_k
    | with_reducible apply State.bump_leads
    | with_reducible apply State.frameAt_leads
    | with_reducible apply State.Leads.ite
    | with_reducible refine State.Leads.ite1 ?_ ?_
    | intro _
    | fail_if_no_progress (with_reducible refine State.Leads.upd ?_ rfl rfl rfl rfl rfl rfl rfl rfl rfl rfl rfl)
    | with_reducible refine State.Leads.snd ?_ (by assumption)
    | with_reducible refine State.Leads.fst ?_ (by assumption)
    | extract_lets
    | split

theorem State.staleEpoch_leads {s0 : State} {s : State} (slot : Nat) (f : Frame) (hL : s0.Leads s) :
    s0.Leads (State.staleEpoch s slot f) := by
  unfold State.staleEpoch
  repeat' first
    | with_reducible assumption
    | with_reducible apply State.bump_leads
    | with_reducible apply State.recordCmd_leads
    | with_reducible apply State.setFjob_leads
    | with_reducible apply State.afterHeader_leads
    | with_reducible apply State.Leads.ite
    | with_reducible refine State.Leads.ite1 ?_ ?_
    | intro _
    | fail_if_no_progress (with_reducible refine State.Leads.upd ?_ rfl rfl rfl rfl rfl rfl rfl rfl rfl rfl rfl)
    | with_reducible refine State.Leads.snd ?_ (by assumption)
    | with_reducible refine State.Leads.fst ?_ (by assumption)
    | extract_lets
    | split

theorem State.epochIn_leads {s0 : State} {s : State} (slot : Nat) (f : Frame) (boundary : State → State) (accept
    : State → State) (hL : s0.Leads s) (h_boundary : ∀ (x0 : State), s0.Leads x0 → s0.Leads (boundary x0)) (h_accept : ∀
    (x0 : State), s0.Leads x0 → s0.Leads (accept x0)) :
    s0.Leads (State.epochIn s slot f boundary accept) := by
  unfold State.epochIn
  repeat' first
    | with_reducible assumption
    | with_reducible apply h_boundary
    | with_reducible apply h_accept
    | with_reducible apply State.setFjob_leads
    | with_reducible apply State.acceptPacket_leads
    | with_reducible apply State.staleEpoch_leads
    | with_reducible apply State.boundary_leads
    | with_reducible apply State.verdict_leads
    | with_reducible apply State.Leads.ite
    | with_reducible refine State.Leads.ite1 ?_ ?_
    | intro _
    | fail_if_no_progress (with_reducible refine State.Leads.upd ?_ rfl rfl rfl rfl rfl rfl rfl rfl rfl rfl rfl)
    | with_reducible refine State.Leads.snd ?_ (by assumption)
    | with_reducible refine State.Leads.fst ?_ (by assumption)
    | extract_lets
    | split

theorem State.setClap_leads {s0 : State} {s : State} (slot : Nat) (n : Nat) (c : Clap) (hL : s0.Leads s) :
    s0.Leads (State.setClap s slot n c) := by
  unfold State.setClap
  repeat' first
    | with_reducible assumption
    | with_reducible apply State.Leads.ite
    | with_reducible refine State.Leads.ite1 ?_ ?_
    | intro _
    | fail_if_no_progress (with_reducible refine State.Leads.upd ?_ rfl rfl rfl rfl rfl rfl rfl rfl rfl rfl rfl)

theorem State.flushResv_leads {s0 : State} {s : State} (slot : Nat) (hL : s0.Leads s) :
    s0.Leads (State.flushResv s slot) := by
  unfold State.flushResv
  repeat' first
    | with_reducible assumption
    | with_reducible apply State.Leads.ite
    | with_reducible refine State.Leads.ite1 ?_ ?_
    | intro _
    | fail_if_no_progress (with_reducible refine State.Leads.upd ?_ rfl rfl rfl rfl rfl rfl rfl rfl rfl rfl rfl)

theorem State.releaseCore_leads {s0 : State} {s : State} (p : Nat) (hL : s0.Leads s) :
    s0.Leads (State.releaseCore s p) := by
  unfold State.releaseCore
  repeat' first
    | with_reducible assumption
    | with_reducible apply State.setCore_leads
    | with_reducible apply State.endStall_leads
    | with_reducible apply State.Leads.ite
    | with_reducible refine State.Leads.ite1 ?_ ?_
    | intro _
    | fail_if_no_progress (with_reducible refine State.Leads.upd ?_ rfl rfl rfl rfl rfl rfl rfl rfl rfl rfl rfl)
    | with_reducible refine State.Leads.snd ?_ (by assumption)
    | with_reducible refine State.Leads.fst ?_ (by assumption)
    | extract_lets
    | split

theorem State.clapComplete_leads {s0 : State} {s : State} (slot : Nat) (n : Nat) (hL : s0.Leads s) :
    s0.Leads (State.clapComplete s slot n) := by
  unfold State.clapComplete
  repeat' first
    | with_reducible assumption
    | with_reducible apply State.heard_leads
    | with_reducible apply State.setClap_leads
    | with_reducible apply State.flushResv_leads
    | with_reducible apply State.releaseCore_leads
    | with_reducible apply State.Leads.ite
    | with_reducible refine State.Leads.ite1 ?_ ?_
    | intro _
    | with_reducible refine State.Leads.foldl ?_ (fun _ _ _ => ?_)
    | fail_if_no_progress (with_reducible refine State.Leads.upd ?_ rfl rfl rfl rfl rfl rfl rfl rfl rfl rfl rfl)
    | with_reducible refine State.Leads.snd ?_ (by assumption)
    | with_reducible refine State.Leads.fst ?_ (by assumption)
    | extract_lets
    | split

theorem State.clapRounds_leads {s0 s : State} (k slot n : Nat) (hL : s0.Leads s) : s0.Leads (State.clapRounds k s slot n) := by
  induction k generalizing s with
  | zero => exact hL
  | succ k ih =>
    unfold State.clapRounds
    repeat' first
      | with_reducible assumption
      | with_reducible apply State.heard_leads
      | with_reducible apply State.originate_leads
      | with_reducible apply State.setClap_leads
      | with_reducible apply State.clapComplete_leads
      | with_reducible apply ih
      | with_reducible apply State.Leads.ite
      | with_reducible refine State.Leads.ite1 ?_ ?_
      | intro _
      | fail_if_no_progress (with_reducible refine State.Leads.upd ?_ rfl rfl rfl rfl rfl rfl rfl rfl rfl rfl rfl)
      | with_reducible refine State.Leads.snd ?_ (by assumption)
      | with_reducible refine State.Leads.fst ?_ (by assumption)
      | extract_lets
      | split

theorem State.clapExchange_leads {s0 : State} {s : State} (slot : Nat) (n : Nat) (hL : s0.Leads s) :
    s0.Leads (State.clapExchange s slot n) := by
  unfold State.clapExchange
  repeat' first
    | with_reducible assumption
    | with_reducible apply State.clapRounds_leads

theorem State.arrive_leads {s0 : State} {s : State} (slot : Nat) (n : Nat) (hL : s0.Leads s) :
    s0.Leads (State.arrive s slot n) := by
  unfold State.arrive
  repeat' first
    | with_reducible assumption
    | with_reducible apply State.setClap_leads
    | with_reducible apply State.clapComplete_leads
    | with_reducible apply State.clapExchange_leads
    | with_reducible apply State.Leads.ite
    | with_reducible refine State.Leads.ite1 ?_ ?_
    | intro _
    | fail_if_no_progress (with_reducible refine State.Leads.upd ?_ rfl rfl rfl rfl rfl rfl rfl rfl rfl rfl rfl)
    | with_reducible refine State.Leads.snd ?_ (by assumption)
    | with_reducible refine State.Leads.fst ?_ (by assumption)
    | extract_lets
    | split

theorem State.clapBrokenRecord_leads {s0 : State} {s : State} (slot : Nat) (n : Nat) (hL : s0.Leads s) :
    s0.Leads (State.clapBrokenRecord s slot n) := by
  unfold State.clapBrokenRecord
  repeat' first
    | with_reducible assumption
    | with_reducible apply State.recordAll_leads
    | with_reducible apply State.Leads.ite
    | with_reducible refine State.Leads.ite1 ?_ ?_
    | intro _
    | fail_if_no_progress (with_reducible refine State.Leads.upd ?_ rfl rfl rfl rfl rfl rfl rfl rfl rfl rfl rfl)
    | with_reducible refine State.Leads.snd ?_ (by assumption)
    | with_reducible refine State.Leads.fst ?_ (by assumption)
    | extract_lets
    | split

theorem State.keepEarly_leads {s0 : State} {s : State} (slot : Nat) (k : Packet) (hL : s0.Leads s) :
    s0.Leads (State.keepEarly s slot k) := by
  unfold State.keepEarly
  repeat' first
    | with_reducible assumption
    | with_reducible apply State.setFjob_leads
    | with_reducible apply State.Leads.ite

theorem State.clapIn_leads {s0 : State} {s : State} (slot : Nat) (k : Packet) (hL : s0.Leads s) :
    s0.Leads (State.clapIn s slot k) := by
  unfold State.clapIn
  repeat' first
    | with_reducible assumption
    | with_reducible apply State.heard_leads
    | with_reducible apply State.setClap_leads
    | with_reducible apply State.clapExchange_leads
    | with_reducible apply State.keepEarly_leads
    | with_reducible apply State.Leads.ite
    | with_reducible refine State.Leads.ite1 ?_ ?_
    | intro _
    | fail_if_no_progress (with_reducible refine State.Leads.upd ?_ rfl rfl rfl rfl rfl rfl rfl rfl rfl rfl rfl)
    | with_reducible refine State.Leads.snd ?_ (by assumption)
    | with_reducible refine State.Leads.fst ?_ (by assumption)
    | extract_lets
    | split

theorem State.clapEarly_leads {s0 : State} {s : State} (slot : Nat) (n : Nat) (hL : s0.Leads s) :
    s0.Leads (State.clapEarly s slot n) := by
  unfold State.clapEarly
  repeat' first
    | with_reducible assumption
    | with_reducible apply State.setFjob_leads
    | with_reducible apply State.setClap_leads
    | with_reducible apply State.clapBrokenRecord_leads
    | with_reducible apply State.clapIn_leads
    | with_reducible apply State.Leads.ite
    | with_reducible refine State.Leads.ite1 ?_ ?_
    | intro _
    | with_reducible refine State.Leads.foldl ?_ (fun _ _ _ => ?_)
    | fail_if_no_progress (with_reducible refine State.Leads.upd ?_ rfl rfl rfl rfl rfl rfl rfl rfl rfl rfl rfl)
    | with_reducible refine State.Leads.snd ?_ (by assumption)
    | with_reducible refine State.Leads.fst ?_ (by assumption)
    | extract_lets
    | split

theorem State.setDecodes_leads {s0 : State} {s : State} (e : Nat) (l : List Decode) (hL : s0.Leads s) :
    s0.Leads (State.setDecodes s e l) := by
  unfold State.setDecodes
  repeat' first
    | with_reducible assumption
    | with_reducible apply State.Leads.ite
    | with_reducible refine State.Leads.ite1 ?_ ?_
    | intro _
    | fail_if_no_progress (with_reducible refine State.Leads.upd ?_ rfl rfl rfl rfl rfl rfl rfl rfl rfl rfl rfl)

theorem State.cancelDecodes_leads {s0 : State} {s : State} (named : Decode → Bool) (hL : s0.Leads s) :
    s0.Leads (State.cancelDecodes s named) := by
  unfold State.cancelDecodes
  repeat' first
    | with_reducible assumption
    | with_reducible apply State.finish_leads
    | with_reducible apply State.setDecodes_leads
    | with_reducible apply State.Leads.ite
    | with_reducible refine State.Leads.ite1 ?_ ?_
    | intro _
    | with_reducible refine State.Leads.foldl ?_ (fun _ _ _ => ?_)
    | fail_if_no_progress (with_reducible refine State.Leads.upd ?_ rfl rfl rfl rfl rfl rfl rfl rfl rfl rfl rfl)
    | with_reducible refine State.Leads.snd ?_ (by assumption)
    | with_reducible refine State.Leads.fst ?_ (by assumption)
    | extract_lets
    | split

theorem State.retireDecodes_leads {s0 : State} {s : State} (e : Nat) (hL : s0.Leads s) :
    s0.Leads (State.retireDecodes s e) := by
  unfold State.retireDecodes
  repeat' first
    | with_reducible assumption
    | with_reducible apply State.finish_leads
    | with_reducible apply State.setDecodes_leads
    | with_reducible apply State.Leads.ite
    | with_reducible refine State.Leads.ite1 ?_ ?_
    | intro _
    | with_reducible refine State.Leads.foldl ?_ (fun _ _ _ => ?_)

end Sys2Proof.Machine
end

