-- ==== Sys2Proof/Laws/LeadsStreams.lean ====
section
/-! SUPPORT. The state leads on to the state after: streams and the ends of tasks. -/

namespace Sys2Proof.Machine

theorem State.setPool_leads {s0 : State} {s : State} (slot : Nat) (pool : Nat) (x : Pool) (hL : s0.Leads s) :
    s0.Leads (State.setPool s slot pool x) := by
  unfold State.setPool
  repeat' first
    | with_reducible assumption
    | with_reducible apply State.Leads.ite
    | with_reducible refine State.Leads.ite1 ?_ ?_
    | intro _
    | fail_if_no_progress (with_reducible refine State.Leads.upd ?_ rfl rfl rfl rfl rfl rfl rfl rfl rfl rfl rfl)

theorem State.setStream_leads {s0 : State} {s : State} (id : Nat) (x : Stream) (hL : s0.Leads s) :
    s0.Leads (State.setStream s id x) := by
  unfold State.setStream
  repeat' first
    | with_reducible assumption
    | with_reducible apply State.Leads.ite
    | with_reducible refine State.Leads.ite1 ?_ ?_
    | intro _
    | fail_if_no_progress (with_reducible refine State.Leads.upd ?_ rfl rfl rfl rfl rfl rfl rfl rfl rfl rfl rfl)

theorem State.noteProgress_leads {s0 : State} {s : State} (slot : Nat) (pool : Nat) (c : Nat) (hL : s0.Leads s) :
    s0.Leads (State.noteProgress s slot pool c) := by
  unfold State.noteProgress
  repeat' first
    | with_reducible assumption
    | with_reducible apply State.Leads.ite
    | with_reducible refine State.Leads.ite1 ?_ ?_
    | intro _
    | fail_if_no_progress (with_reducible refine State.Leads.upd ?_ rfl rfl rfl rfl rfl rfl rfl rfl rfl rfl rfl)

theorem State.track_leads {s0 : State} {s : State} (pa : Nat) (hL : s0.Leads s) :
    s0.Leads (State.track s pa) := by
  unfold State.track
  repeat' first
    | with_reducible assumption
    | with_reducible apply State.bump_leads
    | with_reducible apply State.Leads.ite
    | with_reducible refine State.Leads.ite1 ?_ ?_
    | intro _
    | fail_if_no_progress (with_reducible refine State.Leads.upd ?_ rfl rfl rfl rfl rfl rfl rfl rfl rfl rfl rfl)

theorem State.resvFill_leads {s0 : State} {s : State} (pa : Nat) (slot : Nat) (stream : Nat) (count : Nat) (headgate
    : Bool) (data : List Byte) (poison : Bool) (hL : s0.Leads s) :
    s0.Leads (State.resvFill s pa slot stream count headgate data poison) := by
  unfold State.resvFill
  repeat' first
    | with_reducible assumption
    | with_reducible apply State.bump_leads
    | with_reducible apply State.Leads.ite
    | with_reducible refine State.Leads.ite1 ?_ ?_
    | intro _
    | fail_if_no_progress (with_reducible refine State.Leads.upd ?_ rfl rfl rfl rfl rfl rfl rfl rfl rfl rfl rfl)
    | with_reducible refine State.Leads.snd ?_ (by assumption)
    | with_reducible refine State.Leads.fst ?_ (by assumption)
    | extract_lets
    | split

theorem State.resvRead_leads {s0 : State} {s : State} (pa : Nat) (slot : Nat) (stream : Nat) (count : Nat) (headgate
    : Bool) (hL : s0.Leads s) :
    s0.Leads (State.resvRead s pa slot stream count headgate).2 := by
  unfold State.resvRead
  repeat' first
    | with_reducible assumption
    | with_reducible apply State.bump_leads
    | with_reducible apply State.memTouch_leads
    | with_reducible apply State.resvFill_leads
    | with_reducible apply State.Leads.ite
    | with_reducible refine State.Leads.ite1 ?_ ?_
    | intro _
    | fail_if_no_progress (with_reducible refine State.Leads.upd ?_ rfl rfl rfl rfl rfl rfl rfl rfl rfl rfl rfl)
    | with_reducible refine State.Leads.snd ?_ (by assumption)
    | with_reducible refine State.Leads.fst ?_ (by assumption)
    | extract_lets
    | split

theorem State.hazard_leads {s0 : State} {s : State} (id : Nat) (stage : Nat) (where_ : Nat) (iter : Nat) (granule : Nat)
    (old : Nat) (new : Nat) (hL : s0.Leads s) :
    s0.Leads (State.hazard s id stage where_ iter granule old new) := by
  unfold State.hazard
  repeat' first
    | with_reducible assumption
    | with_reducible apply State.bump_leads
    | with_reducible apply State.recordCmd_leads
    | with_reducible apply State.Leads.ite
    | with_reducible refine State.Leads.ite1 ?_ ?_
    | intro _
    | fail_if_no_progress (with_reducible refine State.Leads.upd ?_ rfl rfl rfl rfl rfl rfl rfl rfl rfl rfl rfl)
    | with_reducible refine State.Leads.snd ?_ (by assumption)
    | with_reducible refine State.Leads.fst ?_ (by assumption)
    | extract_lets
    | split

theorem State.fetchData_leads {s0 : State} {s : State} (id : Nat) (iter : Nat) (k : Nat) (hL : s0.Leads s) :
    s0.Leads (State.fetchData s id iter k).2 := by
  unfold State.fetchData
  repeat' first
    | with_reducible assumption
    | with_reducible apply State.memTouch_leads
    | with_reducible apply State.track_leads
    | with_reducible apply State.resvRead_leads
    | with_reducible apply State.hazard_leads
    | with_reducible apply State.Leads.ite
    | with_reducible refine State.Leads.ite1 ?_ ?_
    | intro _
    | with_reducible refine State.Leads.foldl2 ?_ (fun _ _ _ => ?_)
    | fail_if_no_progress (with_reducible refine State.Leads.upd ?_ rfl rfl rfl rfl rfl rfl rfl rfl rfl rfl rfl)
    | with_reducible refine State.Leads.snd ?_ (by assumption)
    | with_reducible refine State.Leads.fst ?_ (by assumption)
    | extract_lets
    | split
    | dsimp only [id]
    | (dsimp +zetaDelta only; split)

theorem State.fillSlot_leads {s0 : State} {s : State} (slot : Nat) (c : Nat) (line : Nat) (data : List
    (List Byte × Bool)) (hL : s0.Leads s) :
    s0.Leads (State.fillSlot s slot c line data) := by
  unfold State.fillSlot
  repeat' first
    | with_reducible assumption
    | with_reducible apply State.remoteWrite_leads
    | with_reducible apply State.Leads.ite
    | with_reducible refine State.Leads.ite1 ?_ ?_
    | intro _
    | with_reducible refine State.Leads.foldl ?_ (fun _ _ _ => ?_)
    | fail_if_no_progress (with_reducible refine State.Leads.upd ?_ rfl rfl rfl rfl rfl rfl rfl rfl rfl rfl rfl)
    | with_reducible refine State.Leads.snd ?_ (by assumption)
    | with_reducible refine State.Leads.fst ?_ (by assumption)
    | extract_lets
    | split

theorem State.streamFaultRecord_leads {s0 : State} {s : State} (id : Nat) (stage : Nat) (iter : Nat) (va : Nat) (status
    : Nat) (hL : s0.Leads s) :
    s0.Leads (State.streamFaultRecord s id stage iter va status) := by
  unfold State.streamFaultRecord
  repeat' first
    | with_reducible assumption
    | with_reducible apply State.recordCmd_leads
    | with_reducible apply State.Leads.ite
    | with_reducible refine State.Leads.ite1 ?_ ?_
    | intro _
    | fail_if_no_progress (with_reducible refine State.Leads.upd ?_ rfl rfl rfl rfl rfl rfl rfl rfl rfl rfl rfl)
    | with_reducible refine State.Leads.snd ?_ (by assumption)
    | with_reducible refine State.Leads.fst ?_ (by assumption)
    | extract_lets
    | split

theorem State.dropUnplaced_leads {s0 : State} {s : State} (id : Nat) (hL : s0.Leads s) :
    s0.Leads (State.dropUnplaced s id) := by
  unfold State.dropUnplaced
  repeat' first
    | with_reducible assumption
    | with_reducible apply State.setEmptyRange_leads
    | with_reducible apply State.setStream_leads
    | with_reducible apply State.noteProgress_leads
    | with_reducible apply State.Leads.ite
    | with_reducible refine State.Leads.ite1 ?_ ?_
    | intro _
    | with_reducible refine State.Leads.foldl ?_ (fun _ _ _ => ?_)
    | fail_if_no_progress (with_reducible refine State.Leads.upd ?_ rfl rfl rfl rfl rfl rfl rfl rfl rfl rfl rfl)
    | with_reducible refine State.Leads.snd ?_ (by assumption)
    | with_reducible refine State.Leads.fst ?_ (by assumption)
    | extract_lets
    | split

theorem State.freeStream_leads {s0 : State} {s : State} (id : Nat) (hL : s0.Leads s) :
    s0.Leads (State.freeStream s id) := by
  unfold State.freeStream
  repeat' first
    | with_reducible assumption
    | with_reducible apply State.Leads.ite
    | with_reducible refine State.Leads.ite1 ?_ ?_
    | intro _
    | fail_if_no_progress (with_reducible refine State.Leads.upd ?_ rfl rfl rfl rfl rfl rfl rfl rfl rfl rfl rfl)

theorem State.nextRun_leads {s0 : State} {s : State} (id : Nat) (faulted : Bool) (hL : s0.Leads s) :
    s0.Leads (State.nextRun s id faulted) := by
  unfold State.nextRun
  repeat' first
    | with_reducible assumption
    | with_reducible apply State.finish_leads
    | with_reducible apply State.deferredDone_leads
    | with_reducible apply State.setStream_leads
    | with_reducible apply State.freeStream_leads
    | with_reducible apply State.idle_leads
    | with_reducible apply State.Leads.ite
    | with_reducible refine State.Leads.ite1 ?_ ?_
    | intro _
    | with_reducible refine State.Leads.foldl ?_ (fun _ _ _ => ?_)
    | fail_if_no_progress (with_reducible refine State.Leads.upd ?_ rfl rfl rfl rfl rfl rfl rfl rfl rfl rfl rfl)
    | with_reducible refine State.Leads.snd ?_ (by assumption)
    | with_reducible refine State.Leads.fst ?_ (by assumption)
    | extract_lets
    | split

theorem State.tryEndRun_leads {s0 : State} {s : State} (id : Nat) (hL : s0.Leads s) :
    s0.Leads (State.tryEndRun s id) := by
  unfold State.tryEndRun
  repeat' first
    | with_reducible assumption
    | with_reducible apply State.finish_leads
    | with_reducible apply State.nextRun_leads
    | with_reducible apply State.Leads.ite
    | with_reducible refine State.Leads.ite1 ?_ ?_
    | intro _
    | fail_if_no_progress (with_reducible refine State.Leads.upd ?_ rfl rfl rfl rfl rfl rfl rfl rfl rfl rfl rfl)
    | with_reducible refine State.Leads.snd ?_ (by assumption)
    | with_reducible refine State.Leads.fst ?_ (by assumption)
    | extract_lets
    | split

theorem State.tryCompleteRun_leads {s0 : State} {s : State} (id : Nat) (hL : s0.Leads s) :
    s0.Leads (State.tryCompleteRun s id) := by
  unfold State.tryCompleteRun
  repeat' first
    | with_reducible assumption
    | with_reducible apply State.finish_leads
    | with_reducible apply State.nextRun_leads
    | with_reducible apply State.Leads.ite
    | with_reducible refine State.Leads.ite1 ?_ ?_
    | intro _
    | fail_if_no_progress (with_reducible refine State.Leads.upd ?_ rfl rfl rfl rfl rfl rfl rfl rfl rfl rfl rfl)
    | with_reducible refine State.Leads.snd ?_ (by assumption)
    | with_reducible refine State.Leads.fst ?_ (by assumption)
    | extract_lets
    | split

theorem State.stopRun_leads {s0 : State} {s : State} (id : Nat) (status : Nat) (detail : Nat) (hL : s0.Leads s) :
    s0.Leads (State.stopRun s id status detail) := by
  unfold State.stopRun
  repeat' first
    | with_reducible assumption
    | with_reducible apply State.setStream_leads
    | with_reducible apply State.dropUnplaced_leads
    | with_reducible apply State.tryEndRun_leads
    | with_reducible apply State.Leads.ite

theorem State.iterDone_leads {s0 : State} {s : State} (id : Nat) (iter : Nat) (hL : s0.Leads s) :
    s0.Leads (State.iterDone s id iter) := by
  unfold State.iterDone
  repeat' first
    | with_reducible assumption
    | with_reducible apply State.arrive_leads
    | with_reducible apply State.setStream_leads
    | with_reducible apply State.tryCompleteRun_leads
    | with_reducible apply State.Leads.ite
    | with_reducible refine State.Leads.ite1 ?_ ?_
    | intro _
    | fail_if_no_progress (with_reducible refine State.Leads.upd ?_ rfl rfl rfl rfl rfl rfl rfl rfl rfl rfl rfl)
    | with_reducible refine State.Leads.snd ?_ (by assumption)
    | with_reducible refine State.Leads.fst ?_ (by assumption)
    | extract_lets
    | split

theorem State.streamTaskEnd_leads {s0 : State} {s : State} (id : Nat) (iter : Nat) (fault : Option (Nat × Nat)) (hL
    : s0.Leads s) :
    s0.Leads (State.streamTaskEnd s id iter fault) := by
  unfold State.streamTaskEnd
  repeat' first
    | with_reducible assumption
    | with_reducible apply State.setStream_leads
    | with_reducible apply State.noteProgress_leads
    | with_reducible apply State.tryEndRun_leads
    | with_reducible apply State.stopRun_leads
    | with_reducible apply State.iterDone_leads
    | with_reducible apply State.Leads.ite
    | with_reducible refine State.Leads.ite1 ?_ ?_
    | intro _
    | fail_if_no_progress (with_reducible refine State.Leads.upd ?_ rfl rfl rfl rfl rfl rfl rfl rfl rfl rfl rfl)
    | with_reducible refine State.Leads.snd ?_ (by assumption)
    | with_reducible refine State.Leads.fst ?_ (by assumption)
    | extract_lets
    | split

theorem State.storeOut_leads {s0 : State} {s : State} (p : Nat) (slot : Nat) (line : Nat) (a : Nat) (n : Nat) (hL
    : s0.Leads s) :
    s0.Leads (State.storeOut s p slot line a n).1 := by
  unfold State.storeOut
  repeat' first
    | with_reducible assumption
    | with_reducible apply State.vwrite_leads
    | with_reducible apply State.Leads.ite
    | with_reducible refine State.Leads.ite1 ?_ ?_
    | intro _
    | with_reducible refine State.Leads.foldl1 ?_ (fun _ _ _ => ?_)
    | fail_if_no_progress (with_reducible refine State.Leads.upd ?_ rfl rfl rfl rfl rfl rfl rfl rfl rfl rfl rfl)
    | with_reducible refine State.Leads.snd ?_ (by assumption)
    | with_reducible refine State.Leads.fst ?_ (by assumption)
    | extract_lets
    | split

theorem State.streamDrained_leads {s0 : State} {s : State} (id : Nat) (discarded : Nat) (hL : s0.Leads s) :
    s0.Leads (State.streamDrained s id discarded) := by
  unfold State.streamDrained
  repeat' first
    | with_reducible assumption
    | with_reducible apply State.setStream_leads
    | with_reducible apply State.tryEndRun_leads
    | with_reducible apply State.Leads.ite

theorem execResvScrub_leads (line : Nat) (errors : Nat) (passEnd : Bool) (s : State)
    : ∃ nxt, execResvScrub line errors passEnd s = .next nxt ∧ s.Leads nxt := by
  unfold execResvScrub
  refine State.Leads.live ?_
  have hL := State.Leads.refl s
  repeat' first
    | with_reducible assumption
    | with_reducible apply State.setReg_leads
    | with_reducible apply State.bump_leads
    | with_reducible apply State.logError_leads
    | with_reducible apply State.onlyIf_leads
    | with_reducible apply State.Leads.ite
    | with_reducible refine State.Leads.ite1 ?_ ?_
    | intro _
    | fail_if_no_progress (with_reducible refine State.Leads.upd ?_ rfl rfl rfl rfl rfl rfl rfl rfl rfl rfl rfl)
    | with_reducible refine State.Leads.snd ?_ (by assumption)
    | with_reducible refine State.Leads.fst ?_ (by assumption)
    | extract_lets
    | split

theorem execStreamFetch_leads (id : Nat) (iter : Nat) (stage : Nat) (s : State)
    : ∃ nxt, execStreamFetch id iter stage s = .next nxt ∧ s.Leads nxt := by
  unfold execStreamFetch
  refine State.Leads.live ?_
  have hL := State.Leads.refl s
  repeat' first
    | with_reducible assumption
    | with_reducible apply State.bump_leads
    | with_reducible apply State.onlyIf_leads
    | with_reducible apply State.vfault_leads
    | with_reducible apply State.setStream_leads
    | with_reducible apply State.noteProgress_leads
    | with_reducible apply State.fetchData_leads
    | with_reducible apply State.fillSlot_leads
    | with_reducible apply State.streamFaultRecord_leads
    | with_reducible apply State.stopRun_leads
    | with_reducible apply State.Leads.ite
    | with_reducible refine State.Leads.ite1 ?_ ?_
    | intro _
    | fail_if_no_progress (with_reducible refine State.Leads.upd ?_ rfl rfl rfl rfl rfl rfl rfl rfl rfl rfl rfl)
    | with_reducible refine State.Leads.snd ?_ (by assumption)
    | with_reducible refine State.Leads.fst ?_ (by assumption)
    | extract_lets
    | split

theorem execWarmFetch_leads (id : Nat) (iter : Nat) (stage : Nat) (s : State)
    : ∃ nxt, execWarmFetch id iter stage s = .next nxt ∧ s.Leads nxt := by
  unfold execWarmFetch
  refine State.Leads.live ?_
  have hL := State.Leads.refl s
  repeat' first
    | with_reducible assumption
    | with_reducible apply State.onlyIf_leads
    | with_reducible apply State.memTouch_leads
    | with_reducible apply State.resvFill_leads
    | with_reducible apply State.Leads.ite
    | with_reducible refine State.Leads.ite1 ?_ ?_
    | intro _
    | with_reducible refine State.Leads.foldl ?_ (fun _ _ _ => ?_)
    | fail_if_no_progress (with_reducible refine State.Leads.upd ?_ rfl rfl rfl rfl rfl rfl rfl rfl rfl rfl rfl)
    | with_reducible refine State.Leads.snd ?_ (by assumption)
    | with_reducible refine State.Leads.fst ?_ (by assumption)
    | extract_lets
    | split

theorem execStreamTaskPlace_leads (id : Nat) (iter : Nat) (s : State)
    : ∃ nxt, execStreamTaskPlace id iter s = .next nxt ∧ s.Leads nxt := by
  unfold execStreamTaskPlace
  refine State.Leads.live ?_
  have hL := State.Leads.refl s
  repeat' first
    | with_reducible assumption
    | with_reducible apply State.onlyIf_leads
    | with_reducible apply State.vfault_leads
    | with_reducible apply State.startTask_leads
    | with_reducible apply State.setStream_leads
    | with_reducible apply State.hazard_leads
    | with_reducible apply State.streamFaultRecord_leads
    | with_reducible apply State.stopRun_leads
    | with_reducible apply State.Leads.ite
    | with_reducible refine State.Leads.ite1 ?_ ?_
    | intro _
    | with_reducible refine State.Leads.foldl ?_ (fun _ _ _ => ?_)
    | fail_if_no_progress (with_reducible refine State.Leads.upd ?_ rfl rfl rfl rfl rfl rfl rfl rfl rfl rfl rfl)
    | with_reducible refine State.Leads.snd ?_ (by assumption)
    | with_reducible refine State.Leads.fst ?_ (by assumption)
    | extract_lets
    | split

theorem execStreamStore_leads (id : Nat) (iter : Nat) (stage : Nat) (s : State)
    : ∃ nxt, execStreamStore id iter stage s = .next nxt ∧ s.Leads nxt := by
  unfold execStreamStore
  refine State.Leads.live ?_
  have hL := State.Leads.refl s
  repeat' first
    | with_reducible assumption
    | with_reducible apply State.setEmptyRange_leads
    | with_reducible apply State.spadTouch_leads
    | with_reducible apply State.guardRefused_leads
    | with_reducible apply State.vfault_leads
    | with_reducible apply State.setStream_leads
    | with_reducible apply State.streamFaultRecord_leads
    | with_reducible apply State.stopRun_leads
    | with_reducible apply State.iterDone_leads
    | with_reducible apply State.storeOut_leads
    | with_reducible apply State.Leads.ite
    | with_reducible refine State.Leads.ite1 ?_ ?_
    | intro _
    | fail_if_no_progress (with_reducible refine State.Leads.upd ?_ rfl rfl rfl rfl rfl rfl rfl rfl rfl rfl rfl)
    | with_reducible refine State.Leads.snd ?_ (by assumption)
    | with_reducible refine State.Leads.fst ?_ (by assumption)
    | extract_lets
    | split

theorem execCreditWatchdog_leads (id : Nat) (lane : Nat) (stage : Nat) (s : State)
    : ∃ nxt, execCreditWatchdog id lane stage s = .next nxt ∧ s.Leads nxt := by
  unfold execCreditWatchdog
  refine State.Leads.live ?_
  have hL := State.Leads.refl s
  repeat' first
    | with_reducible assumption
    | with_reducible apply State.stamp_leads
    | with_reducible apply State.bump_leads
    | with_reducible apply State.recordCmd_leads
    | with_reducible apply State.onlyIf_leads
    | with_reducible apply State.setStream_leads
    | with_reducible apply State.stopRun_leads
    | with_reducible apply State.Leads.ite
    | with_reducible refine State.Leads.ite1 ?_ ?_
    | intro _
    | fail_if_no_progress (with_reducible refine State.Leads.upd ?_ rfl rfl rfl rfl rfl rfl rfl rfl rfl rfl rfl)
    | with_reducible refine State.Leads.snd ?_ (by assumption)
    | with_reducible refine State.Leads.fst ?_ (by assumption)
    | extract_lets
    | split

theorem execStreamOpenPool_leads (c : Command) (s : State) : ∃ nxt, execStreamOpenPool c s = .next nxt ∧ s.Leads nxt := by
  unfold execStreamOpenPool
  refine State.Leads.live ?_
  have hL := State.Leads.refl s
  repeat' first
    | with_reducible assumption
    | with_reducible apply State.setReg_leads
    | with_reducible apply State.finish_leads
    | with_reducible apply State.checked_leads
    | with_reducible apply State.setEmptyRange_leads
    | with_reducible apply State.setTurnout_leads
    | with_reducible apply State.setPool_leads
    | with_reducible apply State.Leads.ite
    | with_reducible refine State.Leads.ite1 ?_ ?_
    | intro _
    | with_reducible refine State.Leads.foldl ?_ (fun _ _ _ => ?_)

theorem execStreamOpen_leads (c : Command) (s : State) : ∃ nxt, execStreamOpen c s = .next nxt ∧ s.Leads nxt := by
  unfold execStreamOpen
  refine State.Leads.live ?_
  have hL := State.Leads.refl s
  repeat' first
    | with_reducible assumption
    | with_reducible apply State.finish_leads
    | with_reducible apply State.checked_leads
    | with_reducible apply State.setStream_leads
    | with_reducible apply State.idle_leads
    | with_reducible apply State.Leads.ite
    | with_reducible refine State.Leads.ite1 ?_ ?_
    | intro _

theorem execStreamRun_leads (c : Command) (s : State) : ∃ nxt, execStreamRun c s = .next nxt ∧ s.Leads nxt := by
  unfold execStreamRun
  refine State.Leads.live ?_
  have hL := State.Leads.refl s
  repeat' first
    | with_reducible assumption
    | with_reducible apply State.checked_leads
    | with_reducible apply State.setStream_leads
    | with_reducible apply State.Leads.ite
    | with_reducible refine State.Leads.ite1 ?_ ?_
    | intro _

theorem execStreamCancel_leads (c : Command) (s : State) : ∃ nxt, execStreamCancel c s = .next nxt ∧ s.Leads nxt := by
  unfold execStreamCancel
  refine State.Leads.live ?_
  have hL := State.Leads.refl s
  repeat' first
    | with_reducible assumption
    | with_reducible apply State.bump_leads
    | with_reducible apply State.finish_leads
    | with_reducible apply State.checked_leads
    | with_reducible apply State.cancelDecodes_leads
    | with_reducible apply State.setStream_leads
    | with_reducible apply State.dropUnplaced_leads
    | with_reducible apply State.Leads.ite
    | with_reducible refine State.Leads.ite1 ?_ ?_
    | intro _
    | with_reducible refine State.Leads.foldl ?_ (fun _ _ _ => ?_)

theorem execStreamClose_leads (c : Command) (s : State) : ∃ nxt, execStreamClose c s = .next nxt ∧ s.Leads nxt := by
  unfold execStreamClose
  refine State.Leads.live ?_
  have hL := State.Leads.refl s
  repeat' first
    | with_reducible assumption
    | with_reducible apply State.setFld_leads
    | with_reducible apply State.finish_leads
    | with_reducible apply State.defer_leads
    | with_reducible apply State.checked_leads
    | with_reducible apply State.closeTurnout_leads
    | with_reducible apply State.setPool_leads
    | with_reducible apply State.setStream_leads
    | with_reducible apply State.freeStream_leads
    | with_reducible apply State.Leads.ite
    | with_reducible refine State.Leads.ite1 ?_ ?_
    | intro _
    | with_reducible refine State.Leads.foldl ?_ (fun _ _ _ => ?_)
    | fail_if_no_progress (with_reducible refine State.Leads.upd ?_ rfl rfl rfl rfl rfl rfl rfl rfl rfl rfl rfl)
    | with_reducible refine State.Leads.snd ?_ (by assumption)
    | with_reducible refine State.Leads.fst ?_ (by assumption)
    | extract_lets
    | split

theorem execClapSet_leads (c : Command) (s : State) : ∃ nxt, execClapSet c s = .next nxt ∧ s.Leads nxt := by
  unfold execClapSet
  refine State.Leads.live ?_
  have hL := State.Leads.refl s
  repeat' first
    | with_reducible assumption
    | with_reducible apply State.finish_leads
    | with_reducible apply State.checked_leads
    | with_reducible apply State.setClap_leads
    | with_reducible apply State.clapEarly_leads
    | with_reducible apply State.recut_leads
    | with_reducible apply State.Leads.ite
    | with_reducible refine State.Leads.ite1 ?_ ?_
    | intro _
    | fail_if_no_progress (with_reducible refine State.Leads.upd ?_ rfl rfl rfl rfl rfl rfl rfl rfl rfl rfl rfl)

theorem State.mramCommit_leads {s0 : State} {s : State} (f : FieldCopy → FieldCopy) (hL : s0.Leads s) :
    s0.Leads (State.mramCommit s f) := by
  unfold State.mramCommit
  repeat' first
    | with_reducible assumption
    | with_reducible apply State.Leads.ite
    | with_reducible refine State.Leads.ite1 ?_ ?_
    | intro _
    | fail_if_no_progress (with_reducible refine State.Leads.upd ?_ rfl rfl rfl rfl rfl rfl rfl rfl rfl rfl rfl)
    | with_reducible refine State.Leads.snd ?_ (by assumption)
    | with_reducible refine State.Leads.fst ?_ (by assumption)
    | extract_lets
    | split

theorem State.mramRepair_leads {s0 : State} {s : State} (unit : Nat) (kind : Nat) (sub : Nat) (injected : Bool) (hL
    : s0.Leads s) :
    s0.Leads (State.mramRepair s unit kind sub injected) := by
  unfold State.mramRepair
  repeat' first
    | with_reducible assumption
    | with_reducible apply State.mramCommit_leads
    | with_reducible apply State.Leads.ite

theorem State.opeRepaired_leads {s0 : State} {s : State} (p : Nat) (row : Nat) (status : Nat) (hL : s0.Leads s) :
    s0.Leads (State.opeRepaired s p row status) := by
  unfold State.opeRepaired
  repeat' first
    | with_reducible assumption
    | with_reducible apply State.recordAll_leads

theorem State.repairReply_leads {s0 : State} {s : State} (p : Nat) (r : RowRepair) (status : Nat) (detail : Nat) (hL
    : s0.Leads s) :
    s0.Leads (State.repairReply s p r status detail) := by
  unfold State.repairReply
  repeat' first
    | with_reducible assumption
    | with_reducible apply State.finish_leads
    | with_reducible apply State.deferredDoneWith_leads
    | with_reducible apply State.Leads.ite
    | with_reducible refine State.Leads.ite1 ?_ ?_
    | intro _
    | fail_if_no_progress (with_reducible refine State.Leads.upd ?_ rfl rfl rfl rfl rfl rfl rfl rfl rfl rfl rfl)
    | with_reducible refine State.Leads.snd ?_ (by assumption)
    | with_reducible refine State.Leads.fst ?_ (by assumption)
    | extract_lets
    | split

theorem State.nextRepair_leads {s0 s : State} (k p : Nat) (hL : s0.Leads s) : s0.Leads (State.nextRepair k s p) := by
  induction k generalizing s with
  | zero => exact hL
  | succ k ih =>
    unfold State.nextRepair
    repeat' first
      | with_reducible assumption
      | with_reducible apply State.setCore_leads
      | with_reducible apply State.repairReply_leads
      | with_reducible apply ih
      | with_reducible apply State.Leads.ite
      | with_reducible refine State.Leads.ite1 ?_ ?_
      | intro _
      | fail_if_no_progress (with_reducible refine State.Leads.upd ?_ rfl rfl rfl rfl rfl rfl rfl rfl rfl rfl rfl)
      | with_reducible refine State.Leads.snd ?_ (by assumption)
      | with_reducible refine State.Leads.fst ?_ (by assumption)
      | extract_lets
      | split

theorem State.dropFrames_leads {s0 : State} {s : State} (p : Nat) (slot : Nat) (hL : s0.Leads s) :
    s0.Leads (State.dropFrames s p slot) := by
  unfold State.dropFrames
  repeat' first
    | with_reducible assumption
    | with_reducible apply State.setFrameTag_leads
    | with_reducible apply State.Leads.ite
    | with_reducible refine State.Leads.ite1 ?_ ?_
    | intro _
    | with_reducible refine State.Leads.foldl ?_ (fun _ _ _ => ?_)

theorem State.applyWindow_leads {s0 : State} {s : State} (p : Nat) (slot : Nat) (w : FrameWindow) (hL : s0.Leads s) :
    s0.Leads (State.applyWindow s p slot w) := by
  unfold State.applyWindow
  repeat' first
    | with_reducible assumption
    | with_reducible apply State.dropFrames_leads
    | with_reducible apply State.Leads.ite
    | with_reducible refine State.Leads.ite1 ?_ ?_
    | intro _
    | fail_if_no_progress (with_reducible refine State.Leads.upd ?_ rfl rfl rfl rfl rfl rfl rfl rfl rfl rfl rfl)

theorem State.openPoolOn_leads {s0 : State} {s : State} (p : Nat) (slot : Nat) (x : Pool) (keepTags : Bool) (h
    : Option CmdHdr) (hL : s0.Leads s) :
    s0.Leads (State.openPoolOn s p slot x keepTags h) := by
  unfold State.openPoolOn
  repeat' first
    | with_reducible assumption
    | with_reducible apply State.setReg_leads
    | with_reducible apply State.setEmptyRange_leads
    | with_reducible apply State.setTurnout_leads
    | with_reducible apply State.Leads.ite

theorem State.closePoolOn_leads {s0 : State} {s : State} (p : Nat) (c : Nat) (x : Pool) (hL : s0.Leads s) :
    s0.Leads (State.closePoolOn s p c x) := by
  unfold State.closePoolOn
  repeat' first
    | with_reducible assumption
    | with_reducible apply State.setFld_leads
    | with_reducible apply State.closeTurnout_leads

theorem State.setReel_leads {s0 : State} {s : State} (c : Nat) (x : Reel) (hL : s0.Leads s) :
    s0.Leads (State.setReel s c x) := by
  unfold State.setReel
  repeat' first
    | with_reducible assumption
    | with_reducible apply State.Leads.ite
    | with_reducible refine State.Leads.ite1 ?_ ?_
    | intro _
    | fail_if_no_progress (with_reducible refine State.Leads.upd ?_ rfl rfl rfl rfl rfl rfl rfl rfl rfl rfl rfl)

theorem State.clearReel_leads {s0 : State} {s : State} (slot : Nat) (c : Nat) (hL : s0.Leads s) :
    s0.Leads (State.clearReel s slot c) := by
  unfold State.clearReel
  repeat' first
    | with_reducible assumption
    | with_reducible apply State.setEmptyRange_leads
    | with_reducible apply State.setReel_leads
    | with_reducible apply State.Leads.ite
    | with_reducible refine State.Leads.ite1 ?_ ?_
    | intro _
    | fail_if_no_progress (with_reducible refine State.Leads.upd ?_ rfl rfl rfl rfl rfl rfl rfl rfl rfl rfl rfl)
    | with_reducible refine State.Leads.snd ?_ (by assumption)
    | with_reducible refine State.Leads.fst ?_ (by assumption)
    | extract_lets
    | split

theorem State.joinCore_leads {s0 : State} {s : State} (a : Nat) (p : Nat) (c : Nat) (from_ : Option Nat) (hL : s0.Leads s) :
    s0.Leads (State.joinCore s a p c from_) := by
  unfold State.joinCore
  repeat' first
    | with_reducible assumption
    | with_reducible apply State.setEmptyRange_leads
    | with_reducible apply State.applyWindow_leads
    | with_reducible apply State.openPoolOn_leads
    | with_reducible apply State.setReel_leads
    | with_reducible apply State.Leads.ite
    | with_reducible refine State.Leads.ite1 ?_ ?_
    | intro _
    | with_reducible refine State.Leads.foldl ?_ (fun _ _ _ => ?_)
    | fail_if_no_progress (with_reducible refine State.Leads.upd ?_ rfl rfl rfl rfl rfl rfl rfl rfl rfl rfl rfl)
    | with_reducible refine State.Leads.snd ?_ (by assumption)
    | with_reducible refine State.Leads.fst ?_ (by assumption)
    | extract_lets
    | split

theorem State.degradedRecord_leads {s0 : State} {s : State} (unit : Nat) (kind : Nat) (logical : Nat) (hL : s0.Leads s) :
    s0.Leads (State.degradedRecord s unit kind logical) := by
  unfold State.degradedRecord
  repeat' first
    | with_reducible assumption
    | with_reducible apply State.recordAll_leads

theorem State.retireIdle_leads {s0 : State} {s : State} (p : Nat) (injected : Bool) (hL : s0.Leads s) :
    s0.Leads (State.retireIdle s p injected) := by
  unfold State.retireIdle
  repeat' first
    | with_reducible assumption
    | with_reducible apply State.recordAll_leads
    | with_reducible apply State.xancaChange_leads
    | with_reducible apply State.closeTurnout_leads
    | with_reducible apply State.setCore_leads
    | with_reducible apply State.mramRepair_leads
    | with_reducible apply State.joinCore_leads
    | with_reducible apply State.degradedRecord_leads
    | with_reducible apply State.Leads.ite
    | with_reducible refine State.Leads.ite1 ?_ ?_
    | intro _
    | with_reducible refine State.Leads.foldl ?_ (fun _ _ _ => ?_)
    | fail_if_no_progress (with_reducible refine State.Leads.upd ?_ rfl rfl rfl rfl rfl rfl rfl rfl rfl rfl rfl)
    | with_reducible refine State.Leads.snd ?_ (by assumption)
    | with_reducible refine State.Leads.fst ?_ (by assumption)
    | extract_lets
    | split
    | dsimp only [id]
    | (dsimp +zetaDelta only; split)

theorem State.leaveCore_leads {s0 : State} {s : State} (a : Nat) (p : Nat) (c : Nat) (hL : s0.Leads s) :
    s0.Leads (State.leaveCore s a p c) := by
  unfold State.leaveCore
  repeat' first
    | with_reducible assumption
    | with_reducible apply State.deferredDone_leads
    | with_reducible apply State.applyWindow_leads
    | with_reducible apply State.closePoolOn_leads
    | with_reducible apply State.setReel_leads
    | with_reducible apply State.clearReel_leads
    | with_reducible apply State.Leads.ite
    | with_reducible refine State.Leads.ite1 ?_ ?_
    | intro _
    | with_reducible refine State.Leads.foldl ?_ (fun _ _ _ => ?_)
    | fail_if_no_progress (with_reducible refine State.Leads.upd ?_ rfl rfl rfl rfl rfl rfl rfl rfl rfl rfl rfl)

theorem State.leaveAll_leads {s0 : State} {s : State} (p : Nat) (hL : s0.Leads s) :
    s0.Leads (State.leaveAll s p) := by
  unfold State.leaveAll
  repeat' first
    | with_reducible assumption
    | with_reducible apply State.leaveCore_leads
    | with_reducible apply State.Leads.ite
    | with_reducible refine State.Leads.ite1 ?_ ?_
    | intro _
    | with_reducible refine State.Leads.foldl ?_ (fun _ _ _ => ?_)

theorem State.applyPending_leads {s0 : State} {s : State} (p : Nat) (hL : s0.Leads s) :
    s0.Leads (State.applyPending s p) := by
  unfold State.applyPending
  repeat' first
    | with_reducible assumption
    | with_reducible apply State.deferredDone_leads
    | with_reducible apply State.applyWindow_leads
    | with_reducible apply State.Leads.ite
    | with_reducible refine State.Leads.ite1 ?_ ?_
    | intro _
    | with_reducible refine State.Leads.foldl ?_ (fun _ _ _ => ?_)
    | fail_if_no_progress (with_reducible refine State.Leads.upd ?_ rfl rfl rfl rfl rfl rfl rfl rfl rfl rfl rfl)

theorem State.remapLines_leads {s0 : State} {s : State} (p : Nat) (hL : s0.Leads s) :
    s0.Leads (State.remapLines s p) := by
  unfold State.remapLines
  repeat' first
    | with_reducible assumption
    | with_reducible apply State.setFld_leads
    | with_reducible apply State.bump_leads
    | with_reducible apply State.setCore_leads
    | with_reducible apply State.mramRepair_leads
    | with_reducible apply State.Leads.ite
    | with_reducible refine State.Leads.ite1 ?_ ?_
    | intro _
    | with_reducible refine State.Leads.foldl ?_ (fun _ _ _ => ?_)
    | fail_if_no_progress (with_reducible refine State.Leads.upd ?_ rfl rfl rfl rfl rfl rfl rfl rfl rfl rfl rfl)

theorem State.remapStore_leads {s0 : State} {s : State} (p : Nat) (hL : s0.Leads s) :
    s0.Leads (State.remapStore s p) := by
  unfold State.remapStore
  repeat' first
    | with_reducible assumption
    | with_reducible apply State.bump_leads
    | with_reducible apply State.setCore_leads
    | with_reducible apply State.mramRepair_leads
    | with_reducible apply State.Leads.ite
    | with_reducible refine State.Leads.ite1 ?_ ?_
    | intro _
    | with_reducible refine State.Leads.foldl ?_ (fun _ _ _ => ?_)
    | fail_if_no_progress (with_reducible refine State.Leads.upd ?_ rfl rfl rfl rfl rfl rfl rfl rfl rfl rfl rfl)

theorem State.boundaryTests_leads {s0 : State} {s : State} (p : Nat) (hL : s0.Leads s) :
    s0.Leads (State.boundaryTests s p) := by
  unfold State.boundaryTests
  repeat' first
    | with_reducible assumption
    | with_reducible apply State.nextRepair_leads
    | with_reducible apply State.retireIdle_leads
    | with_reducible apply State.idle_leads
    | with_reducible apply State.Leads.ite
    | with_reducible refine State.Leads.ite1 ?_ ?_
    | intro _
    | fail_if_no_progress (with_reducible refine State.Leads.upd ?_ rfl rfl rfl rfl rfl rfl rfl rfl rfl rfl rfl)

theorem State.boundary_leads {s0 : State} {s : State} (p : Nat) (hL : s0.Leads s) :
    s0.Leads (State.boundary s p) := by
  unfold State.boundary
  repeat' first
    | with_reducible assumption
    | with_reducible apply State.leaveAll_leads
    | with_reducible apply State.applyPending_leads
    | with_reducible apply State.remapLines_leads
    | with_reducible apply State.remapStore_leads
    | with_reducible apply State.boundaryTests_leads

theorem State.countCause_leads {s0 : State} {s : State} (p : Nat) (cause : Nat) (hL : s0.Leads s) :
    s0.Leads (State.countCause s p cause) := by
  unfold State.countCause
  repeat' first
    | with_reducible assumption
    | with_reducible apply State.bump_leads
    | with_reducible apply State.setCore_leads
    | with_reducible apply State.Leads.ite
    | with_reducible refine State.Leads.ite1 ?_ ?_
    | intro _
    | fail_if_no_progress (with_reducible refine State.Leads.upd ?_ rfl rfl rfl rfl rfl rfl rfl rfl rfl rfl rfl)

theorem State.faultRecord_leads {s0 : State} {s : State} (p : Nat) (t : Task) (f : TaskFault) (hL : s0.Leads s) :
    s0.Leads (State.faultRecord s p t f) := by
  unfold State.faultRecord
  repeat' first
    | with_reducible assumption
    | with_reducible apply State.stamp_leads
    | with_reducible apply State.recordCmd_leads
    | with_reducible apply State.Leads.ite
    | with_reducible refine State.Leads.ite1 ?_ ?_
    | intro _
    | fail_if_no_progress (with_reducible refine State.Leads.upd ?_ rfl rfl rfl rfl rfl rfl rfl rfl rfl rfl rfl)

theorem State.tryFinishRun_leads {s0 : State} {s : State} (h : CmdHdr) (hL : s0.Leads s) :
    s0.Leads (State.tryFinishRun s h) := by
  unfold State.tryFinishRun
  repeat' first
    | with_reducible assumption
    | with_reducible apply State.finish_leads
    | with_reducible apply State.tryUnloads_leads
    | with_reducible apply State.Leads.ite
    | with_reducible refine State.Leads.ite1 ?_ ?_
    | intro _
    | fail_if_no_progress (with_reducible refine State.Leads.upd ?_ rfl rfl rfl rfl rfl rfl rfl rfl rfl rfl rfl)
    | with_reducible refine State.Leads.snd ?_ (by assumption)
    | with_reducible refine State.Leads.fst ?_ (by assumption)
    | extract_lets
    | split

theorem State.writeTrace_leads {s0 : State} {s : State} (p : Nat) (t : Task) (r : TaskRun) (hL : s0.Leads s) :
    s0.Leads (State.writeTrace s p t r) := by
  unfold State.writeTrace
  repeat' first
    | with_reducible assumption
    | with_reducible apply State.stamp_leads
    | with_reducible apply State.vwrite_leads
    | with_reducible apply State.vfault_leads
    | with_reducible apply State.Leads.ite
    | with_reducible refine State.Leads.ite1 ?_ ?_
    | intro _
    | fail_if_no_progress (with_reducible refine State.Leads.upd ?_ rfl rfl rfl rfl rfl rfl rfl rfl rfl rfl rfl)
    | with_reducible refine State.Leads.snd ?_ (by assumption)
    | with_reducible refine State.Leads.fst ?_ (by assumption)
    | extract_lets
    | split

theorem State.countEnd_leads {s0 : State} {s : State} (t : Task) (fault : Option TaskFault) (hL : s0.Leads s) :
    s0.Leads (State.countEnd s t fault) := by
  unfold State.countEnd
  repeat' first
    | with_reducible assumption
    | with_reducible apply State.Leads.ite
    | with_reducible refine State.Leads.ite1 ?_ ?_
    | intro _
    | fail_if_no_progress (with_reducible refine State.Leads.upd ?_ rfl rfl rfl rfl rfl rfl rfl rfl rfl rfl rfl)

theorem State.placerTold_leads {s0 : State} {s : State} (t : Task) (fault : Option TaskFault) (hL : s0.Leads s) :
    s0.Leads (State.placerTold s t fault) := by
  unfold State.placerTold
  repeat' first
    | with_reducible assumption
    | with_reducible apply State.attnTaskEnd_leads
    | with_reducible apply State.streamTaskEnd_leads
    | with_reducible apply State.tryFinishRun_leads
    | with_reducible apply State.Leads.ite
    | with_reducible refine State.Leads.ite1 ?_ ?_
    | intro _
    | fail_if_no_progress (with_reducible refine State.Leads.upd ?_ rfl rfl rfl rfl rfl rfl rfl rfl rfl rfl rfl)
    | with_reducible refine State.Leads.snd ?_ (by assumption)
    | with_reducible refine State.Leads.fst ?_ (by assumption)
    | extract_lets
    | split

theorem State.tryFinishAbort_leads {s0 : State} {s : State} (slot : Nat) (hL : s0.Leads s) :
    s0.Leads (State.tryFinishAbort s slot) := by
  unfold State.tryFinishAbort
  repeat' first
    | with_reducible assumption
    | with_reducible apply State.stamp_leads
    | with_reducible apply State.recordCmd_leads
    | with_reducible apply State.recordAll_leads
    | with_reducible apply State.flushQueue_leads
    | with_reducible apply State.setReelJob_leads
    | with_reducible apply State.clearReel_leads
    | with_reducible apply State.Leads.ite
    | with_reducible refine State.Leads.ite1 ?_ ?_
    | intro _
    | with_reducible refine State.Leads.foldl ?_ (fun _ _ _ => ?_)
    | fail_if_no_progress (with_reducible refine State.Leads.upd ?_ rfl rfl rfl rfl rfl rfl rfl rfl rfl rfl rfl)
    | with_reducible refine State.Leads.snd ?_ (by assumption)
    | with_reducible refine State.Leads.fst ?_ (by assumption)
    | extract_lets
    | split

theorem State.taskDone_leads {s0 : State} {s : State} (p : Nat) (fault : Option TaskFault) (hL : s0.Leads s) :
    s0.Leads (State.taskDone s p fault) := by
  unfold State.taskDone
  repeat' first
    | with_reducible assumption
    | with_reducible apply State.damage_leads
    | with_reducible apply State.setEmptyRange_leads
    | with_reducible apply State.setCore_leads
    | with_reducible apply State.setClap_leads
    | with_reducible apply State.boundary_leads
    | with_reducible apply State.countCause_leads
    | with_reducible apply State.faultRecord_leads
    | with_reducible apply State.writeTrace_leads
    | with_reducible apply State.countEnd_leads
    | with_reducible apply State.placerTold_leads
    | with_reducible apply State.tryFinishAbort_leads
    | with_reducible apply State.idle_leads
    | with_reducible apply State.Leads.ite
    | with_reducible refine State.Leads.ite1 ?_ ?_
    | intro _
    | fail_if_no_progress (with_reducible refine State.Leads.upd ?_ rfl rfl rfl rfl rfl rfl rfl rfl rfl rfl rfl)
    | with_reducible refine State.Leads.snd ?_ (by assumption)
    | with_reducible refine State.Leads.fst ?_ (by assumption)
    | extract_lets
    | split

theorem State.breakClap_leads {s0 : State} {s : State} (slot : Nat) (n : Nat) (hL : s0.Leads s) :
    s0.Leads (State.breakClap s slot n) := by
  unfold State.breakClap
  repeat' first
    | with_reducible assumption
    | with_reducible apply State.setClap_leads
    | with_reducible apply State.clapBrokenRecord_leads
    | with_reducible apply State.taskDone_leads
    | with_reducible apply State.Leads.ite
    | with_reducible refine State.Leads.ite1 ?_ ?_
    | intro _
    | with_reducible refine State.Leads.foldl ?_ (fun _ _ _ => ?_)
    | fail_if_no_progress (with_reducible refine State.Leads.upd ?_ rfl rfl rfl rfl rfl rfl rfl rfl rfl rfl rfl)
    | with_reducible refine State.Leads.snd ?_ (by assumption)
    | with_reducible refine State.Leads.fst ?_ (by assumption)
    | extract_lets
    | split

theorem State.cancelStreams_leads {s0 : State} {s : State} (slot : Nat) (hL : s0.Leads s) :
    s0.Leads (State.cancelStreams s slot) := by
  unfold State.cancelStreams
  repeat' first
    | with_reducible assumption
    | with_reducible apply State.finish_leads
    | with_reducible apply State.cancelDecodes_leads
    | with_reducible apply State.setStream_leads
    | with_reducible apply State.stopRun_leads
    | with_reducible apply State.Leads.ite
    | with_reducible refine State.Leads.ite1 ?_ ?_
    | intro _
    | with_reducible refine State.Leads.foldl ?_ (fun _ _ _ => ?_)

theorem State.breakClaps_leads {s0 : State} {s : State} (slot : Nat) (hL : s0.Leads s) :
    s0.Leads (State.breakClaps s slot) := by
  unfold State.breakClaps
  repeat' first
    | with_reducible assumption
    | with_reducible apply State.breakClap_leads
    | with_reducible apply State.Leads.ite
    | with_reducible refine State.Leads.ite1 ?_ ?_
    | intro _
    | with_reducible refine State.Leads.foldl ?_ (fun _ _ _ => ?_)

theorem State.dropTasks_leads {s0 : State} {s : State} (slot : Nat) (hL : s0.Leads s) :
    s0.Leads (State.dropTasks s slot) := by
  unfold State.dropTasks
  repeat' first
    | with_reducible assumption
    | with_reducible apply State.tryFinishRun_leads
    | with_reducible apply State.Leads.ite
    | with_reducible refine State.Leads.ite1 ?_ ?_
    | intro _
    | (with_reducible refine State.Leads.foldl ?_ (fun _ _ _ => ?_) <;> beta_reduce)
    | fail_if_no_progress (with_reducible refine State.Leads.upd ?_ rfl rfl rfl rfl rfl rfl rfl rfl rfl rfl rfl)

theorem State.cancelWork_leads {s0 : State} {s : State} (slot : Nat) (hL : s0.Leads s) :
    s0.Leads (State.cancelWork s slot) := by
  unfold State.cancelWork
  repeat' first
    | with_reducible assumption
    | with_reducible apply State.cancelStreams_leads
    | with_reducible apply State.breakClaps_leads
    | with_reducible apply State.dropTasks_leads

theorem State.abortStep_leads {s0 : State} {s : State} (slot : Nat) (a : Abort) (hL : s0.Leads s) :
    s0.Leads (State.abortStep s slot a) := by
  unfold State.abortStep
  repeat' first
    | with_reducible assumption
    | with_reducible apply State.deferredDone_leads
    | with_reducible apply State.setReelJob_leads
    | with_reducible apply State.tryFinishAbort_leads
    | with_reducible apply State.cancelWork_leads
    | with_reducible apply State.Leads.ite
    | with_reducible refine State.Leads.ite1 ?_ ?_
    | intro _
    | fail_if_no_progress (with_reducible refine State.Leads.upd ?_ rfl rfl rfl rfl rfl rfl rfl rfl rfl rfl rfl)
    | with_reducible refine State.Leads.snd ?_ (by assumption)
    | with_reducible refine State.Leads.fst ?_ (by assumption)
    | extract_lets
    | split

theorem State.endTask_leads {s0 : State} {s : State} (p : Nat) (fault : Option TaskFault) (hL : s0.Leads s) :
    s0.Leads (State.endTask s p fault) := by
  unfold State.endTask
  repeat' first
    | with_reducible assumption
    | with_reducible apply State.stamp_leads
    | with_reducible apply State.taskDone_leads
    | with_reducible apply State.abortStep_leads
    | with_reducible apply State.Leads.ite
    | with_reducible refine State.Leads.ite1 ?_ ?_
    | intro _
    | fail_if_no_progress (with_reducible refine State.Leads.upd ?_ rfl rfl rfl rfl rfl rfl rfl rfl rfl rfl rfl)
    | with_reducible refine State.Leads.snd ?_ (by assumption)
    | with_reducible refine State.Leads.fst ?_ (by assumption)
    | extract_lets
    | split

theorem State.failTask_leads {s0 : State} {s : State} (p : Nat) (cause : Nat) (status : Nat) (detail : Nat) (hL : s0.Leads s) :
    s0.Leads (State.failTask s p cause status detail) := by
  unfold State.failTask
  repeat' first
    | with_reducible assumption
    | with_reducible apply State.endTask_leads

theorem State.retireCore_leads {s0 : State} {s : State} (p : Nat) (injected : Bool) (hL : s0.Leads s) :
    s0.Leads (State.retireCore s p injected) := by
  unfold State.retireCore
  repeat' first
    | with_reducible assumption
    | with_reducible apply State.retireIdle_leads
    | with_reducible apply State.failTask_leads

theorem execClapLimit_leads (slot : Nat) (n : Nat) (s : State) : ∃ nxt, execClapLimit slot n s = .next nxt ∧ s.Leads nxt := by
  unfold execClapLimit
  refine State.Leads.live ?_
  have hL := State.Leads.refl s
  repeat' first
    | with_reducible assumption
    | with_reducible apply State.onlyIf_leads
    | with_reducible apply State.breakClap_leads
    | with_reducible apply State.Leads.ite
    | with_reducible refine State.Leads.ite1 ?_ ?_
    | intro _

end Sys2Proof.Machine
end

