-- ==== Sys2Proof/Laws/LeadsFabric.lean ====
section
/-! SUPPORT. The state leads on to the state after: collectives, the Flume and the fabric commands. -/

namespace Sys2Proof.Machine

theorem State.setRjob_leads {s0 : State} {s : State} (slot : Nat) (r : ResJob) (hL : s0.Leads s) :
    s0.Leads (State.setRjob s slot r) := by
  unfold State.setRjob
  repeat' first
    | with_reducible assumption
    | with_reducible apply State.Leads.ite
    | with_reducible refine State.Leads.ite1 ?_ ?_
    | intro _
    | fail_if_no_progress (with_reducible refine State.Leads.upd ?_ rfl rfl rfl rfl rfl rfl rfl rfl rfl rfl rfl)

theorem State.setCollective_leads {s0 : State} {s : State} (c : Collective) (hL : s0.Leads s) :
    s0.Leads (State.setCollective s c) := by
  unfold State.setCollective
  repeat' first
    | with_reducible assumption
    | with_reducible apply State.Leads.ite
    | with_reducible refine State.Leads.ite1 ?_ ?_
    | intro _
    | fail_if_no_progress (with_reducible refine State.Leads.upd ?_ rfl rfl rfl rfl rfl rfl rfl rfl rfl rfl rfl)

theorem State.freeBytes_leads {s0 : State} {s : State} (n : Nat) (hL : s0.Leads s) :
    s0.Leads (State.freeBytes s n).2 := by
  unfold State.freeBytes
  repeat' first
    | with_reducible assumption
    | with_reducible apply State.draw_leads
    | with_reducible apply State.Leads.ite
    | with_reducible refine State.Leads.ite1 ?_ ?_
    | intro _
    | with_reducible refine State.Leads.foldl2 ?_ (fun _ _ _ => ?_)

theorem State.undefineFar_leads {s0 s : State} (slot a n : Nat) (hL : s0.Leads s) : s0.Leads
    (State.undefineFar s slot a n) := by
  unfold State.undefineFar
  have h : s0.Leads (s.freeBytes n).2 := State.freeBytes_leads _ hL
  split
  rename_i data u heq
  rw [heq] at h
  split
  · exact h
  · refine State.Leads.foldl h (fun _ _ h => ?_)
    split
    · exact State.memWrite_leads _ _ _ h
    · exact h
  · split
    · exact h.updw rfl id (fun h => ⟨wf_putBytes _ _ _ h.1, h.2⟩) id rfl (Nat.le_refl _) rfl rfl
    · exact h

theorem State.endCollective_leads {s0 : State} {s : State} (c : Collective) (status : Nat) (detail : Nat) (hL : s0.Leads s) :
    s0.Leads (State.endCollective s c status detail) := by
  unfold State.endCollective
  repeat' first
    | with_reducible assumption
    | with_reducible apply State.finish_leads
    | with_reducible apply State.setReelJob_leads
    | with_reducible apply State.setRjob_leads
    | with_reducible apply State.undefineFar_leads
    | with_reducible apply State.Leads.ite
    | with_reducible refine State.Leads.ite1 ?_ ?_
    | intro _
    | fail_if_no_progress (with_reducible refine State.Leads.upd ?_ rfl rfl rfl rfl rfl rfl rfl rfl rfl rfl rfl)

theorem State.collFail_leads {s0 : State} {s : State} (c : Collective) (src : Nat) (f : FarFail) (hL : s0.Leads s) :
    s0.Leads (State.collFail s c src f) := by
  unfold State.collFail
  repeat' first
    | with_reducible assumption
    | with_reducible apply State.farFault_leads
    | with_reducible apply State.endCollective_leads

theorem State.collWrites_leads {s0 : State} {s : State} (c : Collective) (hL : s0.Leads s) :
    s0.Leads (State.collWrites s c).1 := by
  unfold State.collWrites
  repeat' first
    | with_reducible assumption
    | with_reducible apply State.farWrite_leads
    | with_reducible apply State.setCollective_leads
    | with_reducible apply State.Leads.ite
    | with_reducible refine State.Leads.ite1 ?_ ?_
    | intro _
    | with_reducible refine State.Leads.foldl1 ?_ (fun _ _ _ => ?_)
    | fail_if_no_progress (with_reducible refine State.Leads.upd ?_ rfl rfl rfl rfl rfl rfl rfl rfl rfl rfl rfl)
    | with_reducible refine State.Leads.snd ?_ (by assumption)
    | with_reducible refine State.Leads.fst ?_ (by assumption)
    | extract_lets
    | split

theorem State.collSends_leads {s0 : State} {s : State} (c : Collective) (hL : s0.Leads s) :
    s0.Leads (State.collSends s c) := by
  unfold State.collSends
  repeat' first
    | with_reducible assumption
    | with_reducible apply State.originate_leads
    | with_reducible apply State.setCollective_leads
    | with_reducible apply State.Leads.ite
    | with_reducible refine State.Leads.ite1 ?_ ?_
    | intro _
    | with_reducible refine State.Leads.foldl ?_ (fun _ _ _ => ?_)
    | fail_if_no_progress (with_reducible refine State.Leads.upd ?_ rfl rfl rfl rfl rfl rfl rfl rfl rfl rfl rfl)
    | with_reducible refine State.Leads.snd ?_ (by assumption)
    | with_reducible refine State.Leads.fst ?_ (by assumption)
    | extract_lets
    | split

theorem State.collTry_leads {s0 : State} {s : State} (slot : Nat) (gather : Bool) (id : Nat) (hL : s0.Leads s) :
    s0.Leads (State.collTry s slot gather id) := by
  unfold State.collTry
  repeat' first
    | with_reducible assumption
    | with_reducible apply State.vwrite_leads
    | with_reducible apply State.endCollective_leads
    | with_reducible apply State.collFail_leads
    | with_reducible apply State.Leads.ite
    | with_reducible refine State.Leads.ite1 ?_ ?_
    | intro _
    | fail_if_no_progress (with_reducible refine State.Leads.upd ?_ rfl rfl rfl rfl rfl rfl rfl rfl rfl rfl rfl)
    | with_reducible refine State.Leads.snd ?_ (by assumption)
    | with_reducible refine State.Leads.fst ?_ (by assumption)
    | extract_lets
    | split

theorem State.collAdvance_leads {s0 : State} {s : State} (slot : Nat) (gather : Bool) (id : Nat) (src : Nat) (hL : s0.Leads s) :
    s0.Leads (State.collAdvance s slot gather id src) := by
  unfold State.collAdvance
  repeat' first
    | with_reducible assumption
    | with_reducible apply State.collFail_leads
    | with_reducible apply State.collWrites_leads
    | with_reducible apply State.collSends_leads
    | with_reducible apply State.collTry_leads
    | with_reducible apply State.Leads.ite
    | with_reducible refine State.Leads.ite1 ?_ ?_
    | intro _
    | fail_if_no_progress (with_reducible refine State.Leads.upd ?_ rfl rfl rfl rfl rfl rfl rfl rfl rfl rfl rfl)
    | with_reducible refine State.Leads.snd ?_ (by assumption)
    | with_reducible refine State.Leads.fst ?_ (by assumption)
    | extract_lets
    | split

theorem State.collAcked_leads {s0 : State} {s : State} (hL : s0.Leads s) :
    s0.Leads (State.collAcked s) := by
  unfold State.collAcked
  repeat' first
    | with_reducible assumption
    | with_reducible apply State.collTry_leads
    | with_reducible apply State.Leads.ite
    | with_reducible refine State.Leads.ite1 ?_ ?_
    | intro _
    | with_reducible refine State.Leads.foldl ?_ (fun _ _ _ => ?_)

theorem State.keepData_leads {s0 : State} {s : State} (slot : Nat) (k : Packet) (hL : s0.Leads s) :
    s0.Leads (State.keepData s slot k) := by
  unfold State.keepData
  repeat' first
    | with_reducible assumption
    | with_reducible apply State.setFjob_leads

theorem State.staleGather_leads {s0 : State} {s : State} (c : Collective) (tag : Nat) (hL : s0.Leads s) :
    s0.Leads (State.staleGather s c tag) := by
  unfold State.staleGather
  repeat' first
    | with_reducible assumption
    | with_reducible apply State.stamp_leads
    | with_reducible apply State.bump_leads
    | with_reducible apply State.abortStep_leads
    | with_reducible apply State.endCollective_leads

theorem State.dataIn_leads {s0 : State} {s : State} (slot : Nat) (src : Nat) (k : Packet) (hL : s0.Leads s) :
    s0.Leads (State.dataIn s slot src k) := by
  unfold State.dataIn
  repeat' first
    | with_reducible assumption
    | with_reducible apply State.setCollective_leads
    | with_reducible apply State.collAdvance_leads
    | with_reducible apply State.keepData_leads
    | with_reducible apply State.staleGather_leads
    | with_reducible apply State.Leads.ite
    | with_reducible refine State.Leads.ite1 ?_ ?_
    | intro _
    | fail_if_no_progress (with_reducible refine State.Leads.upd ?_ rfl rfl rfl rfl rfl rfl rfl rfl rfl rfl rfl)
    | with_reducible refine State.Leads.snd ?_ (by assumption)
    | with_reducible refine State.Leads.fst ?_ (by assumption)
    | extract_lets
    | split

theorem State.takeEarly_leads {s0 : State} {s : State} (slot : Nat) (gather : Bool) (id : Nat) (hL : s0.Leads s) :
    s0.Leads (State.takeEarly s slot gather id) := by
  unfold State.takeEarly
  repeat' first
    | with_reducible assumption
    | with_reducible apply State.setFjob_leads
    | with_reducible apply State.dataIn_leads
    | with_reducible apply State.Leads.ite
    | with_reducible refine State.Leads.ite1 ?_ ?_
    | intro _
    | (with_reducible refine State.Leads.foldl ?_ (fun _ _ _ => ?_) <;> beta_reduce)

theorem State.startCollective_leads {s0 : State} {s : State} (c : Collective) (hL : s0.Leads s) :
    s0.Leads (State.startCollective s c) := by
  unfold State.startCollective
  repeat' first
    | with_reducible assumption
    | with_reducible apply State.finish_leads
    | with_reducible apply State.vfault_leads
    | with_reducible apply State.farTouch_leads
    | with_reducible apply State.farFault_leads
    | with_reducible apply State.originate_leads
    | with_reducible apply State.collAdvance_leads
    | with_reducible apply State.takeEarly_leads
    | with_reducible apply State.Leads.ite
    | with_reducible refine State.Leads.ite1 ?_ ?_
    | intro _
    | with_reducible refine State.Leads.foldl ?_ (fun _ _ _ => ?_)
    | fail_if_no_progress (with_reducible refine State.Leads.upd ?_ rfl rfl rfl rfl rfl rfl rfl rfl rfl rfl rfl)
    | with_reducible refine State.Leads.snd ?_ (by assumption)
    | with_reducible refine State.Leads.fst ?_ (by assumption)
    | extract_lets
    | split

theorem execCollectiveRun_leads (c : Command) (s : State) : ∃ nxt, execCollectiveRun c s = .next nxt ∧ s.Leads nxt := by
  unfold execCollectiveRun
  refine State.Leads.live ?_
  have hL := State.Leads.refl s
  repeat' first
    | with_reducible assumption
    | with_reducible apply State.checked_leads
    | with_reducible apply State.startCollective_leads
    | with_reducible apply State.Leads.ite
    | with_reducible refine State.Leads.ite1 ?_ ?_
    | intro _

theorem execGatherRun_leads (c : Command) (s : State) : ∃ nxt, execGatherRun c s = .next nxt ∧ s.Leads nxt := by
  unfold execGatherRun
  refine State.Leads.live ?_
  have hL := State.Leads.refl s
  repeat' first
    | with_reducible assumption
    | with_reducible apply State.checked_leads
    | with_reducible apply State.setReelJob_leads
    | with_reducible apply State.startCollective_leads
    | with_reducible apply State.Leads.ite
    | with_reducible refine State.Leads.ite1 ?_ ?_
    | intro _

theorem execCollectiveLimit_leads (slot : Nat) (gather : Bool) (id : Nat) (s : State)
    : ∃ nxt, execCollectiveLimit slot gather id s = .next nxt ∧ s.Leads nxt := by
  unfold execCollectiveLimit
  refine State.Leads.live ?_
  have hL := State.Leads.refl s
  repeat' first
    | with_reducible assumption
    | with_reducible apply State.onlyIf_leads
    | with_reducible apply State.endCollective_leads
    | with_reducible apply State.Leads.ite
    | with_reducible refine State.Leads.ite1 ?_ ?_
    | intro _
    | fail_if_no_progress (with_reducible refine State.Leads.upd ?_ rfl rfl rfl rfl rfl rfl rfl rfl rfl rfl rfl)
    | with_reducible refine State.Leads.snd ?_ (by assumption)
    | with_reducible refine State.Leads.fst ?_ (by assumption)
    | extract_lets
    | split

theorem State.setChannel_leads {s0 : State} {s : State} (k : Nat) (x : FlumeChannel) (hL : s0.Leads s) :
    s0.Leads (State.setChannel s k x) := by
  unfold State.setChannel
  repeat' first
    | with_reducible assumption
    | with_reducible apply State.Leads.ite
    | with_reducible refine State.Leads.ite1 ?_ ?_
    | intro _
    | fail_if_no_progress (with_reducible refine State.Leads.upd ?_ rfl rfl rfl rfl rfl rfl rfl rfl rfl rfl rfl)

theorem State.setTimer_leads {s0 : State} {s : State} (t : Nat) (x : FlumeTimer) (hL : s0.Leads s) :
    s0.Leads (State.setTimer s t x) := by
  unfold State.setTimer
  repeat' first
    | with_reducible assumption
    | with_reducible apply State.Leads.ite
    | with_reducible refine State.Leads.ite1 ?_ ?_
    | intro _
    | fail_if_no_progress (with_reducible refine State.Leads.upd ?_ rfl rfl rfl rfl rfl rfl rfl rfl rfl rfl rfl)

theorem State.endChain_leads {s0 : State} {s : State} (k : Nat) (how : Nat) (next : Nat) (status : Nat) (detail : Nat)
    (discarded : Nat) (hL : s0.Leads s) :
    s0.Leads (State.endChain s k how next status detail discarded) := by
  unfold State.endChain
  repeat' first
    | with_reducible assumption
    | with_reducible apply State.recordCmd_leads
    | with_reducible apply State.finish_leads
    | with_reducible apply State.deferredDone_leads
    | with_reducible apply State.setChannel_leads
    | with_reducible apply State.idle_leads
    | with_reducible apply State.Leads.ite
    | with_reducible refine State.Leads.ite1 ?_ ?_
    | intro _
    | fail_if_no_progress (with_reducible refine State.Leads.upd ?_ rfl rfl rfl rfl rfl rfl rfl rfl rfl rfl rfl)
    | with_reducible refine State.Leads.snd ?_ (by assumption)
    | with_reducible refine State.Leads.fst ?_ (by assumption)
    | extract_lets
    | split
    | (dsimp +zetaDelta only; split)

theorem State.takeDescriptor_leads {s0 : State} {s : State} (k : Nat) (b : List Byte) (hL : s0.Leads s) :
    s0.Leads (State.takeDescriptor s k b) := by
  unfold State.takeDescriptor
  repeat' first
    | with_reducible assumption
    | with_reducible apply State.vtouch_leads
    | with_reducible apply State.setChannel_leads
    | with_reducible apply State.Leads.ite
    | with_reducible refine State.Leads.ite1 ?_ ?_
    | intro _
    | fail_if_no_progress (with_reducible refine State.Leads.upd ?_ rfl rfl rfl rfl rfl rfl rfl rfl rfl rfl rfl)
    | with_reducible refine State.Leads.snd ?_ (by assumption)
    | with_reducible refine State.Leads.fst ?_ (by assumption)
    | extract_lets
    | split

theorem State.readDescriptor_leads {s0 : State} {s : State} (k : Nat) (hL : s0.Leads s) :
    s0.Leads (State.readDescriptor s k) := by
  unfold State.readDescriptor
  repeat' first
    | with_reducible assumption
    | with_reducible apply State.vtouch_leads
    | with_reducible apply State.vfault_leads
    | with_reducible apply State.setChannel_leads
    | with_reducible apply State.endChain_leads
    | with_reducible apply State.takeDescriptor_leads
    | with_reducible apply State.Leads.ite
    | with_reducible refine State.Leads.ite1 ?_ ?_
    | intro _
    | fail_if_no_progress (with_reducible refine State.Leads.upd ?_ rfl rfl rfl rfl rfl rfl rfl rfl rfl rfl rfl)
    | with_reducible refine State.Leads.snd ?_ (by assumption)
    | with_reducible refine State.Leads.fst ?_ (by assumption)
    | extract_lets
    | split

theorem State.flumeSignal_leads {s0 : State} {s : State} (k : Nat) (hL : s0.Leads s) :
    s0.Leads (State.flumeSignal s k) := by
  unfold State.flumeSignal
  repeat' first
    | with_reducible assumption
    | with_reducible apply State.setChannel_leads

theorem State.flumeWriteBack_leads {s0 : State} {s : State} (k : Nat) (discarded : Nat) (hL : s0.Leads s) :
    s0.Leads (State.flumeWriteBack s k discarded) := by
  unfold State.flumeWriteBack
  repeat' first
    | with_reducible assumption
    | with_reducible apply State.stamp_leads
    | with_reducible apply State.bump_leads
    | with_reducible apply State.recordCmd_leads
    | with_reducible apply State.vwrite_leads
    | with_reducible apply State.vfault_leads
    | with_reducible apply State.setChannel_leads
    | with_reducible apply State.endChain_leads
    | with_reducible apply State.flumeSignal_leads
    | with_reducible apply State.Leads.ite
    | with_reducible refine State.Leads.ite1 ?_ ?_
    | intro _
    | fail_if_no_progress (with_reducible refine State.Leads.upd ?_ rfl rfl rfl rfl rfl rfl rfl rfl rfl rfl rfl)
    | with_reducible refine State.Leads.snd ?_ (by assumption)
    | with_reducible refine State.Leads.fst ?_ (by assumption)
    | extract_lets
    | split
    | (dsimp +zetaDelta only; split)

theorem State.touchLine_leads {s0 : State} {s : State} (slot : Nat) (l : FlumeLine) (hL : s0.Leads s) :
    s0.Leads (State.touchLine s slot l) := by
  unfold State.touchLine
  repeat' first
    | with_reducible assumption
    | with_reducible apply State.farTouch_leads
    | with_reducible apply State.Leads.ite
    | with_reducible refine State.Leads.ite1 ?_ ?_
    | intro _
    | with_reducible refine State.Leads.foldl ?_ (fun _ _ _ => ?_)
    | fail_if_no_progress (with_reducible refine State.Leads.upd ?_ rfl rfl rfl rfl rfl rfl rfl rfl rfl rfl rfl)
    | with_reducible refine State.Leads.snd ?_ (by assumption)
    | with_reducible refine State.Leads.fst ?_ (by assumption)
    | extract_lets
    | split

theorem State.writeLine_leads {s0 : State} {s : State} (slot : Nat) (x : FlumeChannel) (l : FlumeLine) (data
    : List Byte) (poison : List Bool) (hL : s0.Leads s) :
    s0.Leads (State.writeLine s slot x l data poison).1 := by
  unfold State.writeLine
  repeat' first
    | with_reducible assumption
    | with_reducible apply State.farWrite_leads
    | with_reducible apply State.Leads.ite
    | with_reducible refine State.Leads.ite1 ?_ ?_
    | intro _
    | fail_if_no_progress (with_reducible refine State.Leads.upd ?_ rfl rfl rfl rfl rfl rfl rfl rfl rfl rfl rfl)
    | with_reducible refine State.Leads.snd ?_ (by assumption)
    | with_reducible refine State.Leads.fst ?_ (by assumption)
    | extract_lets
    | split
    | (dsimp +zetaDelta only; split)

theorem State.moveLine_leads {s0 : State} {s : State} (slot : Nat) (x : FlumeChannel) (l : FlumeLine) (after : Bool) (r
    : FlumeRun) (hL : s0.Leads s) :
    s0.Leads (State.moveLine s slot x l after r).1 := by
  unfold State.moveLine
  repeat' first
    | with_reducible assumption
    | with_reducible apply State.touchLine_leads
    | with_reducible apply State.writeLine_leads
    | with_reducible apply State.Leads.ite
    | with_reducible refine State.Leads.ite1 ?_ ?_
    | intro _
    | fail_if_no_progress (with_reducible refine State.Leads.upd ?_ rfl rfl rfl rfl rfl rfl rfl rfl rfl rfl rfl)
    | with_reducible refine State.Leads.snd ?_ (by assumption)
    | with_reducible refine State.Leads.fst ?_ (by assumption)
    | extract_lets
    | split

theorem State.moveData_leads {s0 : State} {s : State} (k : Nat) (op : Nat) (hL : s0.Leads s) :
    s0.Leads (State.moveData s k op) := by
  unfold State.moveData
  repeat' first
    | with_reducible assumption
    | with_reducible apply State.draw_leads
    | with_reducible apply State.bump_leads
    | with_reducible apply State.farFault_leads
    | with_reducible apply State.setChannel_leads
    | with_reducible apply State.moveLine_leads
    | with_reducible apply State.Leads.ite
    | with_reducible refine State.Leads.ite1 ?_ ?_
    | intro _
    | with_reducible refine State.Leads.foldl1 ?_ (fun _ _ _ => ?_)
    | fail_if_no_progress (with_reducible refine State.Leads.upd ?_ rfl rfl rfl rfl rfl rfl rfl rfl rfl rfl rfl)
    | with_reducible refine State.Leads.snd ?_ (by assumption)
    | with_reducible refine State.Leads.fst ?_ (by assumption)
    | extract_lets
    | split

theorem State.moveNothing_leads {s0 : State} {s : State} (engine : Nat) (channel : Nat) (op : Nat) (hL : s0.Leads s) :
    s0.Leads (State.moveNothing s engine channel op) := by
  unfold State.moveNothing
  repeat' first
    | with_reducible assumption
    | with_reducible apply State.onlyIf_leads
    | with_reducible apply State.flumeWriteBack_leads
    | with_reducible apply State.Leads.ite
    | with_reducible refine State.Leads.ite1 ?_ ?_
    | intro _

theorem State.cutDescriptor_leads {s0 : State} {s : State} (k : Nat) (hL : s0.Leads s) :
    s0.Leads (State.cutDescriptor s k) := by
  unfold State.cutDescriptor
  repeat' first
    | with_reducible assumption
    | with_reducible apply State.draw_leads
    | with_reducible apply State.bump_leads
    | with_reducible apply State.setChannel_leads
    | with_reducible apply State.moveLine_leads
    | with_reducible apply State.Leads.ite
    | with_reducible refine State.Leads.ite1 ?_ ?_
    | intro _
    | with_reducible refine State.Leads.foldl1 ?_ (fun _ _ _ => ?_)

theorem State.stopChain_leads {s0 : State} {s : State} (k : Nat) (how : Nat) (t : Option FlumeStop) (hL : s0.Leads s) :
    s0.Leads (State.stopChain s k how t) := by
  unfold State.stopChain
  repeat' first
    | with_reducible assumption
    | with_reducible apply State.setChannel_leads
    | with_reducible apply State.endChain_leads
    | with_reducible apply State.cutDescriptor_leads
    | with_reducible apply State.idle_leads
    | with_reducible apply State.Leads.ite
    | with_reducible refine State.Leads.ite1 ?_ ?_
    | intro _
    | fail_if_no_progress (with_reducible refine State.Leads.upd ?_ rfl rfl rfl rfl rfl rfl rfl rfl rfl rfl rfl)
    | with_reducible refine State.Leads.snd ?_ (by assumption)
    | with_reducible refine State.Leads.fst ?_ (by assumption)
    | extract_lets
    | split

theorem State.chainDrained_leads {s0 : State} {s : State} (k : Nat) (discarded : Nat) (hL : s0.Leads s) :
    s0.Leads (State.chainDrained s k discarded) := by
  unfold State.chainDrained
  repeat' first
    | with_reducible assumption
    | with_reducible apply State.setChannel_leads
    | with_reducible apply State.flumeWriteBack_leads
    | with_reducible apply State.Leads.ite

theorem execDescriptorRead_leads (engine : Nat) (channel : Nat) (s : State)
    : ∃ nxt, execDescriptorRead engine channel s = .next nxt ∧ s.Leads nxt := by
  unfold execDescriptorRead
  refine State.Leads.live ?_
  have hL := State.Leads.refl s
  repeat' first
    | with_reducible assumption
    | with_reducible apply State.onlyIf_leads
    | with_reducible apply State.readDescriptor_leads
    | with_reducible apply State.Leads.ite
    | with_reducible refine State.Leads.ite1 ?_ ?_
    | intro _

theorem execOwnPoll_leads (engine : Nat) (channel : Nat) (s : State) : ∃ nxt, execOwnPoll engine channel s = .next nxt
    ∧ s.Leads nxt := by
  unfold execOwnPoll
  refine State.Leads.live ?_
  have hL := State.Leads.refl s
  repeat' first
    | with_reducible assumption
    | with_reducible apply State.onlyIf_leads
    | with_reducible apply State.readDescriptor_leads
    | with_reducible apply State.Leads.ite
    | with_reducible refine State.Leads.ite1 ?_ ?_
    | intro _

theorem execEventWaitRelease_leads (engine : Nat) (channel : Nat) (s : State)
    : ∃ nxt, execEventWaitRelease engine channel s = .next nxt ∧ s.Leads nxt := by
  unfold execEventWaitRelease
  refine State.Leads.live ?_
  have hL := State.Leads.refl s
  repeat' first
    | with_reducible assumption
    | with_reducible apply State.onlyIf_leads
    | with_reducible apply State.takeDescriptor_leads
    | with_reducible apply State.Leads.ite
    | with_reducible refine State.Leads.ite1 ?_ ?_
    | intro _

theorem execDescriptorWriteBack_leads (engine : Nat) (channel : Nat) (s : State)
    : ∃ nxt, execDescriptorWriteBack engine channel s = .next nxt ∧ s.Leads nxt := by
  unfold execDescriptorWriteBack
  refine State.Leads.live ?_
  have hL := State.Leads.refl s
  repeat' first
    | with_reducible assumption
    | with_reducible apply State.onlyIf_leads
    | with_reducible apply State.flumeWriteBack_leads
    | with_reducible apply State.Leads.ite
    | with_reducible refine State.Leads.ite1 ?_ ?_
    | intro _

theorem execCopyDescriptor_leads (engine : Nat) (channel : Nat) (s : State)
    : ∃ nxt, execCopyDescriptor engine channel s = .next nxt ∧ s.Leads nxt := by
  unfold execCopyDescriptor
  refine State.Leads.live ?_
  have hL := State.Leads.refl s
  repeat' first
    | with_reducible assumption
    | with_reducible apply State.onlyIf_leads
    | with_reducible apply State.moveData_leads
    | with_reducible apply State.Leads.ite
    | with_reducible refine State.Leads.ite1 ?_ ?_
    | intro _

theorem execFillDescriptor_leads (engine : Nat) (channel : Nat) (s : State)
    : ∃ nxt, execFillDescriptor engine channel s = .next nxt ∧ s.Leads nxt := by
  unfold execFillDescriptor
  refine State.Leads.live ?_
  have hL := State.Leads.refl s
  repeat' first
    | with_reducible assumption
    | with_reducible apply State.onlyIf_leads
    | with_reducible apply State.moveData_leads
    | with_reducible apply State.Leads.ite
    | with_reducible refine State.Leads.ite1 ?_ ?_
    | intro _

theorem execSkewDescriptor_leads (engine : Nat) (channel : Nat) (s : State)
    : ∃ nxt, execSkewDescriptor engine channel s = .next nxt ∧ s.Leads nxt := by
  unfold execSkewDescriptor
  refine State.Leads.live ?_
  have hL := State.Leads.refl s
  repeat' first
    | with_reducible assumption
    | with_reducible apply State.onlyIf_leads
    | with_reducible apply State.moveData_leads
    | with_reducible apply State.Leads.ite
    | with_reducible refine State.Leads.ite1 ?_ ?_
    | intro _

theorem execTransposeDescriptor_leads (engine : Nat) (channel : Nat) (s : State)
    : ∃ nxt, execTransposeDescriptor engine channel s = .next nxt ∧ s.Leads nxt := by
  unfold execTransposeDescriptor
  refine State.Leads.live ?_
  have hL := State.Leads.refl s
  repeat' first
    | with_reducible assumption
    | with_reducible apply State.onlyIf_leads
    | with_reducible apply State.moveData_leads
    | with_reducible apply State.Leads.ite
    | with_reducible refine State.Leads.ite1 ?_ ?_
    | intro _

theorem execEventDescriptor_leads (engine : Nat) (channel : Nat) (s : State)
    : ∃ nxt, execEventDescriptor engine channel s = .next nxt ∧ s.Leads nxt := by
  unfold execEventDescriptor
  refine State.Leads.live ?_
  have hL := State.Leads.refl s
  repeat' first
    | with_reducible assumption
    | with_reducible apply State.moveNothing_leads

theorem execLinkDescriptor_leads (engine : Nat) (channel : Nat) (s : State)
    : ∃ nxt, execLinkDescriptor engine channel s = .next nxt ∧ s.Leads nxt := by
  unfold execLinkDescriptor
  refine State.Leads.live ?_
  have hL := State.Leads.refl s
  repeat' first
    | with_reducible assumption
    | with_reducible apply State.moveNothing_leads

theorem execStopChain_leads (engine : Nat) (channel : Nat) (s : State)
    : ∃ nxt, execStopChain engine channel s = .next nxt ∧ s.Leads nxt := by
  unfold execStopChain
  refine State.Leads.live ?_
  have hL := State.Leads.refl s
  repeat' first
    | with_reducible assumption
    | with_reducible apply State.moveNothing_leads

theorem execFlumeChainStart_leads (c : Command) (s : State) : ∃ nxt, execFlumeChainStart c s = .next nxt ∧ s.Leads nxt := by
  unfold execFlumeChainStart
  refine State.Leads.live ?_
  have hL := State.Leads.refl s
  repeat' first
    | with_reducible assumption
    | with_reducible apply State.defer_leads
    | with_reducible apply State.checked_leads
    | with_reducible apply State.setChannel_leads
    | with_reducible apply State.Leads.ite
    | with_reducible refine State.Leads.ite1 ?_ ?_
    | intro _

theorem execFlumeTimerSet_leads (c : Command) (s : State) : ∃ nxt, execFlumeTimerSet c s = .next nxt ∧ s.Leads nxt := by
  unfold execFlumeTimerSet
  refine State.Leads.live ?_
  have hL := State.Leads.refl s
  repeat' first
    | with_reducible assumption
    | with_reducible apply State.finish_leads
    | with_reducible apply State.checked_leads
    | with_reducible apply State.setTimer_leads
    | with_reducible apply State.Leads.ite
    | with_reducible refine State.Leads.ite1 ?_ ?_
    | intro _

theorem execTimerTick_leads (t : Nat) (s : State) : ∃ nxt, execTimerTick t s = .next nxt ∧ s.Leads nxt := by
  unfold execTimerTick
  refine State.Leads.live ?_
  have hL := State.Leads.refl s
  repeat' first
    | with_reducible assumption
    | with_reducible apply State.onlyIf_leads
    | with_reducible apply State.setTimer_leads
    | with_reducible apply State.Leads.ite
    | with_reducible refine State.Leads.ite1 ?_ ?_
    | intro _

theorem execFlumeChainStop_leads (c : Command) (s : State) : ∃ nxt, execFlumeChainStop c s = .next nxt ∧ s.Leads nxt := by
  unfold execFlumeChainStop
  refine State.Leads.live ?_
  have hL := State.Leads.refl s
  repeat' first
    | with_reducible assumption
    | with_reducible apply State.checked_leads
    | with_reducible apply State.stopChain_leads
    | with_reducible apply State.Leads.ite
    | with_reducible refine State.Leads.ite1 ?_ ?_
    | intro _

theorem execFlumeStatus_leads (c : Command) (s : State) : ∃ nxt, execFlumeStatus c s = .next nxt ∧ s.Leads nxt := by
  unfold execFlumeStatus
  refine State.Leads.live ?_
  have hL := State.Leads.refl s
  repeat' first
    | with_reducible assumption
    | with_reducible apply State.finish_leads
    | with_reducible apply State.checked_leads
    | with_reducible apply State.Leads.ite
    | with_reducible refine State.Leads.ite1 ?_ ?_
    | intro _

theorem State.checkPeer_leads {s0 : State} {s : State} (p : Nat) (hL : s0.Leads s) :
    s0.Leads (State.checkPeer s p) := by
  unfold State.checkPeer
  repeat' first
    | with_reducible assumption
    | with_reducible apply State.portPhase_leads
    | with_reducible apply State.portUpNow_leads
    | with_reducible apply State.Leads.ite

theorem State.sendLcf_leads {s0 : State} {s : State} (p : Nat) (hL : s0.Leads s) :
    s0.Leads (State.sendLcf s p) := by
  unfold State.sendLcf
  repeat' first
    | with_reducible assumption
    | with_reducible apply State.emit_leads
    | with_reducible apply State.setPort_leads

theorem State.trainPort_leads {s0 : State} {s : State} (p : Nat) (hL : s0.Leads s) :
    s0.Leads (State.trainPort s p) := by
  unfold State.trainPort
  repeat' first
    | with_reducible assumption
    | with_reducible apply State.setPort_leads
    | with_reducible apply State.portPhase_leads

theorem State.readRecord_leads {s0 : State} {s : State} (c : Command) (src : Nat) (va : Nat) (n : Nat) (f
    : List Byte → State → State) (hL : s0.Leads s) (h_f : ∀ (x0 : List Byte) (x1 : State), s0.Leads x1 → s0.Leads (f x0 x1)) :
    s0.Leads (State.readRecord s c src va n f) := by
  unfold State.readRecord
  repeat' first
    | with_reducible assumption
    | with_reducible apply h_f
    | with_reducible apply State.finish_leads
    | with_reducible apply State.vtouch_leads
    | with_reducible apply State.vfault_leads
    | with_reducible apply State.Leads.ite
    | with_reducible refine State.Leads.ite1 ?_ ?_
    | intro _
    | fail_if_no_progress (with_reducible refine State.Leads.upd ?_ rfl rfl rfl rfl rfl rfl rfl rfl rfl rfl rfl)
    | with_reducible refine State.Leads.snd ?_ (by assumption)
    | with_reducible refine State.Leads.fst ?_ (by assumption)
    | extract_lets
    | split

theorem State.readLayout_leads {s0 : State} {s : State} (c : Command) (va : Nat) (epoch : Nat) (off : Nat) (f
    : Layout → State → State) (hL : s0.Leads s) (h_f : ∀ (x0 : Layout) (x1 : State), s0.Leads x1 → s0.Leads (f x0 x1)) :
    s0.Leads (State.readLayout s c va epoch off f) := by
  unfold State.readLayout
  repeat' first
    | with_reducible assumption
    | with_reducible apply h_f
    | with_reducible apply State.badParam_leads
    | with_reducible apply State.readRecord_leads
    | with_reducible apply State.Leads.ite
    | with_reducible refine State.Leads.ite1 ?_ ?_
    | intro _
    | fail_if_no_progress (with_reducible refine State.Leads.upd ?_ rfl rfl rfl rfl rfl rfl rfl rfl rfl rfl rfl)
    | with_reducible refine State.Leads.snd ?_ (by assumption)
    | with_reducible refine State.Leads.fst ?_ (by assumption)
    | extract_lets
    | split

theorem State.spreadDone_leads {s0 : State} {s : State} (slot : Nat) (status : Nat) (release : Nat) (hL : s0.Leads s) :
    s0.Leads (State.spreadDone s slot status release) := by
  unfold State.spreadDone
  repeat' first
    | with_reducible assumption
    | with_reducible apply State.recordCmd_leads
    | with_reducible apply State.setRjob_leads
    | with_reducible apply State.Leads.ite
    | with_reducible refine State.Leads.ite1 ?_ ?_
    | intro _
    | fail_if_no_progress (with_reducible refine State.Leads.upd ?_ rfl rfl rfl rfl rfl rfl rfl rfl rfl rfl rfl)
    | with_reducible refine State.Leads.snd ?_ (by assumption)
    | with_reducible refine State.Leads.fst ?_ (by assumption)
    | extract_lets
    | split

theorem State.endRecut_leads {s0 : State} {s : State} (slot : Nat) (status : Nat) (detail : Nat) (hL : s0.Leads s) :
    s0.Leads (State.endRecut s slot status detail) := by
  unfold State.endRecut
  repeat' first
    | with_reducible assumption
    | with_reducible apply State.recordCmd_leads
    | with_reducible apply State.deferredDone_leads
    | with_reducible apply State.setFjob_leads
    | with_reducible apply State.spreadDone_leads
    | with_reducible apply State.recut_leads
    | with_reducible apply State.Leads.ite
    | with_reducible refine State.Leads.ite1 ?_ ?_
    | intro _
    | fail_if_no_progress (with_reducible refine State.Leads.upd ?_ rfl rfl rfl rfl rfl rfl rfl rfl rfl rfl rfl)
    | with_reducible refine State.Leads.snd ?_ (by assumption)
    | with_reducible refine State.Leads.fst ?_ (by assumption)
    | extract_lets
    | split

theorem State.tryEndRecut_leads {s0 : State} {s : State} (slot : Nat) (hL : s0.Leads s) :
    s0.Leads (State.tryEndRecut s slot) := by
  unfold State.tryEndRecut
  repeat' first
    | with_reducible assumption
    | with_reducible apply State.endRecut_leads
    | with_reducible apply State.recut_leads
    | with_reducible apply State.Leads.ite
    | with_reducible refine State.Leads.ite1 ?_ ?_
    | intro _
    | fail_if_no_progress (with_reducible refine State.Leads.upd ?_ rfl rfl rfl rfl rfl rfl rfl rfl rfl rfl rfl)
    | with_reducible refine State.Leads.snd ?_ (by assumption)
    | with_reducible refine State.Leads.fst ?_ (by assumption)
    | extract_lets
    | split

theorem State.reopenPools_leads {s0 : State} {s : State} (slot : Nat) (hL : s0.Leads s) :
    s0.Leads (State.reopenPools s slot) := by
  unfold State.reopenPools
  repeat' first
    | with_reducible assumption
    | with_reducible apply State.openPoolOn_leads
    | with_reducible apply State.closePoolOn_leads
    | with_reducible apply State.Leads.ite
    | with_reducible refine State.Leads.ite1 ?_ ?_
    | intro _
    | with_reducible refine State.Leads.foldl ?_ (fun _ _ _ => ?_)
    | fail_if_no_progress (with_reducible refine State.Leads.upd ?_ rfl rfl rfl rfl rfl rfl rfl rfl rfl rfl rfl)
    | with_reducible refine State.Leads.snd ?_ (by assumption)
    | with_reducible refine State.Leads.fst ?_ (by assumption)
    | extract_lets
    | split

theorem State.activateMap_leads {s0 : State} {s : State} (m : Nat) (hL : s0.Leads s) :
    s0.Leads (State.activateMap s m) := by
  unfold State.activateMap
  repeat' first
    | with_reducible assumption
    | with_reducible apply State.csApply_leads
    | with_reducible apply State.checkPeer_leads
    | with_reducible apply State.Leads.ite
    | with_reducible refine State.Leads.ite1 ?_ ?_
    | intro _
    | with_reducible refine State.Leads.foldl ?_ (fun _ _ _ => ?_)
    | fail_if_no_progress (with_reducible refine State.Leads.upd ?_ rfl rfl rfl rfl rfl rfl rfl rfl rfl rfl rfl)

theorem State.takePacket_leads {s0 : State} {s : State} (slot : Nat) (f : Frame) (hL : s0.Leads s) :
    s0.Leads (State.takePacket s slot f) := by
  unfold State.takePacket
  repeat' first
    | with_reducible assumption
    | with_reducible apply State.clapIn_leads
    | with_reducible apply State.dataIn_leads
    | with_reducible apply State.Leads.ite

theorem State.releaseRecut_leads {s0 : State} {s : State} (slot : Nat) (hL : s0.Leads s) :
    s0.Leads (State.releaseRecut s slot) := by
  unfold State.releaseRecut
  repeat' first
    | with_reducible assumption
    | with_reducible apply State.setFjob_leads
    | with_reducible apply State.portPhase_leads
    | with_reducible apply State.setRjob_leads
    | with_reducible apply State.tryEndRecut_leads
    | with_reducible apply State.reopenPools_leads
    | with_reducible apply State.activateMap_leads
    | with_reducible apply State.takePacket_leads
    | with_reducible apply State.recut_leads
    | with_reducible apply State.Leads.ite
    | with_reducible refine State.Leads.ite1 ?_ ?_
    | intro _
    | with_reducible refine State.Leads.foldl ?_ (fun _ _ _ => ?_)
    | fail_if_no_progress (with_reducible refine State.Leads.upd ?_ rfl rfl rfl rfl rfl rfl rfl rfl rfl rfl rfl)
    | with_reducible refine State.Leads.snd ?_ (by assumption)
    | with_reducible refine State.Leads.fst ?_ (by assumption)
    | extract_lets
    | split

theorem State.boundaryRounds_leads {s0 s : State} (k slot : Nat) (hL : s0.Leads s) : s0.Leads
    (State.boundaryRounds k s slot) := by
  induction k generalizing s with
  | zero => exact hL
  | succ k ih =>
    unfold State.boundaryRounds
    repeat' first
      | with_reducible assumption
      | with_reducible apply State.setFjob_leads
      | with_reducible apply State.heard_leads
      | with_reducible apply State.originate_leads
      | with_reducible apply State.releaseRecut_leads
      | with_reducible apply State.recut_leads
      | with_reducible apply ih
      | with_reducible apply State.Leads.ite
      | with_reducible refine State.Leads.ite1 ?_ ?_
      | intro _
      | fail_if_no_progress (with_reducible refine State.Leads.upd ?_ rfl rfl rfl rfl rfl rfl rfl rfl rfl rfl rfl)
      | with_reducible refine State.Leads.snd ?_ (by assumption)
      | with_reducible refine State.Leads.fst ?_ (by assumption)
      | extract_lets
      | split

theorem State.arriveBoundary_leads {s0 : State} {s : State} (slot : Nat) (hL : s0.Leads s) :
    s0.Leads (State.arriveBoundary s slot) := by
  unfold State.arriveBoundary
  repeat' first
    | with_reducible assumption
    | with_reducible apply State.setFjob_leads
    | with_reducible apply State.heard_leads
    | with_reducible apply State.boundaryRounds_leads
    | with_reducible apply State.recut_leads
    | with_reducible apply State.Leads.ite
    | with_reducible refine State.Leads.ite1 ?_ ?_
    | intro _
    | fail_if_no_progress (with_reducible refine State.Leads.upd ?_ rfl rfl rfl rfl rfl rfl rfl rfl rfl rfl rfl)
    | with_reducible refine State.Leads.snd ?_ (by assumption)
    | with_reducible refine State.Leads.fst ?_ (by assumption)
    | extract_lets
    | split

theorem State.boundaryIn_leads {s0 : State} {s : State} (slot : Nat) (k : Packet) (hL : s0.Leads s) :
    s0.Leads (State.boundaryIn s slot k) := by
  unfold State.boundaryIn
  repeat' first
    | with_reducible assumption
    | with_reducible apply State.setFjob_leads
    | with_reducible apply State.heard_leads
    | with_reducible apply State.keepEarly_leads
    | with_reducible apply State.boundaryRounds_leads
    | with_reducible apply State.recut_leads
    | with_reducible apply State.Leads.ite
    | with_reducible refine State.Leads.ite1 ?_ ?_
    | intro _
    | fail_if_no_progress (with_reducible refine State.Leads.upd ?_ rfl rfl rfl rfl rfl rfl rfl rfl rfl rfl rfl)
    | with_reducible refine State.Leads.snd ?_ (by assumption)
    | with_reducible refine State.Leads.fst ?_ (by assumption)
    | extract_lets
    | split

theorem State.abandonEpoch_leads {s0 : State} {s : State} (slot : Nat) (hL : s0.Leads s) :
    s0.Leads (State.abandonEpoch s slot).1 := by
  unfold State.abandonEpoch
  repeat' first
    | with_reducible assumption
    | with_reducible apply State.breakClap_leads
    | with_reducible apply State.endCollective_leads
    | with_reducible apply State.Leads.ite
    | with_reducible refine State.Leads.ite1 ?_ ?_
    | intro _
    | with_reducible refine State.Leads.foldl ?_ (fun _ _ _ => ?_)

theorem State.acceptRecut_leads {s0 : State} {s : State} (slot : Nat) (r : Recut) (hL : s0.Leads s) :
    s0.Leads (State.acceptRecut s slot r) := by
  unfold State.acceptRecut
  repeat' first
    | with_reducible assumption
    | with_reducible apply State.setFjob_leads
    | with_reducible apply State.arriveBoundary_leads
    | with_reducible apply State.abandonEpoch_leads
    | with_reducible apply State.recut_leads
    | with_reducible apply State.Leads.ite

theorem State.recut_leads {s0 : State} {s : State} (c : Command) (mode : Nat) (hL : s0.Leads s) :
    s0.Leads (State.recut s c mode) := by
  unfold State.recut
  repeat' first
    | with_reducible assumption
    | with_reducible apply State.defer_leads
    | with_reducible apply State.checked_leads
    | with_reducible apply State.heard_leads
    | with_reducible apply State.readLayout_leads
    | with_reducible apply State.acceptRecut_leads
    | with_reducible apply State.Leads.ite
    | with_reducible refine State.Leads.ite1 ?_ ?_
    | intro _

theorem execLcf_leads (port : Nat) (l : LinkControl) (s : State) : ∃ nxt, execLcf port l s = .next nxt ∧ s.Leads nxt := by
  unfold execLcf
  refine State.Leads.live ?_
  have hL := State.Leads.refl s
  repeat' first
    | with_reducible assumption
    | with_reducible apply State.stamp_leads
    | with_reducible apply State.onlyIf_leads
    | with_reducible apply State.tcExchange_leads
    | with_reducible apply State.setPort_leads
    | with_reducible apply State.kickPort_leads
    | with_reducible apply State.linkAck_leads
    | with_reducible apply State.linkNack_leads
    | with_reducible apply State.collAcked_leads
    | with_reducible apply State.checkPeer_leads
    | with_reducible apply State.Leads.ite
    | with_reducible refine State.Leads.ite1 ?_ ?_
    | intro _
    | fail_if_no_progress (with_reducible refine State.Leads.upd ?_ rfl rfl rfl rfl rfl rfl rfl rfl rfl rfl rfl)
    | with_reducible refine State.Leads.snd ?_ (by assumption)
    | with_reducible refine State.Leads.fst ?_ (by assumption)
    | extract_lets
    | split

theorem execLcfTransmit_leads (port : Nat) (s : State) : ∃ nxt, execLcfTransmit port s = .next nxt ∧ s.Leads nxt := by
  unfold execLcfTransmit
  refine State.Leads.live ?_
  have hL := State.Leads.refl s
  repeat' first
    | with_reducible assumption
    | with_reducible apply State.onlyIf_leads
    | with_reducible apply State.sendLcf_leads
    | with_reducible apply State.Leads.ite
    | with_reducible refine State.Leads.ite1 ?_ ?_
    | intro _

theorem execLightDetected_leads (port : Nat) (s : State) : ∃ nxt, execLightDetected port s = .next nxt ∧ s.Leads nxt := by
  unfold execLightDetected
  refine State.Leads.live ?_
  have hL := State.Leads.refl s
  repeat' first
    | with_reducible assumption
    | with_reducible apply State.onlyIf_leads
    | with_reducible apply State.setPort_leads
    | with_reducible apply State.trainPort_leads
    | with_reducible apply State.Leads.ite
    | with_reducible refine State.Leads.ite1 ?_ ?_
    | intro _

theorem execTrainingComplete_leads (port : Nat) (peer : Nat) (peerPort : Nat) (width : Nat) (s : State)
    : ∃ nxt, execTrainingComplete port peer peerPort width s = .next nxt ∧ s.Leads nxt := by
  unfold execTrainingComplete
  refine State.Leads.live ?_
  have hL := State.Leads.refl s
  repeat' first
    | with_reducible assumption
    | with_reducible apply State.onlyIf_leads
    | with_reducible apply State.setPort_leads
    | with_reducible apply State.checkPeer_leads
    | with_reducible apply State.Leads.ite
    | with_reducible refine State.Leads.ite1 ?_ ?_
    | intro _

theorem execTrainingTimeout_leads (port : Nat) (s : State) : ∃ nxt, execTrainingTimeout port s = .next nxt ∧ s.Leads nxt := by
  unfold execTrainingTimeout
  refine State.Leads.live ?_
  have hL := State.Leads.refl s
  repeat' first
    | with_reducible assumption
    | with_reducible apply State.onlyIf_leads
    | with_reducible apply State.portLost_leads
    | with_reducible apply State.Leads.ite
    | with_reducible refine State.Leads.ite1 ?_ ?_
    | intro _

theorem execTrainingRetry_leads (port : Nat) (s : State) : ∃ nxt, execTrainingRetry port s = .next nxt ∧ s.Leads nxt := by
  unfold execTrainingRetry
  refine State.Leads.live ?_
  have hL := State.Leads.refl s
  repeat' first
    | with_reducible assumption
    | with_reducible apply State.onlyIf_leads
    | with_reducible apply State.trainPort_leads
    | with_reducible apply State.Leads.ite
    | with_reducible refine State.Leads.ite1 ?_ ?_
    | intro _

theorem execLossOfLight_leads (port : Nat) (s : State) : ∃ nxt, execLossOfLight port s = .next nxt ∧ s.Leads nxt := by
  unfold execLossOfLight
  refine State.Leads.live ?_
  have hL := State.Leads.refl s
  repeat' first
    | with_reducible assumption
    | with_reducible apply State.bump_leads
    | with_reducible apply State.logError_leads
    | with_reducible apply State.onlyIf_leads
    | with_reducible apply State.setPort_leads
    | with_reducible apply State.portLost_leads
    | with_reducible apply State.Leads.ite
    | with_reducible refine State.Leads.ite1 ?_ ?_
    | intro _

theorem execConnectorRemoval_leads (engine : Nat) (s : State) : ∃ nxt, execConnectorRemoval engine s = .next nxt
    ∧ s.Leads nxt := by
  unfold execConnectorRemoval
  refine State.Leads.live ?_
  have hL := State.Leads.refl s
  repeat' first
    | with_reducible assumption
    | with_reducible apply State.bump_leads
    | with_reducible apply State.onlyIf_leads
    | with_reducible apply State.setPort_leads
    | with_reducible apply State.portLost_leads
    | with_reducible apply State.Leads.ite
    | with_reducible refine State.Leads.ite1 ?_ ?_
    | intro _
    | with_reducible refine State.Leads.foldl ?_ (fun _ _ _ => ?_)

theorem execCollPacket_leads (f : Frame) (s : State) : ∃ nxt, execCollPacket f s = .next nxt ∧ s.Leads nxt := by
  unfold execCollPacket
  refine State.Leads.live ?_
  have hL := State.Leads.refl s
  repeat' first
    | with_reducible assumption
    | with_reducible apply State.frameIn_leads
    | with_reducible apply State.epochIn_leads
    | with_reducible apply State.dataIn_leads
    | with_reducible apply State.Leads.ite
    | with_reducible refine State.Leads.ite1 ?_ ?_
    | intro _
    | fail_if_no_progress (with_reducible refine State.Leads.upd ?_ rfl rfl rfl rfl rfl rfl rfl rfl rfl rfl rfl)
    | with_reducible refine State.Leads.snd ?_ (by assumption)
    | with_reducible refine State.Leads.fst ?_ (by assumption)
    | extract_lets
    | split
    | dsimp only [id]

theorem execGatherPiece_leads (f : Frame) (s : State) : ∃ nxt, execGatherPiece f s = .next nxt ∧ s.Leads nxt := by
  unfold execGatherPiece
  refine State.Leads.live ?_
  have hL := State.Leads.refl s
  repeat' first
    | with_reducible assumption
    | with_reducible apply State.frameIn_leads
    | with_reducible apply State.epochIn_leads
    | with_reducible apply State.dataIn_leads
    | with_reducible apply State.Leads.ite
    | with_reducible refine State.Leads.ite1 ?_ ?_
    | intro _
    | fail_if_no_progress (with_reducible refine State.Leads.upd ?_ rfl rfl rfl rfl rfl rfl rfl rfl rfl rfl rfl)
    | with_reducible refine State.Leads.snd ?_ (by assumption)
    | with_reducible refine State.Leads.fst ?_ (by assumption)
    | extract_lets
    | split
    | dsimp only [id]

theorem execPortMapSet_leads (c : Command) (s : State) : ∃ nxt, execPortMapSet c s = .next nxt ∧ s.Leads nxt := by
  unfold execPortMapSet
  refine State.Leads.live ?_
  have hL := State.Leads.refl s
  repeat' first
    | with_reducible assumption
    | with_reducible apply State.finish_leads
    | with_reducible apply State.badParam_leads
    | with_reducible apply State.checked_leads
    | with_reducible apply State.readRecord_leads
    | with_reducible apply State.Leads.ite
    | with_reducible refine State.Leads.ite1 ?_ ?_
    | intro _
    | fail_if_no_progress (with_reducible refine State.Leads.upd ?_ rfl rfl rfl rfl rfl rfl rfl rfl rfl rfl rfl)
    | with_reducible refine State.Leads.snd ?_ (by assumption)
    | with_reducible refine State.Leads.fst ?_ (by assumption)
    | extract_lets
    | split

theorem execFabricIdSet_leads (c : Command) (s : State) : ∃ nxt, execFabricIdSet c s = .next nxt ∧ s.Leads nxt := by
  unfold execFabricIdSet
  refine State.Leads.live ?_
  have hL := State.Leads.refl s
  repeat' first
    | with_reducible assumption
    | with_reducible apply State.finish_leads
    | with_reducible apply State.checked_leads
    | with_reducible apply State.tcReselect_leads
    | with_reducible apply State.Leads.ite
    | with_reducible refine State.Leads.ite1 ?_ ?_
    | intro _
    | fail_if_no_progress (with_reducible refine State.Leads.upd ?_ rfl rfl rfl rfl rfl rfl rfl rfl rfl rfl rfl)

theorem execClapPacket_leads (f : Frame) (s : State) : ∃ nxt, execClapPacket f s = .next nxt ∧ s.Leads nxt := by
  unfold execClapPacket
  refine State.Leads.live ?_
  have hL := State.Leads.refl s
  repeat' first
    | with_reducible assumption
    | with_reducible apply State.frameIn_leads
    | with_reducible apply State.epochIn_leads
    | with_reducible apply State.clapIn_leads
    | with_reducible apply State.boundaryIn_leads
    | with_reducible apply State.Leads.ite
    | with_reducible refine State.Leads.ite1 ?_ ?_
    | intro _

theorem execRecutDrain_leads (c : Command) (s : State) : ∃ nxt, execRecutDrain c s = .next nxt ∧ s.Leads nxt := by
  unfold execRecutDrain
  refine State.Leads.live ?_
  have hL := State.Leads.refl s
  repeat' first
    | with_reducible assumption
    | with_reducible apply State.recut_leads

theorem execRecutAbandon_leads (c : Command) (s : State) : ∃ nxt, execRecutAbandon c s = .next nxt ∧ s.Leads nxt := by
  unfold execRecutAbandon
  refine State.Leads.live ?_
  have hL := State.Leads.refl s
  repeat' first
    | with_reducible assumption
    | with_reducible apply State.recut_leads

theorem execRecutDrained_leads (slot : Nat) (s : State) : ∃ nxt, execRecutDrained slot s = .next nxt ∧ s.Leads nxt := by
  unfold execRecutDrained
  refine State.Leads.live ?_
  have hL := State.Leads.refl s
  repeat' first
    | with_reducible assumption
    | with_reducible apply State.onlyIf_leads
    | with_reducible apply State.arriveBoundary_leads
    | with_reducible apply State.recut_leads
    | with_reducible apply State.Leads.ite
    | with_reducible refine State.Leads.ite1 ?_ ?_
    | intro _

theorem execPortDark_leads (port : Nat) (s : State) : ∃ nxt, execPortDark port s = .next nxt ∧ s.Leads nxt := by
  unfold execPortDark
  refine State.Leads.live ?_
  have hL := State.Leads.refl s
  repeat' first
    | with_reducible assumption
    | with_reducible apply State.onlyIf_leads
    | with_reducible apply State.setFjob_leads
    | with_reducible apply State.setPort_leads
    | with_reducible apply State.sendLcf_leads
    | with_reducible apply State.recut_leads
    | with_reducible apply State.Leads.ite
    | with_reducible refine State.Leads.ite1 ?_ ?_
    | intro _
    | fail_if_no_progress (with_reducible refine State.Leads.upd ?_ rfl rfl rfl rfl rfl rfl rfl rfl rfl rfl rfl)
    | with_reducible refine State.Leads.snd ?_ (by assumption)
    | with_reducible refine State.Leads.fst ?_ (by assumption)
    | extract_lets
    | split

theorem execPortRelock_leads (port : Nat) (peer : Nat) (peerPort : Nat) (width : Nat) (s : State)
    : ∃ nxt, execPortRelock port peer peerPort width s = .next nxt ∧ s.Leads nxt := by
  unfold execPortRelock
  refine State.Leads.live ?_
  have hL := State.Leads.refl s
  repeat' first
    | with_reducible assumption
    | with_reducible apply State.onlyIf_leads
    | with_reducible apply State.setPort_leads
    | with_reducible apply State.portUpNow_leads
    | with_reducible apply State.tryEndRecut_leads
    | with_reducible apply State.Leads.ite
    | with_reducible refine State.Leads.ite1 ?_ ?_
    | intro _
    | fail_if_no_progress (with_reducible refine State.Leads.upd ?_ rfl rfl rfl rfl rfl rfl rfl rfl rfl rfl rfl)
    | with_reducible refine State.Leads.snd ?_ (by assumption)
    | with_reducible refine State.Leads.fst ?_ (by assumption)
    | extract_lets
    | split

theorem execRecutLimit_leads (slot : Nat) (s : State) : ∃ nxt, execRecutLimit slot s = .next nxt ∧ s.Leads nxt := by
  unfold execRecutLimit
  refine State.Leads.live ?_
  have hL := State.Leads.refl s
  repeat' first
    | with_reducible assumption
    | with_reducible apply State.onlyIf_leads
    | with_reducible apply State.portLost_leads
    | with_reducible apply State.endRecut_leads
    | with_reducible apply State.recut_leads
    | with_reducible apply State.Leads.ite
    | with_reducible refine State.Leads.ite1 ?_ ?_
    | intro _
    | with_reducible refine State.Leads.foldl ?_ (fun _ _ _ => ?_)
    | fail_if_no_progress (with_reducible refine State.Leads.upd ?_ rfl rfl rfl rfl rfl rfl rfl rfl rfl rfl rfl)
    | with_reducible refine State.Leads.snd ?_ (by assumption)
    | with_reducible refine State.Leads.fst ?_ (by assumption)
    | extract_lets
    | split

theorem execLinkStatus_leads (c : Command) (s : State) : ∃ nxt, execLinkStatus c s = .next nxt ∧ s.Leads nxt := by
  unfold execLinkStatus
  refine State.Leads.live ?_
  have hL := State.Leads.refl s
  repeat' first
    | with_reducible assumption
    | with_reducible apply State.finish_leads
    | with_reducible apply State.checked_leads
    | with_reducible apply State.Leads.ite
    | with_reducible refine State.Leads.ite1 ?_ ?_
    | intro _

theorem State.memGranule_leads {s0 : State} {s : State} (slot : Nat) (i : Nat) (src : Option Nat) (dst : Nat) (fill
    : List Byte) (after : Bool) (r : MemRun) (hL : s0.Leads s) :
    s0.Leads (State.memGranule s slot i src dst fill after r).1 := by
  unfold State.memGranule
  repeat' first
    | with_reducible assumption
    | with_reducible apply State.memWrite_leads
    | with_reducible apply State.vtouch_leads
    | with_reducible apply State.Leads.ite
    | with_reducible refine State.Leads.ite1 ?_ ?_
    | intro _
    | fail_if_no_progress (with_reducible refine State.Leads.upd ?_ rfl rfl rfl rfl rfl rfl rfl rfl rfl rfl rfl)
    | with_reducible refine State.Leads.snd ?_ (by assumption)
    | with_reducible refine State.Leads.fst ?_ (by assumption)
    | extract_lets
    | split
    | (dsimp +zetaDelta only; split)

theorem State.memRun_leads {s0 : State} {s : State} (c : Command) (src : Option Nat) (dst : Nat) (n : Nat) (fill
    : List Byte) (hL : s0.Leads s) :
    s0.Leads (State.memRun s c src dst n fill) := by
  unfold State.memRun
  repeat' first
    | with_reducible assumption
    | with_reducible apply State.draw_leads
    | with_reducible apply State.finish_leads
    | with_reducible apply State.farFault_leads
    | with_reducible apply State.memGranule_leads
    | with_reducible apply State.Leads.ite
    | with_reducible refine State.Leads.ite1 ?_ ?_
    | intro _
    | with_reducible refine State.Leads.foldl1 ?_ (fun _ _ _ => ?_)
    | fail_if_no_progress (with_reducible refine State.Leads.upd ?_ rfl rfl rfl rfl rfl rfl rfl rfl rfl rfl rfl)
    | with_reducible refine State.Leads.snd ?_ (by assumption)
    | with_reducible refine State.Leads.fst ?_ (by assumption)
    | extract_lets
    | split

theorem State.setFarState_leads {s0 : State} {s : State} (c : Nat) (new : Nat) (hL : s0.Leads s) :
    s0.Leads (State.setFarState s c new) := by
  unfold State.setFarState
  repeat' first
    | with_reducible assumption
    | with_reducible apply State.setFld_leads
    | with_reducible apply State.recordAll_leads
    | with_reducible apply State.Leads.ite

theorem State.nextChunk_leads {s0 : State} {s : State} (ch : Nat) (hL : s0.Leads s) :
    s0.Leads (State.nextChunk s ch) := by
  unfold State.nextChunk
  repeat' first
    | with_reducible assumption
    | with_reducible apply State.setChunk_leads
    | with_reducible apply State.Leads.ite
    | with_reducible refine State.Leads.ite1 ?_ ?_
    | intro _
    | fail_if_no_progress (with_reducible refine State.Leads.upd ?_ rfl rfl rfl rfl rfl rfl rfl rfl rfl rfl rfl)
    | with_reducible refine State.Leads.snd ?_ (by assumption)
    | with_reducible refine State.Leads.fst ?_ (by assumption)
    | extract_lets
    | split

theorem State.startMove_leads {s0 : State} {s : State} (c : Command) (back : Bool) (hL : s0.Leads s) :
    s0.Leads (State.startMove s c back) := by
  unfold State.startMove
  repeat' first
    | with_reducible assumption
    | with_reducible apply State.defer_leads
    | with_reducible apply State.nextChunk_leads
    | with_reducible apply State.Leads.ite
    | with_reducible refine State.Leads.ite1 ?_ ?_
    | intro _
    | fail_if_no_progress (with_reducible refine State.Leads.upd ?_ rfl rfl rfl rfl rfl rfl rfl rfl rfl rfl rfl)

theorem State.copyChunk_leads {s0 s : State} (src dst : Nat) (hL : s0.Leads s) : s0.Leads (State.copyChunk s src dst) := by
  unfold State.copyChunk
  exact (State.memZero_leads _ _ hL).updw rfl (fun h => ⟨wf_foldl_set _ _ _ _ _ h.1, wf_foldl_set _ _ _ _ _ h.2⟩) id id rfl
    (Nat.le_refl _) rfl rfl

theorem execMapCreate_leads (c : Command) (s : State) : ∃ nxt, execMapCreate c s = .next nxt ∧ s.Leads nxt := by
  unfold execMapCreate
  refine State.Leads.live ?_
  have hL := State.Leads.refl s
  repeat' first
    | with_reducible assumption
    | with_reducible apply State.finish_leads
    | with_reducible apply State.checked_leads
    | with_reducible apply State.memZero_leads
    | with_reducible apply State.setMap_leads
    | with_reducible apply State.Leads.ite
    | with_reducible refine State.Leads.ite1 ?_ ?_
    | intro _

theorem execMapEdit_leads (c : Command) (s : State) : ∃ nxt, execMapEdit c s = .next nxt ∧ s.Leads nxt := by
  unfold execMapEdit
  refine State.Leads.live ?_
  have hL := State.Leads.refl s
  repeat' first
    | with_reducible assumption
    | with_reducible apply State.checked_leads
    | with_reducible apply State.runEdit_leads
    | with_reducible apply State.Leads.ite
    | with_reducible refine State.Leads.ite1 ?_ ?_
    | intro _

theorem execMapDestroy_leads (c : Command) (s : State) : ∃ nxt, execMapDestroy c s = .next nxt ∧ s.Leads nxt := by
  unfold execMapDestroy
  refine State.Leads.live ?_
  have hL := State.Leads.refl s
  repeat' first
    | with_reducible assumption
    | with_reducible apply State.defer_leads
    | with_reducible apply State.checked_leads
    | with_reducible apply State.setMap_leads
    | with_reducible apply State.Leads.ite
    | with_reducible refine State.Leads.ite1 ?_ ?_
    | intro _

theorem execMapDestroyDone_leads (slot : Nat) (s : State) : ∃ nxt, execMapDestroyDone slot s = .next nxt ∧ s.Leads nxt := by
  unfold execMapDestroyDone
  refine State.Leads.live ?_
  have hL := State.Leads.refl s
  repeat' first
    | with_reducible assumption
    | with_reducible apply State.deferredDone_leads
    | with_reducible apply State.onlyIf_leads
    | with_reducible apply State.setMap_leads
    | with_reducible apply State.Leads.ite
    | with_reducible refine State.Leads.ite1 ?_ ?_
    | intro _
    | fail_if_no_progress (with_reducible refine State.Leads.upd ?_ rfl rfl rfl rfl rfl rfl rfl rfl rfl rfl rfl)
    | with_reducible refine State.Leads.snd ?_ (by assumption)
    | with_reducible refine State.Leads.fst ?_ (by assumption)
    | extract_lets
    | split

theorem execMemCopy_leads (c : Command) (s : State) : ∃ nxt, execMemCopy c s = .next nxt ∧ s.Leads nxt := by
  unfold execMemCopy
  refine State.Leads.live ?_
  have hL := State.Leads.refl s
  repeat' first
    | with_reducible assumption
    | with_reducible apply State.checked_leads
    | with_reducible apply State.memRun_leads
    | with_reducible apply State.Leads.ite
    | with_reducible refine State.Leads.ite1 ?_ ?_
    | intro _

theorem execMemFill_leads (c : Command) (s : State) : ∃ nxt, execMemFill c s = .next nxt ∧ s.Leads nxt := by
  unfold execMemFill
  refine State.Leads.live ?_
  have hL := State.Leads.refl s
  repeat' first
    | with_reducible assumption
    | with_reducible apply State.checked_leads
    | with_reducible apply State.memRun_leads
    | with_reducible apply State.Leads.ite
    | with_reducible refine State.Leads.ite1 ?_ ?_
    | intro _

theorem execMemoryScrub_leads (u : Nat) (addr : Nat) (errors : Nat) (sub : Nat) (passEnd : Bool) (s : State)
    : ∃ nxt, execMemoryScrub u addr errors sub passEnd s = .next nxt ∧ s.Leads nxt := by
  unfold execMemoryScrub
  refine State.Leads.live ?_
  have hL := State.Leads.refl s
  repeat' first
    | with_reducible assumption
    | with_reducible apply State.setReg_leads
    | with_reducible apply State.onlyIf_leads
    | with_reducible apply State.memFound_leads
    | with_reducible apply State.Leads.ite
    | with_reducible refine State.Leads.ite1 ?_ ?_
    | intro _
    | (with_reducible refine State.Leads.foldl ?_ (fun _ _ _ => ?_) <;> beta_reduce)
    | fail_if_no_progress (with_reducible refine State.Leads.upd ?_ rfl rfl rfl rfl rfl rfl rfl rfl rfl rfl rfl)

theorem execFarMigrateOut_leads (c : Command) (s : State) : ∃ nxt, execFarMigrateOut c s = .next nxt ∧ s.Leads nxt := by
  unfold execFarMigrateOut
  refine State.Leads.live ?_
  have hL := State.Leads.refl s
  repeat' first
    | with_reducible assumption
    | with_reducible apply State.checked_leads
    | with_reducible apply State.startMove_leads
    | with_reducible apply State.Leads.ite
    | with_reducible refine State.Leads.ite1 ?_ ?_
    | intro _

theorem execFarMigrateBack_leads (c : Command) (s : State) : ∃ nxt, execFarMigrateBack c s = .next nxt ∧ s.Leads nxt := by
  unfold execFarMigrateBack
  refine State.Leads.live ?_
  have hL := State.Leads.refl s
  repeat' first
    | with_reducible assumption
    | with_reducible apply State.checked_leads
    | with_reducible apply State.startMove_leads
    | with_reducible apply State.Leads.ite
    | with_reducible refine State.Leads.ite1 ?_ ?_
    | intro _

theorem execFarMigrateRelease_leads (c : Command) (s : State) : ∃ nxt, execFarMigrateRelease c s = .next nxt ∧ s.Leads nxt := by
  unfold execFarMigrateRelease
  refine State.Leads.live ?_
  have hL := State.Leads.refl s
  repeat' first
    | with_reducible assumption
    | with_reducible apply State.finish_leads
    | with_reducible apply State.checked_leads
    | with_reducible apply State.setChunk_leads
    | with_reducible apply State.Leads.ite
    | with_reducible refine State.Leads.ite1 ?_ ?_
    | intro _
    | with_reducible refine State.Leads.foldl ?_ (fun _ _ _ => ?_)

theorem execChunkFlip_leads (channel : Nat) (s : State) : ∃ nxt, execChunkFlip channel s = .next nxt ∧ s.Leads nxt := by
  unfold execChunkFlip
  refine State.Leads.live ?_
  have hL := State.Leads.refl s
  repeat' first
    | with_reducible assumption
    | with_reducible apply State.deferredDoneWith_leads
    | with_reducible apply State.setChunk_leads
    | with_reducible apply State.nextChunk_leads
    | with_reducible apply State.copyChunk_leads
    | with_reducible apply State.Leads.ite
    | with_reducible refine State.Leads.ite1 ?_ ?_
    | intro _
    | fail_if_no_progress (with_reducible refine State.Leads.upd ?_ rfl rfl rfl rfl rfl rfl rfl rfl rfl rfl rfl)
    | with_reducible refine State.Leads.snd ?_ (by assumption)
    | with_reducible refine State.Leads.fst ?_ (by assumption)
    | extract_lets
    | split

theorem execFarOffline_leads (c : Command) (s : State) : ∃ nxt, execFarOffline c s = .next nxt ∧ s.Leads nxt := by
  unfold execFarOffline
  refine State.Leads.live ?_
  have hL := State.Leads.refl s
  repeat' first
    | with_reducible assumption
    | with_reducible apply State.finish_leads
    | with_reducible apply State.checked_leads
    | with_reducible apply State.xancaChange_leads
    | with_reducible apply State.csClearBits_leads
    | with_reducible apply State.setChunk_leads
    | with_reducible apply State.setFarState_leads
    | with_reducible apply State.Leads.ite
    | with_reducible refine State.Leads.ite1 ?_ ?_
    | intro _
    | with_reducible refine State.Leads.foldl ?_ (fun _ _ _ => ?_)
    | fail_if_no_progress (with_reducible refine State.Leads.upd ?_ rfl rfl rfl rfl rfl rfl rfl rfl rfl rfl rfl)

theorem execFarOnline_leads (c : Command) (s : State) : ∃ nxt, execFarOnline c s = .next nxt ∧ s.Leads nxt := by
  unfold execFarOnline
  refine State.Leads.live ?_
  have hL := State.Leads.refl s
  repeat' first
    | with_reducible assumption
    | with_reducible apply State.defer_leads
    | with_reducible apply State.checked_leads
    | with_reducible apply State.setFarState_leads
    | with_reducible apply State.Leads.ite
    | with_reducible refine State.Leads.ite1 ?_ ?_
    | intro _
    | fail_if_no_progress (with_reducible refine State.Leads.upd ?_ rfl rfl rfl rfl rfl rfl rfl rfl rfl rfl rfl)

theorem execFarOnlineComplete_leads (channel : Nat) (outcome : Nat) (serial : Nat) (capacity : Nat) (rate : Nat)
    (trainMs : Nat) (s : State)
    : ∃ nxt, execFarOnlineComplete channel outcome serial capacity rate trainMs s = .next nxt ∧ s.Leads nxt := by
  unfold execFarOnlineComplete
  refine State.Leads.live ?_
  have hL := State.Leads.refl s
  repeat' first
    | with_reducible assumption
    | with_reducible apply State.setReg_leads
    | with_reducible apply State.deferredDoneWith_leads
    | with_reducible apply State.xancaChange_leads
    | with_reducible apply State.logError_leads
    | with_reducible apply State.csSetBits_leads
    | with_reducible apply State.setChunk_leads
    | with_reducible apply State.memZero_leads
    | with_reducible apply State.setFarState_leads
    | with_reducible apply State.Leads.ite
    | with_reducible refine State.Leads.ite1 ?_ ?_
    | intro _
    | with_reducible refine State.Leads.foldl ?_ (fun _ _ _ => ?_)
    | fail_if_no_progress (with_reducible refine State.Leads.upd ?_ rfl rfl rfl rfl rfl rfl rfl rfl rfl rfl rfl)
    | with_reducible refine State.Leads.snd ?_ (by assumption)
    | with_reducible refine State.Leads.fst ?_ (by assumption)
    | extract_lets
    | split

theorem execSlotPowerFall_leads (channel : Nat) (s : State) : ∃ nxt, execSlotPowerFall channel s = .next nxt ∧ s.Leads nxt := by
  unfold execSlotPowerFall
  refine State.Leads.live ?_
  have hL := State.Leads.refl s
  repeat' first
    | with_reducible assumption
    | with_reducible apply State.onlyIf_leads
    | with_reducible apply State.Leads.ite
    | with_reducible refine State.Leads.ite1 ?_ ?_
    | intro _
    | fail_if_no_progress (with_reducible refine State.Leads.upd ?_ rfl rfl rfl rfl rfl rfl rfl rfl rfl rfl rfl)

end Sys2Proof.Machine
end

