-- ==== Sys2Proof/Laws/LeadsFaults.lean ====
section
/-! SUPPORT. The state leads on to the state after: faults, resilience and the reel commands. -/

namespace Sys2Proof.Machine

theorem State.retireUnit_leads {s0 : State} {s : State} (u : Nat) (injected : Bool) (hL : s0.Leads s) :
    s0.Leads (State.retireUnit s u injected) := by
  unfold State.retireUnit
  repeat' first
    | with_reducible assumption
    | with_reducible apply State.xancaChange_leads
    | with_reducible apply State.csRecompute_leads
    | with_reducible apply State.mramRepair_leads

theorem State.deviceFault_leads {s0 : State} {s : State} (u : Nat) (bs : List Nat) (hL : s0.Leads s) :
    s0.Leads (State.deviceFault s u bs) := by
  unfold State.deviceFault
  repeat' first
    | with_reducible assumption
    | with_reducible apply State.csClearBits_leads
    | with_reducible apply State.degradedRecord_leads

theorem State.failCore_leads {s0 : State} {s : State} (p : Nat) (injected : Bool) (hL : s0.Leads s) :
    s0.Leads (State.failCore s p injected).2 := by
  unfold State.failCore
  repeat' first
    | with_reducible assumption
    | with_reducible apply State.setCore_leads

theorem State.failRow_leads {s0 : State} {s : State} (p : Nat) (row : Nat) (injected : Bool) (hL : s0.Leads s) :
    s0.Leads (State.failRow s p row injected).2 := by
  unfold State.failRow
  repeat' first
    | with_reducible assumption
    | with_reducible apply State.setCore_leads
    | with_reducible apply State.opeRepaired_leads
    | with_reducible apply State.failCore_leads
    | with_reducible apply State.Leads.ite
    | with_reducible refine State.Leads.ite1 ?_ ?_
    | intro _
    | fail_if_no_progress (with_reducible refine State.Leads.upd ?_ rfl rfl rfl rfl rfl rfl rfl rfl rfl rfl rfl)
    | with_reducible refine State.Leads.snd ?_ (by assumption)
    | with_reducible refine State.Leads.fst ?_ (by assumption)
    | extract_lets
    | split

theorem State.coreVerdict_leads {s0 : State} {s : State} (p : Nat) (rows : List Nat) (injected : Bool) (hL : s0.Leads s) :
    s0.Leads (State.coreVerdict s p rows injected).2 := by
  unfold State.coreVerdict
  repeat' first
    | with_reducible assumption
    | with_reducible apply State.failCore_leads
    | with_reducible apply State.failRow_leads
    | with_reducible apply State.Leads.ite
    | with_reducible refine State.Leads.ite1 ?_ ?_
    | intro _
    | with_reducible refine State.Leads.foldl2 ?_ (fun _ _ _ => ?_)
    | fail_if_no_progress (with_reducible refine State.Leads.upd ?_ rfl rfl rfl rfl rfl rfl rfl rfl rfl rfl rfl)
    | with_reducible refine State.Leads.snd ?_ (by assumption)
    | with_reducible refine State.Leads.fst ?_ (by assumption)
    | extract_lets
    | split

theorem State.lineVerdict_leads {s0 : State} {s : State} (u : Nat) (lines : List Nat) (injected : Bool) (hL : s0.Leads s) :
    s0.Leads (State.lineVerdict s u lines injected).2 := by
  unfold State.lineVerdict
  repeat' first
    | with_reducible assumption
    | with_reducible apply State.Leads.ite
    | with_reducible refine State.Leads.ite1 ?_ ?_
    | intro _
    | with_reducible refine State.Leads.foldl2 ?_ (fun _ _ _ => ?_)
    | fail_if_no_progress (with_reducible refine State.Leads.upd ?_ rfl rfl rfl rfl rfl rfl rfl rfl rfl rfl rfl)
    | with_reducible refine State.Leads.snd ?_ (by assumption)
    | with_reducible refine State.Leads.fst ?_ (by assumption)
    | extract_lets
    | split

theorem State.resvVerdict_leads {s0 : State} {s : State} (line : Nat) (injected : Bool) (hL : s0.Leads s) :
    s0.Leads (State.resvVerdict s line injected).2 := by
  unfold State.resvVerdict
  repeat' first
    | with_reducible assumption
    | with_reducible apply State.mramRepair_leads
    | with_reducible apply State.Leads.ite
    | with_reducible refine State.Leads.ite1 ?_ ?_
    | intro _
    | fail_if_no_progress (with_reducible refine State.Leads.upd ?_ rfl rfl rfl rfl rfl rfl rfl rfl rfl rfl rfl)
    | with_reducible refine State.Leads.snd ?_ (by assumption)
    | with_reducible refine State.Leads.fst ?_ (by assumption)
    | extract_lets
    | split

theorem State.retireStack_leads {s0 : State} {s : State} (u : Nat) (injected : Bool) (hL : s0.Leads s) :
    s0.Leads (State.retireStack s u injected) := by
  unfold State.retireStack
  repeat' first
    | with_reducible assumption
    | with_reducible apply State.csDrop_leads
    | with_reducible apply State.csRecompute_leads
    | with_reducible apply State.degradedRecord_leads
    | with_reducible apply State.retireUnit_leads
    | with_reducible apply State.deviceFault_leads
    | with_reducible apply State.Leads.ite

theorem State.failChannel_leads {s0 : State} {s : State} (u : Nat) (hL : s0.Leads s) :
    s0.Leads (State.failChannel s u) := by
  unfold State.failChannel
  repeat' first
    | with_reducible assumption
    | with_reducible apply State.xancaChange_leads
    | with_reducible apply State.csDrop_leads
    | with_reducible apply State.csRecompute_leads
    | with_reducible apply State.setFarState_leads

theorem State.rowVerdict_leads {s0 : State} {s : State} (u : Nat) (sub : Nat) (injected : Bool) (hL : s0.Leads s) :
    s0.Leads (State.rowVerdict s u sub injected).2 := by
  unfold State.rowVerdict
  repeat' first
    | with_reducible assumption
    | with_reducible apply State.setFld_leads
    | with_reducible apply State.bump_leads
    | with_reducible apply State.retireStack_leads
    | with_reducible apply State.failChannel_leads
    | with_reducible apply State.Leads.ite
    | with_reducible refine State.Leads.ite1 ?_ ?_
    | intro _
    | fail_if_no_progress (with_reducible refine State.Leads.upd ?_ rfl rfl rfl rfl rfl rfl rfl rfl rfl rfl rfl)
    | with_reducible refine State.Leads.snd ?_ (by assumption)
    | with_reducible refine State.Leads.fst ?_ (by assumption)
    | extract_lets
    | split

theorem State.laneVerdict_leads {s0 : State} {s : State} (e : Nat) (lane : Nat) (injected : Bool) (hL : s0.Leads s) :
    s0.Leads (State.laneVerdict s e lane injected).2 := by
  unfold State.laneVerdict
  repeat' first
    | with_reducible assumption
    | with_reducible apply State.recordAll_leads
    | with_reducible apply State.setPort_leads
    | with_reducible apply State.portLost_leads
    | with_reducible apply State.mramRepair_leads
    | with_reducible apply State.retireUnit_leads
    | with_reducible apply State.Leads.ite
    | with_reducible refine State.Leads.ite1 ?_ ?_
    | intro _
    | fail_if_no_progress (with_reducible refine State.Leads.upd ?_ rfl rfl rfl rfl rfl rfl rfl rfl rfl rfl rfl)
    | with_reducible refine State.Leads.snd ?_ (by assumption)
    | with_reducible refine State.Leads.fst ?_ (by assumption)
    | extract_lets
    | split

theorem State.takeOver_leads {s0 : State} {s : State} (e : Nat) (hL : s0.Leads s) :
    s0.Leads (State.takeOver s e) := by
  unfold State.takeOver
  repeat' first
    | with_reducible assumption
    | with_reducible apply State.xancaChange_leads
    | with_reducible apply State.stopChain_leads
    | with_reducible apply State.deviceFault_leads
    | with_reducible apply State.Leads.ite
    | with_reducible refine State.Leads.ite1 ?_ ?_
    | intro _
    | with_reducible refine State.Leads.foldl ?_ (fun _ _ _ => ?_)
    | fail_if_no_progress (with_reducible refine State.Leads.upd ?_ rfl rfl rfl rfl rfl rfl rfl rfl rfl rfl rfl)
    | with_reducible refine State.Leads.snd ?_ (by assumption)
    | with_reducible refine State.Leads.fst ?_ (by assumption)
    | extract_lets
    | split

theorem State.retireEngine_leads {s0 : State} {s : State} (e : Nat) (injected : Bool) (hL : s0.Leads s) :
    s0.Leads (State.retireEngine s e injected) := by
  unfold State.retireEngine
  repeat' first
    | with_reducible assumption
    | with_reducible apply State.draw_leads
    | with_reducible apply State.endChain_leads
    | with_reducible apply State.retireUnit_leads
    | with_reducible apply State.takeOver_leads
    | with_reducible apply State.Leads.ite
    | with_reducible refine State.Leads.ite1 ?_ ?_
    | intro _
    | with_reducible refine State.Leads.foldl ?_ (fun _ _ _ => ?_)

theorem State.retireControl_leads {s0 : State} {s : State} (n : Nat) (injected : Bool) (hL : s0.Leads s) :
    s0.Leads (State.retireControl s n injected) := by
  unfold State.retireControl
  repeat' first
    | with_reducible assumption
    | with_reducible apply State.mramRepair_leads
    | with_reducible apply State.degradedRecord_leads
    | with_reducible apply State.deviceFault_leads
    | with_reducible apply State.Leads.ite
    | with_reducible refine State.Leads.ite1 ?_ ?_
    | intro _
    | fail_if_no_progress (with_reducible refine State.Leads.upd ?_ rfl rfl rfl rfl rfl rfl rfl rfl rfl rfl rfl)

theorem State.verdict_leads {s0 s : State} (t : Screen) (subs : List Nat) (spare injected : Bool) (hL : s0.Leads s)
    : s0.Leads ((State.verdict s t subs spare injected).2) := by
  unfold State.verdict
  extract_lets
  repeat' first
    | with_reducible assumption
    | with_reducible apply State.setFld_leads
    | with_reducible apply State.coreVerdict_leads
    | with_reducible apply State.lineVerdict_leads
    | with_reducible apply State.rowVerdict_leads
    | with_reducible apply State.retireStack_leads
    | with_reducible apply State.failChannel_leads
    | with_reducible apply State.mramRepair_leads
    | with_reducible apply State.retireEngine_leads
    | with_reducible apply State.retireUnit_leads
    | with_reducible apply State.retireDecodes_leads
    | with_reducible apply State.retireControl_leads
    | with_reducible apply State.deviceFault_leads
    | with_reducible refine State.Leads.foldl2 ?_ (fun _ _ h => ?_)
    | exact State.resvVerdict_leads _ _ h
    | exact State.laneVerdict_leads _ _ _ h
    | with_reducible refine State.Leads.ite2 ?_ ?_

theorem State.settle_leads {s0 : State} {s : State} (t : Screen) (outcome : Nat) (i : Nat) (hL : s0.Leads s) :
    s0.Leads (State.settle s t outcome i) := by
  unfold State.settle
  repeat' first
    | with_reducible assumption
    | with_reducible apply State.recordAll_leads
    | with_reducible apply State.Leads.ite
    | with_reducible refine State.Leads.ite1 ?_ ?_
    | intro _
    | fail_if_no_progress (with_reducible refine State.Leads.upd ?_ rfl rfl rfl rfl rfl rfl rfl rfl rfl rfl rfl)
    | with_reducible refine State.Leads.snd ?_ (by assumption)
    | with_reducible refine State.Leads.fst ?_ (by assumption)
    | extract_lets
    | split

theorem State.runTold_leads {s0 : State} {s : State} (t : Screen) (outcome : Nat) (h : CmdHdr) (hL : s0.Leads s) :
    s0.Leads (State.runTold s t outcome h) := by
  unfold State.runTold
  repeat' first
    | with_reducible assumption
    | with_reducible apply State.recordCmd_leads
    | with_reducible apply State.recordAll_leads
    | with_reducible apply State.deferredDone_leads
    | with_reducible apply State.Leads.ite
    | with_reducible refine State.Leads.ite1 ?_ ?_
    | intro _
    | fail_if_no_progress (with_reducible refine State.Leads.upd ?_ rfl rfl rfl rfl rfl rfl rfl rfl rfl rfl rfl)
    | with_reducible refine State.Leads.snd ?_ (by assumption)
    | with_reducible refine State.Leads.fst ?_ (by assumption)
    | extract_lets
    | split

theorem State.passed_leads {s0 : State} {s : State} (t : Screen) (hL : s0.Leads s) :
    s0.Leads (State.passed s t) := by
  unfold State.passed
  repeat' first
    | with_reducible assumption
    | with_reducible apply State.csSetBits_leads
    | with_reducible apply State.Leads.ite
    | with_reducible refine State.Leads.ite1 ?_ ?_
    | intro _
    | fail_if_no_progress (with_reducible refine State.Leads.upd ?_ rfl rfl rfl rfl rfl rfl rfl rfl rfl rfl rfl)
    | with_reducible refine State.Leads.snd ?_ (by assumption)
    | with_reducible refine State.Leads.fst ?_ (by assumption)
    | extract_lets
    | split

theorem State.endTest_leads {s0 : State} {s : State} (t : Screen) (outcome : Nat) (hL : s0.Leads s) :
    s0.Leads (State.endTest s t outcome) := by
  unfold State.endTest
  repeat' first
    | with_reducible assumption
    | with_reducible apply State.stamp_leads
    | with_reducible apply State.recordAll_leads
    | with_reducible apply State.countError_leads
    | with_reducible apply State.logEntry_leads
    | with_reducible apply State.settle_leads
    | with_reducible apply State.runTold_leads
    | with_reducible apply State.Leads.ite
    | with_reducible refine State.Leads.ite1 ?_ ?_
    | intro _
    | with_reducible refine State.Leads.foldl ?_ (fun _ _ _ => ?_)
    | fail_if_no_progress (with_reducible refine State.Leads.upd ?_ rfl rfl rfl rfl rfl rfl rfl rfl rfl rfl rfl)

theorem execScreenTestComplete_leads (unit : Nat) (sub : Nat) (type : Nat) (failed : Bool) (subs : List Nat) (spare
    : Bool) (s : State) : ∃ nxt, execScreenTestComplete unit sub type failed subs spare s = .next nxt ∧ s.Leads nxt := by
  unfold execScreenTestComplete
  refine State.Leads.live ?_
  have hL := State.Leads.refl s
  repeat' first
    | with_reducible assumption
    | with_reducible apply State.onlyIf_leads
    | with_reducible apply State.boundary_leads
    | with_reducible apply State.verdict_leads
    | with_reducible apply State.passed_leads
    | with_reducible apply State.endTest_leads
    | with_reducible apply State.idle_leads
    | with_reducible apply State.Leads.ite
    | with_reducible refine State.Leads.ite1 ?_ ?_
    | intro _
    | fail_if_no_progress (with_reducible refine State.Leads.upd ?_ rfl rfl rfl rfl rfl rfl rfl rfl rfl rfl rfl)
    | with_reducible refine State.Leads.snd ?_ (by assumption)
    | with_reducible refine State.Leads.fst ?_ (by assumption)
    | extract_lets
    | split

theorem execSweep_leads (c : Nat) (s : State) : ∃ nxt, execSweep c s = .next nxt ∧ s.Leads nxt := by
  unfold execSweep
  refine State.Leads.live ?_
  have hL := State.Leads.refl s
  repeat' first
    | with_reducible assumption
    | with_reducible apply State.onlyIf_leads
    | with_reducible apply State.Leads.ite
    | with_reducible refine State.Leads.ite1 ?_ ?_
    | intro _
    | fail_if_no_progress (with_reducible refine State.Leads.upd ?_ rfl rfl rfl rfl rfl rfl rfl rfl rfl rfl rfl)
    | with_reducible refine State.Leads.snd ?_ (by assumption)
    | with_reducible refine State.Leads.fst ?_ (by assumption)
    | extract_lets
    | split

theorem execScreenTestRun_leads (c : Command) (s : State) : ∃ nxt, execScreenTestRun c s = .next nxt ∧ s.Leads nxt := by
  unfold execScreenTestRun
  refine State.Leads.live ?_
  have hL := State.Leads.refl s
  repeat' first
    | with_reducible assumption
    | with_reducible apply State.defer_leads
    | with_reducible apply State.deferredDone_leads
    | with_reducible apply State.checked_leads
    | with_reducible apply State.boundary_leads
    | with_reducible apply State.Leads.ite
    | with_reducible refine State.Leads.ite1 ?_ ?_
    | intro _
    | (with_reducible refine State.Leads.foldl ?_ (fun _ _ _ => ?_) <;> beta_reduce)
    | fail_if_no_progress (with_reducible refine State.Leads.upd ?_ rfl rfl rfl rfl rfl rfl rfl rfl rfl rfl rfl)

theorem execErrorLogRead_leads (c : Command) (s : State) : ∃ nxt, execErrorLogRead c s = .next nxt ∧ s.Leads nxt := by
  unfold execErrorLogRead
  refine State.Leads.live ?_
  have hL := State.Leads.refl s
  repeat' first
    | with_reducible assumption
    | with_reducible apply State.finish_leads
    | with_reducible apply State.checked_leads
    | with_reducible apply State.Leads.ite
    | with_reducible refine State.Leads.ite1 ?_ ?_
    | intro _
    | fail_if_no_progress (with_reducible refine State.Leads.upd ?_ rfl rfl rfl rfl rfl rfl rfl rfl rfl rfl rfl)

theorem execErrorInject_leads (c : Command) (s : State) : ∃ nxt, execErrorInject c s = .next nxt ∧ s.Leads nxt := by
  unfold execErrorInject
  refine State.Leads.live ?_
  have hL := State.Leads.refl s
  repeat' first
    | with_reducible assumption
    | with_reducible apply State.finish_leads
    | with_reducible apply State.checked_leads
    | with_reducible apply State.logError_leads
    | with_reducible apply State.boundary_leads
    | with_reducible apply State.Leads.ite
    | with_reducible refine State.Leads.ite1 ?_ ?_
    | intro _
    | fail_if_no_progress (with_reducible refine State.Leads.upd ?_ rfl rfl rfl rfl rfl rfl rfl rfl rfl rfl rfl)

theorem execHeartbeat_leads (n : Nat) (s : State) : ∃ nxt, execHeartbeat n s = .next nxt ∧ s.Leads nxt := by
  unfold execHeartbeat
  refine State.Leads.live ?_
  have hL := State.Leads.refl s
  repeat' first
    | with_reducible assumption
    | with_reducible apply State.onlyIf_leads
    | with_reducible apply State.Leads.ite
    | with_reducible refine State.Leads.ite1 ?_ ?_
    | intro _
    | fail_if_no_progress (with_reducible refine State.Leads.upd ?_ rfl rfl rfl rfl rfl rfl rfl rfl rfl rfl rfl)

theorem execControlHeartbeatTimeout_leads (n : Nat) (s : State) : ∃ nxt, execControlHeartbeatTimeout n s = .next nxt
    ∧ s.Leads nxt := by
  unfold execControlHeartbeatTimeout
  refine State.Leads.live ?_
  have hL := State.Leads.refl s
  repeat' first
    | with_reducible assumption
    | with_reducible apply State.stamp_leads
    | with_reducible apply State.countError_leads
    | with_reducible apply State.logEntry_leads
    | with_reducible apply State.logError_leads
    | with_reducible apply State.onlyIf_leads
    | with_reducible apply State.retireControl_leads
    | with_reducible apply State.Leads.ite
    | with_reducible refine State.Leads.ite1 ?_ ?_
    | intro _
    | fail_if_no_progress (with_reducible refine State.Leads.upd ?_ rfl rfl rfl rfl rfl rfl rfl rfl rfl rfl rfl)

theorem State.resRecord_leads {s0 : State} {s : State} (slot : Nat) (type : Nat) (status : Nat) (body : List Byte) (hL
    : s0.Leads s) :
    s0.Leads (State.resRecord s slot type status body) := by
  unfold State.resRecord
  repeat' first
    | with_reducible assumption
    | with_reducible apply State.recordCmd_leads
    | with_reducible apply State.Leads.ite
    | with_reducible refine State.Leads.ite1 ?_ ?_
    | intro _
    | fail_if_no_progress (with_reducible refine State.Leads.upd ?_ rfl rfl rfl rfl rfl rfl rfl rfl rfl rfl rfl)
    | with_reducible refine State.Leads.snd ?_ (by assumption)
    | with_reducible refine State.Leads.fst ?_ (by assumption)
    | extract_lets
    | split

theorem State.partnerState_leads {s0 : State} {s : State} (slot : Nat) (event : Nat) (partner : Nat) (feed : Nat) (hL
    : s0.Leads s) :
    s0.Leads (State.partnerState s slot event partner feed) := by
  unfold State.partnerState
  repeat' first
    | with_reducible assumption
    | with_reducible apply State.recordAll_leads

theorem State.sendBulk_leads {s0 : State} {s : State} (slot : Nat) (dst : Nat) (m : Bulk) (offset : Nat) (payload
    : List Byte) (hL : s0.Leads s) :
    s0.Leads (State.sendBulk s slot dst m offset payload) := by
  unfold State.sendBulk
  repeat' first
    | with_reducible assumption
    | with_reducible apply State.draw_leads
    | with_reducible apply State.bump_leads
    | with_reducible apply State.emit_leads
    | with_reducible apply State.originate_leads

theorem State.imageOf_leads {s0 : State} {s : State} (slot : Nat) (ranges : List (Nat × Nat)) (hL : s0.Leads s) :
    s0.Leads (State.imageOf s slot ranges).2 := by
  unfold State.imageOf
  repeat' first
    | with_reducible assumption
    | with_reducible apply State.vtouch_leads
    | with_reducible apply State.freeBytes_leads
    | with_reducible apply State.Leads.ite
    | with_reducible refine State.Leads.ite1 ?_ ?_
    | intro _
    | with_reducible refine State.Leads.foldl2 ?_ (fun _ _ _ => ?_)
    | fail_if_no_progress (with_reducible refine State.Leads.upd ?_ rfl rfl rfl rfl rfl rfl rfl rfl rfl rfl rfl)
    | with_reducible refine State.Leads.snd ?_ (by assumption)
    | with_reducible refine State.Leads.fst ?_ (by assumption)
    | extract_lets
    | split

theorem State.sendBlock_leads {s0 : State} {s : State} (slot : Nat) (partner : Nat) (x : Snap) (b : Nat) (hL : s0.Leads s) :
    s0.Leads (State.sendBlock s slot partner x b) := by
  unfold State.sendBlock
  repeat' first
    | with_reducible assumption
    | with_reducible apply State.sendBulk_leads
    | with_reducible apply State.Leads.ite
    | with_reducible refine State.Leads.ite1 ?_ ?_
    | intro _
    | with_reducible refine State.Leads.foldl ?_ (fun _ _ _ => ?_)

theorem State.startNegative_leads {s0 : State} {s : State} (slot : Nat) (k : Nat) (hL : s0.Leads s) :
    s0.Leads (State.startNegative s slot k) := by
  unfold State.startNegative
  repeat' first
    | with_reducible assumption
    | with_reducible apply State.setRjob_leads
    | with_reducible apply State.sendBulk_leads
    | with_reducible apply State.sendBlock_leads
    | with_reducible apply State.Leads.ite
    | with_reducible refine State.Leads.ite1 ?_ ?_
    | intro _
    | with_reducible refine State.Leads.foldl ?_ (fun _ _ _ => ?_)
    | fail_if_no_progress (with_reducible refine State.Leads.upd ?_ rfl rfl rfl rfl rfl rfl rfl rfl rfl rfl rfl)
    | with_reducible refine State.Leads.snd ?_ (by assumption)
    | with_reducible refine State.Leads.fst ?_ (by assumption)
    | extract_lets
    | split

theorem State.abandonNegative_leads {s0 : State} {s : State} (slot : Nat) (reason : Nat) (hL : s0.Leads s) :
    s0.Leads (State.abandonNegative s slot reason) := by
  unfold State.abandonNegative
  repeat' first
    | with_reducible assumption
    | with_reducible apply State.bump_leads
    | with_reducible apply State.setRjob_leads
    | with_reducible apply State.resRecord_leads
    | with_reducible apply State.startNegative_leads
    | with_reducible apply State.Leads.ite
    | with_reducible refine State.Leads.ite1 ?_ ?_
    | intro _
    | fail_if_no_progress (with_reducible refine State.Leads.upd ?_ rfl rfl rfl rfl rfl rfl rfl rfl rfl rfl rfl)
    | with_reducible refine State.Leads.snd ?_ (by assumption)
    | with_reducible refine State.Leads.fst ?_ (by assumption)
    | extract_lets
    | split

theorem State.negativeDone_leads {s0 : State} {s : State} (slot : Nat) (other : Nat) (step : Nat) (bytes : Nat) (cofed
    : Bool) (hL : s0.Leads s) :
    s0.Leads (State.negativeDone s slot other step bytes cofed) := by
  unfold State.negativeDone
  repeat' first
    | with_reducible assumption
    | with_reducible apply State.stamp_leads
    | with_reducible apply State.resRecord_leads

theorem State.releaseInherited_leads {s0 : State} {s : State} (slot : Nat) (ranges : List (Nat × Nat)) (hL : s0.Leads s) :
    s0.Leads (State.releaseInherited s slot ranges) := by
  unfold State.releaseInherited
  repeat' first
    | with_reducible assumption
    | with_reducible apply State.setRjob_leads
    | with_reducible apply State.sendBulk_leads
    | with_reducible apply State.Leads.ite
    | with_reducible refine State.Leads.ite1 ?_ ?_
    | intro _
    | (with_reducible refine State.Leads.foldl ?_ (fun _ _ _ => ?_) <;> beta_reduce)

theorem State.releaseOld_leads {s0 : State} {s : State} (slot : Nat) (hL : s0.Leads s) :
    s0.Leads (State.releaseOld s slot) := by
  unfold State.releaseOld
  repeat' first
    | with_reducible assumption
    | with_reducible apply State.deferredDone_leads
    | with_reducible apply State.setRjob_leads
    | with_reducible apply State.partnerState_leads
    | with_reducible apply State.sendBulk_leads
    | with_reducible apply State.Leads.ite
    | with_reducible refine State.Leads.ite1 ?_ ?_
    | intro _
    | fail_if_no_progress (with_reducible refine State.Leads.upd ?_ rfl rfl rfl rfl rfl rfl rfl rfl rfl rfl rfl)
    | with_reducible refine State.Leads.snd ?_ (by assumption)
    | with_reducible refine State.Leads.fst ?_ (by assumption)
    | extract_lets
    | split

theorem State.finishNegative_leads {s0 : State} {s : State} (slot : Nat) (n : Negative) (hL : s0.Leads s) :
    s0.Leads (State.finishNegative s slot n) := by
  unfold State.finishNegative
  repeat' first
    | with_reducible assumption
    | with_reducible apply State.bump_leads
    | with_reducible apply State.setRjob_leads
    | with_reducible apply State.startNegative_leads
    | with_reducible apply State.negativeDone_leads
    | with_reducible apply State.releaseInherited_leads
    | with_reducible apply State.releaseOld_leads
    | with_reducible apply State.Leads.ite
    | with_reducible refine State.Leads.ite1 ?_ ?_
    | intro _
    | fail_if_no_progress (with_reducible refine State.Leads.upd ?_ rfl rfl rfl rfl rfl rfl rfl rfl rfl rfl rfl)
    | with_reducible refine State.Leads.snd ?_ (by assumption)
    | with_reducible refine State.Leads.fst ?_ (by assumption)
    | extract_lets
    | split

theorem State.blockAcked_leads {s0 : State} {s : State} (slot : Nat) (src : Nat) (step : Nat) (b : Nat) (ok : Bool) (hL
    : s0.Leads s) :
    s0.Leads (State.blockAcked s slot src step b ok) := by
  unfold State.blockAcked
  repeat' first
    | with_reducible assumption
    | with_reducible apply State.setRjob_leads
    | with_reducible apply State.sendBlock_leads
    | with_reducible apply State.abandonNegative_leads
    | with_reducible apply State.finishNegative_leads
    | with_reducible apply State.Leads.ite
    | with_reducible refine State.Leads.ite1 ?_ ?_
    | intro _
    | fail_if_no_progress (with_reducible refine State.Leads.upd ?_ rfl rfl rfl rfl rfl rfl rfl rfl rfl rfl rfl)
    | with_reducible refine State.Leads.snd ?_ (by assumption)
    | with_reducible refine State.Leads.fst ?_ (by assumption)
    | extract_lets
    | split

theorem State.losePartner_leads {s0 : State} {s : State} (slot : Nat) (reason : Nat) (hL : s0.Leads s) :
    s0.Leads (State.losePartner s slot reason) := by
  unfold State.losePartner
  repeat' first
    | with_reducible assumption
    | with_reducible apply State.setRjob_leads
    | with_reducible apply State.partnerState_leads
    | with_reducible apply State.abandonNegative_leads

theorem State.beginFreeze_leads {s0 : State} {s : State} (slot : Nat) (f : Freeze) (hL : s0.Leads s) :
    s0.Leads (State.beginFreeze s slot f) := by
  unfold State.beginFreeze
  repeat' first
    | with_reducible assumption
    | with_reducible apply State.setRjob_leads

theorem State.handOver_leads {s0 : State} {s : State} (slot : Nat) (hL : s0.Leads s) :
    s0.Leads (State.handOver s slot) := by
  unfold State.handOver
  repeat' first
    | with_reducible assumption
    | with_reducible apply State.setRjob_leads
    | with_reducible apply State.partnerState_leads
    | with_reducible apply State.abandonNegative_leads
    | with_reducible apply State.Leads.ite
    | with_reducible refine State.Leads.ite1 ?_ ?_
    | intro _
    | fail_if_no_progress (with_reducible refine State.Leads.upd ?_ rfl rfl rfl rfl rfl rfl rfl rfl rfl rfl rfl)
    | with_reducible refine State.Leads.snd ?_ (by assumption)
    | with_reducible refine State.Leads.fst ?_ (by assumption)
    | extract_lets
    | split

theorem State.stopJob_leads {s0 : State} {s : State} (slot : Nat) (f : Freeze) (hL : s0.Leads s) :
    s0.Leads (State.stopJob s slot f) := by
  unfold State.stopJob
  repeat' first
    | with_reducible assumption
    | with_reducible apply State.stamp_leads
    | with_reducible apply State.setRjob_leads
    | with_reducible apply State.imageOf_leads
    | with_reducible apply State.startNegative_leads
    | with_reducible apply State.abandonNegative_leads
    | with_reducible apply State.handOver_leads
    | with_reducible apply State.Leads.ite

theorem State.beginSlate_leads {s0 : State} {s : State} (slot : Nat) (step : Nat) (stage : List Byte) (hL : s0.Leads s) :
    s0.Leads (State.beginSlate s slot step stage) := by
  unfold State.beginSlate
  repeat' first
    | with_reducible assumption
    | with_reducible apply State.stamp_leads
    | with_reducible apply State.setRjob_leads
    | with_reducible apply State.Leads.ite
    | with_reducible refine State.Leads.ite1 ?_ ?_
    | intro _
    | fail_if_no_progress (with_reducible refine State.Leads.upd ?_ rfl rfl rfl rfl rfl rfl rfl rfl rfl rfl rfl)

theorem State.enterStep_leads {s0 : State} {s : State} (slot : Nat) (step : Nat) (stage : Option (List Byte)) (hL
    : s0.Leads s) :
    s0.Leads (State.enterStep s slot step stage) := by
  unfold State.enterStep
  repeat' first
    | with_reducible assumption
    | with_reducible apply State.setReelJob_leads
    | with_reducible apply State.setRjob_leads
    | with_reducible apply State.beginSlate_leads
    | with_reducible apply State.Leads.ite
    | with_reducible refine State.Leads.ite1 ?_ ?_
    | intro _
    | with_reducible refine State.Leads.foldl ?_ (fun _ _ _ => ?_)
    | fail_if_no_progress (with_reducible refine State.Leads.upd ?_ rfl rfl rfl rfl rfl rfl rfl rfl rfl rfl rfl)
    | with_reducible refine State.Leads.snd ?_ (by assumption)
    | with_reducible refine State.Leads.fst ?_ (by assumption)
    | extract_lets
    | split

theorem State.runBegin_leads {s0 : State} {s : State} (c : Command) (slot : Nat) (hL : s0.Leads s) :
    s0.Leads (State.runBegin s c slot) := by
  unfold State.runBegin
  repeat' first
    | with_reducible assumption
    | with_reducible apply State.finish_leads
    | with_reducible apply State.readRecord_leads
    | with_reducible apply State.enterStep_leads
    | with_reducible apply State.enter_leads
    | with_reducible apply State.Leads.ite
    | with_reducible refine State.Leads.ite1 ?_ ?_
    | intro _

theorem State.advanceTags_leads {s0 : State} {s : State} (slot : Nat) (hL : s0.Leads s) :
    s0.Leads (State.advanceTags s slot) := by
  unfold State.advanceTags
  repeat' first
    | with_reducible assumption
    | with_reducible apply State.setReelJob_leads
    | with_reducible apply State.setRjob_leads
    | with_reducible apply State.Leads.ite
    | with_reducible refine State.Leads.ite1 ?_ ?_
    | intro _
    | fail_if_no_progress (with_reducible refine State.Leads.upd ?_ rfl rfl rfl rfl rfl rfl rfl rfl rfl rfl rfl)

theorem State.writeSlate_leads {s0 : State} {s : State} (slot : Nat) (gateWait : Nat) (report : List Byte) (status
    : Nat) (retake : Bool) (hL : s0.Leads s) :
    s0.Leads (State.writeSlate s slot gateWait report status retake) := by
  unfold State.writeSlate
  repeat' first
    | with_reducible assumption
    | with_reducible apply State.stamp_leads
    | with_reducible apply State.setRjob_leads
    | with_reducible apply State.Leads.ite
    | with_reducible refine State.Leads.ite1 ?_ ?_
    | intro _
    | fail_if_no_progress (with_reducible refine State.Leads.upd ?_ rfl rfl rfl rfl rfl rfl rfl rfl rfl rfl rfl)
    | with_reducible refine State.Leads.snd ?_ (by assumption)
    | with_reducible refine State.Leads.fst ?_ (by assumption)
    | extract_lets
    | split

theorem State.retakeRecord_leads {s0 : State} {s : State} (slot : Nat) (x : Retake) (detail : Nat) (found : List Byte)
    (status : Nat) (recStatus : Nat) (hL : s0.Leads s) :
    s0.Leads (State.retakeRecord s slot x detail found status recStatus) := by
  unfold State.retakeRecord
  repeat' first
    | with_reducible assumption
    | with_reducible apply State.resRecord_leads

theorem State.gateAnswer_leads {s0 : State} {s : State} (slot : Nat) (c : Command) (deferred : Bool) (status : Nat)
    (detail : Nat) (hL : s0.Leads s) :
    s0.Leads (State.gateAnswer s slot c deferred status detail) := by
  unfold State.gateAnswer
  repeat' first
    | with_reducible assumption
    | with_reducible apply State.finish_leads
    | with_reducible apply State.deferredDone_leads
    | with_reducible apply State.Leads.ite

theorem State.openGate_leads {s0 : State} {s : State} (slot : Nat) (c : Command) (deferred : Bool) (gateWait : Nat) (hL
    : s0.Leads s) :
    s0.Leads (State.openGate s slot c deferred gateWait) := by
  unfold State.openGate
  repeat' first
    | with_reducible assumption
    | with_reducible apply State.stamp_leads
    | with_reducible apply State.bump_leads
    | with_reducible apply State.deferredDone_leads
    | with_reducible apply State.setReelJob_leads
    | with_reducible apply State.vtouch_leads
    | with_reducible apply State.vfault_leads
    | with_reducible apply State.abortStep_leads
    | with_reducible apply State.setRjob_leads
    | with_reducible apply State.freeBytes_leads
    | with_reducible apply State.advanceTags_leads
    | with_reducible apply State.writeSlate_leads
    | with_reducible apply State.retakeRecord_leads
    | with_reducible apply State.gateAnswer_leads
    | with_reducible apply State.Leads.ite
    | with_reducible refine State.Leads.ite1 ?_ ?_
    | intro _
    | fail_if_no_progress (with_reducible refine State.Leads.upd ?_ rfl rfl rfl rfl rfl rfl rfl rfl rfl rfl rfl)
    | with_reducible refine State.Leads.snd ?_ (by assumption)
    | with_reducible refine State.Leads.fst ?_ (by assumption)
    | extract_lets
    | split
    | (dsimp +zetaDelta only; split)

theorem State.setInbound_leads {s0 : State} {s : State} (slot : Nat) (i : Inbound) (hL : s0.Leads s) :
    s0.Leads (State.setInbound s slot i) := by
  unfold State.setInbound
  repeat' first
    | with_reducible assumption
    | with_reducible apply State.setRjob_leads

theorem State.pieceIn_leads {s0 : State} {s : State} (slot : Nat) (src : Nat) (step : Nat) (off : Nat) (data
    : List Byte) (hL : s0.Leads s) :
    s0.Leads (State.pieceIn s slot src step off data) := by
  unfold State.pieceIn
  repeat' first
    | with_reducible assumption
    | with_reducible apply State.partnerState_leads
    | with_reducible apply State.sendBulk_leads
    | with_reducible apply State.negativeDone_leads
    | with_reducible apply State.setInbound_leads
    | with_reducible apply State.Leads.ite
    | with_reducible refine State.Leads.ite1 ?_ ?_
    | intro _
    | fail_if_no_progress (with_reducible refine State.Leads.upd ?_ rfl rfl rfl rfl rfl rfl rfl rfl rfl rfl rfl)
    | with_reducible refine State.Leads.snd ?_ (by assumption)
    | with_reducible refine State.Leads.fst ?_ (by assumption)
    | extract_lets
    | split

theorem State.dropInbound_leads {s0 : State} {s : State} (slot : Nat) (owner : Nat) (hL : s0.Leads s) :
    s0.Leads (State.dropInbound s slot owner) := by
  unfold State.dropInbound
  repeat' first
    | with_reducible assumption
    | with_reducible apply State.setRjob_leads

theorem State.pairNow_leads {s0 : State} {s : State} (slot : Nat) (x : Pairing) (hL : s0.Leads s) :
    s0.Leads (State.pairNow s slot x) := by
  unfold State.pairNow
  repeat' first
    | with_reducible assumption
    | with_reducible apply State.setRjob_leads
    | with_reducible apply State.partnerState_leads

theorem State.answered_leads {s0 : State} {s : State} (slot : Nat) (src : Nat) (feed : Nat) (twin : Nat) (holdsJob
    : Bool) (room : Bool) (hL : s0.Leads s) :
    s0.Leads (State.answered s slot src feed twin holdsJob room) := by
  unfold State.answered
  repeat' first
    | with_reducible assumption
    | with_reducible apply State.finish_leads
    | with_reducible apply State.badParam_leads
    | with_reducible apply State.defer_leads
    | with_reducible apply State.setRjob_leads
    | with_reducible apply State.pairNow_leads
    | with_reducible apply State.Leads.ite
    | with_reducible refine State.Leads.ite1 ?_ ?_
    | intro _
    | fail_if_no_progress (with_reducible refine State.Leads.upd ?_ rfl rfl rfl rfl rfl rfl rfl rfl rfl rfl rfl)
    | with_reducible refine State.Leads.snd ?_ (by assumption)
    | with_reducible refine State.Leads.fst ?_ (by assumption)
    | extract_lets
    | split

theorem execFreezeStop_leads (slot : Nat) (s : State) : ∃ nxt, execFreezeStop slot s = .next nxt ∧ s.Leads nxt := by
  unfold execFreezeStop
  refine State.Leads.live ?_
  have hL := State.Leads.refl s
  repeat' first
    | with_reducible assumption
    | with_reducible apply State.onlyIf_leads
    | with_reducible apply State.stopJob_leads
    | with_reducible apply State.Leads.ite
    | with_reducible refine State.Leads.ite1 ?_ ?_
    | intro _
    | fail_if_no_progress (with_reducible refine State.Leads.upd ?_ rfl rfl rfl rfl rfl rfl rfl rfl rfl rfl rfl)
    | with_reducible refine State.Leads.snd ?_ (by assumption)
    | with_reducible refine State.Leads.fst ?_ (by assumption)
    | extract_lets
    | split

theorem execFreezeResume_leads (slot : Nat) (s : State) : ∃ nxt, execFreezeResume slot s = .next nxt ∧ s.Leads nxt := by
  unfold execFreezeResume
  refine State.Leads.live ?_
  have hL := State.Leads.refl s
  repeat' first
    | with_reducible assumption
    | with_reducible apply State.stamp_leads
    | with_reducible apply State.bump_leads
    | with_reducible apply State.deferredDoneWith_leads
    | with_reducible apply State.deferredDone_leads
    | with_reducible apply State.onlyIf_leads
    | with_reducible apply State.setRjob_leads
    | with_reducible apply State.resRecord_leads
    | with_reducible apply State.startNegative_leads
    | with_reducible apply State.runBegin_leads
    | with_reducible apply State.Leads.ite
    | with_reducible refine State.Leads.ite1 ?_ ?_
    | intro _
    | fail_if_no_progress (with_reducible refine State.Leads.upd ?_ rfl rfl rfl rfl rfl rfl rfl rfl rfl rfl rfl)
    | with_reducible refine State.Leads.snd ?_ (by assumption)
    | with_reducible refine State.Leads.fst ?_ (by assumption)
    | extract_lets
    | split

theorem execReelConfig_leads (c : Command) (s : State) : ∃ nxt, execReelConfig c s = .next nxt ∧ s.Leads nxt := by
  unfold execReelConfig
  refine State.Leads.live ?_
  have hL := State.Leads.refl s
  repeat' first
    | with_reducible assumption
    | with_reducible apply State.finish_leads
    | with_reducible apply State.checked_leads
    | with_reducible apply State.setEmptyRange_leads
    | with_reducible apply State.setReelJob_leads
    | with_reducible apply State.setReel_leads
    | with_reducible apply State.spill_leads
    | with_reducible apply State.Leads.ite
    | with_reducible refine State.Leads.ite1 ?_ ?_
    | intro _
    | with_reducible refine State.Leads.foldl ?_ (fun _ _ _ => ?_)

theorem execReelBegin_leads (c : Command) (s : State) : ∃ nxt, execReelBegin c s = .next nxt ∧ s.Leads nxt := by
  unfold execReelBegin
  refine State.Leads.live ?_
  have hL := State.Leads.refl s
  repeat' first
    | with_reducible assumption
    | with_reducible apply State.finish_leads
    | with_reducible apply State.checked_leads
    | with_reducible apply State.beginFreeze_leads
    | with_reducible apply State.runBegin_leads
    | with_reducible apply State.Leads.ite
    | with_reducible refine State.Leads.ite1 ?_ ?_
    | intro _
    | fail_if_no_progress (with_reducible refine State.Leads.upd ?_ rfl rfl rfl rfl rfl rfl rfl rfl rfl rfl rfl)
    | with_reducible refine State.Leads.snd ?_ (by assumption)
    | with_reducible refine State.Leads.fst ?_ (by assumption)
    | extract_lets
    | split

theorem execReelUpdate_leads (c : Command) (s : State) : ∃ nxt, execReelUpdate c s = .next nxt ∧ s.Leads nxt := by
  unfold execReelUpdate
  refine State.Leads.live ?_
  have hL := State.Leads.refl s
  repeat' first
    | with_reducible assumption
    | with_reducible apply State.defer_leads
    | with_reducible apply State.checked_leads
    | with_reducible apply State.setReelJob_leads
    | with_reducible apply State.openGate_leads
    | with_reducible apply State.Leads.ite
    | with_reducible refine State.Leads.ite1 ?_ ?_
    | intro _

theorem execUpdateGateOpen_leads (slot : Nat) (s : State) : ∃ nxt, execUpdateGateOpen slot s = .next nxt ∧ s.Leads nxt := by
  unfold execUpdateGateOpen
  refine State.Leads.live ?_
  have hL := State.Leads.refl s
  repeat' first
    | with_reducible assumption
    | with_reducible apply State.onlyIf_leads
    | with_reducible apply State.openGate_leads
    | with_reducible apply State.Leads.ite
    | with_reducible refine State.Leads.ite1 ?_ ?_
    | intro _
    | fail_if_no_progress (with_reducible refine State.Leads.upd ?_ rfl rfl rfl rfl rfl rfl rfl rfl rfl rfl rfl)
    | with_reducible refine State.Leads.snd ?_ (by assumption)
    | with_reducible refine State.Leads.fst ?_ (by assumption)
    | extract_lets
    | split

theorem execUpdateGateTimeout_leads (slot : Nat) (s : State) : ∃ nxt, execUpdateGateTimeout slot s = .next nxt
    ∧ s.Leads nxt := by
  unfold execUpdateGateTimeout
  refine State.Leads.live ?_
  have hL := State.Leads.refl s
  repeat' first
    | with_reducible assumption
    | with_reducible apply State.deferredDone_leads
    | with_reducible apply State.onlyIf_leads
    | with_reducible apply State.setReelJob_leads
    | with_reducible apply State.Leads.ite
    | with_reducible refine State.Leads.ite1 ?_ ?_
    | intro _
    | fail_if_no_progress (with_reducible refine State.Leads.upd ?_ rfl rfl rfl rfl rfl rfl rfl rfl rfl rfl rfl)
    | with_reducible refine State.Leads.snd ?_ (by assumption)
    | with_reducible refine State.Leads.fst ?_ (by assumption)
    | extract_lets
    | split

theorem execReelShard_leads (c : Command) (s : State) : ∃ nxt, execReelShard c s = .next nxt ∧ s.Leads nxt := by
  unfold execReelShard
  refine State.Leads.live ?_
  have hL := State.Leads.refl s
  repeat' first
    | with_reducible assumption
    | with_reducible apply State.finish_leads
    | with_reducible apply State.checked_leads
    | with_reducible apply State.setShard_leads
    | with_reducible apply State.Leads.ite
    | with_reducible refine State.Leads.ite1 ?_ ?_
    | intro _

theorem execReelClear_leads (c : Command) (s : State) : ∃ nxt, execReelClear c s = .next nxt ∧ s.Leads nxt := by
  unfold execReelClear
  refine State.Leads.live ?_
  have hL := State.Leads.refl s
  repeat' first
    | with_reducible assumption
    | with_reducible apply State.finish_leads
    | with_reducible apply State.checked_leads
    | with_reducible apply State.clearReel_leads
    | with_reducible apply State.Leads.ite
    | with_reducible refine State.Leads.ite1 ?_ ?_
    | intro _
    | with_reducible refine State.Leads.foldl ?_ (fun _ _ _ => ?_)

theorem State.latestRes_leads {s0 : State} {s : State} (c : Command) (hL : s0.Leads s) :
    s0.Leads (State.latestRes s c) := by
  unfold State.latestRes
  repeat' first
    | with_reducible assumption
    | with_reducible apply State.setRjob_leads

theorem State.mirrorIn_leads {s0 : State} {s : State} (slot : Nat) (src : Nat) (step : Nat) (data : List Byte) (hL
    : s0.Leads s) :
    s0.Leads (State.mirrorIn s slot src step data) := by
  unfold State.mirrorIn
  repeat' first
    | with_reducible assumption
    | with_reducible apply State.sendBulk_leads
    | with_reducible apply State.setInbound_leads
    | with_reducible apply State.Leads.ite
    | with_reducible refine State.Leads.ite1 ?_ ?_
    | intro _
    | fail_if_no_progress (with_reducible refine State.Leads.upd ?_ rfl rfl rfl rfl rfl rfl rfl rfl rfl rfl rfl)
    | with_reducible refine State.Leads.snd ?_ (by assumption)
    | with_reducible refine State.Leads.fst ?_ (by assumption)
    | extract_lets
    | split

theorem State.mirrorAcked_leads {s0 : State} {s : State} (slot : Nat) (src : Nat) (step : Nat) (hL : s0.Leads s) :
    s0.Leads (State.mirrorAcked s slot src step) := by
  unfold State.mirrorAcked
  repeat' first
    | with_reducible assumption
    | with_reducible apply State.setRjob_leads
    | with_reducible apply State.Leads.ite

theorem State.headerIn_leads {s0 : State} {s : State} (slot : Nat) (src : Nat) (h : NegHeader) (hL : s0.Leads s) :
    s0.Leads (State.headerIn s slot src h) := by
  unfold State.headerIn
  repeat' first
    | with_reducible assumption
    | with_reducible apply State.setInbound_leads
    | with_reducible apply State.Leads.ite
    | with_reducible refine State.Leads.ite1 ?_ ?_
    | intro _
    | fail_if_no_progress (with_reducible refine State.Leads.upd ?_ rfl rfl rfl rfl rfl rfl rfl rfl rfl rfl rfl)
    | with_reducible refine State.Leads.snd ?_ (by assumption)
    | with_reducible refine State.Leads.fst ?_ (by assumption)
    | extract_lets
    | split

theorem State.loadAsked_leads {s0 : State} {s : State} (slot : Nat) (src : Nat) (owner : Nat) (step : Nat) (hL : s0.Leads s) :
    s0.Leads (State.loadAsked s slot src owner step) := by
  unfold State.loadAsked
  repeat' first
    | with_reducible assumption
    | with_reducible apply State.sendBulk_leads
    | with_reducible apply State.Leads.ite
    | with_reducible refine State.Leads.ite1 ?_ ?_
    | intro _
    | with_reducible refine State.Leads.foldl ?_ (fun _ _ _ => ?_)
    | fail_if_no_progress (with_reducible refine State.Leads.upd ?_ rfl rfl rfl rfl rfl rfl rfl rfl rfl rfl rfl)
    | with_reducible refine State.Leads.snd ?_ (by assumption)
    | with_reducible refine State.Leads.fst ?_ (by assumption)
    | extract_lets
    | split

theorem State.startLoad_leads {s0 : State} {s : State} (slot : Nat) (c : Command) (hL : s0.Leads s) :
    s0.Leads (State.startLoad s slot c) := by
  unfold State.startLoad
  repeat' first
    | with_reducible assumption
    | with_reducible apply State.deferredDone_leads
    | with_reducible apply State.setRjob_leads
    | with_reducible apply State.sendBulk_leads
    | with_reducible apply State.Leads.ite
    | with_reducible refine State.Leads.ite1 ?_ ?_
    | intro _
    | fail_if_no_progress (with_reducible refine State.Leads.upd ?_ rfl rfl rfl rfl rfl rfl rfl rfl rfl rfl rfl)
    | with_reducible refine State.Leads.snd ?_ (by assumption)
    | with_reducible refine State.Leads.fst ?_ (by assumption)
    | extract_lets
    | split

theorem State.endLoad_leads {s0 : State} {s : State} (slot : Nat) (status : Nat) (detail : Nat) (result : List Byte)
    (hL : s0.Leads s) :
    s0.Leads (State.endLoad s slot status detail result) := by
  unfold State.endLoad
  repeat' first
    | with_reducible assumption
    | with_reducible apply State.deferredDoneWith_leads
    | with_reducible apply State.setRjob_leads
    | with_reducible apply State.startLoad_leads
    | with_reducible apply State.Leads.ite
    | with_reducible refine State.Leads.ite1 ?_ ?_
    | intro _
    | fail_if_no_progress (with_reducible refine State.Leads.upd ?_ rfl rfl rfl rfl rfl rfl rfl rfl rfl rfl rfl)
    | with_reducible refine State.Leads.snd ?_ (by assumption)
    | with_reducible refine State.Leads.fst ?_ (by assumption)
    | extract_lets
    | split

theorem State.loadPieceIn_leads {s0 : State} {s : State} (slot : Nat) (src : Nat) (off : Nat) (data : List Byte) (hL
    : s0.Leads s) :
    s0.Leads (State.loadPieceIn s slot src off data) := by
  unfold State.loadPieceIn
  repeat' first
    | with_reducible assumption
    | with_reducible apply State.setRjob_leads
    | with_reducible apply State.sendBulk_leads
    | with_reducible apply State.endLoad_leads
    | with_reducible apply State.Leads.ite
    | with_reducible refine State.Leads.ite1 ?_ ?_
    | intro _
    | fail_if_no_progress (with_reducible refine State.Leads.upd ?_ rfl rfl rfl rfl rfl rfl rfl rfl rfl rfl rfl)
    | with_reducible refine State.Leads.snd ?_ (by assumption)
    | with_reducible refine State.Leads.fst ?_ (by assumption)
    | extract_lets
    | split

theorem State.slatesOut_leads {s0 : State} {s : State} (slot : Nat) (va : Nat) (l : List (List Byte)) (hL : s0.Leads s) :
    s0.Leads (State.slatesOut s slot va l).1 := by
  unfold State.slatesOut
  repeat' first
    | with_reducible assumption
    | with_reducible apply State.vwrite_leads
    | with_reducible apply State.Leads.ite
    | with_reducible refine State.Leads.ite1 ?_ ?_
    | intro _
    | with_reducible refine State.Leads.foldl1 ?_ (fun _ _ _ => ?_)
    | fail_if_no_progress (with_reducible refine State.Leads.upd ?_ rfl rfl rfl rfl rfl rfl rfl rfl rfl rfl rfl)
    | with_reducible refine State.Leads.snd ?_ (by assumption)
    | with_reducible refine State.Leads.fst ?_ (by assumption)
    | extract_lets
    | split

theorem State.writeImage_leads {s0 : State} {s : State} (slot : Nat) (x : Snap) (off : Nat) (va : Nat) (n : Nat) (hL
    : s0.Leads s) :
    s0.Leads (State.writeImage s slot x off va n).1 := by
  unfold State.writeImage
  repeat' first
    | with_reducible assumption
    | with_reducible apply State.vwrite_leads
    | with_reducible apply State.Leads.ite
    | with_reducible refine State.Leads.ite1 ?_ ?_
    | intro _
    | with_reducible refine State.Leads.foldl ?_ (fun _ _ _ => ?_)
    | with_reducible refine State.Leads.foldl1 ?_ (fun _ _ _ => ?_)
    | fail_if_no_progress (with_reducible refine State.Leads.upd ?_ rfl rfl rfl rfl rfl rfl rfl rfl rfl rfl rfl)
    | with_reducible refine State.Leads.snd ?_ (by assumption)
    | with_reducible refine State.Leads.fst ?_ (by assumption)
    | extract_lets
    | split

theorem State.writeRanges_leads {s0 : State} {s : State} (slot : Nat) (x : Snap) (ts : List (Nat × Nat × Nat))
    (hL : s0.Leads s) : s0.Leads (State.writeRanges s slot x ts).1 := by
  unfold State.writeRanges
  repeat' first
    | with_reducible assumption
    | with_reducible apply State.setReelJob_leads
    | with_reducible apply State.writeImage_leads
    | with_reducible apply State.Leads.ite
    | with_reducible refine State.Leads.ite1 ?_ ?_
    | intro _
    | with_reducible refine State.Leads.foldl ?_ (fun _ _ _ => ?_)
    | with_reducible refine State.Leads.foldl1 ?_ (fun _ _ _ => ?_)
    | extract_lets
    | split

theorem State.loaded_leads {s0 : State} {s : State} (slot : Nat) (l : Load) (x : Snap) (ts : List (Nat × Nat × Nat))
    (hL : s0.Leads s) :
    s0.Leads (State.loaded s slot l x ts) := by
  unfold State.loaded
  repeat' first
    | with_reducible assumption
    | with_reducible apply State.bump_leads
    | with_reducible apply State.setReelJob_leads
    | with_reducible apply State.setRjob_leads
    | with_reducible apply State.Leads.ite
    | with_reducible refine State.Leads.ite1 ?_ ?_
    | intro _
    | fail_if_no_progress (with_reducible refine State.Leads.upd ?_ rfl rfl rfl rfl rfl rfl rfl rfl rfl rfl rfl)

theorem execBulkPacket_leads (f : Frame) (b : Bulk) (s : State) : ∃ nxt, execBulkPacket f b s = .next nxt ∧ s.Leads nxt := by
  unfold execBulkPacket
  refine State.Leads.live ?_
  have hL := State.Leads.refl s
  repeat' first
    | with_reducible assumption
    | with_reducible apply State.acceptPacket_leads
    | with_reducible apply State.frameIn_leads
    | with_reducible apply State.setRjob_leads
    | with_reducible apply State.partnerState_leads
    | with_reducible apply State.blockAcked_leads
    | with_reducible apply State.pieceIn_leads
    | with_reducible apply State.dropInbound_leads
    | with_reducible apply State.answered_leads
    | with_reducible apply State.mirrorIn_leads
    | with_reducible apply State.mirrorAcked_leads
    | with_reducible apply State.headerIn_leads
    | with_reducible apply State.loadAsked_leads
    | with_reducible apply State.endLoad_leads
    | with_reducible apply State.loadPieceIn_leads
    | with_reducible apply State.Leads.ite
    | with_reducible refine State.Leads.ite1 ?_ ?_
    | intro _
    | fail_if_no_progress (with_reducible refine State.Leads.upd ?_ rfl rfl rfl rfl rfl rfl rfl rfl rfl rfl rfl)
    | with_reducible refine State.Leads.snd ?_ (by assumption)
    | with_reducible refine State.Leads.fst ?_ (by assumption)
    | extract_lets
    | split

theorem execPartnerHandshake_leads (f : Frame) (feed : Nat) (s : State)
    : ∃ nxt, execPartnerHandshake f feed s = .next nxt ∧ s.Leads nxt := by
  unfold execPartnerHandshake
  refine State.Leads.live ?_
  have hL := State.Leads.refl s
  repeat' first
    | with_reducible assumption
    | with_reducible apply State.draw_leads
    | with_reducible apply State.emit_leads
    | with_reducible apply State.sendPacket_leads
    | with_reducible apply State.acceptPacket_leads
    | with_reducible apply State.frameAt_leads
    | with_reducible apply State.sendBulk_leads
    | with_reducible apply State.Leads.ite
    | with_reducible refine State.Leads.ite1 ?_ ?_
    | intro _
    | fail_if_no_progress (with_reducible refine State.Leads.upd ?_ rfl rfl rfl rfl rfl rfl rfl rfl rfl rfl rfl)
    | with_reducible refine State.Leads.snd ?_ (by assumption)
    | with_reducible refine State.Leads.fst ?_ (by assumption)
    | extract_lets
    | split

theorem execPartnerSet_leads (c : Command) (s : State) : ∃ nxt, execPartnerSet c s = .next nxt ∧ s.Leads nxt := by
  unfold execPartnerSet
  refine State.Leads.live ?_
  have hL := State.Leads.refl s
  repeat' first
    | with_reducible assumption
    | with_reducible apply State.checked_leads
    | with_reducible apply State.setRjob_leads
    | with_reducible apply State.sendBulk_leads
    | with_reducible apply State.latestRes_leads
    | with_reducible apply State.Leads.ite
    | with_reducible refine State.Leads.ite1 ?_ ?_
    | intro _

theorem execPartnerHandshakeLimit_leads (slot : Nat) (s : State) : ∃ nxt, execPartnerHandshakeLimit slot s = .next nxt
    ∧ s.Leads nxt := by
  unfold execPartnerHandshakeLimit
  refine State.Leads.live ?_
  have hL := State.Leads.refl s
  repeat' first
    | with_reducible assumption
    | with_reducible apply State.finish_leads
    | with_reducible apply State.onlyIf_leads
    | with_reducible apply State.setRjob_leads
    | with_reducible apply State.Leads.ite
    | with_reducible refine State.Leads.ite1 ?_ ?_
    | intro _
    | fail_if_no_progress (with_reducible refine State.Leads.upd ?_ rfl rfl rfl rfl rfl rfl rfl rfl rfl rfl rfl)
    | with_reducible refine State.Leads.snd ?_ (by assumption)
    | with_reducible refine State.Leads.fst ?_ (by assumption)
    | extract_lets
    | split

theorem execPartnerLimit_leads (slot : Nat) (s : State) : ∃ nxt, execPartnerLimit slot s = .next nxt ∧ s.Leads nxt := by
  unfold execPartnerLimit
  refine State.Leads.live ?_
  have hL := State.Leads.refl s
  repeat' first
    | with_reducible assumption
    | with_reducible apply State.onlyIf_leads
    | with_reducible apply State.losePartner_leads
    | with_reducible apply State.Leads.ite
    | with_reducible refine State.Leads.ite1 ?_ ?_
    | intro _

theorem execFeedTagSet_leads (c : Command) (s : State) : ∃ nxt, execFeedTagSet c s = .next nxt ∧ s.Leads nxt := by
  unfold execFeedTagSet
  refine State.Leads.live ?_
  have hL := State.Leads.refl s
  repeat' first
    | with_reducible assumption
    | with_reducible apply State.setFld_leads
    | with_reducible apply State.finish_leads
    | with_reducible apply State.checked_leads
    | with_reducible apply State.Leads.ite
    | with_reducible refine State.Leads.ite1 ?_ ?_
    | intro _

theorem execFreezeSet_leads (c : Command) (s : State) : ∃ nxt, execFreezeSet c s = .next nxt ∧ s.Leads nxt := by
  unfold execFreezeSet
  refine State.Leads.live ?_
  have hL := State.Leads.refl s
  repeat' first
    | with_reducible assumption
    | with_reducible apply State.finish_leads
    | with_reducible apply State.defer_leads
    | with_reducible apply State.checked_leads
    | with_reducible apply State.setRjob_leads
    | with_reducible apply State.beginFreeze_leads
    | with_reducible apply State.latestRes_leads
    | with_reducible apply State.Leads.ite
    | with_reducible refine State.Leads.ite1 ?_ ?_
    | intro _

theorem execFreezeTake_leads (c : Command) (s : State) : ∃ nxt, execFreezeTake c s = .next nxt ∧ s.Leads nxt := by
  unfold execFreezeTake
  refine State.Leads.live ?_
  have hL := State.Leads.refl s
  repeat' first
    | with_reducible assumption
    | with_reducible apply State.defer_leads
    | with_reducible apply State.checked_leads
    | with_reducible apply State.setRjob_leads
    | with_reducible apply State.beginFreeze_leads
    | with_reducible apply State.latestRes_leads
    | with_reducible apply State.Leads.ite
    | with_reducible refine State.Leads.ite1 ?_ ?_
    | intro _

theorem execSlateMirror_leads (slot : Nat) (s : State) : ∃ nxt, execSlateMirror slot s = .next nxt ∧ s.Leads nxt := by
  unfold execSlateMirror
  refine State.Leads.live ?_
  have hL := State.Leads.refl s
  repeat' first
    | with_reducible assumption
    | with_reducible apply State.onlyIf_leads
    | with_reducible apply State.setRjob_leads
    | with_reducible apply State.sendBulk_leads
    | with_reducible apply State.Leads.ite
    | with_reducible refine State.Leads.ite1 ?_ ?_
    | intro _
    | fail_if_no_progress (with_reducible refine State.Leads.upd ?_ rfl rfl rfl rfl rfl rfl rfl rfl rfl rfl rfl)
    | with_reducible refine State.Leads.snd ?_ (by assumption)
    | with_reducible refine State.Leads.fst ?_ (by assumption)
    | extract_lets
    | split

theorem execSlateRead_leads (c : Command) (s : State) : ∃ nxt, execSlateRead c s = .next nxt ∧ s.Leads nxt := by
  unfold execSlateRead
  refine State.Leads.live ?_
  have hL := State.Leads.refl s
  repeat' first
    | with_reducible assumption
    | with_reducible apply State.finish_leads
    | with_reducible apply State.checked_leads
    | with_reducible apply State.farFault_leads
    | with_reducible apply State.latestRes_leads
    | with_reducible apply State.slatesOut_leads
    | with_reducible apply State.Leads.ite
    | with_reducible refine State.Leads.ite1 ?_ ?_
    | intro _
    | fail_if_no_progress (with_reducible refine State.Leads.upd ?_ rfl rfl rfl rfl rfl rfl rfl rfl rfl rfl rfl)
    | with_reducible refine State.Leads.snd ?_ (by assumption)
    | with_reducible refine State.Leads.fst ?_ (by assumption)
    | extract_lets
    | split

theorem execNegativeLoad_leads (c : Command) (s : State) : ∃ nxt, execNegativeLoad c s = .next nxt ∧ s.Leads nxt := by
  unfold execNegativeLoad
  refine State.Leads.live ?_
  have hL := State.Leads.refl s
  repeat' first
    | with_reducible assumption
    | with_reducible apply State.defer_leads
    | with_reducible apply State.checked_leads
    | with_reducible apply State.setRjob_leads
    | with_reducible apply State.latestRes_leads
    | with_reducible apply State.startLoad_leads
    | with_reducible apply State.Leads.ite
    | with_reducible refine State.Leads.ite1 ?_ ?_
    | intro _

theorem execNegativeLoadDone_leads (slot : Nat) (s : State) : ∃ nxt, execNegativeLoadDone slot s = .next nxt ∧ s.Leads nxt := by
  unfold execNegativeLoadDone
  refine State.Leads.live ?_
  have hL := State.Leads.refl s
  repeat' first
    | with_reducible assumption
    | with_reducible apply State.complete_leads
    | with_reducible apply State.onlyIf_leads
    | with_reducible apply State.farFault_leads
    | with_reducible apply State.endLoad_leads
    | with_reducible apply State.writeRanges_leads
    | with_reducible apply State.loaded_leads
    | with_reducible apply State.Leads.ite
    | with_reducible refine State.Leads.ite1 ?_ ?_
    | intro _
    | with_reducible refine State.Leads.foldl1 ?_ (fun _ _ _ => ?_)
    | fail_if_no_progress (with_reducible refine State.Leads.upd ?_ rfl rfl rfl rfl rfl rfl rfl rfl rfl rfl rfl)
    | with_reducible refine State.Leads.snd ?_ (by assumption)
    | with_reducible refine State.Leads.fst ?_ (by assumption)
    | extract_lets
    | split

theorem execSpreadApply_leads (c : Command) (s : State) : ∃ nxt, execSpreadApply c s = .next nxt ∧ s.Leads nxt := by
  unfold execSpreadApply
  refine State.Leads.live ?_
  have hL := State.Leads.refl s
  repeat' first
    | with_reducible assumption
    | with_reducible apply State.stamp_leads
    | with_reducible apply State.badParam_leads
    | with_reducible apply State.defer_leads
    | with_reducible apply State.checked_leads
    | with_reducible apply State.heard_leads
    | with_reducible apply State.abortStep_leads
    | with_reducible apply State.setRjob_leads
    | with_reducible apply State.readLayout_leads
    | with_reducible apply State.acceptRecut_leads
    | with_reducible apply State.abandonNegative_leads
    | with_reducible apply State.losePartner_leads
    | with_reducible apply State.latestRes_leads
    | with_reducible apply State.Leads.ite
    | with_reducible refine State.Leads.ite1 ?_ ?_
    | intro _

theorem execRetakeRun_leads (c : Command) (s : State) : ∃ nxt, execRetakeRun c s = .next nxt ∧ s.Leads nxt := by
  unfold execRetakeRun
  refine State.Leads.live ?_
  have hL := State.Leads.refl s
  repeat' first
    | with_reducible assumption
    | with_reducible apply State.defer_leads
    | with_reducible apply State.checked_leads
    | with_reducible apply State.setRjob_leads
    | with_reducible apply State.latestRes_leads
    | with_reducible apply State.Leads.ite
    | with_reducible refine State.Leads.ite1 ?_ ?_
    | intro _

end Sys2Proof.Machine
end

