-- ==== Sys2Proof/Laws/LeadsCores.lean ====
section
/-! SUPPORT. The state leads on to the state after: the host link and the core sequencer. -/

namespace Sys2Proof.Machine

theorem State.setQp_leads {s0 : State} {s : State} (n : Nat) (q : QueuePair) (hL : s0.Leads s) :
    s0.Leads (State.setQp s n q) := by
  unfold State.setQp
  repeat' first
    | with_reducible assumption
    | with_reducible apply State.Leads.ite
    | with_reducible refine State.Leads.ite1 ?_ ?_
    | intro _
    | fail_if_no_progress (with_reducible refine State.Leads.upd ?_ rfl rfl rfl rfl rfl rfl rfl rfl rfl rfl rfl)

theorem State.qpRecord_leads {s0 : State} {s : State} (q : QueuePair) (type : Nat) (status : Nat) (body : List Byte)
    (hL : s0.Leads s) :
    s0.Leads (State.qpRecord s q type status body) := by
  unfold State.qpRecord
  repeat' first
    | with_reducible assumption
    | with_reducible apply State.postTo_leads
    | with_reducible apply State.recordAll_leads
    | with_reducible apply State.Leads.ite

theorem State.qpState_leads {s0 : State} {s : State} (n : Nat) (q : QueuePair) (new : Nat) (cause : Nat) (status : Nat)
    (hL : s0.Leads s) :
    s0.Leads (State.qpState s n q new cause status) := by
  unfold State.qpState
  repeat' first
    | with_reducible assumption
    | with_reducible apply State.qpRecord_leads

theorem State.dropQps_leads {s0 : State} {s : State} (slot : Nat) (hL : s0.Leads s) :
    s0.Leads (State.dropQps s slot) := by
  unfold State.dropQps
  repeat' first
    | with_reducible assumption
    | with_reducible apply State.bump_leads
    | with_reducible apply State.emit_leads
    | with_reducible apply State.setQp_leads
    | with_reducible apply State.qpState_leads
    | with_reducible apply State.Leads.ite
    | with_reducible refine State.Leads.ite1 ?_ ?_
    | intro _
    | with_reducible refine State.Leads.foldl ?_ (fun _ _ _ => ?_)

theorem State.nak_leads {s0 : State} {s : State} (q : QueuePair) (code : Nat) (hL : s0.Leads s) :
    s0.Leads (State.nak s q code) := by
  unfold State.nak
  repeat' first
    | with_reducible assumption
    | with_reducible apply State.bump_leads
    | with_reducible apply State.emit_leads

theorem State.qpError_leads {s0 : State} {s : State} (n : Nat) (q : QueuePair) (code : Nat) (cause : Nat) (status : Nat)
    (hL : s0.Leads s) :
    s0.Leads (State.qpError s n q code cause status) := by
  unfold State.qpError
  repeat' first
    | with_reducible assumption
    | with_reducible apply State.bump_leads
    | with_reducible apply State.setQp_leads
    | with_reducible apply State.qpState_leads
    | with_reducible apply State.nak_leads

theorem State.request_leads {s0 : State} {s : State} (qpn : Nat) (bytes : Nat) (ecn : Bool) (f
    : QueuePair → State → State) (hL : s0.Leads s) (h_f : ∀ (x0 : QueuePair) (x1 : State), s0.Leads x1 → s0.Leads (f x0 x1)) :
    s0.Leads (State.request s qpn bytes ecn f) := by
  unfold State.request
  repeat' first
    | with_reducible assumption
    | with_reducible apply h_f
    | with_reducible apply State.emit_leads
    | with_reducible apply State.onlyIf_leads
    | with_reducible apply State.rxBytes_leads
    | with_reducible apply State.dozeExit_leads
    | with_reducible apply State.Leads.ite
    | with_reducible refine State.Leads.ite1 ?_ ?_
    | intro _
    | fail_if_no_progress (with_reducible refine State.Leads.upd ?_ rfl rfl rfl rfl rfl rfl rfl rfl rfl rfl rfl)
    | with_reducible refine State.Leads.snd ?_ (by assumption)
    | with_reducible refine State.Leads.fst ?_ (by assumption)
    | extract_lets
    | split

theorem State.accessFault_leads {s0 : State} {s : State} (n : Nat) (q : QueuePair) (f : VFault) (hL : s0.Leads s) :
    s0.Leads (State.accessFault s n q f) := by
  unfold State.accessFault
  repeat' first
    | with_reducible assumption
    | with_reducible apply State.guardRefused_leads
    | with_reducible apply State.noteFault_leads
    | with_reducible apply State.qpRecord_leads
    | with_reducible apply State.qpError_leads
    | with_reducible apply State.Leads.ite
    | with_reducible refine State.Leads.ite1 ?_ ?_
    | intro _
    | fail_if_no_progress (with_reducible refine State.Leads.upd ?_ rfl rfl rfl rfl rfl rfl rfl rfl rfl rfl rfl)
    | with_reducible refine State.Leads.snd ?_ (by assumption)
    | with_reducible refine State.Leads.fst ?_ (by assumption)
    | extract_lets
    | split

theorem execNeighbourDiscovery_leads (target : Nat) (src : Nat) (s : State)
    : ∃ nxt, execNeighbourDiscovery target src s = .next nxt ∧ s.Leads nxt := by
  unfold execNeighbourDiscovery
  refine State.Leads.live ?_
  have hL := State.Leads.refl s
  repeat' first
    | with_reducible assumption
    | with_reducible apply State.emit_leads
    | with_reducible apply State.onlyIf_leads
    | with_reducible apply State.rxBytes_leads
    | with_reducible apply State.Leads.ite
    | with_reducible refine State.Leads.ite1 ?_ ?_
    | intro _

theorem execIcmpv6Echo_leads (dst : Nat) (src : Nat) (data : List Byte) (s : State)
    : ∃ nxt, execIcmpv6Echo dst src data s = .next nxt ∧ s.Leads nxt := by
  unfold execIcmpv6Echo
  refine State.Leads.live ?_
  have hL := State.Leads.refl s
  repeat' first
    | with_reducible assumption
    | with_reducible apply State.emit_leads
    | with_reducible apply State.onlyIf_leads
    | with_reducible apply State.rxBytes_leads
    | with_reducible apply State.Leads.ite
    | with_reducible refine State.Leads.ite1 ?_ ?_
    | intro _

theorem execHostLinkLoss_leads  (s : State) : ∃ nxt, execHostLinkLoss s = .next nxt ∧ s.Leads nxt := by
  unfold execHostLinkLoss
  refine State.Leads.live ?_
  have hL := State.Leads.refl s
  repeat' first
    | with_reducible assumption
    | with_reducible apply State.setFld_leads
    | with_reducible apply State.csDrop_leads
    | with_reducible apply State.onlyIf_leads
    | with_reducible apply State.Leads.ite
    | with_reducible refine State.Leads.ite1 ?_ ?_
    | intro _

theorem execPfcFrame_leads (prio : Nat) (quanta : Nat) (s : State) : ∃ nxt, execPfcFrame prio quanta s = .next nxt
    ∧ s.Leads nxt := by
  unfold execPfcFrame
  refine State.Leads.live ?_
  have hL := State.Leads.refl s
  repeat' first
    | with_reducible assumption
    | with_reducible apply State.onlyIf_leads
    | with_reducible apply State.rxBytes_leads
    | with_reducible apply State.Leads.ite
    | with_reducible refine State.Leads.ite1 ?_ ?_
    | intro _
    | fail_if_no_progress (with_reducible refine State.Leads.upd ?_ rfl rfl rfl rfl rfl rfl rfl rfl rfl rfl rfl)

theorem execCmReq_leads (r : CmReq) (s : State) : ∃ nxt, execCmReq r s = .next nxt ∧ s.Leads nxt := by
  unfold execCmReq
  refine State.Leads.live ?_
  have hL := State.Leads.refl s
  repeat' first
    | with_reducible assumption
    | with_reducible apply State.draw_leads
    | with_reducible apply State.emit_leads
    | with_reducible apply State.onlyIf_leads
    | with_reducible apply State.rxBytes_leads
    | with_reducible apply State.setQp_leads
    | with_reducible apply State.qpState_leads
    | with_reducible apply State.Leads.ite
    | with_reducible refine State.Leads.ite1 ?_ ?_
    | intro _

theorem execCmDreq_leads (qpn : Nat) (s : State) : ∃ nxt, execCmDreq qpn s = .next nxt ∧ s.Leads nxt := by
  unfold execCmDreq
  refine State.Leads.live ?_
  have hL := State.Leads.refl s
  repeat' first
    | with_reducible assumption
    | with_reducible apply State.emit_leads
    | with_reducible apply State.onlyIf_leads
    | with_reducible apply State.rxBytes_leads
    | with_reducible apply State.qpState_leads
    | with_reducible apply State.Leads.ite
    | with_reducible refine State.Leads.ite1 ?_ ?_
    | intro _
    | fail_if_no_progress (with_reducible refine State.Leads.upd ?_ rfl rfl rfl rfl rfl rfl rfl rfl rfl rfl rfl)
    | with_reducible refine State.Leads.snd ?_ (by assumption)
    | with_reducible refine State.Leads.fst ?_ (by assumption)
    | extract_lets
    | split

theorem execRdmaSend_leads (qpn : Nat) (ecn : Bool) (data : List Byte) (s : State)
    : ∃ nxt, execRdmaSend qpn ecn data s = .next nxt ∧ s.Leads nxt := by
  unfold execRdmaSend
  refine State.Leads.live ?_
  have hL := State.Leads.refl s
  repeat' first
    | with_reducible assumption
    | with_reducible apply State.draw_leads
    | with_reducible apply State.emit_leads
    | with_reducible apply State.vwrite_leads
    | with_reducible apply State.setQp_leads
    | with_reducible apply State.nak_leads
    | with_reducible apply State.qpError_leads
    | with_reducible apply State.request_leads
    | with_reducible apply State.accessFault_leads
    | with_reducible apply State.Leads.ite
    | with_reducible refine State.Leads.ite1 ?_ ?_
    | intro _
    | fail_if_no_progress (with_reducible refine State.Leads.upd ?_ rfl rfl rfl rfl rfl rfl rfl rfl rfl rfl rfl)
    | with_reducible refine State.Leads.snd ?_ (by assumption)
    | with_reducible refine State.Leads.fst ?_ (by assumption)
    | extract_lets
    | split

theorem execRdmaWrite_leads (qpn : Nat) (ecn : Bool) (va : Nat) (rkey : Nat) (data : List Byte) (s : State)
    : ∃ nxt, execRdmaWrite qpn ecn va rkey data s = .next nxt ∧ s.Leads nxt := by
  unfold execRdmaWrite
  refine State.Leads.live ?_
  have hL := State.Leads.refl s
  repeat' first
    | with_reducible assumption
    | with_reducible apply State.draw_leads
    | with_reducible apply State.emit_leads
    | with_reducible apply State.vwrite_leads
    | with_reducible apply State.qpError_leads
    | with_reducible apply State.request_leads
    | with_reducible apply State.accessFault_leads
    | with_reducible apply State.Leads.ite
    | with_reducible refine State.Leads.ite1 ?_ ?_
    | intro _
    | fail_if_no_progress (with_reducible refine State.Leads.upd ?_ rfl rfl rfl rfl rfl rfl rfl rfl rfl rfl rfl)
    | with_reducible refine State.Leads.snd ?_ (by assumption)
    | with_reducible refine State.Leads.fst ?_ (by assumption)
    | extract_lets
    | split

theorem execRdmaRead_leads (qpn : Nat) (ecn : Bool) (va : Nat) (rkey : Nat) (n : Nat) (s : State)
    : ∃ nxt, execRdmaRead qpn ecn va rkey n s = .next nxt ∧ s.Leads nxt := by
  unfold execRdmaRead
  refine State.Leads.live ?_
  have hL := State.Leads.refl s
  repeat' first
    | with_reducible assumption
    | with_reducible apply State.draw_leads
    | with_reducible apply State.emit_leads
    | with_reducible apply State.vtouch_leads
    | with_reducible apply State.qpError_leads
    | with_reducible apply State.request_leads
    | with_reducible apply State.accessFault_leads
    | with_reducible apply State.Leads.ite
    | with_reducible refine State.Leads.ite1 ?_ ?_
    | intro _
    | fail_if_no_progress (with_reducible refine State.Leads.upd ?_ rfl rfl rfl rfl rfl rfl rfl rfl rfl rfl rfl)
    | with_reducible refine State.Leads.snd ?_ (by assumption)
    | with_reducible refine State.Leads.fst ?_ (by assumption)
    | extract_lets
    | split

theorem State.firstIssue_leads {s0 : State} {s : State} (p : Nat) (hL : s0.Leads s) :
    s0.Leads (State.firstIssue s p) := by
  unfold State.firstIssue
  repeat' first
    | with_reducible assumption
    | with_reducible apply State.stamp_leads
    | with_reducible apply State.setCore_leads
    | with_reducible apply State.Leads.ite

theorem State.issue_leads {s0 : State} {s : State} (p : Nat) (k : Task → Nat → State → State) (hL : s0.Leads s) (h_k : ∀
    (x0 : Task) (x1 : Nat) (x2 : State), s0.Leads x2 → s0.Leads (k x0 x1 x2)) :
    s0.Leads (State.issue s p k) := by
  unfold State.issue
  repeat' first
    | with_reducible assumption
    | with_reducible apply h_k
    | with_reducible apply State.onlyIf_leads
    | with_reducible apply State.setCore_leads
    | with_reducible apply State.failTask_leads
    | with_reducible apply State.firstIssue_leads
    | with_reducible apply State.Leads.ite
    | with_reducible refine State.Leads.ite1 ?_ ?_
    | intro _
    | fail_if_no_progress (with_reducible refine State.Leads.upd ?_ rfl rfl rfl rfl rfl rfl rfl rfl rfl rfl rfl)
    | with_reducible refine State.Leads.snd ?_ (by assumption)
    | with_reducible refine State.Leads.fst ?_ (by assumption)
    | extract_lets
    | split

theorem State.bundleDone_leads {s0 : State} {s : State} (p : Nat) (b : Nat) (hL : s0.Leads s) :
    s0.Leads (State.bundleDone s p b) := by
  unfold State.bundleDone
  repeat' first
    | with_reducible assumption
    | with_reducible apply State.setCore_leads

theorem State.stallAt_leads {s0 : State} {s : State} (p : Nat) (why : Stall) (hL : s0.Leads s) :
    s0.Leads (State.stallAt s p why) := by
  unfold State.stallAt
  repeat' first
    | with_reducible assumption
    | with_reducible apply State.setCore_leads

theorem State.coreWords_leads {s0 : State} {s : State} (p : Nat) (b : Nat) (hL : s0.Leads s) :
    s0.Leads (State.coreWords s p b).2 := by
  unfold State.coreWords
  repeat' first
    | with_reducible assumption
    | with_reducible apply State.logError_leads
    | with_reducible apply State.Leads.ite
    | with_reducible refine State.Leads.ite1 ?_ ?_
    | intro _
    | (with_reducible refine State.Leads.foldl ?_ (fun _ _ _ => ?_) <;> beta_reduce)
    | fail_if_no_progress (with_reducible refine State.Leads.upd ?_ rfl rfl rfl rfl rfl rfl rfl rfl rfl rfl rfl)

theorem State.contFound_leads {s0 : State} {s : State} (p : Nat) (line : Nat) (errors : Nat) (job : Nat) (flags : Nat)
    (hL : s0.Leads s) :
    s0.Leads (State.contFound s p line errors job flags) := by
  unfold State.contFound
  repeat' first
    | with_reducible assumption
    | with_reducible apply State.bump_leads
    | with_reducible apply State.logError_leads
    | with_reducible apply State.setFrameTag_leads
    | with_reducible apply State.Leads.ite

theorem State.contTouch_leads {s0 : State} {s : State} (p : Nat) (job : Nat) (ls : List Nat) (hL : s0.Leads s) :
    s0.Leads (State.contTouch s p job ls) := by
  unfold State.contTouch
  repeat' first
    | with_reducible assumption
    | with_reducible apply State.contFound_leads
    | with_reducible apply State.Leads.ite
    | with_reducible refine State.Leads.ite1 ?_ ?_
    | intro _
    | (with_reducible refine State.Leads.foldl ?_ (fun _ _ _ => ?_) <;> beta_reduce)
    | fail_if_no_progress (with_reducible refine State.Leads.upd ?_ rfl rfl rfl rfl rfl rfl rfl rfl rfl rfl rfl)

theorem State.readTouch_leads {s0 : State} {s : State} (p : Nat) (slot : Nat) (b : Nat) (hL : s0.Leads s) :
    s0.Leads (State.readTouch s p slot b) := by
  unfold State.readTouch
  repeat' first
    | with_reducible assumption
    | with_reducible apply State.spadTouch_leads
    | with_reducible apply State.contTouch_leads
    | with_reducible apply State.Leads.ite
    | with_reducible refine State.Leads.ite1 ?_ ?_
    | intro _
    | fail_if_no_progress (with_reducible refine State.Leads.upd ?_ rfl rfl rfl rfl rfl rfl rfl rfl rfl rfl rfl)
    | with_reducible refine State.Leads.snd ?_ (by assumption)
    | with_reducible refine State.Leads.fst ?_ (by assumption)
    | extract_lets
    | split

theorem State.takeLines_leads {s0 : State} {s : State} (p : Nat) (ls : List Nat) (hL : s0.Leads s) :
    s0.Leads (State.takeLines s p ls) := by
  unfold State.takeLines
  repeat' first
    | with_reducible assumption
    | with_reducible apply State.setEmpty_leads
    | with_reducible apply State.Leads.ite
    | with_reducible refine State.Leads.ite1 ?_ ?_
    | intro _
    | with_reducible refine State.Leads.foldl ?_ (fun _ _ _ => ?_)

theorem State.slotDone_leads {s0 : State} {s : State} (p : Nat) (b : Nat) (slot : Nat) (hL : s0.Leads s) :
    s0.Leads (State.slotDone s p b slot) := by
  unfold State.slotDone
  repeat' first
    | with_reducible assumption
    | with_reducible apply State.drainCheck_leads
    | with_reducible apply State.setCore_leads

theorem State.computeRow_leads {s0 : State} {s : State} (p : Nat) (slot : Nat) (mine : Nat → Bool) (effect
    : Task → Nat → State → State) (hL : s0.Leads s) (h_effect : ∀ (x0 : Task) (x1 : Nat) (x2
    : State), s0.Leads x2 → s0.Leads (effect x0 x1 x2)) :
    s0.Leads (State.computeRow s p slot mine effect) := by
  unfold State.computeRow
  repeat' first
    | with_reducible assumption
    | with_reducible apply h_effect
    | with_reducible apply State.setCore_leads
    | with_reducible apply State.endTask_leads
    | with_reducible apply State.failTask_leads
    | with_reducible apply State.issue_leads
    | with_reducible apply State.stallAt_leads
    | with_reducible apply State.coreWords_leads
    | with_reducible apply State.readTouch_leads
    | with_reducible apply State.takeLines_leads
    | with_reducible apply State.slotDone_leads
    | with_reducible apply State.Leads.ite
    | with_reducible refine State.Leads.ite1 ?_ ?_
    | intro _
    | fail_if_no_progress (with_reducible refine State.Leads.upd ?_ rfl rfl rfl rfl rfl rfl rfl rfl rfl rfl rfl)
    | with_reducible refine State.Leads.snd ?_ (by assumption)
    | with_reducible refine State.Leads.fst ?_ (by assumption)
    | extract_lets
    | split

theorem State.opeRow_leads {s0 : State} {s : State} (p : Nat) (oop : Nat) (effect : Nat → Nat → State → State) (hL
    : s0.Leads s) (h_effect : ∀ (x0 : Nat) (x1 : Nat) (x2 : State), s0.Leads x2 → s0.Leads (effect x0 x1 x2)) :
    s0.Leads (State.opeRow s p oop effect) := by
  unfold State.opeRow
  repeat' first
    | with_reducible assumption
    | with_reducible apply h_effect
    | with_reducible apply State.computeRow_leads
    | with_reducible apply State.Leads.ite
    | with_reducible refine State.Leads.ite1 ?_ ?_
    | intro _

theorem State.vecRow_leads {s0 : State} {s : State} (p : Nat) (vop : Nat) (effect : Nat → Nat → State → State) (hL
    : s0.Leads s) (h_effect : ∀ (x0 : Nat) (x1 : Nat) (x2 : State), s0.Leads x2 → s0.Leads (effect x0 x1 x2)) :
    s0.Leads (State.vecRow s p vop effect) := by
  unfold State.vecRow
  repeat' first
    | with_reducible assumption
    | with_reducible apply h_effect
    | with_reducible apply State.setCore_leads
    | with_reducible apply State.computeRow_leads
    | with_reducible apply State.Leads.ite
    | with_reducible refine State.Leads.ite1 ?_ ?_
    | intro _

theorem State.vecLanes_leads {s0 : State} {s : State} (p : Nat) (vop : Nat) (f
    : Nat → Word32 → Word32 → Word32 → Word32) (hL : s0.Leads s) :
    s0.Leads (State.vecLanes s p vop f) := by
  unfold State.vecLanes
  repeat' first
    | with_reducible assumption
    | with_reducible apply State.setCore_leads
    | with_reducible apply State.vecRow_leads
    | with_reducible apply State.Leads.ite
    | with_reducible refine State.Leads.ite1 ?_ ?_
    | intro _

theorem State.contRow_leads {s0 : State} {s : State} (p : Nat) (cop : Nat) (hL : s0.Leads s) :
    s0.Leads (State.contRow s p cop) := by
  unfold State.contRow
  repeat' first
    | with_reducible assumption
    | with_reducible apply State.setCore_leads
    | with_reducible apply State.contOp_leads
    | with_reducible apply State.computeRow_leads
    | with_reducible apply State.Leads.ite
    | with_reducible refine State.Leads.ite1 ?_ ?_
    | intro _

theorem State.contTask_leads {s0 : State} {s : State} (p : Nat) (t : Task) (order : Nat) (hL : s0.Leads s) :
    s0.Leads (State.contTask s p t order) := by
  unfold State.contTask
  repeat' first
    | with_reducible assumption
    | with_reducible apply State.bump_leads
    | with_reducible apply State.guardRefused_leads
    | with_reducible apply State.vtouch_leads
    | with_reducible apply State.vwrite_leads
    | with_reducible apply State.vfault_leads
    | with_reducible apply State.endTask_leads
    | with_reducible apply State.failTask_leads
    | with_reducible apply State.Leads.ite
    | with_reducible refine State.Leads.ite1 ?_ ?_
    | intro _
    | fail_if_no_progress (with_reducible refine State.Leads.upd ?_ rfl rfl rfl rfl rfl rfl rfl rfl rfl rfl rfl)
    | with_reducible refine State.Leads.snd ?_ (by assumption)
    | with_reducible refine State.Leads.fst ?_ (by assumption)
    | extract_lets
    | split

theorem execContScrub_leads (p : Nat) (line : Nat) (errors : Nat) (passEnd : Bool) (s : State)
    : ∃ nxt, execContScrub p line errors passEnd s = .next nxt ∧ s.Leads nxt := by
  unfold execContScrub
  refine State.Leads.live ?_
  have hL := State.Leads.refl s
  repeat' first
    | with_reducible assumption
    | with_reducible apply State.setReg_leads
    | with_reducible apply State.onlyIf_leads
    | with_reducible apply State.contFound_leads
    | with_reducible apply State.contTouch_leads
    | with_reducible apply State.Leads.ite
    | with_reducible refine State.Leads.ite1 ?_ ?_
    | intro _

theorem execOpeAcc_leads (p : Nat) (s : State) : ∃ nxt, execOpeAcc p s = .next nxt ∧ s.Leads nxt := by
  unfold execOpeAcc
  refine State.Leads.live ?_
  have hL := State.Leads.refl s
  repeat' first
    | with_reducible assumption
    | with_reducible apply State.setCore_leads
    | with_reducible apply State.opeRow_leads
    | with_reducible apply State.Leads.ite
    | with_reducible refine State.Leads.ite1 ?_ ?_
    | intro _

theorem execOpeZero_leads (p : Nat) (s : State) : ∃ nxt, execOpeZero p s = .next nxt ∧ s.Leads nxt := by
  unfold execOpeZero
  refine State.Leads.live ?_
  have hL := State.Leads.refl s
  repeat' first
    | with_reducible assumption
    | with_reducible apply State.setCore_leads
    | with_reducible apply State.opeRow_leads
    | with_reducible apply State.Leads.ite
    | with_reducible refine State.Leads.ite1 ?_ ?_
    | intro _

theorem execOpeLoad_leads (p : Nat) (s : State) : ∃ nxt, execOpeLoad p s = .next nxt ∧ s.Leads nxt := by
  unfold execOpeLoad
  refine State.Leads.live ?_
  have hL := State.Leads.refl s
  repeat' first
    | with_reducible assumption
    | with_reducible apply State.setCore_leads
    | with_reducible apply State.opeRow_leads
    | with_reducible apply State.Leads.ite
    | with_reducible refine State.Leads.ite1 ?_ ?_
    | intro _

theorem execOpeDrain_leads (p : Nat) (s : State) : ∃ nxt, execOpeDrain p s = .next nxt ∧ s.Leads nxt := by
  unfold execOpeDrain
  refine State.Leads.live ?_
  have hL := State.Leads.refl s
  repeat' first
    | with_reducible assumption
    | with_reducible apply State.setCore_leads
    | with_reducible apply State.opeDrain_leads
    | with_reducible apply State.opeRow_leads
    | with_reducible apply State.Leads.ite
    | with_reducible refine State.Leads.ite1 ?_ ?_
    | intro _

theorem execOpeConv_leads (p : Nat) (s : State) : ∃ nxt, execOpeConv p s = .next nxt ∧ s.Leads nxt := by
  unfold execOpeConv
  refine State.Leads.live ?_
  have hL := State.Leads.refl s
  repeat' first
    | with_reducible assumption
    | with_reducible apply State.setCore_leads
    | with_reducible apply State.opeRow_leads
    | with_reducible apply State.Leads.ite
    | with_reducible refine State.Leads.ite1 ?_ ?_
    | intro _

theorem execVecFma_leads (p : Nat) (s : State) : ∃ nxt, execVecFma p s = .next nxt ∧ s.Leads nxt := by
  unfold execVecFma
  refine State.Leads.live ?_
  have hL := State.Leads.refl s
  repeat' first
    | with_reducible assumption
    | with_reducible apply State.vecLanes_leads

theorem execVecAdd_leads (p : Nat) (s : State) : ∃ nxt, execVecAdd p s = .next nxt ∧ s.Leads nxt := by
  unfold execVecAdd
  refine State.Leads.live ?_
  have hL := State.Leads.refl s
  repeat' first
    | with_reducible assumption
    | with_reducible apply State.vecLanes_leads

theorem execVecMul_leads (p : Nat) (s : State) : ∃ nxt, execVecMul p s = .next nxt ∧ s.Leads nxt := by
  unfold execVecMul
  refine State.Leads.live ?_
  have hL := State.Leads.refl s
  repeat' first
    | with_reducible assumption
    | with_reducible apply State.vecLanes_leads

theorem execVecMin_leads (p : Nat) (s : State) : ∃ nxt, execVecMin p s = .next nxt ∧ s.Leads nxt := by
  unfold execVecMin
  refine State.Leads.live ?_
  have hL := State.Leads.refl s
  repeat' first
    | with_reducible assumption
    | with_reducible apply State.vecLanes_leads

theorem execVecMax_leads (p : Nat) (s : State) : ∃ nxt, execVecMax p s = .next nxt ∧ s.Leads nxt := by
  unfold execVecMax
  refine State.Leads.live ?_
  have hL := State.Leads.refl s
  repeat' first
    | with_reducible assumption
    | with_reducible apply State.vecLanes_leads

theorem execVecCmp_leads (p : Nat) (s : State) : ∃ nxt, execVecCmp p s = .next nxt ∧ s.Leads nxt := by
  unfold execVecCmp
  refine State.Leads.live ?_
  have hL := State.Leads.refl s
  repeat' first
    | with_reducible assumption
    | with_reducible apply State.vecLanes_leads

theorem execVecSel_leads (p : Nat) (s : State) : ∃ nxt, execVecSel p s = .next nxt ∧ s.Leads nxt := by
  unfold execVecSel
  refine State.Leads.live ?_
  have hL := State.Leads.refl s
  repeat' first
    | with_reducible assumption
    | with_reducible apply State.vecLanes_leads

theorem execVecCvt_leads (p : Nat) (s : State) : ∃ nxt, execVecCvt p s = .next nxt ∧ s.Leads nxt := by
  unfold execVecCvt
  refine State.Leads.live ?_
  have hL := State.Leads.refl s
  repeat' first
    | with_reducible assumption
    | with_reducible apply State.vecCvt_leads
    | with_reducible apply State.vecRow_leads
    | with_reducible apply State.Leads.ite
    | with_reducible refine State.Leads.ite1 ?_ ?_
    | intro _

theorem execVecExp2_leads (p : Nat) (s : State) : ∃ nxt, execVecExp2 p s = .next nxt ∧ s.Leads nxt := by
  unfold execVecExp2
  refine State.Leads.live ?_
  have hL := State.Leads.refl s
  repeat' first
    | with_reducible assumption
    | with_reducible apply State.vecLanes_leads

theorem execVecLog2_leads (p : Nat) (s : State) : ∃ nxt, execVecLog2 p s = .next nxt ∧ s.Leads nxt := by
  unfold execVecLog2
  refine State.Leads.live ?_
  have hL := State.Leads.refl s
  repeat' first
    | with_reducible assumption
    | with_reducible apply State.vecLanes_leads

theorem execVecRcp_leads (p : Nat) (s : State) : ∃ nxt, execVecRcp p s = .next nxt ∧ s.Leads nxt := by
  unfold execVecRcp
  refine State.Leads.live ?_
  have hL := State.Leads.refl s
  repeat' first
    | with_reducible assumption
    | with_reducible apply State.vecLanes_leads

theorem execVecRsqrt_leads (p : Nat) (s : State) : ∃ nxt, execVecRsqrt p s = .next nxt ∧ s.Leads nxt := by
  unfold execVecRsqrt
  refine State.Leads.live ?_
  have hL := State.Leads.refl s
  repeat' first
    | with_reducible assumption
    | with_reducible apply State.vecLanes_leads

theorem execVecLoad_leads (p : Nat) (s : State) : ∃ nxt, execVecLoad p s = .next nxt ∧ s.Leads nxt := by
  unfold execVecLoad
  refine State.Leads.live ?_
  have hL := State.Leads.refl s
  repeat' first
    | with_reducible assumption
    | with_reducible apply State.setCore_leads
    | with_reducible apply State.vecRow_leads
    | with_reducible apply State.Leads.ite
    | with_reducible refine State.Leads.ite1 ?_ ?_
    | intro _

theorem execVecStore_leads (p : Nat) (s : State) : ∃ nxt, execVecStore p s = .next nxt ∧ s.Leads nxt := by
  unfold execVecStore
  refine State.Leads.live ?_
  have hL := State.Leads.refl s
  repeat' first
    | with_reducible assumption
    | with_reducible apply State.vecStore_leads
    | with_reducible apply State.vecRow_leads
    | with_reducible apply State.Leads.ite
    | with_reducible refine State.Leads.ite1 ?_ ?_
    | intro _

theorem execVecLaneSum_leads (p : Nat) (s : State) : ∃ nxt, execVecLaneSum p s = .next nxt ∧ s.Leads nxt := by
  unfold execVecLaneSum
  refine State.Leads.live ?_
  have hL := State.Leads.refl s
  repeat' first
    | with_reducible assumption
    | with_reducible apply State.setCore_leads
    | with_reducible apply State.vecRow_leads
    | with_reducible apply State.Leads.ite
    | with_reducible refine State.Leads.ite1 ?_ ?_
    | intro _

theorem execVecRng_leads (p : Nat) (s : State) : ∃ nxt, execVecRng p s = .next nxt ∧ s.Leads nxt := by
  unfold execVecRng
  refine State.Leads.live ?_
  have hL := State.Leads.refl s
  repeat' first
    | with_reducible assumption
    | with_reducible apply State.setCore_leads
    | with_reducible apply State.vecRow_leads
    | with_reducible apply State.Leads.ite
    | with_reducible refine State.Leads.ite1 ?_ ?_
    | intro _

theorem execLnFwd_leads (p : Nat) (s : State) : ∃ nxt, execLnFwd p s = .next nxt ∧ s.Leads nxt := by
  unfold execLnFwd
  refine State.Leads.live ?_
  have hL := State.Leads.refl s
  repeat' first
    | with_reducible assumption
    | with_reducible apply State.contRow_leads

theorem execRmsFwd_leads (p : Nat) (s : State) : ∃ nxt, execRmsFwd p s = .next nxt ∧ s.Leads nxt := by
  unfold execRmsFwd
  refine State.Leads.live ?_
  have hL := State.Leads.refl s
  repeat' first
    | with_reducible assumption
    | with_reducible apply State.contRow_leads

theorem execSmaxFwd_leads (p : Nat) (s : State) : ∃ nxt, execSmaxFwd p s = .next nxt ∧ s.Leads nxt := by
  unfold execSmaxFwd
  refine State.Leads.live ?_
  have hL := State.Leads.refl s
  repeat' first
    | with_reducible assumption
    | with_reducible apply State.contRow_leads

theorem execSmaxPart_leads (p : Nat) (s : State) : ∃ nxt, execSmaxPart p s = .next nxt ∧ s.Leads nxt := by
  unfold execSmaxPart
  refine State.Leads.live ?_
  have hL := State.Leads.refl s
  repeat' first
    | with_reducible assumption
    | with_reducible apply State.contRow_leads

theorem execSmaxFin_leads (p : Nat) (s : State) : ∃ nxt, execSmaxFin p s = .next nxt ∧ s.Leads nxt := by
  unfold execSmaxFin
  refine State.Leads.live ?_
  have hL := State.Leads.refl s
  repeat' first
    | with_reducible assumption
    | with_reducible apply State.contRow_leads

theorem execLnBwd_leads (p : Nat) (s : State) : ∃ nxt, execLnBwd p s = .next nxt ∧ s.Leads nxt := by
  unfold execLnBwd
  refine State.Leads.live ?_
  have hL := State.Leads.refl s
  repeat' first
    | with_reducible assumption
    | with_reducible apply State.contRow_leads

theorem execRmsBwd_leads (p : Nat) (s : State) : ∃ nxt, execRmsBwd p s = .next nxt ∧ s.Leads nxt := by
  unfold execRmsBwd
  refine State.Leads.live ?_
  have hL := State.Leads.refl s
  repeat' first
    | with_reducible assumption
    | with_reducible apply State.contRow_leads

theorem execSmaxBwd_leads (p : Nat) (s : State) : ∃ nxt, execSmaxBwd p s = .next nxt ∧ s.Leads nxt := by
  unfold execSmaxBwd
  refine State.Leads.live ?_
  have hL := State.Leads.refl s
  repeat' first
    | with_reducible assumption
    | with_reducible apply State.contRow_leads

theorem execFrameRelease_leads (p : Nat) (s : State) : ∃ nxt, execFrameRelease p s = .next nxt ∧ s.Leads nxt := by
  unfold execFrameRelease
  refine State.Leads.live ?_
  have hL := State.Leads.refl s
  repeat' first
    | with_reducible assumption
    | with_reducible apply State.contRow_leads

theorem execEmptySlotStallRelease_leads (p : Nat) (s : State) : ∃ nxt, execEmptySlotStallRelease p s = .next nxt
    ∧ s.Leads nxt := by
  unfold execEmptySlotStallRelease
  refine State.Leads.live ?_
  have hL := State.Leads.refl s
  repeat' first
    | with_reducible assumption
    | with_reducible apply State.onlyIf_leads
    | with_reducible apply State.endStall_leads
    | with_reducible apply State.Leads.ite
    | with_reducible refine State.Leads.ite1 ?_ ?_
    | intro _
    | fail_if_no_progress (with_reducible refine State.Leads.upd ?_ rfl rfl rfl rfl rfl rfl rfl rfl rfl rfl rfl)
    | with_reducible refine State.Leads.snd ?_ (by assumption)
    | with_reducible refine State.Leads.fst ?_ (by assumption)
    | extract_lets
    | split

theorem execSetupGenerator_leads (p : Nat) (s : State) : ∃ nxt, execSetupGenerator p s = .next nxt ∧ s.Leads nxt := by
  unfold execSetupGenerator
  refine State.Leads.live ?_
  have hL := State.Leads.refl s
  repeat' first
    | with_reducible assumption
    | with_reducible apply State.spadTouch_leads
    | with_reducible apply State.setCore_leads
    | with_reducible apply State.failTask_leads
    | with_reducible apply State.issue_leads
    | with_reducible apply State.Leads.ite
    | with_reducible refine State.Leads.ite1 ?_ ?_
    | intro _

theorem execLoopBundle_leads (p : Nat) (s : State) : ∃ nxt, execLoopBundle p s = .next nxt ∧ s.Leads nxt := by
  unfold execLoopBundle
  refine State.Leads.live ?_
  have hL := State.Leads.refl s
  repeat' first
    | with_reducible assumption
    | with_reducible apply State.setCore_leads
    | with_reducible apply State.issue_leads
    | with_reducible apply State.Leads.ite
    | with_reducible refine State.Leads.ite1 ?_ ?_
    | intro _

theorem execWaitTag_leads (p : Nat) (s : State) : ∃ nxt, execWaitTag p s = .next nxt ∧ s.Leads nxt := by
  unfold execWaitTag
  refine State.Leads.live ?_
  have hL := State.Leads.refl s
  repeat' first
    | with_reducible assumption
    | with_reducible apply State.failTask_leads
    | with_reducible apply State.issue_leads
    | with_reducible apply State.bundleDone_leads
    | with_reducible apply State.stallAt_leads
    | with_reducible apply State.Leads.ite
    | with_reducible refine State.Leads.ite1 ?_ ?_
    | intro _

theorem execWaitTagRelease_leads (p : Nat) (s : State) : ∃ nxt, execWaitTagRelease p s = .next nxt ∧ s.Leads nxt := by
  unfold execWaitTagRelease
  refine State.Leads.live ?_
  have hL := State.Leads.refl s
  repeat' first
    | with_reducible assumption
    | with_reducible apply State.onlyIf_leads
    | with_reducible apply State.endStall_leads
    | with_reducible apply State.bundleDone_leads
    | with_reducible apply State.Leads.ite
    | with_reducible refine State.Leads.ite1 ?_ ?_
    | intro _
    | fail_if_no_progress (with_reducible refine State.Leads.upd ?_ rfl rfl rfl rfl rfl rfl rfl rfl rfl rfl rfl)
    | with_reducible refine State.Leads.snd ?_ (by assumption)
    | with_reducible refine State.Leads.fst ?_ (by assumption)
    | extract_lets
    | split

theorem execClapBundle_leads (p : Nat) (s : State) : ∃ nxt, execClapBundle p s = .next nxt ∧ s.Leads nxt := by
  unfold execClapBundle
  refine State.Leads.live ?_
  have hL := State.Leads.refl s
  repeat' first
    | with_reducible assumption
    | with_reducible apply State.setClap_leads
    | with_reducible apply State.arrive_leads
    | with_reducible apply State.failTask_leads
    | with_reducible apply State.issue_leads
    | with_reducible apply State.bundleDone_leads
    | with_reducible apply State.stallAt_leads
    | with_reducible apply State.Leads.ite
    | with_reducible refine State.Leads.ite1 ?_ ?_
    | intro _
    | fail_if_no_progress (with_reducible refine State.Leads.upd ?_ rfl rfl rfl rfl rfl rfl rfl rfl rfl rfl rfl)
    | with_reducible refine State.Leads.snd ?_ (by assumption)
    | with_reducible refine State.Leads.fst ?_ (by assumption)
    | extract_lets
    | split

theorem execEndTask_leads (p : Nat) (s : State) : ∃ nxt, execEndTask p s = .next nxt ∧ s.Leads nxt := by
  unfold execEndTask
  refine State.Leads.live ?_
  have hL := State.Leads.refl s
  repeat' first
    | with_reducible assumption
    | with_reducible apply State.onlyIf_leads
    | with_reducible apply State.setCore_leads
    | with_reducible apply State.endTask_leads
    | with_reducible apply State.firstIssue_leads
    | with_reducible apply State.issue_leads
    | with_reducible apply State.contTask_leads
    | with_reducible apply State.Leads.ite
    | with_reducible refine State.Leads.ite1 ?_ ?_
    | intro _
    | fail_if_no_progress (with_reducible refine State.Leads.upd ?_ rfl rfl rfl rfl rfl rfl rfl rfl rfl rfl rfl)
    | with_reducible refine State.Leads.snd ?_ (by assumption)
    | with_reducible refine State.Leads.fst ?_ (by assumption)
    | extract_lets
    | split

theorem execTaskWatchdog_leads (p : Nat) (s : State) : ∃ nxt, execTaskWatchdog p s = .next nxt ∧ s.Leads nxt := by
  unfold execTaskWatchdog
  refine State.Leads.live ?_
  have hL := State.Leads.refl s
  repeat' first
    | with_reducible assumption
    | with_reducible apply State.logError_leads
    | with_reducible apply State.onlyIf_leads
    | with_reducible apply State.failTask_leads
    | with_reducible apply State.Leads.ite
    | with_reducible refine State.Leads.ite1 ?_ ?_
    | intro _
    | fail_if_no_progress (with_reducible refine State.Leads.upd ?_ rfl rfl rfl rfl rfl rfl rfl rfl rfl rfl rfl)
    | with_reducible refine State.Leads.snd ?_ (by assumption)
    | with_reducible refine State.Leads.fst ?_ (by assumption)
    | extract_lets
    | split

theorem State.transferRow_leads {s0 : State} {s : State} (p : Nat) (mine : Nat → FarSide → Bool) (effect
    : Task → Nat → FarSide → State → State) (hL : s0.Leads s) (h_effect : ∀ (x0 : Task) (x1 : Nat) (x2 : FarSide) (x3
    : State), s0.Leads x3 → s0.Leads (effect x0 x1 x2 x3)) :
    s0.Leads (State.transferRow s p mine effect) := by
  unfold State.transferRow
  repeat' first
    | with_reducible assumption
    | with_reducible apply h_effect
    | with_reducible apply State.spadTouch_leads
    | with_reducible apply State.setCore_leads
    | with_reducible apply State.endTask_leads
    | with_reducible apply State.failTask_leads
    | with_reducible apply State.issue_leads
    | with_reducible apply State.stallAt_leads
    | with_reducible apply State.coreWords_leads
    | with_reducible apply State.Leads.ite
    | with_reducible refine State.Leads.ite1 ?_ ?_
    | intro _
    | fail_if_no_progress (with_reducible refine State.Leads.upd ?_ rfl rfl rfl rfl rfl rfl rfl rfl rfl rfl rfl)
    | with_reducible refine State.Leads.snd ?_ (by assumption)
    | with_reducible refine State.Leads.fst ?_ (by assumption)
    | extract_lets
    | split

theorem State.transferDone_leads {s0 : State} {s : State} (p : Nat) (b : Nat) (cycles : Nat) (hL : s0.Leads s) :
    s0.Leads (State.transferDone s p b cycles) := by
  unfold State.transferDone
  repeat' first
    | with_reducible assumption
    | with_reducible apply State.drainCheck_leads
    | with_reducible apply State.setCore_leads

theorem State.transferFault_leads {s0 : State} {s : State} (p : Nat) (t : Task) (f : VFault) (hL : s0.Leads s) :
    s0.Leads (State.transferFault s p t f) := by
  unfold State.transferFault
  repeat' first
    | with_reducible assumption
    | with_reducible apply State.guardRefused_leads
    | with_reducible apply State.vfault_leads
    | with_reducible apply State.failTask_leads
    | with_reducible apply State.Leads.ite
    | with_reducible refine State.Leads.ite1 ?_ ?_
    | intro _
    | fail_if_no_progress (with_reducible refine State.Leads.upd ?_ rfl rfl rfl rfl rfl rfl rfl rfl rfl rfl rfl)
    | with_reducible refine State.Leads.snd ?_ (by assumption)
    | with_reducible refine State.Leads.fst ?_ (by assumption)
    | extract_lets
    | split

theorem State.reelStop_leads {s0 s : State} (p : Nat) (t : Task) (frame : Nat) (r : ReelStop) (hL : s0.Leads s) :
    s0.Leads (State.reelStop s p t frame r) := by
  cases r
  · exact State.endTask_leads _ _ hL
  · exact State.transferFault_leads _ _ _ hL

theorem State.spill_leads {s0 s : State} (p c slot : Nat) (ms : List Marker) (k : Nat) (hL : s0.Leads s) : s0.Leads
    (State.spill s p c slot ms k).1 := by
  induction k generalizing s with
  | zero => exact hL
  | succ k ih =>
    unfold State.spill
    repeat' first
      | with_reducible assumption
      | with_reducible apply State.setEmpty_leads
      | with_reducible apply State.spadTouch_leads
      | with_reducible apply State.vwrite_leads
      | with_reducible apply State.setReel_leads
      | with_reducible apply ih
      | with_reducible apply State.Leads.ite
      | with_reducible refine State.Leads.ite1 ?_ ?_
      | intro _
      | fail_if_no_progress (with_reducible refine State.Leads.upd ?_ rfl rfl rfl rfl rfl rfl rfl rfl rfl rfl rfl)
      | with_reducible refine State.Leads.snd ?_ (by assumption)
      | with_reducible refine State.Leads.fst ?_ (by assumption)
      | extract_lets
      | split

theorem State.reelRow_leads {s0 : State} {s : State} (p : Nat) (mine : Nat → Nat → Bool) (effect
    : Task → Nat → Nat → Nat → State → State) (hL : s0.Leads s) (h_effect : ∀ (x0 : Task) (x1 : Nat) (x2 : Nat) (x3
    : Nat) (x4 : State), s0.Leads x4 → s0.Leads (effect x0 x1 x2 x3 x4)) :
    s0.Leads (State.reelRow s p mine effect) := by
  unfold State.reelRow
  repeat' first
    | with_reducible assumption
    | with_reducible apply h_effect
    | with_reducible apply State.endTask_leads
    | with_reducible apply State.transferRow_leads
    | with_reducible apply State.Leads.ite
    | with_reducible refine State.Leads.ite1 ?_ ?_
    | intro _
    | fail_if_no_progress (with_reducible refine State.Leads.upd ?_ rfl rfl rfl rfl rfl rfl rfl rfl rfl rfl rfl)
    | with_reducible refine State.Leads.snd ?_ (by assumption)
    | with_reducible refine State.Leads.fst ?_ (by assumption)
    | extract_lets
    | split

theorem State.refill_leads {s0 s : State} (p c slot : Nat) (ms : List Marker) (held l : List Nat) (n : Nat) (hL
    : s0.Leads s) : s0.Leads (State.refill s p c slot ms held l n).1 := by
  induction l generalizing s n with
  | nil => exact hL
  | cons q l ih =>
    unfold State.refill
    repeat' first
      | with_reducible assumption
      | with_reducible apply State.storeLine_leads
      | with_reducible apply State.vtouch_leads
      | with_reducible apply ih
      | with_reducible apply State.Leads.ite
      | with_reducible refine State.Leads.ite1 ?_ ?_
      | intro _
      | fail_if_no_progress (with_reducible refine State.Leads.upd ?_ rfl rfl rfl rfl rfl rfl rfl rfl rfl rfl rfl)
      | with_reducible refine State.Leads.snd ?_ (by assumption)
      | with_reducible refine State.Leads.fst ?_ (by assumption)
      | extract_lets
      | split

theorem State.popFrame_leads {s0 s : State} (p : Nat) (t : Task) (b c fid : Nat) (hold : Bool) (hL : s0.Leads s)
    : s0.Leads (State.popFrame s p t b c fid hold) := by
  unfold State.popFrame
  extract_lets x old wasFull s1
  split
  · exact State.endTask_leads _ _ hL
  · rename_i m rest _
    repeat' first
      | with_reducible exact State.endTask_leads _ _ hL
      | with_reducible refine State.Leads.ite ?_ ?_
    extract_lets qs
    have h1 : s0.Leads s1 := State.Leads.foldl hL (fun _ _ h => State.setEmpty_leads _ _ h)
    have h2 := State.refill_leads p c t.slot x.marks (x.held.flatMap (·.lines)) qs 0 h1
    generalize s1.refill p c t.slot x.marks (x.held.flatMap (·.lines)) qs 0 = q at h2 ⊢
    obtain ⟨s2, n, stop⟩ := q
    dsimp only at h2 ⊢
    split
    · exact State.reelStop_leads _ _ _ _ (State.setReel_leads _ _ (h2.updw rfl id
        (fun h => ⟨h.1, wf_foldl_set _ _ wasFull (fun l => lineKey p l) (fun _ => true) h.2.1, h.2.2⟩) id rfl
    (Nat.le_refl _) rfl rfl))
    · exact State.transferDone_leads _ _ _ (State.storeLine_leads _ _ _ _ (State.setReel_leads _ _ h2))

theorem execGetLines_leads (p : Nat) (s : State) : ∃ nxt, execGetLines p s = .next nxt ∧ s.Leads nxt := by
  unfold execGetLines
  refine State.Leads.live ?_
  have hL := State.Leads.refl s
  repeat' first
    | with_reducible assumption
    | with_reducible apply State.storeLines_leads
    | with_reducible apply State.spadTouch_leads
    | with_reducible apply State.vtouch_leads
    | with_reducible apply State.failTask_leads
    | with_reducible apply State.transferRow_leads
    | with_reducible apply State.transferDone_leads
    | with_reducible apply State.transferFault_leads
    | with_reducible apply State.Leads.ite
    | with_reducible refine State.Leads.ite1 ?_ ?_
    | intro _
    | fail_if_no_progress (with_reducible refine State.Leads.upd ?_ rfl rfl rfl rfl rfl rfl rfl rfl rfl rfl rfl)
    | with_reducible refine State.Leads.snd ?_ (by assumption)
    | with_reducible refine State.Leads.fst ?_ (by assumption)
    | extract_lets
    | split

theorem execPutLines_leads (p : Nat) (s : State) : ∃ nxt, execPutLines p s = .next nxt ∧ s.Leads nxt := by
  unfold execPutLines
  refine State.Leads.live ?_
  have hL := State.Leads.refl s
  repeat' first
    | with_reducible assumption
    | with_reducible apply State.vwrite_leads
    | with_reducible apply State.takeLines_leads
    | with_reducible apply State.transferRow_leads
    | with_reducible apply State.transferDone_leads
    | with_reducible apply State.transferFault_leads
    | with_reducible apply State.Leads.ite
    | with_reducible refine State.Leads.ite1 ?_ ?_
    | intro _
    | with_reducible refine State.Leads.foldl ?_ (fun _ _ _ => ?_)
    | fail_if_no_progress (with_reducible refine State.Leads.upd ?_ rfl rfl rfl rfl rfl rfl rfl rfl rfl rfl rfl)
    | with_reducible refine State.Leads.snd ?_ (by assumption)
    | with_reducible refine State.Leads.fst ?_ (by assumption)
    | extract_lets
    | split

theorem execEmptyLines_leads (p : Nat) (s : State) : ∃ nxt, execEmptyLines p s = .next nxt ∧ s.Leads nxt := by
  unfold execEmptyLines
  refine State.Leads.live ?_
  have hL := State.Leads.refl s
  repeat' first
    | with_reducible assumption
    | with_reducible apply State.setEmptyRange_leads
    | with_reducible apply State.transferRow_leads
    | with_reducible apply State.transferDone_leads
    | with_reducible apply State.Leads.ite
    | with_reducible refine State.Leads.ite1 ?_ ?_
    | intro _

theorem execPushFrame_leads (p : Nat) (s : State) : ∃ nxt, execPushFrame p s = .next nxt ∧ s.Leads nxt := by
  unfold execPushFrame
  refine State.Leads.live ?_
  have hL := State.Leads.refl s
  repeat' first
    | with_reducible assumption
    | with_reducible apply State.setReel_leads
    | with_reducible apply State.endTask_leads
    | with_reducible apply State.failTask_leads
    | with_reducible apply State.takeLines_leads
    | with_reducible apply State.transferDone_leads
    | with_reducible apply State.reelStop_leads
    | with_reducible apply State.spill_leads
    | with_reducible apply State.reelRow_leads
    | with_reducible apply State.Leads.ite
    | with_reducible refine State.Leads.ite1 ?_ ?_
    | intro _
    | fail_if_no_progress (with_reducible refine State.Leads.upd ?_ rfl rfl rfl rfl rfl rfl rfl rfl rfl rfl rfl)
    | with_reducible refine State.Leads.snd ?_ (by assumption)
    | with_reducible refine State.Leads.fst ?_ (by assumption)
    | extract_lets
    | split

theorem execPopFrame_leads (p : Nat) (s : State) : ∃ nxt, execPopFrame p s = .next nxt ∧ s.Leads nxt := by
  unfold execPopFrame
  refine State.Leads.live ?_
  have hL := State.Leads.refl s
  repeat' first
    | with_reducible assumption
    | with_reducible apply State.reelRow_leads
    | with_reducible apply State.popFrame_leads
    | with_reducible apply State.Leads.ite
    | with_reducible refine State.Leads.ite1 ?_ ?_
    | intro _

theorem execHoldFrame_leads (p : Nat) (s : State) : ∃ nxt, execHoldFrame p s = .next nxt ∧ s.Leads nxt := by
  unfold execHoldFrame
  refine State.Leads.live ?_
  have hL := State.Leads.refl s
  repeat' first
    | with_reducible assumption
    | with_reducible apply State.reelRow_leads
    | with_reducible apply State.popFrame_leads
    | with_reducible apply State.Leads.ite
    | with_reducible refine State.Leads.ite1 ?_ ?_
    | intro _

theorem execReleaseFrame_leads (p : Nat) (s : State) : ∃ nxt, execReleaseFrame p s = .next nxt ∧ s.Leads nxt := by
  unfold execReleaseFrame
  refine State.Leads.live ?_
  have hL := State.Leads.refl s
  repeat' first
    | with_reducible assumption
    | with_reducible apply State.setEmpty_leads
    | with_reducible apply State.storeLine_leads
    | with_reducible apply State.setReel_leads
    | with_reducible apply State.endTask_leads
    | with_reducible apply State.transferDone_leads
    | with_reducible apply State.reelRow_leads
    | with_reducible apply State.Leads.ite
    | with_reducible refine State.Leads.ite1 ?_ ?_
    | intro _
    | with_reducible refine State.Leads.foldl ?_ (fun _ _ _ => ?_)
    | fail_if_no_progress (with_reducible refine State.Leads.upd ?_ rfl rfl rfl rfl rfl rfl rfl rfl rfl rfl rfl)
    | with_reducible refine State.Leads.snd ?_ (by assumption)
    | with_reducible refine State.Leads.fst ?_ (by assumption)
    | extract_lets
    | split

theorem State.afterWake_leads {s0 : State} {s : State} (p : Nat) (hL : s0.Leads s) :
    s0.Leads (State.afterWake s p) := by
  unfold State.afterWake
  repeat' first
    | with_reducible assumption
    | with_reducible apply State.setCore_leads
    | with_reducible apply State.nextRepair_leads
    | with_reducible apply State.retireCore_leads
    | with_reducible apply State.idle_leads
    | with_reducible apply State.Leads.ite

theorem State.addRun_leads {s0 : State} {s : State} (c : Command) (slot : Nat) (maxCores : Nat) (trace : Bool)
    (traceBuf : Nat) (ts : List Task) (hL : s0.Leads s) :
    s0.Leads (State.addRun s c slot maxCores trace traceBuf ts) := by
  unfold State.addRun
  repeat' first
    | with_reducible assumption
    | with_reducible apply State.Leads.ite
    | with_reducible refine State.Leads.ite1 ?_ ?_
    | intro _
    | fail_if_no_progress (with_reducible refine State.Leads.upd ?_ rfl rfl rfl rfl rfl rfl rfl rfl rfl rfl rfl)

theorem execTaskPlace_leads (c : Nat) (s : State) : ∃ nxt, execTaskPlace c s = .next nxt ∧ s.Leads nxt := by
  unfold execTaskPlace
  refine State.Leads.live ?_
  have hL := State.Leads.refl s
  repeat' first
    | with_reducible assumption
    | with_reducible apply State.vtouch_leads
    | with_reducible apply State.vfault_leads
    | with_reducible apply State.setCore_leads
    | with_reducible apply State.startTask_leads
    | with_reducible apply State.failTask_leads
    | with_reducible apply State.Leads.ite
    | with_reducible refine State.Leads.ite1 ?_ ?_
    | intro _
    | fail_if_no_progress (with_reducible refine State.Leads.upd ?_ rfl rfl rfl rfl rfl rfl rfl rfl rfl rfl rfl)
    | with_reducible refine State.Leads.snd ?_ (by assumption)
    | with_reducible refine State.Leads.fst ?_ (by assumption)
    | extract_lets
    | split

theorem execCoreWake_leads (p : Nat) (s : State) : ∃ nxt, execCoreWake p s = .next nxt ∧ s.Leads nxt := by
  unfold execCoreWake
  refine State.Leads.live ?_
  have hL := State.Leads.refl s
  repeat' first
    | with_reducible assumption
    | with_reducible apply State.onlyIf_leads
    | with_reducible apply State.setCore_leads
    | with_reducible apply State.afterWake_leads
    | with_reducible apply State.Leads.ite
    | with_reducible refine State.Leads.ite1 ?_ ?_
    | intro _

theorem execCoreGate_leads (p : Nat) (s : State) : ∃ nxt, execCoreGate p s = .next nxt ∧ s.Leads nxt := by
  unfold execCoreGate
  refine State.Leads.live ?_
  have hL := State.Leads.refl s
  repeat' first
    | with_reducible assumption
    | with_reducible apply State.onlyIf_leads
    | with_reducible apply State.setCore_leads
    | with_reducible apply State.idle_leads
    | with_reducible apply State.Leads.ite
    | with_reducible refine State.Leads.ite1 ?_ ?_
    | intro _

theorem execRepairHoldEnd_leads (p : Nat) (checkOk : Bool) (s : State)
    : ∃ nxt, execRepairHoldEnd p checkOk s = .next nxt ∧ s.Leads nxt := by
  unfold execRepairHoldEnd
  refine State.Leads.live ?_
  have hL := State.Leads.refl s
  repeat' first
    | with_reducible assumption
    | with_reducible apply State.onlyIf_leads
    | with_reducible apply State.setCore_leads
    | with_reducible apply State.mramRepair_leads
    | with_reducible apply State.opeRepaired_leads
    | with_reducible apply State.repairReply_leads
    | with_reducible apply State.retireCore_leads
    | with_reducible apply State.afterWake_leads
    | with_reducible apply State.Leads.ite
    | with_reducible refine State.Leads.ite1 ?_ ?_
    | intro _
    | fail_if_no_progress (with_reducible refine State.Leads.upd ?_ rfl rfl rfl rfl rfl rfl rfl rfl rfl rfl rfl)
    | with_reducible refine State.Leads.snd ?_ (by assumption)
    | with_reducible refine State.Leads.fst ?_ (by assumption)
    | extract_lets
    | split

theorem execOpeRepair_leads (c : Command) (s : State) : ∃ nxt, execOpeRepair c s = .next nxt ∧ s.Leads nxt := by
  unfold execOpeRepair
  refine State.Leads.live ?_
  have hL := State.Leads.refl s
  repeat' first
    | with_reducible assumption
    | with_reducible apply State.finish_leads
    | with_reducible apply State.defer_leads
    | with_reducible apply State.checked_leads
    | with_reducible apply State.setCore_leads
    | with_reducible apply State.nextRepair_leads
    | with_reducible apply State.idle_leads
    | with_reducible apply State.Leads.ite
    | with_reducible refine State.Leads.ite1 ?_ ?_
    | intro _

theorem execKernelLoad_leads (c : Command) (s : State) : ∃ nxt, execKernelLoad c s = .next nxt ∧ s.Leads nxt := by
  unfold execKernelLoad
  refine State.Leads.live ?_
  have hL := State.Leads.refl s
  repeat' first
    | with_reducible assumption
    | with_reducible apply State.finish_leads
    | with_reducible apply State.badParam_leads
    | with_reducible apply State.checked_leads
    | with_reducible apply State.vtouch_leads
    | with_reducible apply State.vfault_leads
    | with_reducible apply State.setKernel_leads
    | with_reducible apply State.Leads.ite
    | with_reducible refine State.Leads.ite1 ?_ ?_
    | intro _
    | fail_if_no_progress (with_reducible refine State.Leads.upd ?_ rfl rfl rfl rfl rfl rfl rfl rfl rfl rfl rfl)
    | with_reducible refine State.Leads.snd ?_ (by assumption)
    | with_reducible refine State.Leads.fst ?_ (by assumption)
    | extract_lets
    | split

theorem execKernelRun_leads (c : Command) (s : State) : ∃ nxt, execKernelRun c s = .next nxt ∧ s.Leads nxt := by
  unfold execKernelRun
  refine State.Leads.live ?_
  have hL := State.Leads.refl s
  repeat' first
    | with_reducible assumption
    | with_reducible apply State.checked_leads
    | with_reducible apply State.addRun_leads
    | with_reducible apply State.Leads.ite
    | with_reducible refine State.Leads.ite1 ?_ ?_
    | intro _

theorem execKernelUnload_leads (c : Command) (s : State) : ∃ nxt, execKernelUnload c s = .next nxt ∧ s.Leads nxt := by
  unfold execKernelUnload
  refine State.Leads.live ?_
  have hL := State.Leads.refl s
  repeat' first
    | with_reducible assumption
    | with_reducible apply State.finish_leads
    | with_reducible apply State.badParam_leads
    | with_reducible apply State.defer_leads
    | with_reducible apply State.setKernel_leads
    | with_reducible apply State.Leads.ite
    | with_reducible refine State.Leads.ite1 ?_ ?_
    | intro _
    | fail_if_no_progress (with_reducible refine State.Leads.upd ?_ rfl rfl rfl rfl rfl rfl rfl rfl rfl rfl rfl)
    | with_reducible refine State.Leads.snd ?_ (by assumption)
    | with_reducible refine State.Leads.fst ?_ (by assumption)
    | extract_lets
    | split

theorem execContRun_leads (c : Command) (s : State) : ∃ nxt, execContRun c s = .next nxt ∧ s.Leads nxt := by
  unfold execContRun
  refine State.Leads.live ?_
  have hL := State.Leads.refl s
  repeat' first
    | with_reducible assumption
    | with_reducible apply State.checked_leads
    | with_reducible apply State.addRun_leads
    | with_reducible apply State.Leads.ite
    | with_reducible refine State.Leads.ite1 ?_ ?_
    | intro _

theorem execContRunFrames_leads (c : Command) (s : State) : ∃ nxt, execContRunFrames c s = .next nxt ∧ s.Leads nxt := by
  unfold execContRunFrames
  refine State.Leads.live ?_
  have hL := State.Leads.refl s
  repeat' first
    | with_reducible assumption
    | with_reducible apply State.finish_leads
    | with_reducible apply State.defer_leads
    | with_reducible apply State.checked_leads
    | with_reducible apply State.applyWindow_leads
    | with_reducible apply State.spill_leads
    | with_reducible apply State.Leads.ite
    | with_reducible refine State.Leads.ite1 ?_ ?_
    | intro _
    | with_reducible refine State.Leads.foldl ?_ (fun _ _ _ => ?_)
    | fail_if_no_progress (with_reducible refine State.Leads.upd ?_ rfl rfl rfl rfl rfl rfl rfl rfl rfl rfl rfl)

end Sys2Proof.Machine
end

