-- ==== Sys2Proof/Laws/LeadsBoot.lean ====
section
/-! SUPPORT. The state leads on to the state after: scheduling, security, bring-up, intake and discovery. -/

namespace Sys2Proof.Machine

theorem State.endMigration_leads {s0 : State} {s : State} (slot : Nat) (copied : Nat) (status : Nat) (detail : Nat) (hL
    : s0.Leads s) :
    s0.Leads (State.endMigration s slot copied status detail) := by
  unfold State.endMigration
  repeat' first
    | with_reducible assumption
    | with_reducible apply State.recordCmd_leads
    | with_reducible apply State.deferredDone_leads
    | with_reducible apply State.setJob_leads
    | with_reducible apply State.Leads.ite
    | with_reducible refine State.Leads.ite1 ?_ ?_
    | intro _
    | fail_if_no_progress (with_reducible refine State.Leads.upd ?_ rfl rfl rfl rfl rfl rfl rfl rfl rfl rfl rfl)
    | with_reducible refine State.Leads.snd ?_ (by assumption)
    | with_reducible refine State.Leads.fst ?_ (by assumption)
    | extract_lets
    | split

theorem State.dropAttn_leads {s0 : State} {s : State} (slot : Nat) (hL : s0.Leads s) :
    s0.Leads (State.dropAttn s slot) := by
  unfold State.dropAttn
  repeat' first
    | with_reducible assumption
    | with_reducible apply State.failRun_leads
    | with_reducible apply State.attnTaskEnd_leads
    | with_reducible apply State.Leads.ite
    | with_reducible refine State.Leads.ite1 ?_ ?_
    | intro _
    | with_reducible refine State.Leads.foldl ?_ (fun _ _ _ => ?_)
    | fail_if_no_progress (with_reducible refine State.Leads.upd ?_ rfl rfl rfl rfl rfl rfl rfl rfl rfl rfl rfl)

theorem State.cancelJob_leads {s0 : State} {s : State} (slot : Nat) (hL : s0.Leads s) :
    s0.Leads (State.cancelJob s slot) := by
  unfold State.cancelJob
  repeat' first
    | with_reducible assumption
    | with_reducible apply State.cancelDecodes_leads
    | with_reducible apply State.cancelWork_leads
    | with_reducible apply State.stopChain_leads
    | with_reducible apply State.endRecut_leads
    | with_reducible apply State.dropAttn_leads
    | with_reducible apply State.Leads.ite
    | with_reducible refine State.Leads.ite1 ?_ ?_
    | intro _
    | with_reducible refine State.Leads.foldl ?_ (fun _ _ _ => ?_)

theorem State.dropFromCore_leads {s0 : State} {s : State} (slot : Nat) (p : Nat) (hL : s0.Leads s) :
    s0.Leads (State.dropFromCore s slot p) := by
  unfold State.dropFromCore
  repeat' first
    | with_reducible assumption
    | with_reducible apply State.setFld_leads
    | with_reducible apply State.closeTurnout_leads
    | with_reducible apply State.applyWindow_leads
    | with_reducible apply State.Leads.ite
    | with_reducible refine State.Leads.ite1 ?_ ?_
    | intro _
    | with_reducible refine State.Leads.foldl ?_ (fun _ _ _ => ?_)

theorem State.dropStreams_leads {s0 : State} {s : State} (slot : Nat) (hL : s0.Leads s) :
    s0.Leads (State.dropStreams s slot) := by
  unfold State.dropStreams
  repeat' first
    | with_reducible assumption
    | with_reducible apply State.freeStream_leads
    | with_reducible apply State.Leads.ite
    | with_reducible refine State.Leads.ite1 ?_ ?_
    | intro _
    | with_reducible refine State.Leads.foldl ?_ (fun _ _ _ => ?_)
    | fail_if_no_progress (with_reducible refine State.Leads.upd ?_ rfl rfl rfl rfl rfl rfl rfl rfl rfl rfl rfl)

theorem State.dropReels_leads {s0 : State} {s : State} (slot : Nat) (hL : s0.Leads s) :
    s0.Leads (State.dropReels s slot) := by
  unfold State.dropReels
  repeat' first
    | with_reducible assumption
    | with_reducible apply State.setReelJob_leads
    | with_reducible apply State.setShard_leads
    | with_reducible apply State.setReel_leads
    | with_reducible apply State.clearReel_leads
    | with_reducible apply State.Leads.ite
    | with_reducible refine State.Leads.ite1 ?_ ?_
    | intro _
    | with_reducible refine State.Leads.foldl ?_ (fun _ _ _ => ?_)

theorem State.dropRest_leads {s0 : State} {s : State} (slot : Nat) (hL : s0.Leads s) :
    s0.Leads (State.dropRest s slot) := by
  unfold State.dropRest
  repeat' first
    | with_reducible assumption
    | with_reducible apply State.setFjob_leads
    | with_reducible apply State.setMap_leads
    | with_reducible apply State.setRjob_leads
    | with_reducible apply State.abandonNegative_leads
    | with_reducible apply State.Leads.ite
    | with_reducible refine State.Leads.ite1 ?_ ?_
    | intro _
    | fail_if_no_progress (with_reducible refine State.Leads.upd ?_ rfl rfl rfl rfl rfl rfl rfl rfl rfl rfl rfl)

theorem State.unbindAll_leads {s0 : State} {s : State} (tag : Nat) (hL : s0.Leads s) :
    s0.Leads (State.unbindAll s tag) := by
  unfold State.unbindAll
  repeat' first
    | with_reducible assumption
    | with_reducible apply State.setQueue_leads
    | with_reducible apply State.deferredDone_leads
    | with_reducible apply State.flushQueue_leads
    | with_reducible apply State.Leads.ite
    | with_reducible refine State.Leads.ite1 ?_ ?_
    | intro _
    | with_reducible refine State.Leads.foldl ?_ (fun _ _ _ => ?_)

theorem State.reserveSet_leads {s0 : State} {s : State} (c : Command) (hL : s0.Leads s) :
    s0.Leads (State.reserveSet s c) := by
  unfold State.reserveSet
  repeat' first
    | with_reducible assumption
    | with_reducible apply State.finish_leads
    | with_reducible apply State.checked_leads
    | with_reducible apply State.Leads.ite
    | with_reducible refine State.Leads.ite1 ?_ ?_
    | intro _
    | fail_if_no_progress (with_reducible refine State.Leads.upd ?_ rfl rfl rfl rfl rfl rfl rfl rfl rfl rfl rfl)

theorem State.applyMask_leads {s0 : State} {s : State} (a : Nat) (mask : List Nat) (new : Allotment) (hL : s0.Leads s) :
    s0.Leads (State.applyMask s a mask new) := by
  unfold State.applyMask
  repeat' first
    | with_reducible assumption
    | with_reducible apply State.joinCore_leads
    | with_reducible apply State.leaveCore_leads
    | with_reducible apply State.Leads.ite
    | with_reducible refine State.Leads.ite1 ?_ ?_
    | intro _
    | (with_reducible refine State.Leads.foldl ?_ (fun _ _ _ => ?_) <;> beta_reduce)
    | fail_if_no_progress (with_reducible refine State.Leads.upd ?_ rfl rfl rfl rfl rfl rfl rfl rfl rfl rfl rfl)
    | with_reducible refine State.Leads.snd ?_ (by assumption)
    | with_reducible refine State.Leads.fst ?_ (by assumption)
    | extract_lets
    | split

theorem State.overrun_leads {s0 : State} {s : State} (a : Nat) (hL : s0.Leads s) :
    s0.Leads (State.overrun s a) := by
  unfold State.overrun
  repeat' first
    | with_reducible assumption
    | with_reducible apply State.draw_leads
    | with_reducible apply State.recordAll_leads
    | with_reducible apply State.Leads.ite
    | with_reducible refine State.Leads.ite1 ?_ ?_
    | intro _
    | fail_if_no_progress (with_reducible refine State.Leads.upd ?_ rfl rfl rfl rfl rfl rfl rfl rfl rfl rfl rfl)

theorem State.closeForMove_leads {s0 : State} {s : State} (slot : Nat) (m : Migration) (hL : s0.Leads s) :
    s0.Leads (State.closeForMove s slot m) := by
  unfold State.closeForMove
  repeat' first
    | with_reducible assumption
    | with_reducible apply State.setJob_leads
    | with_reducible apply State.setTurnout_leads
    | with_reducible apply State.drainCheck_leads
    | with_reducible apply State.Leads.ite
    | with_reducible refine State.Leads.ite1 ?_ ?_
    | intro _
    | (with_reducible refine State.Leads.foldl ?_ (fun _ _ _ => ?_) <;> beta_reduce)

theorem State.freeLine_leads {s0 : State} {s : State} (p : Nat) (l : Nat) (hL : s0.Leads s) :
    s0.Leads (State.freeLine s p l) := by
  unfold State.freeLine
  repeat' first
    | with_reducible assumption
    | with_reducible apply State.draw_leads
    | with_reducible apply State.setEmpty_leads
    | with_reducible apply State.storeLine_leads
    | with_reducible apply State.Leads.ite

theorem State.carryLine_leads {s0 : State} {s : State} (src : Nat) (dst : Nat) (l : Nat) (hL : s0.Leads s) :
    s0.Leads (State.carryLine s src dst l) := by
  unfold State.carryLine
  repeat' first
    | with_reducible assumption
    | with_reducible apply State.setEmpty_leads
    | with_reducible apply State.storeLine_leads
    | with_reducible apply State.Leads.ite

theorem State.finishMove_leads {s0 : State} {s : State} (slot : Nat) (m : Migration) (hL : s0.Leads s) :
    s0.Leads (State.finishMove s slot m) := by
  unfold State.finishMove
  repeat' first
    | with_reducible assumption
    | with_reducible apply State.setJob_leads
    | with_reducible apply State.setEmpty_leads
    | with_reducible apply State.reopenPools_leads
    | with_reducible apply State.endMigration_leads
    | with_reducible apply State.freeLine_leads
    | with_reducible apply State.carryLine_leads
    | with_reducible apply State.Leads.ite
    | with_reducible refine State.Leads.ite1 ?_ ?_
    | intro _
    | (with_reducible refine State.Leads.foldl ?_ (fun _ _ _ => ?_) <;> beta_reduce)
    | fail_if_no_progress (with_reducible refine State.Leads.upd ?_ rfl rfl rfl rfl rfl rfl rfl rfl rfl rfl rfl)
    | with_reducible refine State.Leads.snd ?_ (by assumption)
    | with_reducible refine State.Leads.fst ?_ (by assumption)
    | extract_lets
    | split

theorem execJobCreate_leads (c : Command) (s : State) : ∃ nxt, execJobCreate c s = .next nxt ∧ s.Leads nxt := by
  unfold execJobCreate
  refine State.Leads.live ?_
  have hL := State.Leads.refl s
  repeat' first
    | with_reducible assumption
    | with_reducible apply State.finish_leads
    | with_reducible apply State.checked_leads
    | with_reducible apply State.setJob_leads
    | with_reducible apply State.Leads.ite
    | with_reducible refine State.Leads.ite1 ?_ ?_
    | intro _

theorem execJobDestroy_leads (c : Command) (s : State) : ∃ nxt, execJobDestroy c s = .next nxt ∧ s.Leads nxt := by
  unfold execJobDestroy
  refine State.Leads.live ?_
  have hL := State.Leads.refl s
  repeat' first
    | with_reducible assumption
    | with_reducible apply State.defer_leads
    | with_reducible apply State.checked_leads
    | with_reducible apply State.setJob_leads
    | with_reducible apply State.flushQueue_leads
    | with_reducible apply State.endMigration_leads
    | with_reducible apply State.cancelJob_leads
    | with_reducible apply State.Leads.ite
    | with_reducible refine State.Leads.ite1 ?_ ?_
    | intro _
    | with_reducible refine State.Leads.foldl ?_ (fun _ _ _ => ?_)

theorem execJobTeardown_leads (slot : Nat) (s : State) : ∃ nxt, execJobTeardown slot s = .next nxt ∧ s.Leads nxt := by
  unfold execJobTeardown
  refine State.Leads.live ?_
  have hL := State.Leads.refl s
  repeat' first
    | with_reducible assumption
    | with_reducible apply State.recordAll_leads
    | with_reducible apply State.deferredDone_leads
    | with_reducible apply State.onlyIf_leads
    | with_reducible apply State.dropQps_leads
    | with_reducible apply State.dropFromCore_leads
    | with_reducible apply State.dropStreams_leads
    | with_reducible apply State.dropReels_leads
    | with_reducible apply State.dropRest_leads
    | with_reducible apply State.unbindAll_leads
    | with_reducible apply State.Leads.ite
    | with_reducible refine State.Leads.ite1 ?_ ?_
    | intro _
    | with_reducible refine State.Leads.foldl ?_ (fun _ _ _ => ?_)
    | fail_if_no_progress (with_reducible refine State.Leads.upd ?_ rfl rfl rfl rfl rfl rfl rfl rfl rfl rfl rfl)
    | with_reducible refine State.Leads.snd ?_ (by assumption)
    | with_reducible refine State.Leads.fst ?_ (by assumption)
    | extract_lets
    | split

theorem execModeSet_leads (c : Command) (s : State) : ∃ nxt, execModeSet c s = .next nxt ∧ s.Leads nxt := by
  unfold execModeSet
  refine State.Leads.live ?_
  have hL := State.Leads.refl s
  repeat' first
    | with_reducible assumption
    | with_reducible apply State.finish_leads
    | with_reducible apply State.checked_leads
    | with_reducible apply State.Leads.ite
    | with_reducible refine State.Leads.ite1 ?_ ?_
    | intro _
    | fail_if_no_progress (with_reducible refine State.Leads.upd ?_ rfl rfl rfl rfl rfl rfl rfl rfl rfl rfl rfl)

theorem execAllotmentSet_leads (c : Command) (s : State) : ∃ nxt, execAllotmentSet c s = .next nxt ∧ s.Leads nxt := by
  unfold execAllotmentSet
  refine State.Leads.live ?_
  have hL := State.Leads.refl s
  repeat' first
    | with_reducible assumption
    | with_reducible apply State.finish_leads
    | with_reducible apply State.defer_leads
    | with_reducible apply State.deferredDone_leads
    | with_reducible apply State.checked_leads
    | with_reducible apply State.reserveSet_leads
    | with_reducible apply State.applyMask_leads
    | with_reducible apply State.Leads.ite
    | with_reducible refine State.Leads.ite1 ?_ ?_
    | intro _
    | with_reducible refine State.Leads.foldl ?_ (fun _ _ _ => ?_)
    | fail_if_no_progress (with_reducible refine State.Leads.upd ?_ rfl rfl rfl rfl rfl rfl rfl rfl rfl rfl rfl)

theorem execRotationTurnEnd_leads (a : Nat) (s : State) : ∃ nxt, execRotationTurnEnd a s = .next nxt ∧ s.Leads nxt := by
  unfold execRotationTurnEnd
  refine State.Leads.live ?_
  have hL := State.Leads.refl s
  repeat' first
    | with_reducible assumption
    | with_reducible apply State.onlyIf_leads
    | with_reducible apply State.overrun_leads
    | with_reducible apply State.Leads.ite
    | with_reducible refine State.Leads.ite1 ?_ ?_
    | intro _
    | fail_if_no_progress (with_reducible refine State.Leads.upd ?_ rfl rfl rfl rfl rfl rfl rfl rfl rfl rfl rfl)

theorem execTaskMigrate_leads (c : Command) (s : State) : ∃ nxt, execTaskMigrate c s = .next nxt ∧ s.Leads nxt := by
  unfold execTaskMigrate
  refine State.Leads.live ?_
  have hL := State.Leads.refl s
  repeat' first
    | with_reducible assumption
    | with_reducible apply State.defer_leads
    | with_reducible apply State.checked_leads
    | with_reducible apply State.setJob_leads
    | with_reducible apply State.Leads.ite
    | with_reducible refine State.Leads.ite1 ?_ ?_
    | intro _

theorem execMigrationDrained_leads (slot : Nat) (s : State) : ∃ nxt, execMigrationDrained slot s = .next nxt ∧ s.Leads nxt := by
  unfold execMigrationDrained
  refine State.Leads.live ?_
  have hL := State.Leads.refl s
  repeat' first
    | with_reducible assumption
    | with_reducible apply State.onlyIf_leads
    | with_reducible apply State.closeForMove_leads
    | with_reducible apply State.finishMove_leads
    | with_reducible apply State.Leads.ite
    | with_reducible refine State.Leads.ite1 ?_ ?_
    | intro _
    | fail_if_no_progress (with_reducible refine State.Leads.upd ?_ rfl rfl rfl rfl rfl rfl rfl rfl rfl rfl rfl)
    | with_reducible refine State.Leads.snd ?_ (by assumption)
    | with_reducible refine State.Leads.fst ?_ (by assumption)
    | extract_lets
    | split

theorem State.refuseOpen_leads {s0 : State} {s : State} (status : Nat) (detail : Nat) (hL : s0.Leads s) :
    s0.Leads (State.refuseOpen s status detail) := by
  unfold State.refuseOpen
  repeat' first
    | with_reducible assumption
    | with_reducible apply State.emit_leads
    | with_reducible apply State.Leads.ite
    | with_reducible refine State.Leads.ite1 ?_ ?_
    | intro _
    | fail_if_no_progress (with_reducible refine State.Leads.upd ?_ rfl rfl rfl rfl rfl rfl rfl rfl rfl rfl rfl)

theorem State.openOn_leads {s0 : State} {s : State} (d : Datagram) (hL : s0.Leads s) :
    s0.Leads (State.openOn s d) := by
  unfold State.openOn
  repeat' first
    | with_reducible assumption
    | with_reducible apply State.draw_leads
    | with_reducible apply State.setSession_leads
    | with_reducible apply State.setQueue_leads
    | with_reducible apply State.emit_leads
    | with_reducible apply State.postTo_leads
    | with_reducible apply State.Leads.ite
    | with_reducible refine State.Leads.ite1 ?_ ?_
    | intro _
    | with_reducible refine State.Leads.foldl ?_ (fun _ _ _ => ?_)
    | fail_if_no_progress (with_reducible refine State.Leads.upd ?_ rfl rfl rfl rfl rfl rfl rfl rfl rfl rfl rfl)

theorem State.dropLoad_leads {s0 : State} {s : State} (hL : s0.Leads s) :
    s0.Leads (State.dropLoad s) := by
  unfold State.dropLoad
  repeat' first
    | with_reducible assumption
    | with_reducible apply State.Leads.ite
    | with_reducible refine State.Leads.ite1 ?_ ?_
    | intro _
    | fail_if_no_progress (with_reducible refine State.Leads.upd ?_ rfl rfl rfl rfl rfl rfl rfl rfl rfl rfl rfl)

theorem State.configCommit_leads {s0 : State} {s : State} (c : Command) (f : FieldCopy → FieldCopy) (hL : s0.Leads s) :
    s0.Leads (State.configCommit s c f) := by
  unfold State.configCommit
  repeat' first
    | with_reducible assumption
    | with_reducible apply State.finish_leads
    | with_reducible apply State.csSetBits_leads
    | with_reducible apply State.mramCommit_leads
    | with_reducible apply State.Leads.ite

theorem State.writeLive_leads {s0 : State} {s : State} (u : Nat) (off : Nat) (hi : Nat) (lo : Nat) (v : Nat) (hL : s0.Leads s) :
    s0.Leads (State.writeLive s u off hi lo v) := by
  unfold State.writeLive
  repeat' first
    | with_reducible assumption
    | with_reducible apply State.setFld_leads
    | with_reducible apply State.csApply_leads
    | with_reducible apply State.Leads.ite

theorem State.applySetting_leads {s0 : State} {s : State} (x : Setting) (hL : s0.Leads s) :
    s0.Leads (State.applySetting s x) := by
  unfold State.applySetting
  repeat' first
    | with_reducible assumption
    | with_reducible apply State.writeLive_leads
    | with_reducible apply State.Leads.ite
    | with_reducible refine State.Leads.ite1 ?_ ?_
    | intro _
    | with_reducible refine State.Leads.foldl ?_ (fun _ _ _ => ?_)
    | fail_if_no_progress (with_reducible refine State.Leads.upd ?_ rfl rfl rfl rfl rfl rfl rfl rfl rfl rfl rfl)
    | with_reducible refine State.Leads.snd ?_ (by assumption)
    | with_reducible refine State.Leads.fst ?_ (by assumption)
    | extract_lets
    | split

theorem State.identityLow_leads {s0 : State} {s : State} (hL : s0.Leads s) :
    s0.Leads (State.identityLow s) := by
  unfold State.identityLow
  repeat' first
    | with_reducible assumption
    | with_reducible apply State.recordAll_leads
    | with_reducible apply State.Leads.ite
    | with_reducible refine State.Leads.ite1 ?_ ?_
    | intro _
    | fail_if_no_progress (with_reducible refine State.Leads.upd ?_ rfl rfl rfl rfl rfl rfl rfl rfl rfl rfl rfl)

theorem execOpenSession_leads (d : Datagram) (cred : Credential) (s : State)
    : ∃ nxt, execOpenSession d cred s = .next nxt ∧ s.Leads nxt := by
  unfold execOpenSession
  refine State.Leads.live ?_
  have hL := State.Leads.refl s
  repeat' first
    | with_reducible assumption
    | with_reducible apply State.bump_leads
    | with_reducible apply State.rxBytes_leads
    | with_reducible apply State.refuseOpen_leads
    | with_reducible apply State.openOn_leads
    | with_reducible apply State.Leads.ite
    | with_reducible refine State.Leads.ite1 ?_ ?_
    | intro _
    | fail_if_no_progress (with_reducible refine State.Leads.upd ?_ rfl rfl rfl rfl rfl rfl rfl rfl rfl rfl rfl)
    | with_reducible refine State.Leads.snd ?_ (by assumption)
    | with_reducible refine State.Leads.fst ?_ (by assumption)
    | extract_lets
    | split

theorem execFirmwareLoadBegin_leads (c : Command) (s : State) : ∃ nxt, execFirmwareLoadBegin c s = .next nxt ∧ s.Leads nxt := by
  unfold execFirmwareLoadBegin
  refine State.Leads.live ?_
  have hL := State.Leads.refl s
  repeat' first
    | with_reducible assumption
    | with_reducible apply State.finish_leads
    | with_reducible apply State.checked_leads
    | with_reducible apply State.Leads.ite
    | with_reducible refine State.Leads.ite1 ?_ ?_
    | intro _
    | fail_if_no_progress (with_reducible refine State.Leads.upd ?_ rfl rfl rfl rfl rfl rfl rfl rfl rfl rfl rfl)

theorem execFirmwareLoadData_leads (c : Command) (s : State) : ∃ nxt, execFirmwareLoadData c s = .next nxt ∧ s.Leads nxt := by
  unfold execFirmwareLoadData
  refine State.Leads.live ?_
  have hL := State.Leads.refl s
  repeat' first
    | with_reducible assumption
    | with_reducible apply State.finish_leads
    | with_reducible apply State.checked_leads
    | with_reducible apply State.Leads.ite
    | with_reducible refine State.Leads.ite1 ?_ ?_
    | intro _
    | fail_if_no_progress (with_reducible refine State.Leads.upd ?_ rfl rfl rfl rfl rfl rfl rfl rfl rfl rfl rfl)

/-- FIRMWARE_LOAD_COMMIT leads on in all but `committed`, which it sets only where the assembled image verifies (R464). -/
theorem execFirmwareLoadCommit_holds (c : Command) (s : State) : ∃ nxt, execFirmwareLoadCommit c s = .next nxt ∧ s.Keeps nxt ∧
    (nxt.security.committed = true →
      s.security.committed = true ∨ verifyImage s.security.image s.security.imageLen s.minSvn = none) ∧
    nxt.security.keyGen = s.security.keyGen ∧ s.security.nextIndex ≤ nxt.security.nextIndex ∧
    nxt.security.chain = s.security.chain ∧ nxt.security.hostKey = s.security.hostKey := by
  have lead : ∀ {t : State}, s.Leads t → s.Keeps t ∧
      (t.security.committed = true →
        s.security.committed = true ∨ verifyImage s.security.image s.security.imageLen s.minSvn = none) ∧
      t.security.keyGen = s.security.keyGen ∧ s.security.nextIndex ≤ t.security.nextIndex ∧
      t.security.chain = s.security.chain ∧ t.security.hostKey = s.security.hostKey :=
    fun h => ⟨h.toKeeps, fun x => .inl (h.committed x), h.keyGen, h.leaf, h.chain, h.hostKey⟩
  unfold execFirmwareLoadCommit State.live
  split
  · refine ⟨_, rfl, ?_⟩
    unfold State.checked
    beta_reduce
    split
    · exact lead (State.finish_leads _ _ _ _ (State.Leads.refl s))
    · extract_lets len
      split
      · exact lead (State.finish_leads _ _ _ _
          (State.Leads.upd (State.dropLoad_leads (State.Leads.refl s)) rfl rfl rfl rfl rfl rfl rfl rfl rfl rfl rfl))
      · rename_i hv
        have h1 := State.dropLoad_leads (State.Leads.refl s)
        refine ⟨?_, fun _ => .inr hv, ?_⟩
        · exact (h1.toKeeps.trans (State.Keeps.security _ _)).trans (State.finish_leads _ _ _ _ (State.Leads.refl _)).toKeeps
        · have h3 : ∀ {u t : State}, u.Leads t → u.security.keyGen = s.dropLoad.security.keyGen →
              u.security.nextIndex = s.dropLoad.security.nextIndex → u.security.chain = s.dropLoad.security.chain →
              u.security.hostKey = s.dropLoad.security.hostKey →
              t.security.keyGen = s.security.keyGen ∧ s.security.nextIndex ≤ t.security.nextIndex ∧
              t.security.chain = s.security.chain ∧ t.security.hostKey = s.security.hostKey :=
            fun h a b c d => ⟨h.keyGen.trans (a.trans h1.keyGen), (h1.leaf.trans (Nat.le_of_eq b.symm)).trans h.leaf,
              h.chain.trans (c.trans h1.chain), h.hostKey.trans (d.trans h1.hostKey)⟩
          exact h3 (State.finish_leads _ _ _ _ (State.Leads.refl _)) rfl rfl rfl rfl
  · exact ⟨_, rfl, lead (State.Leads.refl s)⟩

theorem execFirmwareLoadAbort_leads (c : Command) (s : State) : ∃ nxt, execFirmwareLoadAbort c s = .next nxt ∧ s.Leads nxt := by
  unfold execFirmwareLoadAbort
  refine State.Leads.live ?_
  have hL := State.Leads.refl s
  repeat' first
    | with_reducible assumption
    | with_reducible apply State.finish_leads
    | with_reducible apply State.checked_leads
    | with_reducible apply State.dropLoad_leads
    | with_reducible apply State.Leads.ite
    | with_reducible refine State.Leads.ite1 ?_ ?_
    | intro _

theorem execConfigWriteSet_leads (c : Command) (s : State) : ∃ nxt, execConfigWriteSet c s = .next nxt ∧ s.Leads nxt := by
  unfold execConfigWriteSet
  refine State.Leads.live ?_
  have hL := State.Leads.refl s
  repeat' first
    | with_reducible assumption
    | with_reducible apply State.checked_leads
    | with_reducible apply State.configCommit_leads
    | with_reducible apply State.applySetting_leads
    | with_reducible apply State.Leads.ite
    | with_reducible refine State.Leads.ite1 ?_ ?_
    | intro _
    | with_reducible refine State.Leads.foldl ?_ (fun _ _ _ => ?_)

theorem execConfigWriteClear_leads (c : Command) (s : State) : ∃ nxt, execConfigWriteClear c s = .next nxt ∧ s.Leads nxt := by
  unfold execConfigWriteClear
  refine State.Leads.live ?_
  have hL := State.Leads.refl s
  repeat' first
    | with_reducible assumption
    | with_reducible apply State.checked_leads
    | with_reducible apply State.configCommit_leads
    | with_reducible apply State.Leads.ite
    | with_reducible refine State.Leads.ite1 ?_ ?_
    | intro _

/-- CONFIG_WRITE_HOST_KEY leads on in all but the host key (R474). -/
theorem execConfigWriteHostKey_holds (c : Command) (s : State) : ∃ nxt, execConfigWriteHostKey c s = .next nxt ∧ s.Keeps nxt ∧
    (nxt.security.committed = true → s.security.committed = true) ∧ nxt.security.keyGen = s.security.keyGen ∧
    s.security.nextIndex ≤ nxt.security.nextIndex ∧ nxt.security.chain = s.security.chain := by
  unfold execConfigWriteHostKey State.live
  split
  · refine ⟨_, rfl, ?_⟩
    unfold State.checked
    beta_reduce
    split
    · rename_i st d _
      have h := State.finish_leads c st d [] (State.Leads.refl s)
      exact ⟨h.toKeeps, h.committed, h.keyGen, h.leaf, h.chain⟩
    · extract_lets key _ u
      have h := State.configCommit_leads c id (State.Leads.refl u)
      exact ⟨(State.Keeps.security s _).trans h.toKeeps, h.committed, h.keyGen, h.leaf, h.chain⟩
  · have h := State.Leads.refl s
    exact ⟨_, rfl, h.toKeeps, h.committed, h.keyGen, h.leaf, h.chain⟩

theorem execConfigWriteMinSvn_leads (c : Command) (s : State) : ∃ nxt, execConfigWriteMinSvn c s = .next nxt ∧ s.Leads nxt := by
  unfold execConfigWriteMinSvn
  refine State.Leads.live ?_
  have hL := State.Leads.refl s
  repeat' first
    | with_reducible assumption
    | with_reducible apply State.checked_leads
    | with_reducible apply State.configCommit_leads
    | with_reducible apply State.Leads.ite
    | with_reducible refine State.Leads.ite1 ?_ ?_
    | intro _

theorem execAttestReport_leads (c : Command) (s : State) : ∃ nxt, execAttestReport c s = .next nxt ∧ s.Leads nxt := by
  refine State.Leads.live (State.checked_leads _ _ _ (State.Leads.refl s) (fun v hL => ?_))
  have h1 : s.Leads (v.stamp uSec).2 := State.stamp_leads _ hL
  have h2 : (v.stamp uSec).2.security = v.security := rfl
  refine State.identityLow_leads (State.finish_leads _ _ _ _ (h1.updw rfl id id id rfl ?_ rfl rfl))
  rw [h2]; exact Nat.le_succ _

theorem execAttestChain_leads (c : Command) (s : State) : ∃ nxt, execAttestChain c s = .next nxt ∧ s.Leads nxt := by
  unfold execAttestChain
  refine State.Leads.live ?_
  have hL := State.Leads.refl s
  repeat' first
    | with_reducible assumption
    | with_reducible apply State.draw_leads
    | with_reducible apply State.finish_leads
    | with_reducible apply State.checked_leads
    | with_reducible apply State.Leads.ite
    | with_reducible refine State.Leads.ite1 ?_ ?_
    | intro _

theorem execAttestRoll_leads (c : Command) (s : State) : ∃ nxt, execAttestRoll c s = .next nxt ∧ s.Leads nxt := by
  unfold execAttestRoll
  refine State.Leads.live ?_
  have hL := State.Leads.refl s
  repeat' first
    | with_reducible assumption
    | with_reducible apply State.defer_leads
    | with_reducible apply State.checked_leads
    | with_reducible apply State.Leads.ite
    | with_reducible refine State.Leads.ite1 ?_ ?_
    | intro _
    | fail_if_no_progress (with_reducible refine State.Leads.upd ?_ rfl rfl rfl rfl rfl rfl rfl rfl rfl rfl rfl)

/-- KEY_ROLLED leads on in all but the identity key: a rollover that succeeded raises KEY_GEN by one and begins its leaves and a
new item of the chain (R470). -/
theorem execKeyRolled_holds (ok : Bool) (s : State) : ∃ nxt, execKeyRolled ok s = .next nxt ∧ s.Keeps nxt ∧
    nxt.security.committed = s.security.committed ∧ nxt.security.hostKey = s.security.hostKey ∧
    (s.Leads nxt ∨ ok = true ∧ nxt.security.keyGen = s.security.keyGen + 1 ∧ nxt.security.nextIndex = 0 ∧
      ∃ x, nxt.security.chain = s.security.chain ++ [x]) := by
  unfold execKeyRolled State.live
  split
  · refine ⟨_, rfl, ?_⟩
    beta_reduce
    split
    · have h := State.Leads.refl s
      exact ⟨h.toKeeps, rfl, rfl, .inl h⟩
    · cases ok
      · refine ⟨State.Leads.toKeeps (State.deferredDone_leads _ _ _ (State.recordAll_leads _ _ _ (State.Leads.upd
          (State.draw_leads (State.draw_leads (State.Leads.refl s))) rfl rfl rfl rfl rfl rfl rfl rfl rfl rfl rfl))),
          ?_, ?_, .inl (State.deferredDone_leads _ _ _ (State.recordAll_leads _ _ _ (State.Leads.upd
          (State.draw_leads (State.draw_leads (State.Leads.refl s))) rfl rfl rfl rfl rfl rfl rfl rfl rfl rfl rfl)))⟩
        · simp [State.draw]
        · simp [State.draw]
      · refine ⟨((State.draw_leads (State.Leads.refl s)).toKeeps.trans (State.Keeps.security _ _)).trans
          (State.deferredDoneWith_leads _ _ _ (State.recordAll_leads _ _ _ (State.Leads.refl _))).toKeeps, ?_, ?_, .inr ?_⟩
        · simp [State.draw]
        · simp [State.draw]
        · simp [State.draw]
  · have h := State.Leads.refl s
    exact ⟨_, rfl, h.toKeeps, rfl, rfl, .inl h⟩

theorem State.setCoreEntries_leads {s0 : State} {s : State} (p : Nat) (state : Nat) (logical : Nat) (hL : s0.Leads s) :
    s0.Leads (State.setCoreEntries s p state logical) := by
  unfold State.setCoreEntries
  repeat' first
    | with_reducible assumption
    | with_reducible apply State.setXentry_leads
    | with_reducible apply State.Leads.ite
    | with_reducible refine State.Leads.ite1 ?_ ?_
    | intro _
    | with_reducible refine State.Leads.foldl ?_ (fun _ _ _ => ?_)

theorem State.mapRow_leads {s0 : State} {s : State} (failed : List Nat) (r : Nat) (hL : s0.Leads s) :
    s0.Leads (State.mapRow s failed r) := by
  unfold State.mapRow
  repeat' first
    | with_reducible assumption
    | with_reducible apply State.setCoreEntries_leads
    | with_reducible apply State.Leads.ite
    | with_reducible refine State.Leads.ite1 ?_ ?_
    | intro _
    | with_reducible refine State.Leads.foldl ?_ (fun _ _ _ => ?_)
    | fail_if_no_progress (with_reducible refine State.Leads.upd ?_ rfl rfl rfl rfl rfl rfl rfl rfl rfl rfl rfl)

theorem State.applyRepair_leads {s0 : State} {s : State} (r : Repair) (hL : s0.Leads s) :
    s0.Leads (State.applyRepair s r) := by
  unfold State.applyRepair
  repeat' first
    | with_reducible assumption
    | with_reducible apply State.setFld_leads
    | with_reducible apply State.bump_leads
    | with_reducible apply State.setXentry_leads
    | with_reducible apply State.setCore_leads
    | with_reducible apply State.laneVerdict_leads
    | with_reducible apply State.Leads.ite
    | with_reducible refine State.Leads.ite1 ?_ ?_
    | intro _
    | fail_if_no_progress (with_reducible refine State.Leads.upd ?_ rfl rfl rfl rfl rfl rfl rfl rfl rfl rfl rfl)

theorem State.loadHomes_leads {s0 : State} {s : State} (hL : s0.Leads s) :
    s0.Leads (State.loadHomes s) := by
  unfold State.loadHomes
  repeat' first
    | with_reducible assumption
    | with_reducible apply State.loaded_leads
    | with_reducible apply State.Leads.ite
    | with_reducible refine State.Leads.ite1 ?_ ?_
    | intro _
    | fail_if_no_progress (with_reducible refine State.Leads.upd ?_ rfl rfl rfl rfl rfl rfl rfl rfl rfl rfl rfl)

theorem State.readMram_leads {s0 : State} {s : State} (f : BootFacts) (hL : s0.Leads s) :
    s0.Leads (State.readMram s f) := by
  unfold State.readMram
  repeat' first
    | with_reducible assumption
    | with_reducible apply State.csApply_leads
    | with_reducible apply State.csSetBits_leads
    | with_reducible apply State.mramCommit_leads
    | with_reducible apply State.deviceFault_leads
    | with_reducible apply State.loaded_leads
    | with_reducible apply State.Leads.ite
    | with_reducible refine State.Leads.ite1 ?_ ?_
    | intro _
    | fail_if_no_progress (with_reducible refine State.Leads.upd ?_ rfl rfl rfl rfl rfl rfl rfl rfl rfl rfl rfl)
    | with_reducible refine State.Leads.snd ?_ (by assumption)
    | with_reducible refine State.Leads.fst ?_ (by assumption)
    | extract_lets
    | split

theorem State.bootUnits_leads {s0 : State} {s : State} (f : BootFacts) (hL : s0.Leads s) :
    s0.Leads (State.bootUnits s f) := by
  unfold State.bootUnits
  repeat' first
    | with_reducible assumption
    | with_reducible apply State.setReg_leads
    | with_reducible apply State.setXentry_leads
    | with_reducible apply State.mramRepair_leads
    | with_reducible apply State.mapRow_leads
    | with_reducible apply State.applyRepair_leads
    | with_reducible apply State.loadHomes_leads
    | with_reducible apply State.Leads.ite
    | with_reducible refine State.Leads.ite1 ?_ ?_
    | intro _
    | (with_reducible refine State.Leads.foldl ?_ (fun _ _ _ => ?_) <;> beta_reduce)

theorem State.passTime_leads {s0 : State} {s : State} (upto : Nat) (grain : Nat) (hL : s0.Leads s) :
    s0.Leads (State.passTime s upto grain) := by
  unfold State.passTime
  repeat' first
    | with_reducible assumption
    | with_reducible apply State.draw_leads
    | with_reducible apply State.Leads.ite
    | with_reducible refine State.Leads.ite1 ?_ ?_
    | intro _
    | fail_if_no_progress (with_reducible refine State.Leads.upd ?_ rfl rfl rfl rfl rfl rfl rfl rfl rfl rfl rfl)

theorem State.hostLinkUp_leads {s0 : State} {s : State} (hL : s0.Leads s) :
    s0.Leads (State.hostLinkUp s) := by
  unfold State.hostLinkUp
  repeat' first
    | with_reducible assumption
    | with_reducible apply State.setFld_leads

theorem State.atPowerGood_leads {s0 s : State}  (hL : s0.Leads s) : s0.Leads (State.atPowerGood s) := by
  exact hL.trans ⟨⟨rfl, List.prefix_refl _, Nat.le_refl _, fun _ => rfl, fun _ => ⟨TMap.wf_nil _, TMap.wf_nil _⟩,
    fun _ => ⟨TMap.wf_nil _, TMap.wf_nil _, TMap.wf_nil _⟩⟩, (fun h => Bool.noConfusion h), rfl, Nat.le_max_left _ _, rfl, rfl⟩

theorem State.haltAll_leads {s0 : State} {s : State} (hL : s0.Leads s) :
    s0.Leads (State.haltAll s) := by
  unfold State.haltAll
  repeat' first
    | with_reducible assumption
    | with_reducible apply State.Leads.ite
    | with_reducible refine State.Leads.ite1 ?_ ?_
    | intro _
    | fail_if_no_progress (with_reducible refine State.Leads.upd ?_ rfl rfl rfl rfl rfl rfl rfl rfl rfl rfl rfl)

theorem State.firmwareUp_leads {s0 : State} {s : State} (hL : s0.Leads s) :
    s0.Leads (State.firmwareUp s) := by
  unfold State.firmwareUp
  repeat' first
    | with_reducible assumption
    | with_reducible apply State.setFarState_leads
    | with_reducible apply State.Leads.ite
    | with_reducible refine State.Leads.ite1 ?_ ?_
    | intro _
    | with_reducible refine State.Leads.foldl ?_ (fun _ _ _ => ?_)
    | fail_if_no_progress (with_reducible refine State.Leads.upd ?_ rfl rfl rfl rfl rfl rfl rfl rfl rfl rfl rfl)

theorem State.functionUp_leads {s0 : State} {s : State} (b : Nat) (hL : s0.Leads s) :
    s0.Leads (State.functionUp s b) := by
  unfold State.functionUp
  repeat' first
    | with_reducible assumption
    | with_reducible apply State.draw_leads
    | with_reducible apply State.setFld_leads
    | with_reducible apply State.setFarState_leads
    | with_reducible apply State.hostLinkUp_leads
    | with_reducible apply State.firmwareUp_leads
    | with_reducible apply State.Leads.ite

theorem State.enter_leads {s0 : State} {s : State} (new : DState) (cause : Nat) (moveNs : Nat) (hL : s0.Leads s) :
    s0.Leads (State.enter s new cause moveNs) := by
  unfold State.enter
  repeat' first
    | with_reducible assumption
    | with_reducible apply State.powerStateRecord_leads
    | with_reducible apply State.Leads.ite
    | with_reducible refine State.Leads.ite1 ?_ ?_
    | intro _
    | fail_if_no_progress (with_reducible refine State.Leads.upd ?_ rfl rfl rfl rfl rfl rfl rfl rfl rfl rfl rfl)

theorem State.enterDoze_leads {s0 : State} {s : State} (hL : s0.Leads s) :
    s0.Leads (State.enterDoze s) := by
  unfold State.enterDoze
  repeat' first
    | with_reducible assumption
    | with_reducible apply State.draw_leads
    | with_reducible apply State.enter_leads
    | with_reducible apply State.Leads.ite
    | with_reducible refine State.Leads.ite1 ?_ ?_
    | intro _
    | fail_if_no_progress (with_reducible refine State.Leads.upd ?_ rfl rfl rfl rfl rfl rfl rfl rfl rfl rfl rfl)

theorem State.enterSleep_leads {s0 : State} {s : State} (hL : s0.Leads s) :
    s0.Leads (State.enterSleep s) := by
  unfold State.enterSleep
  repeat' first
    | with_reducible assumption
    | with_reducible apply State.draw_leads
    | with_reducible apply State.csClearBits_leads
    | with_reducible apply State.setPort_leads
    | with_reducible apply State.portLost_leads
    | with_reducible apply State.enter_leads
    | with_reducible apply State.Leads.ite
    | with_reducible refine State.Leads.ite1 ?_ ?_
    | intro _
    | with_reducible refine State.Leads.foldl ?_ (fun _ _ _ => ?_)
    | fail_if_no_progress (with_reducible refine State.Leads.upd ?_ rfl rfl rfl rfl rfl rfl rfl rfl rfl rfl rfl)

theorem State.enterStandby_leads {s0 s : State}  (hL : s0.Leads s) : s0.Leads (State.enterStandby s) := by
  exact hL.trans ⟨⟨rfl, List.prefix_refl _, Nat.le_refl _, id, id, fun _ => ⟨TMap.wf_nil _, TMap.wf_nil _, TMap.wf_nil _⟩⟩,
    id, rfl, Nat.le_refl _, rfl, rfl⟩

theorem State.beginWake_leads {s0 : State} {s : State} (c : Command) (hL : s0.Leads s) :
    s0.Leads (State.beginWake s c) := by
  unfold State.beginWake
  repeat' first
    | with_reducible assumption
    | with_reducible apply State.defer_leads
    | with_reducible apply State.Leads.ite
    | with_reducible refine State.Leads.ite1 ?_ ?_
    | intro _
    | fail_if_no_progress (with_reducible refine State.Leads.upd ?_ rfl rfl rfl rfl rfl rfl rfl rfl rfl rfl rfl)

theorem State.dozeSettings_leads {s0 : State} {s : State} (c : Command) (hL : s0.Leads s) :
    s0.Leads (State.dozeSettings s c) := by
  unfold State.dozeSettings
  repeat' first
    | with_reducible assumption
    | with_reducible apply State.setFld_leads
    | with_reducible apply State.Leads.ite

theorem State.movePower_leads {s0 : State} {s : State} (c : Command) (hL : s0.Leads s) :
    s0.Leads (State.movePower s c) := by
  unfold State.movePower
  repeat' first
    | with_reducible assumption
    | with_reducible apply State.draw_leads
    | with_reducible apply State.finish_leads
    | with_reducible apply State.checked_leads
    | with_reducible apply State.dozeExit_leads
    | with_reducible apply State.enterDoze_leads
    | with_reducible apply State.enterSleep_leads
    | with_reducible apply State.enterStandby_leads
    | with_reducible apply State.beginWake_leads
    | with_reducible apply State.dozeSettings_leads
    | with_reducible apply State.Leads.ite
    | with_reducible refine State.Leads.ite1 ?_ ?_
    | intro _

theorem State.runMoves_leads {s0 s : State} (k : Nat) (hL : s0.Leads s) : s0.Leads (State.runMoves k s) := by
  induction k generalizing s with
  | zero => exact hL
  | succ k ih =>
    unfold State.runMoves
    repeat' first
      | with_reducible assumption
      | with_reducible apply State.movePower_leads
      | with_reducible apply ih
      | with_reducible apply State.Leads.ite
      | with_reducible refine State.Leads.ite1 ?_ ?_
      | intro _
      | fail_if_no_progress (with_reducible refine State.Leads.upd ?_ rfl rfl rfl rfl rfl rfl rfl rfl rfl rfl rfl)
      | with_reducible refine State.Leads.snd ?_ (by assumption)
      | with_reducible refine State.Leads.fst ?_ (by assumption)
      | extract_lets
      | split

theorem State.endWake_leads {s0 : State} {s : State} (hL : s0.Leads s) :
    s0.Leads (State.endWake s) := by
  unfold State.endWake
  repeat' first
    | with_reducible assumption
    | with_reducible apply State.deferredDoneWith_leads
    | with_reducible apply State.enter_leads
    | with_reducible apply State.runMoves_leads
    | with_reducible apply State.Leads.ite
    | with_reducible refine State.Leads.ite1 ?_ ?_
    | intro _
    | fail_if_no_progress (with_reducible refine State.Leads.upd ?_ rfl rfl rfl rfl rfl rfl rfl rfl rfl rfl rfl)
    | with_reducible refine State.Leads.snd ?_ (by assumption)
    | with_reducible refine State.Leads.fst ?_ (by assumption)
    | extract_lets
    | split

theorem State.idle_leads {s0 : State} {s : State} (hL : s0.Leads s) :
    s0.Leads (State.idle s) := by
  unfold State.idle
  repeat' first
    | with_reducible assumption
    | with_reducible apply State.tick_leads
    | with_reducible apply State.Leads.ite
    | with_reducible refine State.Leads.ite1 ?_ ?_
    | intro _
    | fail_if_no_progress (with_reducible refine State.Leads.upd ?_ rfl rfl rfl rfl rfl rfl rfl rfl rfl rfl rfl)

theorem execPwrGood_leads (f : BootFacts) (s : State) : ∃ t, execPwrGood f s = .next t ∧ s.Leads t := by
  refine ⟨_, rfl, ?_⟩
  have hL := State.Leads.refl s
  repeat' first
    | with_reducible assumption
    | with_reducible apply State.Leads.ite
    | with_reducible apply State.csSetBits_leads
    | with_reducible apply State.hostLinkUp_leads
    | with_reducible apply State.passTime_leads
    | with_reducible apply State.bootUnits_leads
    | with_reducible apply State.readMram_leads
    | with_reducible apply State.atPowerGood_leads
    | fail_if_no_progress (with_reducible refine State.Leads.upd ?_ rfl rfl rfl rfl rfl rfl rfl rfl rfl rfl rfl)

theorem execPwrGoodDeassert_leads (s : State) : ∃ t, execPwrGoodDeassert s = .next t ∧ s.Leads t :=
  ⟨_, rfl, State.Leads.upd (State.Leads.refl s) rfl rfl rfl rfl rfl rfl rfl rfl rfl rfl rfl⟩

theorem execRailFault_leads  (s : State) : ∃ nxt, execRailFault s = .next nxt ∧ s.Leads nxt := by
  unfold execRailFault
  refine State.Leads.live ?_
  have hL := State.Leads.refl s
  repeat' first
    | with_reducible assumption
    | with_reducible apply State.haltAll_leads

theorem execThermalTrip_leads  (s : State) : ∃ nxt, execThermalTrip s = .next nxt ∧ s.Leads nxt := by
  unfold execThermalTrip
  refine State.Leads.live ?_
  have hL := State.Leads.refl s
  repeat' first
    | with_reducible assumption
    | with_reducible apply State.haltAll_leads

theorem execPowerStateSet_leads (c : Command) (s : State) : ∃ nxt, execPowerStateSet c s = .next nxt ∧ s.Leads nxt := by
  unfold execPowerStateSet
  refine State.Leads.live ?_
  have hL := State.Leads.refl s
  repeat' first
    | with_reducible assumption
    | with_reducible apply State.movePower_leads
    | with_reducible apply State.Leads.ite
    | with_reducible refine State.Leads.ite1 ?_ ?_
    | intro _
    | fail_if_no_progress (with_reducible refine State.Leads.upd ?_ rfl rfl rfl rfl rfl rfl rfl rfl rfl rfl rfl)

theorem execFunctionReady_leads (b : Nat) (s : State) : ∃ nxt, execFunctionReady b s = .next nxt ∧ s.Leads nxt := by
  unfold execFunctionReady
  refine State.Leads.live ?_
  have hL := State.Leads.refl s
  repeat' first
    | with_reducible assumption
    | with_reducible apply State.csSetBits_leads
    | with_reducible apply State.onlyIf_leads
    | with_reducible apply State.functionUp_leads
    | with_reducible apply State.endWake_leads
    | with_reducible apply State.Leads.ite
    | with_reducible refine State.Leads.ite1 ?_ ?_
    | intro _
    | fail_if_no_progress (with_reducible refine State.Leads.upd ?_ rfl rfl rfl rfl rfl rfl rfl rfl rfl rfl rfl)

theorem execFunctionStopsBeingUsable_leads (b : Nat) (s : State) : ∃ nxt, execFunctionStopsBeingUsable b s = .next nxt
    ∧ s.Leads nxt := by
  unfold execFunctionStopsBeingUsable
  refine State.Leads.live ?_
  have hL := State.Leads.refl s
  repeat' first
    | with_reducible assumption
    | with_reducible apply State.logError_leads
    | with_reducible apply State.csDrop_leads
    | with_reducible apply State.onlyIf_leads
    | with_reducible apply State.Leads.ite
    | with_reducible refine State.Leads.ite1 ?_ ?_
    | intro _

theorem execDozeEntry_leads  (s : State) : ∃ nxt, execDozeEntry s = .next nxt ∧ s.Leads nxt := by
  unfold execDozeEntry
  refine State.Leads.live ?_
  have hL := State.Leads.refl s
  repeat' first
    | with_reducible assumption
    | with_reducible apply State.onlyIf_leads
    | with_reducible apply State.enterDoze_leads

theorem execHostPortEnergyWake_leads (f : BootFacts) (s : State) :
    ∃ t, execHostPortEnergyWake f s = .next t ∧ s.Leads t := by
  refine State.Leads.live (State.onlyIf_leads _ _ (State.Leads.refl s) (fun _ hL => ?_))
  extract_lets ok _ _ _ _ u start
  have h : State.Leads _ u := hL.updw rfl id id (fun h => (Bool.and_eq_true_iff.1 h).1) rfl (Nat.le_max_left _ _) rfl rfl
  clear_value u
  repeat' first
    | with_reducible assumption
    | with_reducible apply State.enter_leads
    | with_reducible apply State.passTime_leads
    | with_reducible apply State.bootUnits_leads
    | with_reducible apply State.readMram_leads
    | fail_if_no_progress (with_reducible refine State.Leads.upd ?_ rfl rfl rfl rfl rfl rfl rfl rfl rfl rfl rfl)

theorem execReadDrainComplete_leads (chain : Bool) (id : Nat) (discarded : Nat) (s : State)
    : ∃ nxt, execReadDrainComplete chain id discarded s = .next nxt ∧ s.Leads nxt := by
  unfold execReadDrainComplete
  refine State.Leads.live ?_
  have hL := State.Leads.refl s
  repeat' first
    | with_reducible assumption
    | with_reducible apply State.streamDrained_leads
    | with_reducible apply State.chainDrained_leads
    | with_reducible apply State.Leads.ite

theorem State.readBitstream_leads {s0 : State} {s : State} (d : Decode) (e : Nat) (first : Nat) (last : Nat) (hL : s0.Leads s) :
    s0.Leads (State.readBitstream s d e first last).2 := by
  unfold State.readBitstream
  repeat' first
    | with_reducible assumption
    | with_reducible apply State.vtouch_leads
    | with_reducible apply State.vfault_leads
    | with_reducible apply State.Leads.ite
    | with_reducible refine State.Leads.ite1 ?_ ?_
    | intro _
    | fail_if_no_progress (with_reducible refine State.Leads.upd ?_ rfl rfl rfl rfl rfl rfl rfl rfl rfl rfl rfl)
    | with_reducible refine State.Leads.snd ?_ (by assumption)
    | with_reducible refine State.Leads.fst ?_ (by assumption)
    | extract_lets
    | split

theorem State.decodeWrite_leads {s0 : State} {s : State} (d : Decode) (e : Nat) (va : Nat) (data : List Byte) (hL
    : s0.Leads s) :
    s0.Leads (State.decodeWrite s d e va data).2 := by
  unfold State.decodeWrite
  repeat' first
    | with_reducible assumption
    | with_reducible apply State.vwrite_leads
    | with_reducible apply State.farFault_leads
    | with_reducible apply State.Leads.ite
    | with_reducible refine State.Leads.ite1 ?_ ?_
    | intro _
    | fail_if_no_progress (with_reducible refine State.Leads.upd ?_ rfl rfl rfl rfl rfl rfl rfl rfl rfl rfl rfl)
    | with_reducible refine State.Leads.snd ?_ (by assumption)
    | with_reducible refine State.Leads.fst ?_ (by assumption)
    | extract_lets
    | split

theorem State.decodeFrame_leads {s0 : State} (d : Decode) (e : Nat) (r : DecodeOutcome) (acc : State × DecodeRun)
    (f : DecodedFrame) (hL : s0.Leads acc.1) : s0.Leads (State.decodeFrame d e r acc f).1 := by
  obtain ⟨s, x⟩ := acc
  have h1 := State.readBitstream_leads d e x.used f.used hL
  unfold State.decodeFrame
  extract_lets c size
  dsimp only
  refine State.Leads.ite1 hL ?_
  · split <;> rename_i heq <;> rw [heq] at h1
    · exact h1
    · have hw : ∀ a l {u : State}, s0.Leads u → s0.Leads (u.decodeWrite d e a l).2 :=
        fun a l _ h => State.decodeWrite_leads d e a l h
      repeat' first
        | with_reducible assumption
        | with_reducible apply hw
        | with_reducible refine State.Leads.ite1 ?_ ?_
        | with_reducible refine State.Leads.ite2 ?_ ?_
        | with_reducible refine State.Leads.snd ?_ (by assumption)
        | split

theorem execIntakeDecode_leads (c : Command) (s : State) : ∃ nxt, execIntakeDecode c s = .next nxt ∧ s.Leads nxt := by
  unfold execIntakeDecode
  refine State.Leads.live ?_
  have hL := State.Leads.refl s
  repeat' first
    | with_reducible assumption
    | with_reducible apply State.checked_leads
    | with_reducible apply State.setDecodes_leads
    | with_reducible apply State.Leads.ite
    | with_reducible refine State.Leads.ite1 ?_ ?_
    | intro _

theorem execIntakeDecodeComplete_leads (e : Nat) (r : DecodeOutcome) (s : State)
    : ∃ nxt, execIntakeDecodeComplete e r s = .next nxt ∧ s.Leads nxt := by
  unfold execIntakeDecodeComplete
  refine State.Leads.live ?_
  have hL := State.Leads.refl s
  repeat' first
    | with_reducible assumption
    | with_reducible apply State.setReg_leads
    | with_reducible apply State.bump_leads
    | with_reducible apply State.finish_leads
    | with_reducible apply State.badParam_leads
    | with_reducible apply State.setDecodes_leads
    | with_reducible apply State.setStream_leads
    | with_reducible apply State.decodeFrame_leads
    | with_reducible apply State.Leads.ite
    | with_reducible refine State.Leads.ite1 ?_ ?_
    | intro _
    | with_reducible refine State.Leads.foldl1 ?_ (fun _ _ _ => ?_)
    | fail_if_no_progress (with_reducible refine State.Leads.upd ?_ rfl rfl rfl rfl rfl rfl rfl rfl rfl rfl rfl)
    | with_reducible refine State.Leads.snd ?_ (by assumption)
    | with_reducible refine State.Leads.fst ?_ (by assumption)
    | extract_lets
    | split

theorem execIntakeStatus_leads (c : Command) (s : State) : ∃ nxt, execIntakeStatus c s = .next nxt ∧ s.Leads nxt := by
  unfold execIntakeStatus
  refine State.Leads.live ?_
  have hL := State.Leads.refl s
  repeat' first
    | with_reducible assumption
    | with_reducible apply State.finish_leads
    | with_reducible apply State.checked_leads
    | with_reducible apply State.Leads.ite
    | with_reducible refine State.Leads.ite1 ?_ ?_
    | intro _

theorem State.writeField_leads {s0 : State} {s : State} (u : Nat) (off : Nat) (v : Nat) (f : RegField) (hL : s0.Leads s) :
    s0.Leads (State.writeField s u off v f) := by
  unfold State.writeField
  repeat' first
    | with_reducible assumption
    | with_reducible apply State.setFld_leads
    | with_reducible apply State.writeLive_leads
    | with_reducible apply State.Leads.ite
    | with_reducible refine State.Leads.ite1 ?_ ?_
    | intro _
    | fail_if_no_progress (with_reducible refine State.Leads.upd ?_ rfl rfl rfl rfl rfl rfl rfl rfl rfl rfl rfl)
    | with_reducible refine State.Leads.snd ?_ (by assumption)
    | with_reducible refine State.Leads.fst ?_ (by assumption)
    | extract_lets
    | split

theorem execXancaRead_leads (c : Command) (s : State) : ∃ nxt, execXancaRead c s = .next nxt ∧ s.Leads nxt := by
  unfold execXancaRead
  refine State.Leads.live ?_
  have hL := State.Leads.refl s
  repeat' first
    | with_reducible assumption
    | with_reducible apply State.finish_leads
    | with_reducible apply State.checked_leads
    | with_reducible apply State.Leads.ite
    | with_reducible refine State.Leads.ite1 ?_ ?_
    | intro _

theorem execCallsheetRead_leads (c : Command) (s : State) : ∃ nxt, execCallsheetRead c s = .next nxt ∧ s.Leads nxt := by
  unfold execCallsheetRead
  refine State.Leads.live ?_
  have hL := State.Leads.refl s
  repeat' first
    | with_reducible assumption
    | with_reducible apply State.finish_leads
    | with_reducible apply State.defer_leads
    | with_reducible apply State.checked_leads
    | with_reducible apply State.Leads.ite
    | with_reducible refine State.Leads.ite1 ?_ ?_
    | intro _
    | fail_if_no_progress (with_reducible refine State.Leads.upd ?_ rfl rfl rfl rfl rfl rfl rfl rfl rfl rfl rfl)

theorem execCallsheetWaitTimeout_leads (i : Nat) (s : State) : ∃ nxt, execCallsheetWaitTimeout i s = .next nxt
    ∧ s.Leads nxt := by
  unfold execCallsheetWaitTimeout
  refine State.Leads.live ?_
  have hL := State.Leads.refl s
  repeat' first
    | with_reducible assumption
    | with_reducible apply State.deferredDone_leads
    | with_reducible apply State.onlyIf_leads
    | with_reducible apply State.Leads.ite
    | with_reducible refine State.Leads.ite1 ?_ ?_
    | intro _
    | fail_if_no_progress (with_reducible refine State.Leads.upd ?_ rfl rfl rfl rfl rfl rfl rfl rfl rfl rfl rfl)
    | with_reducible refine State.Leads.snd ?_ (by assumption)
    | with_reducible refine State.Leads.fst ?_ (by assumption)
    | extract_lets
    | split

theorem execCallsheetDeadline_leads (b : Nat) (s : State) : ∃ nxt, execCallsheetDeadline b s = .next nxt ∧ s.Leads nxt := by
  unfold execCallsheetDeadline
  refine State.Leads.live ?_
  have hL := State.Leads.refl s
  repeat' first
    | with_reducible assumption
    | with_reducible apply State.logError_leads
    | with_reducible apply State.csApply_leads
    | with_reducible apply State.onlyIf_leads
    | with_reducible apply State.Leads.ite
    | with_reducible refine State.Leads.ite1 ?_ ?_
    | intro _
    | fail_if_no_progress (with_reducible refine State.Leads.upd ?_ rfl rfl rfl rfl rfl rfl rfl rfl rfl rfl rfl)

theorem execRegisterWrite_leads (unit : Nat) (offset : Nat) (value : Nat) (s : State)
    : ∃ nxt, execRegisterWrite unit offset value s = .next nxt ∧ s.Leads nxt := by
  unfold execRegisterWrite
  refine State.Leads.live ?_
  have hL := State.Leads.refl s
  repeat' first
    | with_reducible assumption
    | with_reducible apply State.onlyIf_leads
    | with_reducible apply State.writeField_leads
    | with_reducible apply State.Leads.ite
    | with_reducible refine State.Leads.ite1 ?_ ?_
    | intro _
    | with_reducible refine State.Leads.foldl ?_ (fun _ _ _ => ?_)

theorem execBadRegisterAccess_leads (addr : Nat) (size : Nat) (write : Bool) (s : State)
    : ∃ nxt, execBadRegisterAccess addr size write s = .next nxt ∧ s.Leads nxt := by
  unfold execBadRegisterAccess
  refine State.Leads.live ?_
  have hL := State.Leads.refl s
  repeat' first
    | with_reducible assumption
    | with_reducible apply State.logError_leads
    | with_reducible apply State.onlyIf_leads
    | with_reducible apply State.Leads.ite
    | with_reducible refine State.Leads.ite1 ?_ ?_
    | intro _

end Sys2Proof.Machine
end

