-- ==== Sys2Proof/Laws/Still.lean ====
section
/-! SUPPORT. Two states hold the same memory: what a command that stores nothing keeps. The files StillOps to StillRest say of each
operation that stores nothing that the memory stands still, and of each such command that it answers a next state. -/

namespace Sys2Proof.Machine

/-- Every byte and poison mark of the two tiers, and every byte, tag and poison mark of the scratchpads, is as it was. -/
structure State.Still (s t : State) : Prop where
  bytes : t.memory.bytes = s.memory.bytes
  poison : t.memory.poison = s.memory.poison
  lines : t.spads.bytes = s.spads.bytes
  full : t.spads.full = s.spads.full
  marks : t.spads.poison = s.spads.poison

namespace State.Still
variable {s0 s t : State}

theorem refl (s : State) : Still s s := ⟨rfl, rfl, rfl, rfl, rfl⟩

theorem trans {a b c : State} (h : Still a b) (g : Still b c) : Still a c :=
  ⟨g.bytes.trans h.bytes, g.poison.trans h.poison, g.lines.trans h.lines, g.full.trans h.full, g.marks.trans h.marks⟩

theorem upd {pending : List Instr} {umauth : Umauth} {xanca : Xanca} {timecode : Timecode} {diag : Diag} {security
    : Security} {cores : Cores} {sched : Sched} {fabric : Fabric} {spads : Spads} {conts : Conts} {streams : Streams}
    {reels : Reels} {memory : Memory} {resil : Resil} {flume : Flume} {attn : Attn} {hostPort : HostPort} {power : Power} {pins : Pins} {powered : Bool} {regs : TMap Nat} {outputs : List Output} {fresh : Nat}
    (h : Still s0 s) (h1 : memory.bytes = s.memory.bytes) (h2 : memory.poison = s.memory.poison)
    (h3 : spads.bytes = s.spads.bytes) (h4 : spads.full = s.spads.full) (h5 : spads.poison = s.spads.poison) :
    Still s0 (State.mk pending umauth xanca timecode diag security cores sched fabric spads conts streams reels memory resil flume attn hostPort power pins powered regs outputs fresh) :=
  h.trans ⟨h1, h2, h3, h4, h5⟩

theorem foldl {α} {f : State → α → State} {l : List α} (h : Still s0 s) (hf : ∀ s a, Still s0 s → Still s0 (f s a))
    : Still s0 (l.foldl f s) := by
  induction l generalizing s with
  | nil => exact h
  | cons a l ih => exact ih (hf _ _ h)

theorem ite {c : Prop} [Decidable c] {a b : State} (ha : Still s0 a) (hb : Still s0 b) : Still s0 (if c then a else b) := by
  split <;> assumption

theorem ite1 {α} {c : Prop} [Decidable c] {a b : State × α} (ha : Still s0 a.1) (hb : Still s0 b.1) :
    Still s0 (if c then a else b).1 := by
  split <;> assumption

theorem ite2 {α} {c : Prop} [Decidable c] {a b : α × State} (ha : Still s0 a.2) (hb : Still s0 b.2) :
    Still s0 (if c then a else b).2 := by
  split <;> assumption

theorem fst {α} {p : State × α} {t : State} {a : α} (h : Still s0 p.1) (e : p = (t, a)) : Still s0 t := by subst e; exact h

theorem snd {α} {p : α × State} {t : State} {a : α} (h : Still s0 p.2) (e : p = (a, t)) : Still s0 t := by subst e; exact h

theorem foldl1 {α β} {f : State × β → α → State × β} {l : List α} {p : State × β} (h : Still s0 p.1)
    (hf : ∀ p a, Still s0 p.1 → Still s0 (f p a).1) : Still s0 (l.foldl f p).1 := by
  induction l generalizing p with
  | nil => exact h
  | cons a l ih => exact ih (hf _ _ h)

theorem foldl2 {α β} {f : β × State → α → β × State} {l : List α} {p : β × State} (h : Still s0 p.2)
    (hf : ∀ p a, Still s0 p.2 → Still s0 (f p a).2) : Still s0 (l.foldl f p).2 := by
  induction l generalizing p with
  | nil => exact h
  | cons a l ih => exact ih (hf _ _ h)
/-- What a live meaning does where its effect stands still. -/
theorem live {f : State → State} (hf : Still s (f s)) : ∃ t, s.live f = .next t ∧ Still s t := by
  unfold State.live
  split
  · exact ⟨_, rfl, hf⟩
  · exact ⟨_, rfl, refl s⟩
end State.Still

end Sys2Proof.Machine
end

