-- ==== Sys2Proof/Laws/StillOps.lean ====
section
/-! SUPPORT. What leaves every memory as it is: the shared operations, power and the transport. -/

namespace Sys2Proof.Machine

theorem State.stampAt_still {s0 : State} {s : State} (u : Nat) (ns : Nat) (hL : s0.Still s) :
    s0.Still (State.stampAt s u ns).2 := by
  unfold State.stampAt
  repeat' first
    | with_reducible assumption
    | with_reducible apply State.Still.ite
    | with_reducible refine State.Still.ite1 ?_ ?_
    | intro _
    | fail_if_no_progress (with_reducible refine State.Still.upd ?_ rfl rfl rfl rfl rfl)

theorem State.stamp_still {s0 : State} {s : State} (u : Nat) (hL : s0.Still s) :
    s0.Still (State.stamp s u).2 := by
  unfold State.stamp
  repeat' first
    | with_reducible assumption
    | with_reducible apply State.stampAt_still

theorem State.draw_still {s0 : State} {s : State} (hL : s0.Still s) :
    s0.Still (State.draw s).2 := by
  unfold State.draw
  repeat' first
    | with_reducible assumption
    | with_reducible apply State.Still.ite
    | with_reducible refine State.Still.ite1 ?_ ?_
    | intro _
    | fail_if_no_progress (with_reducible refine State.Still.upd ?_ rfl rfl rfl rfl rfl)

theorem State.setReg_still {s0 : State} {s : State} (u : Nat) (off : Nat) (v : Nat) (hL : s0.Still s) :
    s0.Still (State.setReg s u off v) := by
  unfold State.setReg
  repeat' first
    | with_reducible assumption
    | with_reducible apply State.Still.ite
    | with_reducible refine State.Still.ite1 ?_ ?_
    | intro _
    | fail_if_no_progress (with_reducible refine State.Still.upd ?_ rfl rfl rfl rfl rfl)

theorem State.setFld_still {s0 : State} {s : State} (u : Nat) (off : Nat) (hi : Nat) (lo : Nat) (v : Nat) (hL : s0.Still s) :
    s0.Still (State.setFld s u off hi lo v) := by
  unfold State.setFld
  repeat' first
    | with_reducible assumption
    | with_reducible apply State.setReg_still

theorem State.bump_still {s0 : State} {s : State} (u : Nat) (off : Nat) (hi : Nat) (lo : Nat) (n : Nat) (hL : s0.Still s) :
    s0.Still (State.bump s u off hi lo n) := by
  unfold State.bump
  repeat' first
    | with_reducible assumption
    | with_reducible apply State.setFld_still

theorem State.setSession_still {s0 : State} {s : State} (n : Nat) (x : Session) (hL : s0.Still s) :
    s0.Still (State.setSession s n x) := by
  unfold State.setSession
  repeat' first
    | with_reducible assumption
    | with_reducible apply State.Still.ite
    | with_reducible refine State.Still.ite1 ?_ ?_
    | intro _
    | fail_if_no_progress (with_reducible refine State.Still.upd ?_ rfl rfl rfl rfl rfl)

theorem State.setQueue_still {s0 : State} {s : State} (k : Nat) (q : Queue) (hL : s0.Still s) :
    s0.Still (State.setQueue s k q) := by
  unfold State.setQueue
  repeat' first
    | with_reducible assumption
    | with_reducible apply State.Still.ite
    | with_reducible refine State.Still.ite1 ?_ ?_
    | intro _
    | fail_if_no_progress (with_reducible refine State.Still.upd ?_ rfl rfl rfl rfl rfl)

theorem State.emit_still {s0 : State} {s : State} (o : Output) (hL : s0.Still s) :
    s0.Still (State.emit s o) := by
  unfold State.emit
  repeat' first
    | with_reducible assumption
    | with_reducible apply State.Still.ite
    | with_reducible refine State.Still.ite1 ?_ ?_
    | intro _
    | fail_if_no_progress (with_reducible refine State.Still.upd ?_ rfl rfl rfl rfl rfl)

theorem State.sendDatagram_still {s0 : State} {s : State} (n : Nat) (kind : Nat) (tseq : Nat) (body : List Byte) (m
    : Option Msg) (hL : s0.Still s) :
    s0.Still (State.sendDatagram s n kind tseq body m) := by
  unfold State.sendDatagram
  repeat' first
    | with_reducible assumption
    | with_reducible apply State.emit_still

theorem State.transmit_still {s0 : State} {s : State} (n : Nat) (mid : Nat) (m : Msg) (hL : s0.Still s) :
    s0.Still (State.transmit s n mid m) := by
  unfold State.transmit
  repeat' first
    | with_reducible assumption
    | with_reducible apply State.setSession_still
    | with_reducible apply State.sendDatagram_still

theorem State.sendOn_still {s0 : State} {s : State} (n : Nat) (mid : Nat) (m : Msg) (hL : s0.Still s) :
    s0.Still (State.sendOn s n mid m) := by
  unfold State.sendOn
  repeat' first
    | with_reducible assumption
    | with_reducible apply State.setSession_still
    | with_reducible apply State.transmit_still
    | with_reducible apply State.Still.ite

theorem State.pump_still {s0 s : State} (k n : Nat) (hL : s0.Still s) : s0.Still (State.pump k s n) := by
  induction k generalizing s with
  | zero => exact hL
  | succ k ih =>
    unfold State.pump
    repeat' first
      | with_reducible assumption
      | with_reducible apply State.setSession_still
      | with_reducible apply State.transmit_still
      | with_reducible apply ih
      | with_reducible apply State.Still.ite
      | with_reducible refine State.Still.ite1 ?_ ?_
      | intro _
      | fail_if_no_progress (with_reducible refine State.Still.upd ?_ rfl rfl rfl rfl rfl)
      | with_reducible refine State.Still.snd ?_ (by assumption)
      | with_reducible refine State.Still.fst ?_ (by assumption)
      | extract_lets
      | split

theorem State.postTo_still {s0 : State} {s : State} (k : Nat) (m : Msg) (hL : s0.Still s) :
    s0.Still (State.postTo s k m) := by
  unfold State.postTo
  repeat' first
    | with_reducible assumption
    | with_reducible apply State.setQueue_still
    | with_reducible apply State.sendOn_still
    | with_reducible apply State.Still.ite
    | with_reducible refine State.Still.ite1 ?_ ?_
    | intro _
    | fail_if_no_progress (with_reducible refine State.Still.upd ?_ rfl rfl rfl rfl rfl)

theorem State.post_still {s0 : State} {s : State} (h : CmdHdr) (m : Msg) (hL : s0.Still s) :
    s0.Still (State.post s h m) := by
  unfold State.post
  repeat' first
    | with_reducible assumption
    | with_reducible apply State.postTo_still
    | with_reducible apply State.Still.ite
    | with_reducible refine State.Still.ite1 ?_ ?_
    | intro _
    | with_reducible refine State.Still.foldl ?_ (fun _ _ _ => ?_)
    | fail_if_no_progress (with_reducible refine State.Still.upd ?_ rfl rfl rfl rfl rfl)

theorem State.recordCmd_still {s0 : State} {s : State} (h : CmdHdr) (type : Nat) (status : Nat) (body : List Byte) (hL
    : s0.Still s) :
    s0.Still (State.recordCmd s h type status body) := by
  unfold State.recordCmd
  repeat' first
    | with_reducible assumption
    | with_reducible apply State.post_still

theorem State.recordAll_still {s0 : State} {s : State} (type : Nat) (status : Nat) (body : List Byte) (hL : s0.Still s) :
    s0.Still (State.recordAll s type status body) := by
  unfold State.recordAll
  repeat' first
    | with_reducible assumption
    | with_reducible apply State.postTo_still
    | with_reducible apply State.Still.ite
    | with_reducible refine State.Still.ite1 ?_ ?_
    | intro _
    | with_reducible refine State.Still.foldl ?_ (fun _ _ _ => ?_)

theorem State.complete_still {s0 : State} {s : State} (h : CmdHdr) (hL : s0.Still s) :
    s0.Still (State.complete s h) := by
  unfold State.complete
  repeat' first
    | with_reducible assumption
    | with_reducible apply State.setQueue_still
    | with_reducible apply State.Still.ite
    | with_reducible refine State.Still.ite1 ?_ ?_
    | intro _
    | fail_if_no_progress (with_reducible refine State.Still.upd ?_ rfl rfl rfl rfl rfl)

theorem State.damage_still {s0 : State} {s : State} (slot : Nat) (hL : s0.Still s) :
    s0.Still (State.damage s slot) := by
  unfold State.damage
  repeat' first
    | with_reducible assumption
    | with_reducible apply State.Still.ite
    | with_reducible refine State.Still.ite1 ?_ ?_
    | intro _
    | fail_if_no_progress (with_reducible refine State.Still.upd ?_ rfl rfl rfl rfl rfl)

theorem State.damagedBy_still {s0 : State} {s : State} (h : CmdHdr) (status : Nat) (hL : s0.Still s) :
    s0.Still (State.damagedBy s h status) := by
  unfold State.damagedBy
  repeat' first
    | with_reducible assumption
    | with_reducible apply State.damage_still
    | with_reducible apply State.Still.ite
    | with_reducible refine State.Still.ite1 ?_ ?_
    | intro _
    | fail_if_no_progress (with_reducible refine State.Still.upd ?_ rfl rfl rfl rfl rfl)
    | with_reducible refine State.Still.snd ?_ (by assumption)
    | with_reducible refine State.Still.fst ?_ (by assumption)
    | extract_lets
    | split

theorem State.finish_still {s0 : State} {s : State} (c : Command) (status : Nat) (detail : Nat) (result : List Byte)
    (hL : s0.Still s) :
    s0.Still (State.finish s c status detail result) := by
  unfold State.finish
  repeat' first
    | with_reducible assumption
    | with_reducible apply State.post_still
    | with_reducible apply State.complete_still
    | with_reducible apply State.damagedBy_still
    | with_reducible apply State.Still.ite

theorem State.badParam_still {s0 : State} {s : State} (c : Command) (off : Nat) (hL : s0.Still s) :
    s0.Still (State.badParam s c off) := by
  unfold State.badParam
  repeat' first
    | with_reducible assumption
    | with_reducible apply State.finish_still

theorem State.defer_still {s0 : State} {s : State} (c : Command) (detail : Nat) (result : List Byte) (hL : s0.Still s) :
    s0.Still (State.defer s c detail result) := by
  unfold State.defer
  repeat' first
    | with_reducible assumption
    | with_reducible apply State.post_still

theorem State.deferredDoneWith_still {s0 : State} {s : State} (h : CmdHdr) (status : Nat) (body : List Byte) (hL : s0.Still s) :
    s0.Still (State.deferredDoneWith s h status body) := by
  unfold State.deferredDoneWith
  repeat' first
    | with_reducible assumption
    | with_reducible apply State.post_still
    | with_reducible apply State.complete_still
    | with_reducible apply State.damagedBy_still

theorem State.deferredDone_still {s0 : State} {s : State} (h : CmdHdr) (status : Nat) (detail : Nat) (hL : s0.Still s) :
    s0.Still (State.deferredDone s h status detail) := by
  unfold State.deferredDone
  repeat' first
    | with_reducible assumption
    | with_reducible apply State.deferredDoneWith_still

theorem State.checked_still {s0 : State} {s : State} (c : Command) (checks : List Check) (effect : State → State) (hL
    : s0.Still s) (h_effect : ∀ (x0 : State), s0.Still x0 → s0.Still (effect x0)) :
    s0.Still (State.checked s c checks effect) := by
  unfold State.checked
  repeat' first
    | with_reducible assumption
    | with_reducible apply h_effect
    | with_reducible apply State.finish_still
    | with_reducible apply State.Still.ite
    | with_reducible refine State.Still.ite1 ?_ ?_
    | intro _
    | fail_if_no_progress (with_reducible refine State.Still.upd ?_ rfl rfl rfl rfl rfl)
    | with_reducible refine State.Still.snd ?_ (by assumption)
    | with_reducible refine State.Still.fst ?_ (by assumption)
    | extract_lets
    | split

theorem State.setXentry_still {s0 : State} {s : State} (u : Nat) (e : XEntry) (hL : s0.Still s) :
    s0.Still (State.setXentry s u e) := by
  unfold State.setXentry
  repeat' first
    | with_reducible assumption
    | with_reducible apply State.Still.ite
    | with_reducible refine State.Still.ite1 ?_ ?_
    | intro _
    | fail_if_no_progress (with_reducible refine State.Still.upd ?_ rfl rfl rfl rfl rfl)

theorem State.xancaChange_still {s0 : State} {s : State} (changes : List (Nat × XEntry)) (hL : s0.Still s) :
    s0.Still (State.xancaChange s changes) := by
  unfold State.xancaChange
  repeat' first
    | with_reducible assumption
    | with_reducible apply State.recordAll_still
    | with_reducible apply State.setXentry_still
    | with_reducible apply State.Still.ite
    | with_reducible refine State.Still.ite1 ?_ ?_
    | intro _
    | with_reducible refine State.Still.foldl ?_ (fun _ _ _ => ?_)
    | fail_if_no_progress (with_reducible refine State.Still.upd ?_ rfl rfl rfl rfl rfl)

theorem State.csReport_still {s0 : State} {s : State} (b : Nat) (failure : Bool) (hL : s0.Still s) :
    s0.Still (State.csReport s b failure) := by
  unfold State.csReport
  repeat' first
    | with_reducible assumption
    | with_reducible apply State.recordAll_still
    | with_reducible apply State.Still.ite
    | with_reducible refine State.Still.ite1 ?_ ?_
    | intro _
    | fail_if_no_progress (with_reducible refine State.Still.upd ?_ rfl rfl rfl rfl rfl)

theorem State.countError_still {s0 : State} {s : State} (r : ErrorReport) (hL : s0.Still s) :
    s0.Still (State.countError s r) := by
  unfold State.countError
  repeat' first
    | with_reducible assumption
    | with_reducible apply State.setFld_still
    | with_reducible apply State.Still.ite
    | with_reducible refine State.Still.ite1 ?_ ?_
    | intro _
    | fail_if_no_progress (with_reducible refine State.Still.upd ?_ rfl rfl rfl rfl rfl)

theorem State.logEntry_still {s0 : State} {s : State} (r : ErrorReport) (dtc : Stamp) (outcome : Nat) (hL : s0.Still s) :
    s0.Still (State.logEntry s r dtc outcome) := by
  unfold State.logEntry
  repeat' first
    | with_reducible assumption
    | with_reducible apply State.stamp_still
    | with_reducible apply State.recordAll_still
    | with_reducible apply State.Still.ite
    | with_reducible refine State.Still.ite1 ?_ ?_
    | intro _
    | fail_if_no_progress (with_reducible refine State.Still.upd ?_ rfl rfl rfl rfl rfl)

theorem State.logError_still {s0 : State} {s : State} (r : ErrorReport) (hL : s0.Still s) :
    s0.Still (State.logError s r) := by
  unfold State.logError
  repeat' first
    | with_reducible assumption
    | with_reducible apply State.stamp_still
    | with_reducible apply State.countError_still
    | with_reducible apply State.logEntry_still
    | with_reducible apply State.Still.ite
    | with_reducible refine State.Still.ite1 ?_ ?_
    | intro _
    | fail_if_no_progress (with_reducible refine State.Still.upd ?_ rfl rfl rfl rfl rfl)
    | with_reducible refine State.Still.snd ?_ (by assumption)
    | with_reducible refine State.Still.fst ?_ (by assumption)
    | extract_lets
    | split

theorem State.csWake_still {s0 : State} {s : State} (hL : s0.Still s) :
    s0.Still (State.csWake s) := by
  unfold State.csWake
  repeat' first
    | with_reducible assumption
    | with_reducible apply State.deferredDone_still
    | with_reducible apply State.Still.ite
    | with_reducible refine State.Still.ite1 ?_ ?_
    | intro _
    | with_reducible refine State.Still.foldl ?_ (fun _ _ _ => ?_)
    | fail_if_no_progress (with_reducible refine State.Still.upd ?_ rfl rfl rfl rfl rfl)

theorem State.csApply_still {s0 : State} {s : State} (ready : Nat) (failed : Nat) (hL : s0.Still s) :
    s0.Still (State.csApply s ready failed) := by
  unfold State.csApply
  repeat' first
    | with_reducible assumption
    | with_reducible apply State.csReport_still
    | with_reducible apply State.csWake_still
    | with_reducible apply State.Still.ite
    | with_reducible refine State.Still.ite1 ?_ ?_
    | intro _
    | with_reducible refine State.Still.foldl ?_ (fun _ _ _ => ?_)
    | fail_if_no_progress (with_reducible refine State.Still.upd ?_ rfl rfl rfl rfl rfl)

theorem State.csSetBits_still {s0 : State} {s : State} (bs : List Nat) (hL : s0.Still s) :
    s0.Still (State.csSetBits s bs) := by
  unfold State.csSetBits
  repeat' first
    | with_reducible assumption
    | with_reducible apply State.csApply_still

theorem State.csClearBits_still {s0 : State} {s : State} (bs : List Nat) (hL : s0.Still s) :
    s0.Still (State.csClearBits s bs) := by
  unfold State.csClearBits
  repeat' first
    | with_reducible assumption
    | with_reducible apply State.csApply_still

theorem State.csDrop_still {s0 : State} {s : State} (b : Nat) (hL : s0.Still s) :
    s0.Still (State.csDrop s b) := by
  unfold State.csDrop
  repeat' first
    | with_reducible assumption
    | with_reducible apply State.csClearBits_still

theorem State.onlyIf_still {s0 : State} {s : State} (b : Bool) (f : State → State) (hL : s0.Still s) (h_f : ∀ (x0
    : State), s0.Still x0 → s0.Still (f x0)) :
    s0.Still (State.onlyIf s b f) := by
  unfold State.onlyIf
  repeat' first
    | with_reducible assumption
    | with_reducible apply h_f
    | with_reducible apply State.Still.ite

theorem State.rxBytes_still {s0 : State} {s : State} (n : Nat) (hL : s0.Still s) :
    s0.Still (State.rxBytes s n) := by
  unfold State.rxBytes
  repeat' first
    | with_reducible assumption
    | with_reducible apply State.draw_still
    | with_reducible apply State.bump_still

theorem State.powerStateRecord_still {s0 : State} {s : State} (old : DState) (new : DState) (cause : Nat) (moveNs : Nat)
    (hL : s0.Still s) :
    s0.Still (State.powerStateRecord s old new cause moveNs) := by
  unfold State.powerStateRecord
  repeat' first
    | with_reducible assumption
    | with_reducible apply State.recordAll_still

theorem State.dozeExit_still {s0 : State} {s : State} (cause : Nat) (hL : s0.Still s) :
    s0.Still (State.dozeExit s cause) := by
  unfold State.dozeExit
  repeat' first
    | with_reducible assumption
    | with_reducible apply State.draw_still
    | with_reducible apply State.powerStateRecord_still
    | with_reducible apply State.Still.ite
    | with_reducible refine State.Still.ite1 ?_ ?_
    | intro _
    | fail_if_no_progress (with_reducible refine State.Still.upd ?_ rfl rfl rfl rfl rfl)

theorem State.reclamp_still {s0 : State} {s : State} (hL : s0.Still s) :
    s0.Still (State.reclamp s) := by
  unfold State.reclamp
  repeat' first
    | with_reducible assumption
    | with_reducible apply State.recordAll_still
    | with_reducible apply State.Still.ite
    | with_reducible refine State.Still.ite1 ?_ ?_
    | intro _
    | fail_if_no_progress (with_reducible refine State.Still.upd ?_ rfl rfl rfl rfl rfl)

theorem State.setVoltage_still {s0 : State} {s : State} (mv : Nat) (hL : s0.Still s) :
    s0.Still (State.setVoltage s mv) := by
  unfold State.setVoltage
  repeat' first
    | with_reducible assumption
    | with_reducible apply State.emit_still
    | with_reducible apply State.Still.ite
    | with_reducible refine State.Still.ite1 ?_ ?_
    | intro _
    | fail_if_no_progress (with_reducible refine State.Still.upd ?_ rfl rfl rfl rfl rfl)

theorem State.setFrequency_still {s0 : State} {s : State} (p : Nat) (hL : s0.Still s) :
    s0.Still (State.setFrequency s p) := by
  unfold State.setFrequency
  repeat' first
    | with_reducible assumption
    | with_reducible apply State.Still.ite
    | with_reducible refine State.Still.ite1 ?_ ?_
    | intro _
    | fail_if_no_progress (with_reducible refine State.Still.upd ?_ rfl rfl rfl rfl rfl)

theorem State.lowerPoint_still {s0 : State} {s : State} (hL : s0.Still s) :
    s0.Still (State.lowerPoint s) := by
  unfold State.lowerPoint
  repeat' first
    | with_reducible assumption
    | with_reducible apply State.setVoltage_still
    | with_reducible apply State.setFrequency_still
    | with_reducible apply State.Still.ite
    | with_reducible refine State.Still.ite1 ?_ ?_
    | intro _
    | fail_if_no_progress (with_reducible refine State.Still.upd ?_ rfl rfl rfl rfl rfl)

theorem State.raisePoint_still {s0 : State} {s : State} (hL : s0.Still s) :
    s0.Still (State.raisePoint s) := by
  unfold State.raisePoint
  repeat' first
    | with_reducible assumption
    | with_reducible apply State.setVoltage_still
    | with_reducible apply State.Still.ite
    | with_reducible refine State.Still.ite1 ?_ ?_
    | intro _
    | fail_if_no_progress (with_reducible refine State.Still.upd ?_ rfl rfl rfl rfl rfl)

theorem State.setHbmTemp_still {s0 : State} {s : State} (k : Nat) (t : Nat) (hL : s0.Still s) :
    s0.Still (State.setHbmTemp s k t) := by
  unfold State.setHbmTemp
  repeat' first
    | with_reducible assumption
    | with_reducible apply State.setFld_still

theorem execPowerEstimate_still (watts : Nat) (dynamic : Nat) (s : State)
    : ∃ nxt, execPowerEstimate watts dynamic s = .next nxt ∧ s.Still nxt := by
  unfold execPowerEstimate
  refine State.Still.live ?_
  have hL := State.Still.refl s
  repeat' first
    | with_reducible assumption
    | with_reducible apply State.reclamp_still
    | with_reducible apply State.Still.ite
    | with_reducible refine State.Still.ite1 ?_ ?_
    | intro _
    | fail_if_no_progress (with_reducible refine State.Still.upd ?_ rfl rfl rfl rfl rfl)

theorem execExcursionBackstop_still  (s : State) : ∃ nxt, execExcursionBackstop s = .next nxt ∧ s.Still nxt := by
  unfold execExcursionBackstop
  refine State.Still.live ?_
  have hL := State.Still.refl s
  repeat' first
    | with_reducible assumption
    | with_reducible apply State.onlyIf_still
    | with_reducible apply State.reclamp_still
    | with_reducible apply State.Still.ite
    | with_reducible refine State.Still.ite1 ?_ ?_
    | intro _
    | fail_if_no_progress (with_reducible refine State.Still.upd ?_ rfl rfl rfl rfl rfl)

theorem execClampReleaseStep_still  (s : State) : ∃ nxt, execClampReleaseStep s = .next nxt ∧ s.Still nxt := by
  unfold execClampReleaseStep
  refine State.Still.live ?_
  have hL := State.Still.refl s
  repeat' first
    | with_reducible assumption
    | with_reducible apply State.onlyIf_still
    | with_reducible apply State.Still.ite
    | with_reducible refine State.Still.ite1 ?_ ?_
    | intro _
    | fail_if_no_progress (with_reducible refine State.Still.upd ?_ rfl rfl rfl rfl rfl)

theorem execThrotInAssert_still  (s : State) : ∃ nxt, execThrotInAssert s = .next nxt ∧ s.Still nxt := by
  unfold execThrotInAssert
  refine State.Still.live ?_
  have hL := State.Still.refl s
  repeat' first
    | with_reducible assumption
    | with_reducible apply State.onlyIf_still
    | with_reducible apply State.reclamp_still
    | with_reducible apply State.Still.ite
    | with_reducible refine State.Still.ite1 ?_ ?_
    | intro _
    | fail_if_no_progress (with_reducible refine State.Still.upd ?_ rfl rfl rfl rfl rfl)

theorem execThrotInDeassert_still  (s : State) : ∃ nxt, execThrotInDeassert s = .next nxt ∧ s.Still nxt := by
  unfold execThrotInDeassert
  refine State.Still.live ?_
  have hL := State.Still.refl s
  repeat' first
    | with_reducible assumption
    | with_reducible apply State.reclamp_still
    | with_reducible apply State.Still.ite
    | with_reducible refine State.Still.ite1 ?_ ?_
    | intro _
    | fail_if_no_progress (with_reducible refine State.Still.upd ?_ rfl rfl rfl rfl rfl)

theorem execGafferTick_still  (s : State) : ∃ nxt, execGafferTick s = .next nxt ∧ s.Still nxt := by
  unfold execGafferTick
  refine State.Still.live ?_
  have hL := State.Still.refl s
  repeat' first
    | with_reducible assumption
    | with_reducible apply State.lowerPoint_still
    | with_reducible apply State.raisePoint_still
    | with_reducible apply State.Still.ite

theorem execSetpointReached_still  (s : State) : ∃ nxt, execSetpointReached s = .next nxt ∧ s.Still nxt := by
  unfold execSetpointReached
  refine State.Still.live ?_
  have hL := State.Still.refl s
  repeat' first
    | with_reducible assumption
    | with_reducible apply State.setFrequency_still
    | with_reducible apply State.Still.ite
    | with_reducible refine State.Still.ite1 ?_ ?_
    | intro _
    | fail_if_no_progress (with_reducible refine State.Still.upd ?_ rfl rfl rfl rfl rfl)
    | with_reducible refine State.Still.snd ?_ (by assumption)
    | with_reducible refine State.Still.fst ?_ (by assumption)
    | extract_lets
    | split

theorem execSetpAlert_still (low : Bool) (s : State) : ∃ nxt, execSetpAlert low s = .next nxt ∧ s.Still nxt := by
  unfold execSetpAlert
  refine State.Still.live ?_
  have hL := State.Still.refl s
  repeat' first
    | with_reducible assumption
    | with_reducible apply State.Still.ite
    | with_reducible refine State.Still.ite1 ?_ ?_
    | intro _
    | fail_if_no_progress (with_reducible refine State.Still.upd ?_ rfl rfl rfl rfl rfl)

theorem execRailSample_still (mv : List Nat) (ma : List Nat) (s : State) : ∃ nxt, execRailSample mv ma s = .next nxt
    ∧ s.Still nxt := by
  unfold execRailSample
  refine State.Still.live ?_
  have hL := State.Still.refl s
  repeat' first
    | with_reducible assumption
    | with_reducible apply State.setReg_still
    | with_reducible apply State.Still.ite
    | with_reducible refine State.Still.ite1 ?_ ?_
    | intro _
    | with_reducible refine State.Still.foldl ?_ (fun _ _ _ => ?_)

theorem execTempSample_still (cmp : Nat) (iod : Nat) (hbm : List Nat) (opt : List Nat) (s : State)
    : ∃ nxt, execTempSample cmp iod hbm opt s = .next nxt ∧ s.Still nxt := by
  unfold execTempSample
  refine State.Still.live ?_
  have hL := State.Still.refl s
  repeat' first
    | with_reducible assumption
    | with_reducible apply State.setFld_still
    | with_reducible apply State.reclamp_still
    | with_reducible apply State.setHbmTemp_still
    | with_reducible apply State.Still.ite
    | with_reducible refine State.Still.ite1 ?_ ?_
    | intro _
    | with_reducible refine State.Still.foldl ?_ (fun _ _ _ => ?_)
    | fail_if_no_progress (with_reducible refine State.Still.upd ?_ rfl rfl rfl rfl rfl)

theorem execTelemetryRead_still (c : Command) (s : State) : ∃ nxt, execTelemetryRead c s = .next nxt ∧ s.Still nxt := by
  unfold execTelemetryRead
  refine State.Still.live ?_
  have hL := State.Still.refl s
  repeat' first
    | with_reducible assumption
    | with_reducible apply State.finish_still
    | with_reducible apply State.checked_still
    | with_reducible apply State.Still.ite
    | with_reducible refine State.Still.ite1 ?_ ?_
    | intro _
    | fail_if_no_progress (with_reducible refine State.Still.upd ?_ rfl rfl rfl rfl rfl)

theorem execPowerLimitSet_still (c : Command) (s : State) : ∃ nxt, execPowerLimitSet c s = .next nxt ∧ s.Still nxt := by
  unfold execPowerLimitSet
  refine State.Still.live ?_
  have hL := State.Still.refl s
  repeat' first
    | with_reducible assumption
    | with_reducible apply State.finish_still
    | with_reducible apply State.checked_still
    | with_reducible apply State.reclamp_still
    | with_reducible apply State.Still.ite
    | with_reducible refine State.Still.ite1 ?_ ?_
    | intro _
    | fail_if_no_progress (with_reducible refine State.Still.upd ?_ rfl rfl rfl rfl rfl)

theorem execI3cIndexWrite_still (data : List Byte) (s : State) : ∃ nxt, execI3cIndexWrite data s = .next nxt ∧ s.Still nxt := by
  unfold execI3cIndexWrite
  refine State.Still.live ?_
  have hL := State.Still.refl s
  repeat' first
    | with_reducible assumption
    | with_reducible apply State.emit_still
    | with_reducible apply State.Still.ite
    | with_reducible refine State.Still.ite1 ?_ ?_
    | intro _
    | fail_if_no_progress (with_reducible refine State.Still.upd ?_ rfl rfl rfl rfl rfl)
    | with_reducible refine State.Still.snd ?_ (by assumption)
    | with_reducible refine State.Still.fst ?_ (by assumption)
    | extract_lets
    | split

theorem execI3cRead_still  (s : State) : ∃ nxt, execI3cRead s = .next nxt ∧ s.Still nxt := by
  unfold execI3cRead
  refine State.Still.live ?_
  have hL := State.Still.refl s
  repeat' first
    | with_reducible assumption
    | with_reducible apply State.emit_still
    | with_reducible apply State.Still.ite
    | with_reducible refine State.Still.ite1 ?_ ?_
    | intro _
    | fail_if_no_progress (with_reducible refine State.Still.upd ?_ rfl rfl rfl rfl rfl)

theorem execDynamicAddressAssignment_still (addr : Nat) (s : State)
    : ∃ nxt, execDynamicAddressAssignment addr s = .next nxt ∧ s.Still nxt := by
  unfold execDynamicAddressAssignment
  refine State.Still.live ?_
  have hL := State.Still.refl s
  repeat' first
    | with_reducible assumption
    | with_reducible apply State.Still.ite
    | with_reducible refine State.Still.ite1 ?_ ?_
    | intro _
    | fail_if_no_progress (with_reducible refine State.Still.upd ?_ rfl rfl rfl rfl rfl)

theorem execPpsInEdge_still  (s : State) : ∃ nxt, execPpsInEdge s = .next nxt ∧ s.Still nxt := by
  unfold execPpsInEdge
  refine State.Still.live ?_
  have hL := State.Still.refl s
  repeat' first
    | with_reducible assumption
    | with_reducible apply State.Still.ite
    | with_reducible refine State.Still.ite1 ?_ ?_
    | intro _
    | fail_if_no_progress (with_reducible refine State.Still.upd ?_ rfl rfl rfl rfl rfl)

theorem execTapInstruction_still (i : TapInstruction) (s : State) :
    ∃ t, execTapInstruction i s = .next t ∧ s.Still t := by
  unfold execTapInstruction
  extract_lets pins
  split
  exact ⟨_, rfl, State.emit_still _ (State.Still.upd (State.Still.refl s) rfl rfl rfl rfl rfl)⟩

theorem State.setJob_still {s0 : State} {s : State} (slot : Nat) (j : Job) (hL : s0.Still s) :
    s0.Still (State.setJob s slot j) := by
  unfold State.setJob
  repeat' first
    | with_reducible assumption
    | with_reducible apply State.Still.ite
    | with_reducible refine State.Still.ite1 ?_ ?_
    | intro _
    | fail_if_no_progress (with_reducible refine State.Still.upd ?_ rfl rfl rfl rfl rfl)

theorem State.tryUnloads_still {s0 : State} {s : State} (hL : s0.Still s) :
    s0.Still (State.tryUnloads s) := by
  unfold State.tryUnloads
  repeat' first
    | with_reducible assumption
    | with_reducible apply State.deferredDone_still
    | with_reducible apply State.Still.ite
    | with_reducible refine State.Still.ite1 ?_ ?_
    | intro _
    | with_reducible refine State.Still.foldl ?_ (fun _ _ _ => ?_)
    | fail_if_no_progress (with_reducible refine State.Still.upd ?_ rfl rfl rfl rfl rfl)
    | with_reducible refine State.Still.snd ?_ (by assumption)
    | with_reducible refine State.Still.fst ?_ (by assumption)
    | extract_lets
    | split

theorem State.flushQueue_still {s0 : State} {s : State} (k : Nat) (hL : s0.Still s) :
    s0.Still (State.flushQueue s k) := by
  unfold State.flushQueue
  repeat' first
    | with_reducible assumption
    | with_reducible apply State.setQueue_still
    | with_reducible apply State.post_still
    | with_reducible apply State.tryUnloads_still
    | with_reducible apply State.Still.ite
    | with_reducible refine State.Still.ite1 ?_ ?_
    | intro _
    | with_reducible refine State.Still.foldl ?_ (fun _ _ _ => ?_)

theorem State.setFjob_still {s0 : State} {s : State} (slot : Nat) (f : FabricJob) (hL : s0.Still s) :
    s0.Still (State.setFjob s slot f) := by
  unfold State.setFjob
  repeat' first
    | with_reducible assumption
    | with_reducible apply State.Still.ite
    | with_reducible refine State.Still.ite1 ?_ ?_
    | intro _
    | fail_if_no_progress (with_reducible refine State.Still.upd ?_ rfl rfl rfl rfl rfl)

theorem State.receive_still {s0 : State} {s : State} (d : Datagram) (kind : Nat) (f : State → State) (hL : s0.Still s)
    (h_f : ∀ (x0 : State), s0.Still x0 → s0.Still (f x0)) :
    s0.Still (State.receive s d kind f) := by
  unfold State.receive
  repeat' first
    | with_reducible assumption
    | with_reducible apply h_f
    | with_reducible apply State.bump_still
    | with_reducible apply State.rxBytes_still
    | with_reducible apply State.Still.ite

theorem State.acknowledge_still {s0 : State} {s : State} (n : Nat) (ack : Nat) (hL : s0.Still s) :
    s0.Still (State.acknowledge s n ack) := by
  unfold State.acknowledge
  repeat' first
    | with_reducible assumption
    | with_reducible apply State.setSession_still
    | with_reducible apply State.Still.ite
    | with_reducible refine State.Still.ite1 ?_ ?_
    | intro _
    | fail_if_no_progress (with_reducible refine State.Still.upd ?_ rfl rfl rfl rfl rfl)

theorem State.heard_still {s0 : State} {s : State} (d : Datagram) (hL : s0.Still s) :
    s0.Still (State.heard s d) := by
  unfold State.heard
  repeat' first
    | with_reducible assumption
    | with_reducible apply State.setSession_still
    | with_reducible apply State.pump_still
    | with_reducible apply State.acknowledge_still

theorem State.sendAck_still {s0 : State} {s : State} (n : Nat) (hL : s0.Still s) :
    s0.Still (State.sendAck s n) := by
  unfold State.sendAck
  repeat' first
    | with_reducible assumption
    | with_reducible apply State.sendDatagram_still
    | with_reducible apply State.Still.ite

theorem State.replyDirect_still {s0 : State} {s : State} (c : Command) (status : Nat) (detail : Nat) (hL : s0.Still s) :
    s0.Still (State.replyDirect s c status detail) := by
  unfold State.replyDirect
  repeat' first
    | with_reducible assumption
    | with_reducible apply State.sendOn_still

theorem State.noteOpcode_still {s0 : State} {s : State} (op : Nat) (hL : s0.Still s) :
    s0.Still (State.noteOpcode s op) := by
  unfold State.noteOpcode
  repeat' first
    | with_reducible assumption
    | with_reducible apply State.Still.ite
    | with_reducible refine State.Still.ite1 ?_ ?_
    | intro _
    | fail_if_no_progress (with_reducible refine State.Still.upd ?_ rfl rfl rfl rfl rfl)

theorem State.deliver_still {s0 : State} {s : State} (c : Command) (hL : s0.Still s) :
    s0.Still (State.deliver s c) := by
  unfold State.deliver
  repeat' first
    | with_reducible assumption
    | with_reducible apply State.bump_still
    | with_reducible apply State.setQueue_still
    | with_reducible apply State.post_still
    | with_reducible apply State.dozeExit_still
    | with_reducible apply State.replyDirect_still
    | with_reducible apply State.noteOpcode_still
    | with_reducible apply State.Still.ite
    | with_reducible refine State.Still.ite1 ?_ ?_
    | intro _
    | fail_if_no_progress (with_reducible refine State.Still.upd ?_ rfl rfl rfl rfl rfl)
    | with_reducible refine State.Still.snd ?_ (by assumption)
    | with_reducible refine State.Still.fst ?_ (by assumption)
    | extract_lets
    | split

theorem State.deliverAll_still {s0 : State} {s : State} (n : Nat) (ms : List Command) (hL : s0.Still s) :
    s0.Still (State.deliverAll s n ms) := by
  unfold State.deliverAll
  repeat' first
    | with_reducible assumption
    | with_reducible apply State.deliver_still
    | with_reducible apply State.Still.ite
    | with_reducible refine State.Still.ite1 ?_ ?_
    | intro _
    | with_reducible refine State.Still.foldl ?_ (fun _ _ _ => ?_)

theorem State.acceptBuffered_still {s0 s : State} (k n : Nat) (hL : s0.Still s) : s0.Still (State.acceptBuffered k s n) := by
  induction k generalizing s with
  | zero => exact hL
  | succ k ih =>
    unfold State.acceptBuffered
    repeat' first
      | with_reducible assumption
      | with_reducible apply State.setSession_still
      | with_reducible apply State.deliverAll_still
      | with_reducible apply ih
      | with_reducible apply State.Still.ite
      | with_reducible refine State.Still.ite1 ?_ ?_
      | intro _
      | fail_if_no_progress (with_reducible refine State.Still.upd ?_ rfl rfl rfl rfl rfl)
      | with_reducible refine State.Still.snd ?_ (by assumption)
      | with_reducible refine State.Still.fst ?_ (by assumption)
      | extract_lets
      | split

theorem State.endSession_still {s0 : State} {s : State} (n : Nat) (report : Bool) (hL : s0.Still s) :
    s0.Still (State.endSession s n report) := by
  unfold State.endSession
  repeat' first
    | with_reducible assumption
    | with_reducible apply State.setSession_still
    | with_reducible apply State.setQueue_still
    | with_reducible apply State.recordAll_still
    | with_reducible apply State.Still.ite
    | with_reducible refine State.Still.ite1 ?_ ?_
    | intro _
    | fail_if_no_progress (with_reducible refine State.Still.upd ?_ rfl rfl rfl rfl rfl)

theorem execData_still (d : Datagram) (ms : List Command) (s : State) : ∃ nxt, execData d ms s = .next nxt ∧ s.Still nxt := by
  unfold execData
  refine State.Still.live ?_
  have hL := State.Still.refl s
  repeat' first
    | with_reducible assumption
    | with_reducible apply State.setSession_still
    | with_reducible apply State.receive_still
    | with_reducible apply State.heard_still
    | with_reducible apply State.sendAck_still
    | with_reducible apply State.deliverAll_still
    | with_reducible apply State.acceptBuffered_still
    | with_reducible apply State.Still.ite
    | with_reducible refine State.Still.ite1 ?_ ?_
    | intro _

theorem execAck_still (d : Datagram) (s : State) : ∃ nxt, execAck d s = .next nxt ∧ s.Still nxt := by
  unfold execAck
  refine State.Still.live ?_
  have hL := State.Still.refl s
  repeat' first
    | with_reducible assumption
    | with_reducible apply State.receive_still
    | with_reducible apply State.heard_still
    | with_reducible apply State.Still.ite
    | with_reducible refine State.Still.ite1 ?_ ?_
    | intro _

theorem execNack_still (d : Datagram) (bitmap : Nat) (s : State) : ∃ nxt, execNack d bitmap s = .next nxt ∧ s.Still nxt := by
  unfold execNack
  refine State.Still.live ?_
  have hL := State.Still.refl s
  repeat' first
    | with_reducible assumption
    | with_reducible apply State.sendDatagram_still
    | with_reducible apply State.receive_still
    | with_reducible apply State.heard_still
    | with_reducible apply State.Still.ite
    | with_reducible refine State.Still.ite1 ?_ ?_
    | intro _
    | with_reducible refine State.Still.foldl ?_ (fun _ _ _ => ?_)

theorem execKeepalive_still (d : Datagram) (s : State) : ∃ nxt, execKeepalive d s = .next nxt ∧ s.Still nxt := by
  unfold execKeepalive
  refine State.Still.live ?_
  have hL := State.Still.refl s
  repeat' first
    | with_reducible assumption
    | with_reducible apply State.receive_still
    | with_reducible apply State.heard_still
    | with_reducible apply State.Still.ite
    | with_reducible refine State.Still.ite1 ?_ ?_
    | intro _

theorem execClose_still (d : Datagram) (s : State) : ∃ nxt, execClose d s = .next nxt ∧ s.Still nxt := by
  unfold execClose
  refine State.Still.live ?_
  have hL := State.Still.refl s
  repeat' first
    | with_reducible assumption
    | with_reducible apply State.receive_still
    | with_reducible apply State.endSession_still
    | with_reducible apply State.Still.ite
    | with_reducible refine State.Still.ite1 ?_ ?_
    | intro _

theorem execTimedRetransmission_still (session : Nat) (tseq : Nat) (s : State)
    : ∃ nxt, execTimedRetransmission session tseq s = .next nxt ∧ s.Still nxt := by
  unfold execTimedRetransmission
  refine State.Still.live ?_
  have hL := State.Still.refl s
  repeat' first
    | with_reducible assumption
    | with_reducible apply State.setSession_still
    | with_reducible apply State.sendDatagram_still
    | with_reducible apply State.onlyIf_still
    | with_reducible apply State.Still.ite
    | with_reducible refine State.Still.ite1 ?_ ?_
    | intro _
    | fail_if_no_progress (with_reducible refine State.Still.upd ?_ rfl rfl rfl rfl rfl)
    | with_reducible refine State.Still.snd ?_ (by assumption)
    | with_reducible refine State.Still.fst ?_ (by assumption)
    | extract_lets
    | split

theorem execRetransmitExhausted_still (session : Nat) (tseq : Nat) (s : State)
    : ∃ nxt, execRetransmitExhausted session tseq s = .next nxt ∧ s.Still nxt := by
  unfold execRetransmitExhausted
  refine State.Still.live ?_
  have hL := State.Still.refl s
  repeat' first
    | with_reducible assumption
    | with_reducible apply State.onlyIf_still
    | with_reducible apply State.endSession_still
    | with_reducible apply State.Still.ite
    | with_reducible refine State.Still.ite1 ?_ ?_
    | intro _

theorem execSessionSilenceTimeout_still (session : Nat) (s : State)
    : ∃ nxt, execSessionSilenceTimeout session s = .next nxt ∧ s.Still nxt := by
  unfold execSessionSilenceTimeout
  refine State.Still.live ?_
  have hL := State.Still.refl s
  repeat' first
    | with_reducible assumption
    | with_reducible apply State.onlyIf_still
    | with_reducible apply State.endSession_still
    | with_reducible apply State.Still.ite
    | with_reducible refine State.Still.ite1 ?_ ?_
    | intro _

theorem execWindowReopen_still (session : Nat) (buffers : Nat) (s : State)
    : ∃ nxt, execWindowReopen session buffers s = .next nxt ∧ s.Still nxt := by
  unfold execWindowReopen
  refine State.Still.live ?_
  have hL := State.Still.refl s
  repeat' first
    | with_reducible assumption
    | with_reducible apply State.setSession_still
    | with_reducible apply State.sendDatagram_still
    | with_reducible apply State.onlyIf_still
    | with_reducible apply State.Still.ite
    | with_reducible refine State.Still.ite1 ?_ ?_
    | intro _

theorem execCommandDispatch_still (q : Nat) (s : State) : ∃ nxt, execCommandDispatch q s = .next nxt ∧ s.Still nxt := by
  unfold execCommandDispatch
  refine State.Still.live ?_
  have hL := State.Still.refl s
  repeat' first
    | with_reducible assumption
    | with_reducible apply State.setFld_still
    | with_reducible apply State.setQueue_still
    | with_reducible apply State.finish_still
    | with_reducible apply State.Still.ite
    | with_reducible refine State.Still.ite1 ?_ ?_
    | intro _
    | fail_if_no_progress (with_reducible refine State.Still.upd ?_ rfl rfl rfl rfl rfl)
    | with_reducible refine State.Still.snd ?_ (by assumption)
    | with_reducible refine State.Still.fst ?_ (by assumption)
    | extract_lets
    | split

theorem execQueueBind_still (c : Command) (s : State) : ∃ nxt, execQueueBind c s = .next nxt ∧ s.Still nxt := by
  unfold execQueueBind
  refine State.Still.live ?_
  have hL := State.Still.refl s
  repeat' first
    | with_reducible assumption
    | with_reducible apply State.setQueue_still
    | with_reducible apply State.finish_still
    | with_reducible apply State.checked_still
    | with_reducible apply State.Still.ite
    | with_reducible refine State.Still.ite1 ?_ ?_
    | intro _

theorem execQueueUnbind_still (c : Command) (s : State) : ∃ nxt, execQueueUnbind c s = .next nxt ∧ s.Still nxt := by
  unfold execQueueUnbind
  refine State.Still.live ?_
  have hL := State.Still.refl s
  repeat' first
    | with_reducible assumption
    | with_reducible apply State.setQueue_still
    | with_reducible apply State.finish_still
    | with_reducible apply State.defer_still
    | with_reducible apply State.checked_still
    | with_reducible apply State.flushQueue_still
    | with_reducible apply State.Still.ite
    | with_reducible refine State.Still.ite1 ?_ ?_
    | intro _

theorem execQueueDrained_still (q : Nat) (s : State) : ∃ nxt, execQueueDrained q s = .next nxt ∧ s.Still nxt := by
  unfold execQueueDrained
  refine State.Still.live ?_
  have hL := State.Still.refl s
  repeat' first
    | with_reducible assumption
    | with_reducible apply State.setQueue_still
    | with_reducible apply State.recordCmd_still
    | with_reducible apply State.deferredDone_still
    | with_reducible apply State.onlyIf_still
    | with_reducible apply State.Still.ite
    | with_reducible refine State.Still.ite1 ?_ ?_
    | intro _
    | fail_if_no_progress (with_reducible refine State.Still.upd ?_ rfl rfl rfl rfl rfl)
    | with_reducible refine State.Still.snd ?_ (by assumption)
    | with_reducible refine State.Still.fst ?_ (by assumption)
    | extract_lets
    | split

theorem execQueueAttach_still (c : Command) (s : State) : ∃ nxt, execQueueAttach c s = .next nxt ∧ s.Still nxt := by
  unfold execQueueAttach
  refine State.Still.live ?_
  have hL := State.Still.refl s
  repeat' first
    | with_reducible assumption
    | with_reducible apply State.setSession_still
    | with_reducible apply State.setQueue_still
    | with_reducible apply State.sendOn_still
    | with_reducible apply State.finish_still
    | with_reducible apply State.checked_still
    | with_reducible apply State.Still.ite
    | with_reducible refine State.Still.ite1 ?_ ?_
    | intro _
    | with_reducible refine State.Still.foldl ?_ (fun _ _ _ => ?_)

theorem execQueueStatus_still (c : Command) (s : State) : ∃ nxt, execQueueStatus c s = .next nxt ∧ s.Still nxt := by
  unfold execQueueStatus
  refine State.Still.live ?_
  have hL := State.Still.refl s
  repeat' first
    | with_reducible assumption
    | with_reducible apply State.finish_still
    | with_reducible apply State.checked_still
    | with_reducible apply State.Still.ite
    | with_reducible refine State.Still.ite1 ?_ ?_
    | intro _

theorem execQueueFlush_still (c : Command) (s : State) : ∃ nxt, execQueueFlush c s = .next nxt ∧ s.Still nxt := by
  unfold execQueueFlush
  refine State.Still.live ?_
  have hL := State.Still.refl s
  repeat' first
    | with_reducible assumption
    | with_reducible apply State.finish_still
    | with_reducible apply State.checked_still
    | with_reducible apply State.flushQueue_still
    | with_reducible apply State.Still.ite
    | with_reducible refine State.Still.ite1 ?_ ?_
    | intro _

theorem execNop_still (c : Command) (s : State) : ∃ nxt, execNop c s = .next nxt ∧ s.Still nxt := by
  unfold execNop
  refine State.Still.live ?_
  have hL := State.Still.refl s
  repeat' first
    | with_reducible assumption
    | with_reducible apply State.finish_still

theorem execWriteRefused_still (i : Nat) (s : State) : ∃ nxt, execWriteRefused i s = .next nxt ∧ s.Still nxt := by
  unfold execWriteRefused
  refine State.Still.live ?_
  have hL := State.Still.refl s
  repeat' first
    | with_reducible assumption
    | with_reducible apply State.stamp_still
    | with_reducible apply State.bump_still
    | with_reducible apply State.recordCmd_still
    | with_reducible apply State.onlyIf_still
    | with_reducible apply State.Still.ite
    | with_reducible refine State.Still.ite1 ?_ ?_
    | intro _
    | fail_if_no_progress (with_reducible refine State.Still.upd ?_ rfl rfl rfl rfl rfl)
    | with_reducible refine State.Still.snd ?_ (by assumption)
    | with_reducible refine State.Still.fst ?_ (by assumption)
    | extract_lets
    | split

theorem State.setChunk_still {s0 : State} {s : State} (c : Nat) (k : Nat) (phase : Nat) (dest : Nat) (hL : s0.Still s) :
    s0.Still (State.setChunk s c k phase dest) := by
  unfold State.setChunk
  repeat' first
    | with_reducible assumption
    | with_reducible apply State.setReg_still

theorem State.setMap_still {s0 : State} {s : State} (slot : Nat) (m : MapInfo) (hL : s0.Still s) :
    s0.Still (State.setMap s slot m) := by
  unfold State.setMap
  repeat' first
    | with_reducible assumption
    | with_reducible apply State.Still.ite
    | with_reducible refine State.Still.ite1 ?_ ?_
    | intro _
    | fail_if_no_progress (with_reducible refine State.Still.upd ?_ rfl rfl rfl rfl rfl)

theorem State.setReelJob_still {s0 : State} {s : State} (slot : Nat) (r : ReelJob) (hL : s0.Still s) :
    s0.Still (State.setReelJob s slot r) := by
  unfold State.setReelJob
  repeat' first
    | with_reducible assumption
    | with_reducible apply State.Still.ite
    | with_reducible refine State.Still.ite1 ?_ ?_
    | intro _
    | fail_if_no_progress (with_reducible refine State.Still.upd ?_ rfl rfl rfl rfl rfl)

theorem State.setShard_still {s0 : State} {s : State} (k : Nat) (x : Shard) (hL : s0.Still s) :
    s0.Still (State.setShard s k x) := by
  unfold State.setShard
  repeat' first
    | with_reducible assumption
    | with_reducible apply State.Still.ite
    | with_reducible refine State.Still.ite1 ?_ ?_
    | intro _
    | fail_if_no_progress (with_reducible refine State.Still.upd ?_ rfl rfl rfl rfl rfl)

theorem State.setKvPool_still {s0 : State} {s : State} (slot : Nat) (x : KvPool) (hL : s0.Still s) :
    s0.Still (State.setKvPool s slot x) := by
  unfold State.setKvPool
  repeat' first
    | with_reducible assumption
    | with_reducible apply State.Still.ite
    | with_reducible refine State.Still.ite1 ?_ ?_
    | intro _
    | fail_if_no_progress (with_reducible refine State.Still.upd ?_ rfl rfl rfl rfl rfl)

theorem State.setKvSeq_still {s0 : State} {s : State} (id : Nat) (x : KvSeq) (hL : s0.Still s) :
    s0.Still (State.setKvSeq s id x) := by
  unfold State.setKvSeq
  repeat' first
    | with_reducible assumption
    | with_reducible apply State.Still.ite
    | with_reducible refine State.Still.ite1 ?_ ?_
    | intro _
    | fail_if_no_progress (with_reducible refine State.Still.upd ?_ rfl rfl rfl rfl rfl)

theorem State.freePage_still {s0 : State} {s : State} (slot : Nat) (page : Nat) (hL : s0.Still s) :
    s0.Still (State.freePage s slot page) := by
  unfold State.freePage
  repeat' first
    | with_reducible assumption
    | with_reducible apply State.setKvPool_still
    | with_reducible apply State.Still.ite

theorem State.editPage_still {s0 : State} {s : State} (slot : Nat) (page : Nat) (f : KvPage → KvPage) (hL : s0.Still s) :
    s0.Still (State.editPage s slot page f) := by
  unfold State.editPage
  repeat' first
    | with_reducible assumption
    | with_reducible apply State.setKvPool_still

theorem execShootdownComplete_still (i : Nat) (s : State) : ∃ nxt, execShootdownComplete i s = .next nxt ∧ s.Still nxt := by
  unfold execShootdownComplete
  refine State.Still.live ?_
  have hL := State.Still.refl s
  repeat' first
    | with_reducible assumption
    | with_reducible apply State.bump_still
    | with_reducible apply State.finish_still
    | with_reducible apply State.deferredDone_still
    | with_reducible apply State.freePage_still
    | with_reducible apply State.editPage_still
    | with_reducible apply State.answered_still
    | with_reducible apply State.Still.ite
    | with_reducible refine State.Still.ite1 ?_ ?_
    | intro _
    | with_reducible refine State.Still.foldl ?_ (fun _ _ _ => ?_)
    | fail_if_no_progress (with_reducible refine State.Still.upd ?_ rfl rfl rfl rfl rfl)
    | with_reducible refine State.Still.snd ?_ (by assumption)
    | with_reducible refine State.Still.fst ?_ (by assumption)
    | extract_lets
    | split

theorem State.setCore_still {s0 : State} {s : State} (p : Nat) (c : Core) (hL : s0.Still s) :
    s0.Still (State.setCore s p c) := by
  unfold State.setCore
  repeat' first
    | with_reducible assumption
    | with_reducible apply State.Still.ite
    | with_reducible refine State.Still.ite1 ?_ ?_
    | intro _
    | fail_if_no_progress (with_reducible refine State.Still.upd ?_ rfl rfl rfl rfl rfl)

theorem State.setFrameTag_still {s0 : State} {s : State} (p : Nat) (a : Nat) (t : FrameTag) (hL : s0.Still s) :
    s0.Still (State.setFrameTag s p a t) := by
  unfold State.setFrameTag
  repeat' first
    | with_reducible assumption
    | with_reducible apply State.Still.ite
    | with_reducible refine State.Still.ite1 ?_ ?_
    | intro _
    | fail_if_no_progress (with_reducible refine State.Still.upd ?_ rfl rfl rfl rfl rfl)

theorem State.setKernel_still {s0 : State} {s : State} (slot : Nat) (id : Nat) (k : Kernel) (hL : s0.Still s) :
    s0.Still (State.setKernel s slot id k) := by
  unfold State.setKernel
  repeat' first
    | with_reducible assumption
    | with_reducible apply State.Still.ite
    | with_reducible refine State.Still.ite1 ?_ ?_
    | intro _
    | fail_if_no_progress (with_reducible refine State.Still.upd ?_ rfl rfl rfl rfl rfl)

theorem State.endStall_still {s0 : State} {s : State} (p : Nat) (hL : s0.Still s) :
    s0.Still (State.endStall s p) := by
  unfold State.endStall
  repeat' first
    | with_reducible assumption
    | with_reducible apply State.bump_still
    | with_reducible apply State.setCore_still
    | with_reducible apply State.Still.ite
    | with_reducible refine State.Still.ite1 ?_ ?_
    | intro _
    | fail_if_no_progress (with_reducible refine State.Still.upd ?_ rfl rfl rfl rfl rfl)
    | with_reducible refine State.Still.snd ?_ (by assumption)
    | with_reducible refine State.Still.fst ?_ (by assumption)
    | extract_lets
    | split

theorem execSeqCreateSequence_still (c : Command) (s : State) : ∃ nxt, execSeqCreateSequence c s = .next nxt ∧ s.Still nxt := by
  unfold execSeqCreateSequence
  refine State.Still.live ?_
  have hL := State.Still.refl s
  repeat' first
    | with_reducible assumption
    | with_reducible apply State.finish_still
    | with_reducible apply State.checked_still
    | with_reducible apply State.setKvSeq_still
    | with_reducible apply State.Still.ite
    | with_reducible refine State.Still.ite1 ?_ ?_
    | intro _

end Sys2Proof.Machine
end

