-- ==== Sys2Proof/Laws/StillFabric.lean ====
section
/-! SUPPORT. What leaves every memory as it is: timecode, the links, streams and the fabric commands. -/

namespace Sys2Proof.Machine

theorem State.tcReselect_still {s0 : State} {s : State} (hL : s0.Still s) :
    s0.Still (State.tcReselect s) := by
  unfold State.tcReselect
  repeat' first
    | with_reducible assumption
    | with_reducible apply State.Still.ite
    | with_reducible refine State.Still.ite1 ?_ ?_
    | intro _
    | fail_if_no_progress (with_reducible refine State.Still.upd ?_ rfl rfl rfl rfl rfl)

theorem State.tcMeasured_still {s0 : State} {s : State} (offset : Int) (hL : s0.Still s) :
    s0.Still (State.tcMeasured s offset) := by
  unfold State.tcMeasured
  repeat' first
    | with_reducible assumption
    | with_reducible apply State.csSetBits_still
    | with_reducible apply State.tcReselect_still
    | with_reducible apply State.Still.ite
    | with_reducible refine State.Still.ite1 ?_ ?_
    | intro _
    | fail_if_no_progress (with_reducible refine State.Still.upd ?_ rfl rfl rfl rfl rfl)
    | with_reducible refine State.Still.snd ?_ (by assumption)
    | with_reducible refine State.Still.fst ?_ (by assumption)
    | extract_lets
    | split

theorem State.tcPortDown_still {s0 : State} {s : State} (p : Nat) (hL : s0.Still s) :
    s0.Still (State.tcPortDown s p) := by
  unfold State.tcPortDown
  repeat' first
    | with_reducible assumption
    | with_reducible apply State.tcReselect_still
    | with_reducible apply State.Still.ite
    | with_reducible refine State.Still.ite1 ?_ ?_
    | intro _
    | fail_if_no_progress (with_reducible refine State.Still.upd ?_ rfl rfl rfl rfl rfl)

theorem State.enterHoldover_still {s0 : State} {s : State} (lostAt : Nat) (hL : s0.Still s) :
    s0.Still (State.enterHoldover s lostAt) := by
  unfold State.enterHoldover
  repeat' first
    | with_reducible assumption
    | with_reducible apply State.Still.ite
    | with_reducible refine State.Still.ite1 ?_ ?_
    | intro _
    | fail_if_no_progress (with_reducible refine State.Still.upd ?_ rfl rfl rfl rfl rfl)

theorem State.tick_still {s0 : State} {s : State} (hL : s0.Still s) :
    s0.Still (State.tick s) := by
  unfold State.tick
  repeat' first
    | with_reducible assumption
    | with_reducible apply State.Still.ite
    | with_reducible refine State.Still.ite1 ?_ ?_
    | intro _
    | fail_if_no_progress (with_reducible refine State.Still.upd ?_ rfl rfl rfl rfl rfl)

theorem execPtpMessage_still (m : PtpMessage) (s : State) : ∃ nxt, execPtpMessage m s = .next nxt ∧ s.Still nxt := by
  unfold execPtpMessage
  refine State.Still.live ?_
  have hL := State.Still.refl s
  repeat' first
    | with_reducible assumption
    | with_reducible apply State.onlyIf_still
    | with_reducible apply State.tcReselect_still
    | with_reducible apply State.tcMeasured_still
    | with_reducible apply State.Still.ite
    | with_reducible refine State.Still.ite1 ?_ ?_
    | intro _
    | fail_if_no_progress (with_reducible refine State.Still.upd ?_ rfl rfl rfl rfl rfl)
    | with_reducible refine State.Still.snd ?_ (by assumption)
    | with_reducible refine State.Still.fst ?_ (by assumption)
    | extract_lets
    | split

theorem execServoAdjust_still  (s : State) : ∃ nxt, execServoAdjust s = .next nxt ∧ s.Still nxt := by
  unfold execServoAdjust
  refine State.Still.live ?_
  have hL := State.Still.refl s
  repeat' first
    | with_reducible assumption
    | with_reducible apply State.onlyIf_still
    | with_reducible apply State.Still.ite
    | with_reducible refine State.Still.ite1 ?_ ?_
    | intro _
    | fail_if_no_progress (with_reducible refine State.Still.upd ?_ rfl rfl rfl rfl rfl)

theorem execParentSearchTimeout_still  (s : State) : ∃ nxt, execParentSearchTimeout s = .next nxt ∧ s.Still nxt := by
  unfold execParentSearchTimeout
  refine State.Still.live ?_
  have hL := State.Still.refl s
  repeat' first
    | with_reducible assumption
    | with_reducible apply State.onlyIf_still
    | with_reducible apply State.enterHoldover_still
    | with_reducible apply State.Still.ite
    | with_reducible refine State.Still.ite1 ?_ ?_
    | intro _
    | fail_if_no_progress (with_reducible refine State.Still.upd ?_ rfl rfl rfl rfl rfl)
    | with_reducible refine State.Still.snd ?_ (by assumption)
    | with_reducible refine State.Still.fst ?_ (by assumption)
    | extract_lets
    | split

theorem execPtpLost_still  (s : State) : ∃ nxt, execPtpLost s = .next nxt ∧ s.Still nxt := by
  unfold execPtpLost
  refine State.Still.live ?_
  have hL := State.Still.refl s
  repeat' first
    | with_reducible assumption
    | with_reducible apply State.onlyIf_still
    | with_reducible apply State.enterHoldover_still
    | with_reducible apply State.Still.ite
    | with_reducible refine State.Still.ite1 ?_ ?_
    | intro _
    | fail_if_no_progress (with_reducible refine State.Still.upd ?_ rfl rfl rfl rfl rfl)

theorem execHoldoverLimitExceeded_still  (s : State) : ∃ nxt, execHoldoverLimitExceeded s = .next nxt ∧ s.Still nxt := by
  unfold execHoldoverLimitExceeded
  refine State.Still.live ?_
  have hL := State.Still.refl s
  repeat' first
    | with_reducible assumption
    | with_reducible apply State.csClearBits_still
    | with_reducible apply State.onlyIf_still
    | with_reducible apply State.Still.ite
    | with_reducible refine State.Still.ite1 ?_ ?_
    | intro _
    | fail_if_no_progress (with_reducible refine State.Still.upd ?_ rfl rfl rfl rfl rfl)

theorem execUnlockedNsLimit_still  (s : State) : ∃ nxt, execUnlockedNsLimit s = .next nxt ∧ s.Still nxt := by
  unfold execUnlockedNsLimit
  refine State.Still.live ?_
  have hL := State.Still.refl s
  repeat' first
    | with_reducible assumption
    | with_reducible apply State.onlyIf_still
    | with_reducible apply State.Still.ite
    | with_reducible refine State.Still.ite1 ?_ ?_
    | intro _
    | fail_if_no_progress (with_reducible refine State.Still.upd ?_ rfl rfl rfl rfl rfl)

theorem State.setPort_still {s0 : State} {s : State} (p : Nat) (x : Port) (hL : s0.Still s) :
    s0.Still (State.setPort s p x) := by
  unfold State.setPort
  repeat' first
    | with_reducible assumption
    | with_reducible apply State.Still.ite
    | with_reducible refine State.Still.ite1 ?_ ?_
    | intro _
    | fail_if_no_progress (with_reducible refine State.Still.upd ?_ rfl rfl rfl rfl rfl)

theorem State.portPhase_still {s0 : State} {s : State} (p : Nat) (ph : PortPhase) (hL : s0.Still s) :
    s0.Still (State.portPhase s p ph) := by
  unfold State.portPhase
  repeat' first
    | with_reducible assumption
    | with_reducible apply State.recordAll_still
    | with_reducible apply State.csSetBits_still
    | with_reducible apply State.csClearBits_still
    | with_reducible apply State.tcPortDown_still
    | with_reducible apply State.setPort_still
    | with_reducible apply State.Still.ite

theorem State.sealPacket_still {s0 : State} {s : State} (p : Nat) (k : Packet) (hL : s0.Still s) :
    s0.Still (State.sealPacket s p k).2 := by
  unfold State.sealPacket
  repeat' first
    | with_reducible assumption
    | with_reducible apply State.stamp_still
    | with_reducible apply State.Still.ite
    | with_reducible refine State.Still.ite1 ?_ ?_
    | intro _
    | fail_if_no_progress (with_reducible refine State.Still.upd ?_ rfl rfl rfl rfl rfl)
    | with_reducible refine State.Still.snd ?_ (by assumption)
    | with_reducible refine State.Still.fst ?_ (by assumption)
    | extract_lets
    | split

theorem State.kick_still {s0 s : State} (k p : Nat) (hL : s0.Still s) : s0.Still (State.kick k s p) := by
  induction k generalizing s with
  | zero => exact hL
  | succ k ih =>
    unfold State.kick
    repeat' first
      | with_reducible assumption
      | with_reducible apply State.bump_still
      | with_reducible apply State.emit_still
      | with_reducible apply State.setPort_still
      | with_reducible apply State.sealPacket_still
      | with_reducible apply ih
      | with_reducible apply State.Still.ite
      | with_reducible refine State.Still.ite1 ?_ ?_
      | intro _
      | fail_if_no_progress (with_reducible refine State.Still.upd ?_ rfl rfl rfl rfl rfl)
      | with_reducible refine State.Still.snd ?_ (by assumption)
      | with_reducible refine State.Still.fst ?_ (by assumption)
      | extract_lets
      | split

theorem State.kickPort_still {s0 : State} {s : State} (p : Nat) (hL : s0.Still s) :
    s0.Still (State.kickPort s p) := by
  unfold State.kickPort
  repeat' first
    | with_reducible assumption
    | with_reducible apply State.kick_still

theorem State.enqueue_still {s0 : State} {s : State} (p : Nat) (k : Packet) (hL : s0.Still s) :
    s0.Still (State.enqueue s p k) := by
  unfold State.enqueue
  repeat' first
    | with_reducible assumption
    | with_reducible apply State.setPort_still
    | with_reducible apply State.kickPort_still

theorem State.sendPacket_still {s0 : State} {s : State} (k : Packet) (inPort : Nat) (hL : s0.Still s) :
    s0.Still (State.sendPacket s k inPort) := by
  unfold State.sendPacket
  repeat' first
    | with_reducible assumption
    | with_reducible apply State.bump_still
    | with_reducible apply State.logError_still
    | with_reducible apply State.enqueue_still
    | with_reducible apply State.Still.ite
    | with_reducible refine State.Still.ite1 ?_ ?_
    | intro _
    | fail_if_no_progress (with_reducible refine State.Still.upd ?_ rfl rfl rfl rfl rfl)
    | with_reducible refine State.Still.snd ?_ (by assumption)
    | with_reducible refine State.Still.fst ?_ (by assumption)
    | extract_lets
    | split

theorem State.sendWaiting_still {s0 : State} {s : State} (hL : s0.Still s) :
    s0.Still (State.sendWaiting s) := by
  unfold State.sendWaiting
  repeat' first
    | with_reducible assumption
    | with_reducible apply State.sendPacket_still
    | with_reducible apply State.Still.ite
    | with_reducible refine State.Still.ite1 ?_ ?_
    | intro _
    | with_reducible refine State.Still.foldl ?_ (fun _ _ _ => ?_)
    | fail_if_no_progress (with_reducible refine State.Still.upd ?_ rfl rfl rfl rfl rfl)

theorem State.portLost_still {s0 : State} {s : State} (p : Nat) (ph : PortPhase) (hL : s0.Still s) :
    s0.Still (State.portLost s p ph) := by
  unfold State.portLost
  repeat' first
    | with_reducible assumption
    | with_reducible apply State.setPort_still
    | with_reducible apply State.portPhase_still
    | with_reducible apply State.sendPacket_still
    | with_reducible apply State.sendWaiting_still
    | with_reducible apply State.Still.ite
    | with_reducible refine State.Still.ite1 ?_ ?_
    | intro _
    | with_reducible refine State.Still.foldl ?_ (fun _ _ _ => ?_)

theorem State.portUpNow_still {s0 : State} {s : State} (p : Nat) (hL : s0.Still s) :
    s0.Still (State.portUpNow s p) := by
  unfold State.portUpNow
  repeat' first
    | with_reducible assumption
    | with_reducible apply State.setPort_still
    | with_reducible apply State.portPhase_still
    | with_reducible apply State.sendWaiting_still

theorem State.originate_still {s0 : State} {s : State} (slot : Nat) (type : Nat) (flags : Nat) (dst : Nat) (level : Nat)
    (pass : Nat) (opId : Nat) (tag : Nat) (offset : Nat) (epoch : Nat) (payload : List Byte) (hL : s0.Still s) :
    s0.Still (State.originate s slot type flags dst level pass opId tag offset epoch payload) := by
  unfold State.originate
  repeat' first
    | with_reducible assumption
    | with_reducible apply State.setFjob_still
    | with_reducible apply State.sendPacket_still

theorem State.acceptPacket_still {s0 : State} {s : State} (slot : Nat) (k : Packet) (hL : s0.Still s) :
    s0.Still (State.acceptPacket s slot k) := by
  unfold State.acceptPacket
  repeat' first
    | with_reducible assumption
    | with_reducible apply State.setFjob_still

theorem State.frameAt_still {s0 : State} {s : State} (f : Frame) (type : Nat) (k : State → Option Nat → State) (hL
    : s0.Still s) (h_k : ∀ (x0 : State) (x1 : Option Nat), s0.Still x0 → s0.Still (k x0 x1)) :
    s0.Still (State.frameAt s f type k) := by
  unfold State.frameAt
  repeat' first
    | with_reducible assumption
    | with_reducible apply h_k
    | with_reducible apply State.bump_still
    | with_reducible apply State.setPort_still
    | with_reducible apply State.sendPacket_still
    | with_reducible apply State.Still.ite
    | with_reducible refine State.Still.ite1 ?_ ?_
    | intro _
    | fail_if_no_progress (with_reducible refine State.Still.upd ?_ rfl rfl rfl rfl rfl)
    | with_reducible refine State.Still.snd ?_ (by assumption)
    | with_reducible refine State.Still.fst ?_ (by assumption)
    | extract_lets
    | split

theorem State.frameIn_still {s0 : State} {s : State} (f : Frame) (type : Nat) (k : State → Nat → State) (hL
    : s0.Still s) (h_k : ∀ (x0 : State) (x1 : Nat), s0.Still x0 → s0.Still (k x0 x1)) :
    s0.Still (State.frameIn s f type k) := by
  unfold State.frameIn
  repeat' first
    | with_reducible assumption
    | with_reducible apply h_k
    | with_reducible apply State.bump_still
    | with_reducible apply State.frameAt_still
    | with_reducible apply State.Still.ite
    | with_reducible refine State.Still.ite1 ?_ ?_
    | intro _
    | fail_if_no_progress (with_reducible refine State.Still.upd ?_ rfl rfl rfl rfl rfl)
    | with_reducible refine State.Still.snd ?_ (by assumption)
    | with_reducible refine State.Still.fst ?_ (by assumption)
    | extract_lets
    | split

theorem State.setDecodes_still {s0 : State} {s : State} (e : Nat) (l : List Decode) (hL : s0.Still s) :
    s0.Still (State.setDecodes s e l) := by
  unfold State.setDecodes
  repeat' first
    | with_reducible assumption
    | with_reducible apply State.Still.ite
    | with_reducible refine State.Still.ite1 ?_ ?_
    | intro _
    | fail_if_no_progress (with_reducible refine State.Still.upd ?_ rfl rfl rfl rfl rfl)

theorem State.setStream_still {s0 : State} {s : State} (id : Nat) (x : Stream) (hL : s0.Still s) :
    s0.Still (State.setStream s id x) := by
  unfold State.setStream
  repeat' first
    | with_reducible assumption
    | with_reducible apply State.Still.ite
    | with_reducible refine State.Still.ite1 ?_ ?_
    | intro _
    | fail_if_no_progress (with_reducible refine State.Still.upd ?_ rfl rfl rfl rfl rfl)

theorem execResvScrub_still (line : Nat) (errors : Nat) (passEnd : Bool) (s : State)
    : ∃ nxt, execResvScrub line errors passEnd s = .next nxt ∧ s.Still nxt := by
  unfold execResvScrub
  refine State.Still.live ?_
  have hL := State.Still.refl s
  repeat' first
    | with_reducible assumption
    | with_reducible apply State.setReg_still
    | with_reducible apply State.bump_still
    | with_reducible apply State.logError_still
    | with_reducible apply State.onlyIf_still
    | with_reducible apply State.Still.ite
    | with_reducible refine State.Still.ite1 ?_ ?_
    | intro _
    | fail_if_no_progress (with_reducible refine State.Still.upd ?_ rfl rfl rfl rfl rfl)
    | with_reducible refine State.Still.snd ?_ (by assumption)
    | with_reducible refine State.Still.fst ?_ (by assumption)
    | extract_lets
    | split

theorem execStreamOpen_still (c : Command) (s : State) : ∃ nxt, execStreamOpen c s = .next nxt ∧ s.Still nxt := by
  unfold execStreamOpen
  refine State.Still.live ?_
  have hL := State.Still.refl s
  repeat' first
    | with_reducible assumption
    | with_reducible apply State.finish_still
    | with_reducible apply State.checked_still
    | with_reducible apply State.setStream_still
    | with_reducible apply State.idle_still
    | with_reducible apply State.Still.ite
    | with_reducible refine State.Still.ite1 ?_ ?_
    | intro _

theorem execStreamRun_still (c : Command) (s : State) : ∃ nxt, execStreamRun c s = .next nxt ∧ s.Still nxt := by
  unfold execStreamRun
  refine State.Still.live ?_
  have hL := State.Still.refl s
  repeat' first
    | with_reducible assumption
    | with_reducible apply State.checked_still
    | with_reducible apply State.setStream_still
    | with_reducible apply State.Still.ite
    | with_reducible refine State.Still.ite1 ?_ ?_
    | intro _

theorem State.mramCommit_still {s0 : State} {s : State} (f : FieldCopy → FieldCopy) (hL : s0.Still s) :
    s0.Still (State.mramCommit s f) := by
  unfold State.mramCommit
  repeat' first
    | with_reducible assumption
    | with_reducible apply State.Still.ite
    | with_reducible refine State.Still.ite1 ?_ ?_
    | intro _
    | fail_if_no_progress (with_reducible refine State.Still.upd ?_ rfl rfl rfl rfl rfl)

theorem State.mramRepair_still {s0 : State} {s : State} (unit : Nat) (kind : Nat) (sub : Nat) (injected : Bool) (hL
    : s0.Still s) :
    s0.Still (State.mramRepair s unit kind sub injected) := by
  unfold State.mramRepair
  repeat' first
    | with_reducible assumption
    | with_reducible apply State.mramCommit_still
    | with_reducible apply State.Still.ite

theorem State.repairReply_still {s0 : State} {s : State} (p : Nat) (r : RowRepair) (status : Nat) (detail : Nat) (hL
    : s0.Still s) :
    s0.Still (State.repairReply s p r status detail) := by
  unfold State.repairReply
  repeat' first
    | with_reducible assumption
    | with_reducible apply State.finish_still
    | with_reducible apply State.deferredDoneWith_still
    | with_reducible apply State.Still.ite
    | with_reducible refine State.Still.ite1 ?_ ?_
    | intro _
    | fail_if_no_progress (with_reducible refine State.Still.upd ?_ rfl rfl rfl rfl rfl)
    | with_reducible refine State.Still.snd ?_ (by assumption)
    | with_reducible refine State.Still.fst ?_ (by assumption)
    | extract_lets
    | split

theorem State.nextRepair_still {s0 s : State} (k p : Nat) (hL : s0.Still s) : s0.Still (State.nextRepair k s p) := by
  induction k generalizing s with
  | zero => exact hL
  | succ k ih =>
    unfold State.nextRepair
    repeat' first
      | with_reducible assumption
      | with_reducible apply State.setCore_still
      | with_reducible apply State.repairReply_still
      | with_reducible apply ih
      | with_reducible apply State.Still.ite
      | with_reducible refine State.Still.ite1 ?_ ?_
      | intro _
      | fail_if_no_progress (with_reducible refine State.Still.upd ?_ rfl rfl rfl rfl rfl)
      | with_reducible refine State.Still.snd ?_ (by assumption)
      | with_reducible refine State.Still.fst ?_ (by assumption)
      | extract_lets
      | split

theorem State.degradedRecord_still {s0 : State} {s : State} (unit : Nat) (kind : Nat) (logical : Nat) (hL : s0.Still s) :
    s0.Still (State.degradedRecord s unit kind logical) := by
  unfold State.degradedRecord
  repeat' first
    | with_reducible assumption
    | with_reducible apply State.recordAll_still

theorem State.setRjob_still {s0 : State} {s : State} (slot : Nat) (r : ResJob) (hL : s0.Still s) :
    s0.Still (State.setRjob s slot r) := by
  unfold State.setRjob
  repeat' first
    | with_reducible assumption
    | with_reducible apply State.Still.ite
    | with_reducible refine State.Still.ite1 ?_ ?_
    | intro _
    | fail_if_no_progress (with_reducible refine State.Still.upd ?_ rfl rfl rfl rfl rfl)

theorem State.setChannel_still {s0 : State} {s : State} (k : Nat) (x : FlumeChannel) (hL : s0.Still s) :
    s0.Still (State.setChannel s k x) := by
  unfold State.setChannel
  repeat' first
    | with_reducible assumption
    | with_reducible apply State.Still.ite
    | with_reducible refine State.Still.ite1 ?_ ?_
    | intro _
    | fail_if_no_progress (with_reducible refine State.Still.upd ?_ rfl rfl rfl rfl rfl)

theorem State.setTimer_still {s0 : State} {s : State} (t : Nat) (x : FlumeTimer) (hL : s0.Still s) :
    s0.Still (State.setTimer s t x) := by
  unfold State.setTimer
  repeat' first
    | with_reducible assumption
    | with_reducible apply State.Still.ite
    | with_reducible refine State.Still.ite1 ?_ ?_
    | intro _
    | fail_if_no_progress (with_reducible refine State.Still.upd ?_ rfl rfl rfl rfl rfl)

theorem execFlumeChainStart_still (c : Command) (s : State) : ∃ nxt, execFlumeChainStart c s = .next nxt ∧ s.Still nxt := by
  unfold execFlumeChainStart
  refine State.Still.live ?_
  have hL := State.Still.refl s
  repeat' first
    | with_reducible assumption
    | with_reducible apply State.defer_still
    | with_reducible apply State.checked_still
    | with_reducible apply State.setChannel_still
    | with_reducible apply State.Still.ite
    | with_reducible refine State.Still.ite1 ?_ ?_
    | intro _

theorem execFlumeTimerSet_still (c : Command) (s : State) : ∃ nxt, execFlumeTimerSet c s = .next nxt ∧ s.Still nxt := by
  unfold execFlumeTimerSet
  refine State.Still.live ?_
  have hL := State.Still.refl s
  repeat' first
    | with_reducible assumption
    | with_reducible apply State.finish_still
    | with_reducible apply State.checked_still
    | with_reducible apply State.setTimer_still
    | with_reducible apply State.Still.ite
    | with_reducible refine State.Still.ite1 ?_ ?_
    | intro _

theorem execTimerTick_still (t : Nat) (s : State) : ∃ nxt, execTimerTick t s = .next nxt ∧ s.Still nxt := by
  unfold execTimerTick
  refine State.Still.live ?_
  have hL := State.Still.refl s
  repeat' first
    | with_reducible assumption
    | with_reducible apply State.onlyIf_still
    | with_reducible apply State.setTimer_still
    | with_reducible apply State.Still.ite
    | with_reducible refine State.Still.ite1 ?_ ?_
    | intro _

theorem execFlumeStatus_still (c : Command) (s : State) : ∃ nxt, execFlumeStatus c s = .next nxt ∧ s.Still nxt := by
  unfold execFlumeStatus
  refine State.Still.live ?_
  have hL := State.Still.refl s
  repeat' first
    | with_reducible assumption
    | with_reducible apply State.finish_still
    | with_reducible apply State.checked_still
    | with_reducible apply State.Still.ite
    | with_reducible refine State.Still.ite1 ?_ ?_
    | intro _

theorem State.checkPeer_still {s0 : State} {s : State} (p : Nat) (hL : s0.Still s) :
    s0.Still (State.checkPeer s p) := by
  unfold State.checkPeer
  repeat' first
    | with_reducible assumption
    | with_reducible apply State.portPhase_still
    | with_reducible apply State.portUpNow_still
    | with_reducible apply State.Still.ite

theorem State.sendLcf_still {s0 : State} {s : State} (p : Nat) (hL : s0.Still s) :
    s0.Still (State.sendLcf s p) := by
  unfold State.sendLcf
  repeat' first
    | with_reducible assumption
    | with_reducible apply State.emit_still
    | with_reducible apply State.setPort_still

theorem State.trainPort_still {s0 : State} {s : State} (p : Nat) (hL : s0.Still s) :
    s0.Still (State.trainPort s p) := by
  unfold State.trainPort
  repeat' first
    | with_reducible assumption
    | with_reducible apply State.setPort_still
    | with_reducible apply State.portPhase_still

theorem execLcfTransmit_still (port : Nat) (s : State) : ∃ nxt, execLcfTransmit port s = .next nxt ∧ s.Still nxt := by
  unfold execLcfTransmit
  refine State.Still.live ?_
  have hL := State.Still.refl s
  repeat' first
    | with_reducible assumption
    | with_reducible apply State.onlyIf_still
    | with_reducible apply State.sendLcf_still
    | with_reducible apply State.Still.ite
    | with_reducible refine State.Still.ite1 ?_ ?_
    | intro _

theorem execLightDetected_still (port : Nat) (s : State) : ∃ nxt, execLightDetected port s = .next nxt ∧ s.Still nxt := by
  unfold execLightDetected
  refine State.Still.live ?_
  have hL := State.Still.refl s
  repeat' first
    | with_reducible assumption
    | with_reducible apply State.onlyIf_still
    | with_reducible apply State.setPort_still
    | with_reducible apply State.trainPort_still
    | with_reducible apply State.Still.ite
    | with_reducible refine State.Still.ite1 ?_ ?_
    | intro _

theorem execTrainingComplete_still (port : Nat) (peer : Nat) (peerPort : Nat) (width : Nat) (s : State)
    : ∃ nxt, execTrainingComplete port peer peerPort width s = .next nxt ∧ s.Still nxt := by
  unfold execTrainingComplete
  refine State.Still.live ?_
  have hL := State.Still.refl s
  repeat' first
    | with_reducible assumption
    | with_reducible apply State.onlyIf_still
    | with_reducible apply State.setPort_still
    | with_reducible apply State.checkPeer_still
    | with_reducible apply State.Still.ite
    | with_reducible refine State.Still.ite1 ?_ ?_
    | intro _

theorem execTrainingTimeout_still (port : Nat) (s : State) : ∃ nxt, execTrainingTimeout port s = .next nxt ∧ s.Still nxt := by
  unfold execTrainingTimeout
  refine State.Still.live ?_
  have hL := State.Still.refl s
  repeat' first
    | with_reducible assumption
    | with_reducible apply State.onlyIf_still
    | with_reducible apply State.portLost_still
    | with_reducible apply State.Still.ite
    | with_reducible refine State.Still.ite1 ?_ ?_
    | intro _

theorem execTrainingRetry_still (port : Nat) (s : State) : ∃ nxt, execTrainingRetry port s = .next nxt ∧ s.Still nxt := by
  unfold execTrainingRetry
  refine State.Still.live ?_
  have hL := State.Still.refl s
  repeat' first
    | with_reducible assumption
    | with_reducible apply State.onlyIf_still
    | with_reducible apply State.trainPort_still
    | with_reducible apply State.Still.ite
    | with_reducible refine State.Still.ite1 ?_ ?_
    | intro _

theorem execLossOfLight_still (port : Nat) (s : State) : ∃ nxt, execLossOfLight port s = .next nxt ∧ s.Still nxt := by
  unfold execLossOfLight
  refine State.Still.live ?_
  have hL := State.Still.refl s
  repeat' first
    | with_reducible assumption
    | with_reducible apply State.bump_still
    | with_reducible apply State.logError_still
    | with_reducible apply State.onlyIf_still
    | with_reducible apply State.setPort_still
    | with_reducible apply State.portLost_still
    | with_reducible apply State.Still.ite
    | with_reducible refine State.Still.ite1 ?_ ?_
    | intro _

theorem execConnectorRemoval_still (engine : Nat) (s : State) : ∃ nxt, execConnectorRemoval engine s = .next nxt
    ∧ s.Still nxt := by
  unfold execConnectorRemoval
  refine State.Still.live ?_
  have hL := State.Still.refl s
  repeat' first
    | with_reducible assumption
    | with_reducible apply State.bump_still
    | with_reducible apply State.onlyIf_still
    | with_reducible apply State.setPort_still
    | with_reducible apply State.portLost_still
    | with_reducible apply State.Still.ite
    | with_reducible refine State.Still.ite1 ?_ ?_
    | intro _
    | with_reducible refine State.Still.foldl ?_ (fun _ _ _ => ?_)

theorem execFabricIdSet_still (c : Command) (s : State) : ∃ nxt, execFabricIdSet c s = .next nxt ∧ s.Still nxt := by
  unfold execFabricIdSet
  refine State.Still.live ?_
  have hL := State.Still.refl s
  repeat' first
    | with_reducible assumption
    | with_reducible apply State.finish_still
    | with_reducible apply State.checked_still
    | with_reducible apply State.tcReselect_still
    | with_reducible apply State.Still.ite
    | with_reducible refine State.Still.ite1 ?_ ?_
    | intro _
    | fail_if_no_progress (with_reducible refine State.Still.upd ?_ rfl rfl rfl rfl rfl)

theorem execLinkStatus_still (c : Command) (s : State) : ∃ nxt, execLinkStatus c s = .next nxt ∧ s.Still nxt := by
  unfold execLinkStatus
  refine State.Still.live ?_
  have hL := State.Still.refl s
  repeat' first
    | with_reducible assumption
    | with_reducible apply State.finish_still
    | with_reducible apply State.checked_still
    | with_reducible apply State.Still.ite
    | with_reducible refine State.Still.ite1 ?_ ?_
    | intro _

end Sys2Proof.Machine
end

