-- ==== Sys2Proof/Laws/StillRest.lean ====
section
/-! SUPPORT. What leaves every memory as it is: every other command that stores to no tier and no scratchpad. -/

namespace Sys2Proof.Machine

theorem State.setFarState_still {s0 : State} {s : State} (c : Nat) (new : Nat) (hL : s0.Still s) :
    s0.Still (State.setFarState s c new) := by
  unfold State.setFarState
  repeat' first
    | with_reducible assumption
    | with_reducible apply State.setFld_still
    | with_reducible apply State.recordAll_still
    | with_reducible apply State.Still.ite

theorem State.nextChunk_still {s0 : State} {s : State} (ch : Nat) (hL : s0.Still s) :
    s0.Still (State.nextChunk s ch) := by
  unfold State.nextChunk
  repeat' first
    | with_reducible assumption
    | with_reducible apply State.setChunk_still
    | with_reducible apply State.Still.ite
    | with_reducible refine State.Still.ite1 ?_ ?_
    | intro _
    | fail_if_no_progress (with_reducible refine State.Still.upd ?_ rfl rfl rfl rfl rfl)
    | with_reducible refine State.Still.snd ?_ (by assumption)
    | with_reducible refine State.Still.fst ?_ (by assumption)
    | extract_lets
    | split

theorem State.startMove_still {s0 : State} {s : State} (c : Command) (back : Bool) (hL : s0.Still s) :
    s0.Still (State.startMove s c back) := by
  unfold State.startMove
  repeat' first
    | with_reducible assumption
    | with_reducible apply State.defer_still
    | with_reducible apply State.nextChunk_still
    | with_reducible apply State.Still.ite
    | with_reducible refine State.Still.ite1 ?_ ?_
    | intro _
    | fail_if_no_progress (with_reducible refine State.Still.upd ?_ rfl rfl rfl rfl rfl)

theorem execMapDestroy_still (c : Command) (s : State) : ∃ nxt, execMapDestroy c s = .next nxt ∧ s.Still nxt := by
  unfold execMapDestroy
  refine State.Still.live ?_
  have hL := State.Still.refl s
  repeat' first
    | with_reducible assumption
    | with_reducible apply State.defer_still
    | with_reducible apply State.checked_still
    | with_reducible apply State.setMap_still
    | with_reducible apply State.Still.ite
    | with_reducible refine State.Still.ite1 ?_ ?_
    | intro _

theorem execMapDestroyDone_still (slot : Nat) (s : State) : ∃ nxt, execMapDestroyDone slot s = .next nxt ∧ s.Still nxt := by
  unfold execMapDestroyDone
  refine State.Still.live ?_
  have hL := State.Still.refl s
  repeat' first
    | with_reducible assumption
    | with_reducible apply State.deferredDone_still
    | with_reducible apply State.onlyIf_still
    | with_reducible apply State.setMap_still
    | with_reducible apply State.Still.ite
    | with_reducible refine State.Still.ite1 ?_ ?_
    | intro _
    | fail_if_no_progress (with_reducible refine State.Still.upd ?_ rfl rfl rfl rfl rfl)
    | with_reducible refine State.Still.snd ?_ (by assumption)
    | with_reducible refine State.Still.fst ?_ (by assumption)
    | extract_lets
    | split

theorem execFarMigrateOut_still (c : Command) (s : State) : ∃ nxt, execFarMigrateOut c s = .next nxt ∧ s.Still nxt := by
  unfold execFarMigrateOut
  refine State.Still.live ?_
  have hL := State.Still.refl s
  repeat' first
    | with_reducible assumption
    | with_reducible apply State.checked_still
    | with_reducible apply State.startMove_still
    | with_reducible apply State.Still.ite
    | with_reducible refine State.Still.ite1 ?_ ?_
    | intro _

theorem execFarMigrateBack_still (c : Command) (s : State) : ∃ nxt, execFarMigrateBack c s = .next nxt ∧ s.Still nxt := by
  unfold execFarMigrateBack
  refine State.Still.live ?_
  have hL := State.Still.refl s
  repeat' first
    | with_reducible assumption
    | with_reducible apply State.checked_still
    | with_reducible apply State.startMove_still
    | with_reducible apply State.Still.ite
    | with_reducible refine State.Still.ite1 ?_ ?_
    | intro _

theorem execFarMigrateRelease_still (c : Command) (s : State) : ∃ nxt, execFarMigrateRelease c s = .next nxt ∧ s.Still nxt := by
  unfold execFarMigrateRelease
  refine State.Still.live ?_
  have hL := State.Still.refl s
  repeat' first
    | with_reducible assumption
    | with_reducible apply State.finish_still
    | with_reducible apply State.checked_still
    | with_reducible apply State.setChunk_still
    | with_reducible apply State.Still.ite
    | with_reducible refine State.Still.ite1 ?_ ?_
    | intro _
    | with_reducible refine State.Still.foldl ?_ (fun _ _ _ => ?_)

theorem execFarOffline_still (c : Command) (s : State) : ∃ nxt, execFarOffline c s = .next nxt ∧ s.Still nxt := by
  unfold execFarOffline
  refine State.Still.live ?_
  have hL := State.Still.refl s
  repeat' first
    | with_reducible assumption
    | with_reducible apply State.finish_still
    | with_reducible apply State.checked_still
    | with_reducible apply State.xancaChange_still
    | with_reducible apply State.csClearBits_still
    | with_reducible apply State.setChunk_still
    | with_reducible apply State.setFarState_still
    | with_reducible apply State.Still.ite
    | with_reducible refine State.Still.ite1 ?_ ?_
    | intro _
    | with_reducible refine State.Still.foldl ?_ (fun _ _ _ => ?_)
    | fail_if_no_progress (with_reducible refine State.Still.upd ?_ rfl rfl rfl rfl rfl)

theorem execFarOnline_still (c : Command) (s : State) : ∃ nxt, execFarOnline c s = .next nxt ∧ s.Still nxt := by
  unfold execFarOnline
  refine State.Still.live ?_
  have hL := State.Still.refl s
  repeat' first
    | with_reducible assumption
    | with_reducible apply State.defer_still
    | with_reducible apply State.checked_still
    | with_reducible apply State.setFarState_still
    | with_reducible apply State.Still.ite
    | with_reducible refine State.Still.ite1 ?_ ?_
    | intro _
    | fail_if_no_progress (with_reducible refine State.Still.upd ?_ rfl rfl rfl rfl rfl)

theorem execSlotPowerFall_still (channel : Nat) (s : State) : ∃ nxt, execSlotPowerFall channel s = .next nxt ∧ s.Still nxt := by
  unfold execSlotPowerFall
  refine State.Still.live ?_
  have hL := State.Still.refl s
  repeat' first
    | with_reducible assumption
    | with_reducible apply State.onlyIf_still
    | with_reducible apply State.Still.ite
    | with_reducible refine State.Still.ite1 ?_ ?_
    | intro _
    | fail_if_no_progress (with_reducible refine State.Still.upd ?_ rfl rfl rfl rfl rfl)

theorem State.deviceFault_still {s0 : State} {s : State} (u : Nat) (bs : List Nat) (hL : s0.Still s) :
    s0.Still (State.deviceFault s u bs) := by
  unfold State.deviceFault
  repeat' first
    | with_reducible assumption
    | with_reducible apply State.csClearBits_still
    | with_reducible apply State.degradedRecord_still

theorem State.retireControl_still {s0 : State} {s : State} (n : Nat) (injected : Bool) (hL : s0.Still s) :
    s0.Still (State.retireControl s n injected) := by
  unfold State.retireControl
  repeat' first
    | with_reducible assumption
    | with_reducible apply State.mramRepair_still
    | with_reducible apply State.degradedRecord_still
    | with_reducible apply State.deviceFault_still
    | with_reducible apply State.Still.ite
    | with_reducible refine State.Still.ite1 ?_ ?_
    | intro _
    | fail_if_no_progress (with_reducible refine State.Still.upd ?_ rfl rfl rfl rfl rfl)

theorem execSweep_still (c : Nat) (s : State) : ∃ nxt, execSweep c s = .next nxt ∧ s.Still nxt := by
  unfold execSweep
  refine State.Still.live ?_
  have hL := State.Still.refl s
  repeat' first
    | with_reducible assumption
    | with_reducible apply State.onlyIf_still
    | with_reducible apply State.Still.ite
    | with_reducible refine State.Still.ite1 ?_ ?_
    | intro _
    | fail_if_no_progress (with_reducible refine State.Still.upd ?_ rfl rfl rfl rfl rfl)
    | with_reducible refine State.Still.snd ?_ (by assumption)
    | with_reducible refine State.Still.fst ?_ (by assumption)
    | extract_lets
    | split

theorem execErrorLogRead_still (c : Command) (s : State) : ∃ nxt, execErrorLogRead c s = .next nxt ∧ s.Still nxt := by
  unfold execErrorLogRead
  refine State.Still.live ?_
  have hL := State.Still.refl s
  repeat' first
    | with_reducible assumption
    | with_reducible apply State.finish_still
    | with_reducible apply State.checked_still
    | with_reducible apply State.Still.ite
    | with_reducible refine State.Still.ite1 ?_ ?_
    | intro _
    | fail_if_no_progress (with_reducible refine State.Still.upd ?_ rfl rfl rfl rfl rfl)

theorem execHeartbeat_still (n : Nat) (s : State) : ∃ nxt, execHeartbeat n s = .next nxt ∧ s.Still nxt := by
  unfold execHeartbeat
  refine State.Still.live ?_
  have hL := State.Still.refl s
  repeat' first
    | with_reducible assumption
    | with_reducible apply State.onlyIf_still
    | with_reducible apply State.Still.ite
    | with_reducible refine State.Still.ite1 ?_ ?_
    | intro _
    | fail_if_no_progress (with_reducible refine State.Still.upd ?_ rfl rfl rfl rfl rfl)

theorem execControlHeartbeatTimeout_still (n : Nat) (s : State) : ∃ nxt, execControlHeartbeatTimeout n s = .next nxt
    ∧ s.Still nxt := by
  unfold execControlHeartbeatTimeout
  refine State.Still.live ?_
  have hL := State.Still.refl s
  repeat' first
    | with_reducible assumption
    | with_reducible apply State.stamp_still
    | with_reducible apply State.countError_still
    | with_reducible apply State.logEntry_still
    | with_reducible apply State.logError_still
    | with_reducible apply State.onlyIf_still
    | with_reducible apply State.retireControl_still
    | with_reducible apply State.Still.ite
    | with_reducible refine State.Still.ite1 ?_ ?_
    | intro _
    | fail_if_no_progress (with_reducible refine State.Still.upd ?_ rfl rfl rfl rfl rfl)

theorem State.resRecord_still {s0 : State} {s : State} (slot : Nat) (type : Nat) (status : Nat) (body : List Byte) (hL
    : s0.Still s) :
    s0.Still (State.resRecord s slot type status body) := by
  unfold State.resRecord
  repeat' first
    | with_reducible assumption
    | with_reducible apply State.recordCmd_still
    | with_reducible apply State.Still.ite
    | with_reducible refine State.Still.ite1 ?_ ?_
    | intro _
    | fail_if_no_progress (with_reducible refine State.Still.upd ?_ rfl rfl rfl rfl rfl)
    | with_reducible refine State.Still.snd ?_ (by assumption)
    | with_reducible refine State.Still.fst ?_ (by assumption)
    | extract_lets
    | split

theorem State.partnerState_still {s0 : State} {s : State} (slot : Nat) (event : Nat) (partner : Nat) (feed : Nat) (hL
    : s0.Still s) :
    s0.Still (State.partnerState s slot event partner feed) := by
  unfold State.partnerState
  repeat' first
    | with_reducible assumption
    | with_reducible apply State.recordAll_still

theorem State.sendBulk_still {s0 : State} {s : State} (slot : Nat) (dst : Nat) (m : Bulk) (offset : Nat) (payload
    : List Byte) (hL : s0.Still s) :
    s0.Still (State.sendBulk s slot dst m offset payload) := by
  unfold State.sendBulk
  repeat' first
    | with_reducible assumption
    | with_reducible apply State.draw_still
    | with_reducible apply State.bump_still
    | with_reducible apply State.emit_still
    | with_reducible apply State.originate_still

theorem State.sendBlock_still {s0 : State} {s : State} (slot : Nat) (partner : Nat) (x : Snap) (b : Nat) (hL : s0.Still s) :
    s0.Still (State.sendBlock s slot partner x b) := by
  unfold State.sendBlock
  repeat' first
    | with_reducible assumption
    | with_reducible apply State.sendBulk_still
    | with_reducible apply State.Still.ite
    | with_reducible refine State.Still.ite1 ?_ ?_
    | intro _
    | with_reducible refine State.Still.foldl ?_ (fun _ _ _ => ?_)

theorem State.startNegative_still {s0 : State} {s : State} (slot : Nat) (k : Nat) (hL : s0.Still s) :
    s0.Still (State.startNegative s slot k) := by
  unfold State.startNegative
  repeat' first
    | with_reducible assumption
    | with_reducible apply State.setRjob_still
    | with_reducible apply State.sendBulk_still
    | with_reducible apply State.sendBlock_still
    | with_reducible apply State.Still.ite
    | with_reducible refine State.Still.ite1 ?_ ?_
    | intro _
    | with_reducible refine State.Still.foldl ?_ (fun _ _ _ => ?_)
    | fail_if_no_progress (with_reducible refine State.Still.upd ?_ rfl rfl rfl rfl rfl)
    | with_reducible refine State.Still.snd ?_ (by assumption)
    | with_reducible refine State.Still.fst ?_ (by assumption)
    | extract_lets
    | split

theorem State.abandonNegative_still {s0 : State} {s : State} (slot : Nat) (reason : Nat) (hL : s0.Still s) :
    s0.Still (State.abandonNegative s slot reason) := by
  unfold State.abandonNegative
  repeat' first
    | with_reducible assumption
    | with_reducible apply State.bump_still
    | with_reducible apply State.setRjob_still
    | with_reducible apply State.resRecord_still
    | with_reducible apply State.startNegative_still
    | with_reducible apply State.Still.ite
    | with_reducible refine State.Still.ite1 ?_ ?_
    | intro _
    | fail_if_no_progress (with_reducible refine State.Still.upd ?_ rfl rfl rfl rfl rfl)
    | with_reducible refine State.Still.snd ?_ (by assumption)
    | with_reducible refine State.Still.fst ?_ (by assumption)
    | extract_lets
    | split

theorem State.negativeDone_still {s0 : State} {s : State} (slot : Nat) (other : Nat) (step : Nat) (bytes : Nat) (cofed
    : Bool) (hL : s0.Still s) :
    s0.Still (State.negativeDone s slot other step bytes cofed) := by
  unfold State.negativeDone
  repeat' first
    | with_reducible assumption
    | with_reducible apply State.stamp_still
    | with_reducible apply State.resRecord_still

theorem State.releaseInherited_still {s0 : State} {s : State} (slot : Nat) (ranges : List (Nat × Nat)) (hL : s0.Still s) :
    s0.Still (State.releaseInherited s slot ranges) := by
  unfold State.releaseInherited
  repeat' first
    | with_reducible assumption
    | with_reducible apply State.setRjob_still
    | with_reducible apply State.sendBulk_still
    | with_reducible apply State.Still.ite
    | with_reducible refine State.Still.ite1 ?_ ?_
    | intro _
    | (with_reducible refine State.Still.foldl ?_ (fun _ _ _ => ?_) <;> beta_reduce)

theorem State.releaseOld_still {s0 : State} {s : State} (slot : Nat) (hL : s0.Still s) :
    s0.Still (State.releaseOld s slot) := by
  unfold State.releaseOld
  repeat' first
    | with_reducible assumption
    | with_reducible apply State.deferredDone_still
    | with_reducible apply State.setRjob_still
    | with_reducible apply State.partnerState_still
    | with_reducible apply State.sendBulk_still
    | with_reducible apply State.Still.ite
    | with_reducible refine State.Still.ite1 ?_ ?_
    | intro _
    | fail_if_no_progress (with_reducible refine State.Still.upd ?_ rfl rfl rfl rfl rfl)
    | with_reducible refine State.Still.snd ?_ (by assumption)
    | with_reducible refine State.Still.fst ?_ (by assumption)
    | extract_lets
    | split

theorem State.finishNegative_still {s0 : State} {s : State} (slot : Nat) (n : Negative) (hL : s0.Still s) :
    s0.Still (State.finishNegative s slot n) := by
  unfold State.finishNegative
  repeat' first
    | with_reducible assumption
    | with_reducible apply State.bump_still
    | with_reducible apply State.setRjob_still
    | with_reducible apply State.startNegative_still
    | with_reducible apply State.negativeDone_still
    | with_reducible apply State.releaseInherited_still
    | with_reducible apply State.releaseOld_still
    | with_reducible apply State.Still.ite
    | with_reducible refine State.Still.ite1 ?_ ?_
    | intro _
    | fail_if_no_progress (with_reducible refine State.Still.upd ?_ rfl rfl rfl rfl rfl)
    | with_reducible refine State.Still.snd ?_ (by assumption)
    | with_reducible refine State.Still.fst ?_ (by assumption)
    | extract_lets
    | split

theorem State.blockAcked_still {s0 : State} {s : State} (slot : Nat) (src : Nat) (step : Nat) (b : Nat) (ok : Bool) (hL
    : s0.Still s) :
    s0.Still (State.blockAcked s slot src step b ok) := by
  unfold State.blockAcked
  repeat' first
    | with_reducible assumption
    | with_reducible apply State.setRjob_still
    | with_reducible apply State.sendBlock_still
    | with_reducible apply State.abandonNegative_still
    | with_reducible apply State.finishNegative_still
    | with_reducible apply State.Still.ite
    | with_reducible refine State.Still.ite1 ?_ ?_
    | intro _
    | fail_if_no_progress (with_reducible refine State.Still.upd ?_ rfl rfl rfl rfl rfl)
    | with_reducible refine State.Still.snd ?_ (by assumption)
    | with_reducible refine State.Still.fst ?_ (by assumption)
    | extract_lets
    | split

theorem State.losePartner_still {s0 : State} {s : State} (slot : Nat) (reason : Nat) (hL : s0.Still s) :
    s0.Still (State.losePartner s slot reason) := by
  unfold State.losePartner
  repeat' first
    | with_reducible assumption
    | with_reducible apply State.setRjob_still
    | with_reducible apply State.partnerState_still
    | with_reducible apply State.abandonNegative_still

theorem State.beginFreeze_still {s0 : State} {s : State} (slot : Nat) (f : Freeze) (hL : s0.Still s) :
    s0.Still (State.beginFreeze s slot f) := by
  unfold State.beginFreeze
  repeat' first
    | with_reducible assumption
    | with_reducible apply State.setRjob_still

theorem State.setInbound_still {s0 : State} {s : State} (slot : Nat) (i : Inbound) (hL : s0.Still s) :
    s0.Still (State.setInbound s slot i) := by
  unfold State.setInbound
  repeat' first
    | with_reducible assumption
    | with_reducible apply State.setRjob_still

theorem State.pieceIn_still {s0 : State} {s : State} (slot : Nat) (src : Nat) (step : Nat) (off : Nat) (data
    : List Byte) (hL : s0.Still s) :
    s0.Still (State.pieceIn s slot src step off data) := by
  unfold State.pieceIn
  repeat' first
    | with_reducible assumption
    | with_reducible apply State.partnerState_still
    | with_reducible apply State.sendBulk_still
    | with_reducible apply State.negativeDone_still
    | with_reducible apply State.setInbound_still
    | with_reducible apply State.Still.ite
    | with_reducible refine State.Still.ite1 ?_ ?_
    | intro _
    | fail_if_no_progress (with_reducible refine State.Still.upd ?_ rfl rfl rfl rfl rfl)
    | with_reducible refine State.Still.snd ?_ (by assumption)
    | with_reducible refine State.Still.fst ?_ (by assumption)
    | extract_lets
    | split

theorem State.dropInbound_still {s0 : State} {s : State} (slot : Nat) (owner : Nat) (hL : s0.Still s) :
    s0.Still (State.dropInbound s slot owner) := by
  unfold State.dropInbound
  repeat' first
    | with_reducible assumption
    | with_reducible apply State.setRjob_still

theorem State.pairNow_still {s0 : State} {s : State} (slot : Nat) (x : Pairing) (hL : s0.Still s) :
    s0.Still (State.pairNow s slot x) := by
  unfold State.pairNow
  repeat' first
    | with_reducible assumption
    | with_reducible apply State.setRjob_still
    | with_reducible apply State.partnerState_still

theorem State.answered_still {s0 : State} {s : State} (slot : Nat) (src : Nat) (feed : Nat) (twin : Nat) (holdsJob
    : Bool) (room : Bool) (hL : s0.Still s) :
    s0.Still (State.answered s slot src feed twin holdsJob room) := by
  unfold State.answered
  repeat' first
    | with_reducible assumption
    | with_reducible apply State.finish_still
    | with_reducible apply State.badParam_still
    | with_reducible apply State.defer_still
    | with_reducible apply State.setRjob_still
    | with_reducible apply State.pairNow_still
    | with_reducible apply State.Still.ite
    | with_reducible refine State.Still.ite1 ?_ ?_
    | intro _
    | fail_if_no_progress (with_reducible refine State.Still.upd ?_ rfl rfl rfl rfl rfl)
    | with_reducible refine State.Still.snd ?_ (by assumption)
    | with_reducible refine State.Still.fst ?_ (by assumption)
    | extract_lets
    | split

theorem execUpdateGateTimeout_still (slot : Nat) (s : State) : ∃ nxt, execUpdateGateTimeout slot s = .next nxt
    ∧ s.Still nxt := by
  unfold execUpdateGateTimeout
  refine State.Still.live ?_
  have hL := State.Still.refl s
  repeat' first
    | with_reducible assumption
    | with_reducible apply State.deferredDone_still
    | with_reducible apply State.onlyIf_still
    | with_reducible apply State.setReelJob_still
    | with_reducible apply State.Still.ite
    | with_reducible refine State.Still.ite1 ?_ ?_
    | intro _
    | fail_if_no_progress (with_reducible refine State.Still.upd ?_ rfl rfl rfl rfl rfl)
    | with_reducible refine State.Still.snd ?_ (by assumption)
    | with_reducible refine State.Still.fst ?_ (by assumption)
    | extract_lets
    | split

theorem execReelShard_still (c : Command) (s : State) : ∃ nxt, execReelShard c s = .next nxt ∧ s.Still nxt := by
  unfold execReelShard
  refine State.Still.live ?_
  have hL := State.Still.refl s
  repeat' first
    | with_reducible assumption
    | with_reducible apply State.finish_still
    | with_reducible apply State.checked_still
    | with_reducible apply State.setShard_still
    | with_reducible apply State.Still.ite
    | with_reducible refine State.Still.ite1 ?_ ?_
    | intro _

theorem State.latestRes_still {s0 : State} {s : State} (c : Command) (hL : s0.Still s) :
    s0.Still (State.latestRes s c) := by
  unfold State.latestRes
  repeat' first
    | with_reducible assumption
    | with_reducible apply State.setRjob_still

theorem State.mirrorIn_still {s0 : State} {s : State} (slot : Nat) (src : Nat) (step : Nat) (data : List Byte) (hL
    : s0.Still s) :
    s0.Still (State.mirrorIn s slot src step data) := by
  unfold State.mirrorIn
  repeat' first
    | with_reducible assumption
    | with_reducible apply State.sendBulk_still
    | with_reducible apply State.setInbound_still
    | with_reducible apply State.Still.ite
    | with_reducible refine State.Still.ite1 ?_ ?_
    | intro _
    | fail_if_no_progress (with_reducible refine State.Still.upd ?_ rfl rfl rfl rfl rfl)
    | with_reducible refine State.Still.snd ?_ (by assumption)
    | with_reducible refine State.Still.fst ?_ (by assumption)
    | extract_lets
    | split

theorem State.mirrorAcked_still {s0 : State} {s : State} (slot : Nat) (src : Nat) (step : Nat) (hL : s0.Still s) :
    s0.Still (State.mirrorAcked s slot src step) := by
  unfold State.mirrorAcked
  repeat' first
    | with_reducible assumption
    | with_reducible apply State.setRjob_still
    | with_reducible apply State.Still.ite

theorem State.headerIn_still {s0 : State} {s : State} (slot : Nat) (src : Nat) (h : NegHeader) (hL : s0.Still s) :
    s0.Still (State.headerIn s slot src h) := by
  unfold State.headerIn
  repeat' first
    | with_reducible assumption
    | with_reducible apply State.setInbound_still
    | with_reducible apply State.Still.ite
    | with_reducible refine State.Still.ite1 ?_ ?_
    | intro _
    | fail_if_no_progress (with_reducible refine State.Still.upd ?_ rfl rfl rfl rfl rfl)
    | with_reducible refine State.Still.snd ?_ (by assumption)
    | with_reducible refine State.Still.fst ?_ (by assumption)
    | extract_lets
    | split

theorem State.loadAsked_still {s0 : State} {s : State} (slot : Nat) (src : Nat) (owner : Nat) (step : Nat) (hL : s0.Still s) :
    s0.Still (State.loadAsked s slot src owner step) := by
  unfold State.loadAsked
  repeat' first
    | with_reducible assumption
    | with_reducible apply State.sendBulk_still
    | with_reducible apply State.Still.ite
    | with_reducible refine State.Still.ite1 ?_ ?_
    | intro _
    | with_reducible refine State.Still.foldl ?_ (fun _ _ _ => ?_)
    | fail_if_no_progress (with_reducible refine State.Still.upd ?_ rfl rfl rfl rfl rfl)
    | with_reducible refine State.Still.snd ?_ (by assumption)
    | with_reducible refine State.Still.fst ?_ (by assumption)
    | extract_lets
    | split

theorem State.startLoad_still {s0 : State} {s : State} (slot : Nat) (c : Command) (hL : s0.Still s) :
    s0.Still (State.startLoad s slot c) := by
  unfold State.startLoad
  repeat' first
    | with_reducible assumption
    | with_reducible apply State.deferredDone_still
    | with_reducible apply State.setRjob_still
    | with_reducible apply State.sendBulk_still
    | with_reducible apply State.Still.ite
    | with_reducible refine State.Still.ite1 ?_ ?_
    | intro _
    | fail_if_no_progress (with_reducible refine State.Still.upd ?_ rfl rfl rfl rfl rfl)
    | with_reducible refine State.Still.snd ?_ (by assumption)
    | with_reducible refine State.Still.fst ?_ (by assumption)
    | extract_lets
    | split

theorem State.endLoad_still {s0 : State} {s : State} (slot : Nat) (status : Nat) (detail : Nat) (result : List Byte)
    (hL : s0.Still s) :
    s0.Still (State.endLoad s slot status detail result) := by
  unfold State.endLoad
  repeat' first
    | with_reducible assumption
    | with_reducible apply State.deferredDoneWith_still
    | with_reducible apply State.setRjob_still
    | with_reducible apply State.startLoad_still
    | with_reducible apply State.Still.ite
    | with_reducible refine State.Still.ite1 ?_ ?_
    | intro _
    | fail_if_no_progress (with_reducible refine State.Still.upd ?_ rfl rfl rfl rfl rfl)
    | with_reducible refine State.Still.snd ?_ (by assumption)
    | with_reducible refine State.Still.fst ?_ (by assumption)
    | extract_lets
    | split

theorem State.loadPieceIn_still {s0 : State} {s : State} (slot : Nat) (src : Nat) (off : Nat) (data : List Byte) (hL
    : s0.Still s) :
    s0.Still (State.loadPieceIn s slot src off data) := by
  unfold State.loadPieceIn
  repeat' first
    | with_reducible assumption
    | with_reducible apply State.setRjob_still
    | with_reducible apply State.sendBulk_still
    | with_reducible apply State.endLoad_still
    | with_reducible apply State.Still.ite
    | with_reducible refine State.Still.ite1 ?_ ?_
    | intro _
    | fail_if_no_progress (with_reducible refine State.Still.upd ?_ rfl rfl rfl rfl rfl)
    | with_reducible refine State.Still.snd ?_ (by assumption)
    | with_reducible refine State.Still.fst ?_ (by assumption)
    | extract_lets
    | split

theorem execBulkPacket_still (f : Frame) (b : Bulk) (s : State) : ∃ nxt, execBulkPacket f b s = .next nxt ∧ s.Still nxt := by
  unfold execBulkPacket
  refine State.Still.live ?_
  have hL := State.Still.refl s
  repeat' first
    | with_reducible assumption
    | with_reducible apply State.acceptPacket_still
    | with_reducible apply State.frameIn_still
    | with_reducible apply State.setRjob_still
    | with_reducible apply State.partnerState_still
    | with_reducible apply State.blockAcked_still
    | with_reducible apply State.pieceIn_still
    | with_reducible apply State.dropInbound_still
    | with_reducible apply State.answered_still
    | with_reducible apply State.mirrorIn_still
    | with_reducible apply State.mirrorAcked_still
    | with_reducible apply State.headerIn_still
    | with_reducible apply State.loadAsked_still
    | with_reducible apply State.endLoad_still
    | with_reducible apply State.loadPieceIn_still
    | with_reducible apply State.Still.ite
    | with_reducible refine State.Still.ite1 ?_ ?_
    | intro _
    | fail_if_no_progress (with_reducible refine State.Still.upd ?_ rfl rfl rfl rfl rfl)
    | with_reducible refine State.Still.snd ?_ (by assumption)
    | with_reducible refine State.Still.fst ?_ (by assumption)
    | extract_lets
    | split

theorem execPartnerHandshake_still (f : Frame) (feed : Nat) (s : State)
    : ∃ nxt, execPartnerHandshake f feed s = .next nxt ∧ s.Still nxt := by
  unfold execPartnerHandshake
  refine State.Still.live ?_
  have hL := State.Still.refl s
  repeat' first
    | with_reducible assumption
    | with_reducible apply State.draw_still
    | with_reducible apply State.emit_still
    | with_reducible apply State.sendPacket_still
    | with_reducible apply State.acceptPacket_still
    | with_reducible apply State.frameAt_still
    | with_reducible apply State.sendBulk_still
    | with_reducible apply State.Still.ite
    | with_reducible refine State.Still.ite1 ?_ ?_
    | intro _
    | fail_if_no_progress (with_reducible refine State.Still.upd ?_ rfl rfl rfl rfl rfl)
    | with_reducible refine State.Still.snd ?_ (by assumption)
    | with_reducible refine State.Still.fst ?_ (by assumption)
    | extract_lets
    | split

theorem execPartnerSet_still (c : Command) (s : State) : ∃ nxt, execPartnerSet c s = .next nxt ∧ s.Still nxt := by
  unfold execPartnerSet
  refine State.Still.live ?_
  have hL := State.Still.refl s
  repeat' first
    | with_reducible assumption
    | with_reducible apply State.checked_still
    | with_reducible apply State.setRjob_still
    | with_reducible apply State.sendBulk_still
    | with_reducible apply State.latestRes_still
    | with_reducible apply State.Still.ite
    | with_reducible refine State.Still.ite1 ?_ ?_
    | intro _

theorem execPartnerHandshakeLimit_still (slot : Nat) (s : State) : ∃ nxt, execPartnerHandshakeLimit slot s = .next nxt
    ∧ s.Still nxt := by
  unfold execPartnerHandshakeLimit
  refine State.Still.live ?_
  have hL := State.Still.refl s
  repeat' first
    | with_reducible assumption
    | with_reducible apply State.finish_still
    | with_reducible apply State.onlyIf_still
    | with_reducible apply State.setRjob_still
    | with_reducible apply State.Still.ite
    | with_reducible refine State.Still.ite1 ?_ ?_
    | intro _
    | fail_if_no_progress (with_reducible refine State.Still.upd ?_ rfl rfl rfl rfl rfl)
    | with_reducible refine State.Still.snd ?_ (by assumption)
    | with_reducible refine State.Still.fst ?_ (by assumption)
    | extract_lets
    | split

theorem execPartnerLimit_still (slot : Nat) (s : State) : ∃ nxt, execPartnerLimit slot s = .next nxt ∧ s.Still nxt := by
  unfold execPartnerLimit
  refine State.Still.live ?_
  have hL := State.Still.refl s
  repeat' first
    | with_reducible assumption
    | with_reducible apply State.onlyIf_still
    | with_reducible apply State.losePartner_still
    | with_reducible apply State.Still.ite
    | with_reducible refine State.Still.ite1 ?_ ?_
    | intro _

theorem execFeedTagSet_still (c : Command) (s : State) : ∃ nxt, execFeedTagSet c s = .next nxt ∧ s.Still nxt := by
  unfold execFeedTagSet
  refine State.Still.live ?_
  have hL := State.Still.refl s
  repeat' first
    | with_reducible assumption
    | with_reducible apply State.setFld_still
    | with_reducible apply State.finish_still
    | with_reducible apply State.checked_still
    | with_reducible apply State.Still.ite
    | with_reducible refine State.Still.ite1 ?_ ?_
    | intro _

theorem execFreezeSet_still (c : Command) (s : State) : ∃ nxt, execFreezeSet c s = .next nxt ∧ s.Still nxt := by
  unfold execFreezeSet
  refine State.Still.live ?_
  have hL := State.Still.refl s
  repeat' first
    | with_reducible assumption
    | with_reducible apply State.finish_still
    | with_reducible apply State.defer_still
    | with_reducible apply State.checked_still
    | with_reducible apply State.setRjob_still
    | with_reducible apply State.beginFreeze_still
    | with_reducible apply State.latestRes_still
    | with_reducible apply State.Still.ite
    | with_reducible refine State.Still.ite1 ?_ ?_
    | intro _

theorem execFreezeTake_still (c : Command) (s : State) : ∃ nxt, execFreezeTake c s = .next nxt ∧ s.Still nxt := by
  unfold execFreezeTake
  refine State.Still.live ?_
  have hL := State.Still.refl s
  repeat' first
    | with_reducible assumption
    | with_reducible apply State.defer_still
    | with_reducible apply State.checked_still
    | with_reducible apply State.setRjob_still
    | with_reducible apply State.beginFreeze_still
    | with_reducible apply State.latestRes_still
    | with_reducible apply State.Still.ite
    | with_reducible refine State.Still.ite1 ?_ ?_
    | intro _

theorem execSlateMirror_still (slot : Nat) (s : State) : ∃ nxt, execSlateMirror slot s = .next nxt ∧ s.Still nxt := by
  unfold execSlateMirror
  refine State.Still.live ?_
  have hL := State.Still.refl s
  repeat' first
    | with_reducible assumption
    | with_reducible apply State.onlyIf_still
    | with_reducible apply State.setRjob_still
    | with_reducible apply State.sendBulk_still
    | with_reducible apply State.Still.ite
    | with_reducible refine State.Still.ite1 ?_ ?_
    | intro _
    | fail_if_no_progress (with_reducible refine State.Still.upd ?_ rfl rfl rfl rfl rfl)
    | with_reducible refine State.Still.snd ?_ (by assumption)
    | with_reducible refine State.Still.fst ?_ (by assumption)
    | extract_lets
    | split

theorem execNegativeLoad_still (c : Command) (s : State) : ∃ nxt, execNegativeLoad c s = .next nxt ∧ s.Still nxt := by
  unfold execNegativeLoad
  refine State.Still.live ?_
  have hL := State.Still.refl s
  repeat' first
    | with_reducible assumption
    | with_reducible apply State.defer_still
    | with_reducible apply State.checked_still
    | with_reducible apply State.setRjob_still
    | with_reducible apply State.latestRes_still
    | with_reducible apply State.startLoad_still
    | with_reducible apply State.Still.ite
    | with_reducible refine State.Still.ite1 ?_ ?_
    | intro _

theorem execRetakeRun_still (c : Command) (s : State) : ∃ nxt, execRetakeRun c s = .next nxt ∧ s.Still nxt := by
  unfold execRetakeRun
  refine State.Still.live ?_
  have hL := State.Still.refl s
  repeat' first
    | with_reducible assumption
    | with_reducible apply State.defer_still
    | with_reducible apply State.checked_still
    | with_reducible apply State.setRjob_still
    | with_reducible apply State.latestRes_still
    | with_reducible apply State.Still.ite
    | with_reducible refine State.Still.ite1 ?_ ?_
    | intro _

theorem State.setQp_still {s0 : State} {s : State} (n : Nat) (q : QueuePair) (hL : s0.Still s) :
    s0.Still (State.setQp s n q) := by
  unfold State.setQp
  repeat' first
    | with_reducible assumption
    | with_reducible apply State.Still.ite
    | with_reducible refine State.Still.ite1 ?_ ?_
    | intro _
    | fail_if_no_progress (with_reducible refine State.Still.upd ?_ rfl rfl rfl rfl rfl)

theorem State.qpRecord_still {s0 : State} {s : State} (q : QueuePair) (type : Nat) (status : Nat) (body : List Byte)
    (hL : s0.Still s) :
    s0.Still (State.qpRecord s q type status body) := by
  unfold State.qpRecord
  repeat' first
    | with_reducible assumption
    | with_reducible apply State.postTo_still
    | with_reducible apply State.recordAll_still
    | with_reducible apply State.Still.ite

theorem State.qpState_still {s0 : State} {s : State} (n : Nat) (q : QueuePair) (new : Nat) (cause : Nat) (status : Nat)
    (hL : s0.Still s) :
    s0.Still (State.qpState s n q new cause status) := by
  unfold State.qpState
  repeat' first
    | with_reducible assumption
    | with_reducible apply State.qpRecord_still

theorem execNeighbourDiscovery_still (target : Nat) (src : Nat) (s : State)
    : ∃ nxt, execNeighbourDiscovery target src s = .next nxt ∧ s.Still nxt := by
  unfold execNeighbourDiscovery
  refine State.Still.live ?_
  have hL := State.Still.refl s
  repeat' first
    | with_reducible assumption
    | with_reducible apply State.emit_still
    | with_reducible apply State.onlyIf_still
    | with_reducible apply State.rxBytes_still
    | with_reducible apply State.Still.ite
    | with_reducible refine State.Still.ite1 ?_ ?_
    | intro _

theorem execIcmpv6Echo_still (dst : Nat) (src : Nat) (data : List Byte) (s : State)
    : ∃ nxt, execIcmpv6Echo dst src data s = .next nxt ∧ s.Still nxt := by
  unfold execIcmpv6Echo
  refine State.Still.live ?_
  have hL := State.Still.refl s
  repeat' first
    | with_reducible assumption
    | with_reducible apply State.emit_still
    | with_reducible apply State.onlyIf_still
    | with_reducible apply State.rxBytes_still
    | with_reducible apply State.Still.ite
    | with_reducible refine State.Still.ite1 ?_ ?_
    | intro _

theorem execHostLinkLoss_still  (s : State) : ∃ nxt, execHostLinkLoss s = .next nxt ∧ s.Still nxt := by
  unfold execHostLinkLoss
  refine State.Still.live ?_
  have hL := State.Still.refl s
  repeat' first
    | with_reducible assumption
    | with_reducible apply State.setFld_still
    | with_reducible apply State.csDrop_still
    | with_reducible apply State.onlyIf_still
    | with_reducible apply State.Still.ite
    | with_reducible refine State.Still.ite1 ?_ ?_
    | intro _

theorem execPfcFrame_still (prio : Nat) (quanta : Nat) (s : State) : ∃ nxt, execPfcFrame prio quanta s = .next nxt
    ∧ s.Still nxt := by
  unfold execPfcFrame
  refine State.Still.live ?_
  have hL := State.Still.refl s
  repeat' first
    | with_reducible assumption
    | with_reducible apply State.onlyIf_still
    | with_reducible apply State.rxBytes_still
    | with_reducible apply State.Still.ite
    | with_reducible refine State.Still.ite1 ?_ ?_
    | intro _
    | fail_if_no_progress (with_reducible refine State.Still.upd ?_ rfl rfl rfl rfl rfl)

theorem execCmReq_still (r : CmReq) (s : State) : ∃ nxt, execCmReq r s = .next nxt ∧ s.Still nxt := by
  unfold execCmReq
  refine State.Still.live ?_
  have hL := State.Still.refl s
  repeat' first
    | with_reducible assumption
    | with_reducible apply State.draw_still
    | with_reducible apply State.emit_still
    | with_reducible apply State.onlyIf_still
    | with_reducible apply State.rxBytes_still
    | with_reducible apply State.setQp_still
    | with_reducible apply State.qpState_still
    | with_reducible apply State.Still.ite
    | with_reducible refine State.Still.ite1 ?_ ?_
    | intro _

theorem execCmDreq_still (qpn : Nat) (s : State) : ∃ nxt, execCmDreq qpn s = .next nxt ∧ s.Still nxt := by
  unfold execCmDreq
  refine State.Still.live ?_
  have hL := State.Still.refl s
  repeat' first
    | with_reducible assumption
    | with_reducible apply State.emit_still
    | with_reducible apply State.onlyIf_still
    | with_reducible apply State.rxBytes_still
    | with_reducible apply State.qpState_still
    | with_reducible apply State.Still.ite
    | with_reducible refine State.Still.ite1 ?_ ?_
    | intro _
    | fail_if_no_progress (with_reducible refine State.Still.upd ?_ rfl rfl rfl rfl rfl)
    | with_reducible refine State.Still.snd ?_ (by assumption)
    | with_reducible refine State.Still.fst ?_ (by assumption)
    | extract_lets
    | split

theorem State.bundleDone_still {s0 : State} {s : State} (p : Nat) (b : Nat) (hL : s0.Still s) :
    s0.Still (State.bundleDone s p b) := by
  unfold State.bundleDone
  repeat' first
    | with_reducible assumption
    | with_reducible apply State.setCore_still

theorem State.contFound_still {s0 : State} {s : State} (p : Nat) (line : Nat) (errors : Nat) (job : Nat) (flags : Nat)
    (hL : s0.Still s) :
    s0.Still (State.contFound s p line errors job flags) := by
  unfold State.contFound
  repeat' first
    | with_reducible assumption
    | with_reducible apply State.bump_still
    | with_reducible apply State.logError_still
    | with_reducible apply State.setFrameTag_still
    | with_reducible apply State.Still.ite

theorem State.contTouch_still {s0 : State} {s : State} (p : Nat) (job : Nat) (ls : List Nat) (hL : s0.Still s) :
    s0.Still (State.contTouch s p job ls) := by
  unfold State.contTouch
  repeat' first
    | with_reducible assumption
    | with_reducible apply State.contFound_still
    | with_reducible apply State.Still.ite
    | with_reducible refine State.Still.ite1 ?_ ?_
    | intro _
    | (with_reducible refine State.Still.foldl ?_ (fun _ _ _ => ?_) <;> beta_reduce)
    | fail_if_no_progress (with_reducible refine State.Still.upd ?_ rfl rfl rfl rfl rfl)

theorem execContScrub_still (p : Nat) (line : Nat) (errors : Nat) (passEnd : Bool) (s : State)
    : ∃ nxt, execContScrub p line errors passEnd s = .next nxt ∧ s.Still nxt := by
  unfold execContScrub
  refine State.Still.live ?_
  have hL := State.Still.refl s
  repeat' first
    | with_reducible assumption
    | with_reducible apply State.setReg_still
    | with_reducible apply State.onlyIf_still
    | with_reducible apply State.contFound_still
    | with_reducible apply State.contTouch_still
    | with_reducible apply State.Still.ite
    | with_reducible refine State.Still.ite1 ?_ ?_
    | intro _

theorem execEmptySlotStallRelease_still (p : Nat) (s : State) : ∃ nxt, execEmptySlotStallRelease p s = .next nxt
    ∧ s.Still nxt := by
  unfold execEmptySlotStallRelease
  refine State.Still.live ?_
  have hL := State.Still.refl s
  repeat' first
    | with_reducible assumption
    | with_reducible apply State.onlyIf_still
    | with_reducible apply State.endStall_still
    | with_reducible apply State.Still.ite
    | with_reducible refine State.Still.ite1 ?_ ?_
    | intro _
    | fail_if_no_progress (with_reducible refine State.Still.upd ?_ rfl rfl rfl rfl rfl)
    | with_reducible refine State.Still.snd ?_ (by assumption)
    | with_reducible refine State.Still.fst ?_ (by assumption)
    | extract_lets
    | split

theorem execWaitTagRelease_still (p : Nat) (s : State) : ∃ nxt, execWaitTagRelease p s = .next nxt ∧ s.Still nxt := by
  unfold execWaitTagRelease
  refine State.Still.live ?_
  have hL := State.Still.refl s
  repeat' first
    | with_reducible assumption
    | with_reducible apply State.onlyIf_still
    | with_reducible apply State.endStall_still
    | with_reducible apply State.bundleDone_still
    | with_reducible apply State.Still.ite
    | with_reducible refine State.Still.ite1 ?_ ?_
    | intro _
    | fail_if_no_progress (with_reducible refine State.Still.upd ?_ rfl rfl rfl rfl rfl)
    | with_reducible refine State.Still.snd ?_ (by assumption)
    | with_reducible refine State.Still.fst ?_ (by assumption)
    | extract_lets
    | split

theorem State.addRun_still {s0 : State} {s : State} (c : Command) (slot : Nat) (maxCores : Nat) (trace : Bool)
    (traceBuf : Nat) (ts : List Task) (hL : s0.Still s) :
    s0.Still (State.addRun s c slot maxCores trace traceBuf ts) := by
  unfold State.addRun
  repeat' first
    | with_reducible assumption
    | with_reducible apply State.Still.ite
    | with_reducible refine State.Still.ite1 ?_ ?_
    | intro _
    | fail_if_no_progress (with_reducible refine State.Still.upd ?_ rfl rfl rfl rfl rfl)

theorem execCoreGate_still (p : Nat) (s : State) : ∃ nxt, execCoreGate p s = .next nxt ∧ s.Still nxt := by
  unfold execCoreGate
  refine State.Still.live ?_
  have hL := State.Still.refl s
  repeat' first
    | with_reducible assumption
    | with_reducible apply State.onlyIf_still
    | with_reducible apply State.setCore_still
    | with_reducible apply State.idle_still
    | with_reducible apply State.Still.ite
    | with_reducible refine State.Still.ite1 ?_ ?_
    | intro _

theorem execOpeRepair_still (c : Command) (s : State) : ∃ nxt, execOpeRepair c s = .next nxt ∧ s.Still nxt := by
  unfold execOpeRepair
  refine State.Still.live ?_
  have hL := State.Still.refl s
  repeat' first
    | with_reducible assumption
    | with_reducible apply State.finish_still
    | with_reducible apply State.defer_still
    | with_reducible apply State.checked_still
    | with_reducible apply State.setCore_still
    | with_reducible apply State.nextRepair_still
    | with_reducible apply State.idle_still
    | with_reducible apply State.Still.ite
    | with_reducible refine State.Still.ite1 ?_ ?_
    | intro _

theorem execKernelRun_still (c : Command) (s : State) : ∃ nxt, execKernelRun c s = .next nxt ∧ s.Still nxt := by
  unfold execKernelRun
  refine State.Still.live ?_
  have hL := State.Still.refl s
  repeat' first
    | with_reducible assumption
    | with_reducible apply State.checked_still
    | with_reducible apply State.addRun_still
    | with_reducible apply State.Still.ite
    | with_reducible refine State.Still.ite1 ?_ ?_
    | intro _

theorem execKernelUnload_still (c : Command) (s : State) : ∃ nxt, execKernelUnload c s = .next nxt ∧ s.Still nxt := by
  unfold execKernelUnload
  refine State.Still.live ?_
  have hL := State.Still.refl s
  repeat' first
    | with_reducible assumption
    | with_reducible apply State.finish_still
    | with_reducible apply State.badParam_still
    | with_reducible apply State.defer_still
    | with_reducible apply State.setKernel_still
    | with_reducible apply State.Still.ite
    | with_reducible refine State.Still.ite1 ?_ ?_
    | intro _
    | fail_if_no_progress (with_reducible refine State.Still.upd ?_ rfl rfl rfl rfl rfl)
    | with_reducible refine State.Still.snd ?_ (by assumption)
    | with_reducible refine State.Still.fst ?_ (by assumption)
    | extract_lets
    | split

theorem execContRun_still (c : Command) (s : State) : ∃ nxt, execContRun c s = .next nxt ∧ s.Still nxt := by
  unfold execContRun
  refine State.Still.live ?_
  have hL := State.Still.refl s
  repeat' first
    | with_reducible assumption
    | with_reducible apply State.checked_still
    | with_reducible apply State.addRun_still
    | with_reducible apply State.Still.ite
    | with_reducible refine State.Still.ite1 ?_ ?_
    | intro _

theorem State.overrun_still {s0 : State} {s : State} (a : Nat) (hL : s0.Still s) :
    s0.Still (State.overrun s a) := by
  unfold State.overrun
  repeat' first
    | with_reducible assumption
    | with_reducible apply State.draw_still
    | with_reducible apply State.recordAll_still
    | with_reducible apply State.Still.ite
    | with_reducible refine State.Still.ite1 ?_ ?_
    | intro _
    | fail_if_no_progress (with_reducible refine State.Still.upd ?_ rfl rfl rfl rfl rfl)

theorem execJobCreate_still (c : Command) (s : State) : ∃ nxt, execJobCreate c s = .next nxt ∧ s.Still nxt := by
  unfold execJobCreate
  refine State.Still.live ?_
  have hL := State.Still.refl s
  repeat' first
    | with_reducible assumption
    | with_reducible apply State.finish_still
    | with_reducible apply State.checked_still
    | with_reducible apply State.setJob_still
    | with_reducible apply State.Still.ite
    | with_reducible refine State.Still.ite1 ?_ ?_
    | intro _

theorem execModeSet_still (c : Command) (s : State) : ∃ nxt, execModeSet c s = .next nxt ∧ s.Still nxt := by
  unfold execModeSet
  refine State.Still.live ?_
  have hL := State.Still.refl s
  repeat' first
    | with_reducible assumption
    | with_reducible apply State.finish_still
    | with_reducible apply State.checked_still
    | with_reducible apply State.Still.ite
    | with_reducible refine State.Still.ite1 ?_ ?_
    | intro _
    | fail_if_no_progress (with_reducible refine State.Still.upd ?_ rfl rfl rfl rfl rfl)

theorem execRotationTurnEnd_still (a : Nat) (s : State) : ∃ nxt, execRotationTurnEnd a s = .next nxt ∧ s.Still nxt := by
  unfold execRotationTurnEnd
  refine State.Still.live ?_
  have hL := State.Still.refl s
  repeat' first
    | with_reducible assumption
    | with_reducible apply State.onlyIf_still
    | with_reducible apply State.overrun_still
    | with_reducible apply State.Still.ite
    | with_reducible refine State.Still.ite1 ?_ ?_
    | intro _
    | fail_if_no_progress (with_reducible refine State.Still.upd ?_ rfl rfl rfl rfl rfl)

theorem execTaskMigrate_still (c : Command) (s : State) : ∃ nxt, execTaskMigrate c s = .next nxt ∧ s.Still nxt := by
  unfold execTaskMigrate
  refine State.Still.live ?_
  have hL := State.Still.refl s
  repeat' first
    | with_reducible assumption
    | with_reducible apply State.defer_still
    | with_reducible apply State.checked_still
    | with_reducible apply State.setJob_still
    | with_reducible apply State.Still.ite
    | with_reducible refine State.Still.ite1 ?_ ?_
    | intro _

theorem State.refuseOpen_still {s0 : State} {s : State} (status : Nat) (detail : Nat) (hL : s0.Still s) :
    s0.Still (State.refuseOpen s status detail) := by
  unfold State.refuseOpen
  repeat' first
    | with_reducible assumption
    | with_reducible apply State.emit_still
    | with_reducible apply State.Still.ite
    | with_reducible refine State.Still.ite1 ?_ ?_
    | intro _
    | fail_if_no_progress (with_reducible refine State.Still.upd ?_ rfl rfl rfl rfl rfl)

theorem State.openOn_still {s0 : State} {s : State} (d : Datagram) (hL : s0.Still s) :
    s0.Still (State.openOn s d) := by
  unfold State.openOn
  repeat' first
    | with_reducible assumption
    | with_reducible apply State.draw_still
    | with_reducible apply State.setSession_still
    | with_reducible apply State.setQueue_still
    | with_reducible apply State.emit_still
    | with_reducible apply State.postTo_still
    | with_reducible apply State.Still.ite
    | with_reducible refine State.Still.ite1 ?_ ?_
    | intro _
    | with_reducible refine State.Still.foldl ?_ (fun _ _ _ => ?_)
    | fail_if_no_progress (with_reducible refine State.Still.upd ?_ rfl rfl rfl rfl rfl)

theorem State.dropLoad_still {s0 : State} {s : State} (hL : s0.Still s) :
    s0.Still (State.dropLoad s) := by
  unfold State.dropLoad
  repeat' first
    | with_reducible assumption
    | with_reducible apply State.Still.ite
    | with_reducible refine State.Still.ite1 ?_ ?_
    | intro _
    | fail_if_no_progress (with_reducible refine State.Still.upd ?_ rfl rfl rfl rfl rfl)

theorem State.configCommit_still {s0 : State} {s : State} (c : Command) (f : FieldCopy → FieldCopy) (hL : s0.Still s) :
    s0.Still (State.configCommit s c f) := by
  unfold State.configCommit
  repeat' first
    | with_reducible assumption
    | with_reducible apply State.finish_still
    | with_reducible apply State.csSetBits_still
    | with_reducible apply State.mramCommit_still
    | with_reducible apply State.Still.ite

theorem State.writeLive_still {s0 : State} {s : State} (u : Nat) (off : Nat) (hi : Nat) (lo : Nat) (v : Nat) (hL : s0.Still s) :
    s0.Still (State.writeLive s u off hi lo v) := by
  unfold State.writeLive
  repeat' first
    | with_reducible assumption
    | with_reducible apply State.setFld_still
    | with_reducible apply State.csApply_still
    | with_reducible apply State.Still.ite

theorem State.applySetting_still {s0 : State} {s : State} (x : Setting) (hL : s0.Still s) :
    s0.Still (State.applySetting s x) := by
  unfold State.applySetting
  repeat' first
    | with_reducible assumption
    | with_reducible apply State.writeLive_still
    | with_reducible apply State.Still.ite
    | with_reducible refine State.Still.ite1 ?_ ?_
    | intro _
    | with_reducible refine State.Still.foldl ?_ (fun _ _ _ => ?_)
    | fail_if_no_progress (with_reducible refine State.Still.upd ?_ rfl rfl rfl rfl rfl)
    | with_reducible refine State.Still.snd ?_ (by assumption)
    | with_reducible refine State.Still.fst ?_ (by assumption)
    | extract_lets
    | split

theorem State.identityLow_still {s0 : State} {s : State} (hL : s0.Still s) :
    s0.Still (State.identityLow s) := by
  unfold State.identityLow
  repeat' first
    | with_reducible assumption
    | with_reducible apply State.recordAll_still
    | with_reducible apply State.Still.ite
    | with_reducible refine State.Still.ite1 ?_ ?_
    | intro _
    | fail_if_no_progress (with_reducible refine State.Still.upd ?_ rfl rfl rfl rfl rfl)

theorem execOpenSession_still (d : Datagram) (cred : Credential) (s : State)
    : ∃ nxt, execOpenSession d cred s = .next nxt ∧ s.Still nxt := by
  unfold execOpenSession
  refine State.Still.live ?_
  have hL := State.Still.refl s
  repeat' first
    | with_reducible assumption
    | with_reducible apply State.bump_still
    | with_reducible apply State.rxBytes_still
    | with_reducible apply State.refuseOpen_still
    | with_reducible apply State.openOn_still
    | with_reducible apply State.Still.ite
    | with_reducible refine State.Still.ite1 ?_ ?_
    | intro _
    | fail_if_no_progress (with_reducible refine State.Still.upd ?_ rfl rfl rfl rfl rfl)
    | with_reducible refine State.Still.snd ?_ (by assumption)
    | with_reducible refine State.Still.fst ?_ (by assumption)
    | extract_lets
    | split

theorem execFirmwareLoadBegin_still (c : Command) (s : State) : ∃ nxt, execFirmwareLoadBegin c s = .next nxt ∧ s.Still nxt := by
  unfold execFirmwareLoadBegin
  refine State.Still.live ?_
  have hL := State.Still.refl s
  repeat' first
    | with_reducible assumption
    | with_reducible apply State.finish_still
    | with_reducible apply State.checked_still
    | with_reducible apply State.Still.ite
    | with_reducible refine State.Still.ite1 ?_ ?_
    | intro _
    | fail_if_no_progress (with_reducible refine State.Still.upd ?_ rfl rfl rfl rfl rfl)

theorem execFirmwareLoadData_still (c : Command) (s : State) : ∃ nxt, execFirmwareLoadData c s = .next nxt ∧ s.Still nxt := by
  unfold execFirmwareLoadData
  refine State.Still.live ?_
  have hL := State.Still.refl s
  repeat' first
    | with_reducible assumption
    | with_reducible apply State.finish_still
    | with_reducible apply State.checked_still
    | with_reducible apply State.Still.ite
    | with_reducible refine State.Still.ite1 ?_ ?_
    | intro _
    | fail_if_no_progress (with_reducible refine State.Still.upd ?_ rfl rfl rfl rfl rfl)

theorem execFirmwareLoadCommit_still (c : Command) (s : State) : ∃ nxt, execFirmwareLoadCommit c s = .next nxt
    ∧ s.Still nxt := by
  unfold execFirmwareLoadCommit
  refine State.Still.live ?_
  have hL := State.Still.refl s
  repeat' first
    | with_reducible assumption
    | with_reducible apply State.finish_still
    | with_reducible apply State.checked_still
    | with_reducible apply State.dropLoad_still
    | with_reducible apply State.Still.ite
    | with_reducible refine State.Still.ite1 ?_ ?_
    | intro _
    | fail_if_no_progress (with_reducible refine State.Still.upd ?_ rfl rfl rfl rfl rfl)
    | with_reducible refine State.Still.snd ?_ (by assumption)
    | with_reducible refine State.Still.fst ?_ (by assumption)
    | extract_lets
    | split

theorem execFirmwareLoadAbort_still (c : Command) (s : State) : ∃ nxt, execFirmwareLoadAbort c s = .next nxt ∧ s.Still nxt := by
  unfold execFirmwareLoadAbort
  refine State.Still.live ?_
  have hL := State.Still.refl s
  repeat' first
    | with_reducible assumption
    | with_reducible apply State.finish_still
    | with_reducible apply State.checked_still
    | with_reducible apply State.dropLoad_still
    | with_reducible apply State.Still.ite
    | with_reducible refine State.Still.ite1 ?_ ?_
    | intro _

theorem execConfigWriteSet_still (c : Command) (s : State) : ∃ nxt, execConfigWriteSet c s = .next nxt ∧ s.Still nxt := by
  unfold execConfigWriteSet
  refine State.Still.live ?_
  have hL := State.Still.refl s
  repeat' first
    | with_reducible assumption
    | with_reducible apply State.checked_still
    | with_reducible apply State.configCommit_still
    | with_reducible apply State.applySetting_still
    | with_reducible apply State.Still.ite
    | with_reducible refine State.Still.ite1 ?_ ?_
    | intro _
    | with_reducible refine State.Still.foldl ?_ (fun _ _ _ => ?_)

theorem execConfigWriteClear_still (c : Command) (s : State) : ∃ nxt, execConfigWriteClear c s = .next nxt ∧ s.Still nxt := by
  unfold execConfigWriteClear
  refine State.Still.live ?_
  have hL := State.Still.refl s
  repeat' first
    | with_reducible assumption
    | with_reducible apply State.checked_still
    | with_reducible apply State.configCommit_still
    | with_reducible apply State.Still.ite
    | with_reducible refine State.Still.ite1 ?_ ?_
    | intro _

theorem execConfigWriteHostKey_still (c : Command) (s : State) : ∃ nxt, execConfigWriteHostKey c s = .next nxt
    ∧ s.Still nxt := by
  unfold execConfigWriteHostKey
  refine State.Still.live ?_
  have hL := State.Still.refl s
  repeat' first
    | with_reducible assumption
    | with_reducible apply State.checked_still
    | with_reducible apply State.configCommit_still
    | with_reducible apply State.Still.ite
    | with_reducible refine State.Still.ite1 ?_ ?_
    | intro _
    | fail_if_no_progress (with_reducible refine State.Still.upd ?_ rfl rfl rfl rfl rfl)

theorem execConfigWriteMinSvn_still (c : Command) (s : State) : ∃ nxt, execConfigWriteMinSvn c s = .next nxt ∧ s.Still nxt := by
  unfold execConfigWriteMinSvn
  refine State.Still.live ?_
  have hL := State.Still.refl s
  repeat' first
    | with_reducible assumption
    | with_reducible apply State.checked_still
    | with_reducible apply State.configCommit_still
    | with_reducible apply State.Still.ite
    | with_reducible refine State.Still.ite1 ?_ ?_
    | intro _

theorem execAttestReport_still (c : Command) (s : State) : ∃ nxt, execAttestReport c s = .next nxt ∧ s.Still nxt := by
  unfold execAttestReport
  refine State.Still.live ?_
  have hL := State.Still.refl s
  repeat' first
    | with_reducible assumption
    | with_reducible apply State.stamp_still
    | with_reducible apply State.finish_still
    | with_reducible apply State.checked_still
    | with_reducible apply State.identityLow_still
    | with_reducible apply State.Still.ite
    | with_reducible refine State.Still.ite1 ?_ ?_
    | intro _
    | fail_if_no_progress (with_reducible refine State.Still.upd ?_ rfl rfl rfl rfl rfl)

theorem execAttestChain_still (c : Command) (s : State) : ∃ nxt, execAttestChain c s = .next nxt ∧ s.Still nxt := by
  unfold execAttestChain
  refine State.Still.live ?_
  have hL := State.Still.refl s
  repeat' first
    | with_reducible assumption
    | with_reducible apply State.draw_still
    | with_reducible apply State.finish_still
    | with_reducible apply State.checked_still
    | with_reducible apply State.Still.ite
    | with_reducible refine State.Still.ite1 ?_ ?_
    | intro _

theorem execAttestRoll_still (c : Command) (s : State) : ∃ nxt, execAttestRoll c s = .next nxt ∧ s.Still nxt := by
  unfold execAttestRoll
  refine State.Still.live ?_
  have hL := State.Still.refl s
  repeat' first
    | with_reducible assumption
    | with_reducible apply State.defer_still
    | with_reducible apply State.checked_still
    | with_reducible apply State.Still.ite
    | with_reducible refine State.Still.ite1 ?_ ?_
    | intro _
    | fail_if_no_progress (with_reducible refine State.Still.upd ?_ rfl rfl rfl rfl rfl)

theorem execKeyRolled_still (ok : Bool) (s : State) : ∃ nxt, execKeyRolled ok s = .next nxt ∧ s.Still nxt := by
  unfold execKeyRolled
  refine State.Still.live ?_
  have hL := State.Still.refl s
  repeat' first
    | with_reducible assumption
    | with_reducible apply State.draw_still
    | with_reducible apply State.recordAll_still
    | with_reducible apply State.deferredDoneWith_still
    | with_reducible apply State.deferredDone_still
    | with_reducible apply State.Still.ite
    | with_reducible refine State.Still.ite1 ?_ ?_
    | intro _
    | fail_if_no_progress (with_reducible refine State.Still.upd ?_ rfl rfl rfl rfl rfl)
    | with_reducible refine State.Still.snd ?_ (by assumption)
    | with_reducible refine State.Still.fst ?_ (by assumption)
    | extract_lets
    | split

theorem State.haltAll_still {s0 : State} {s : State} (hL : s0.Still s) :
    s0.Still (State.haltAll s) := by
  unfold State.haltAll
  repeat' first
    | with_reducible assumption
    | with_reducible apply State.Still.ite
    | with_reducible refine State.Still.ite1 ?_ ?_
    | intro _
    | fail_if_no_progress (with_reducible refine State.Still.upd ?_ rfl rfl rfl rfl rfl)

theorem State.enter_still {s0 : State} {s : State} (new : DState) (cause : Nat) (moveNs : Nat) (hL : s0.Still s) :
    s0.Still (State.enter s new cause moveNs) := by
  unfold State.enter
  repeat' first
    | with_reducible assumption
    | with_reducible apply State.powerStateRecord_still
    | with_reducible apply State.Still.ite
    | with_reducible refine State.Still.ite1 ?_ ?_
    | intro _
    | fail_if_no_progress (with_reducible refine State.Still.upd ?_ rfl rfl rfl rfl rfl)

theorem State.enterDoze_still {s0 : State} {s : State} (hL : s0.Still s) :
    s0.Still (State.enterDoze s) := by
  unfold State.enterDoze
  repeat' first
    | with_reducible assumption
    | with_reducible apply State.draw_still
    | with_reducible apply State.enter_still
    | with_reducible apply State.Still.ite
    | with_reducible refine State.Still.ite1 ?_ ?_
    | intro _
    | fail_if_no_progress (with_reducible refine State.Still.upd ?_ rfl rfl rfl rfl rfl)

theorem State.idle_still {s0 : State} {s : State} (hL : s0.Still s) :
    s0.Still (State.idle s) := by
  unfold State.idle
  repeat' first
    | with_reducible assumption
    | with_reducible apply State.tick_still
    | with_reducible apply State.Still.ite
    | with_reducible refine State.Still.ite1 ?_ ?_
    | intro _
    | fail_if_no_progress (with_reducible refine State.Still.upd ?_ rfl rfl rfl rfl rfl)

theorem execPwrGoodDeassert_still (s : State) : ∃ t, execPwrGoodDeassert s = .next t ∧ s.Still t :=
  ⟨_, rfl, rfl, rfl, rfl, rfl, rfl⟩

theorem execRailFault_still  (s : State) : ∃ nxt, execRailFault s = .next nxt ∧ s.Still nxt := by
  unfold execRailFault
  refine State.Still.live ?_
  have hL := State.Still.refl s
  repeat' first
    | with_reducible assumption
    | with_reducible apply State.haltAll_still

theorem execThermalTrip_still  (s : State) : ∃ nxt, execThermalTrip s = .next nxt ∧ s.Still nxt := by
  unfold execThermalTrip
  refine State.Still.live ?_
  have hL := State.Still.refl s
  repeat' first
    | with_reducible assumption
    | with_reducible apply State.haltAll_still

theorem execFunctionStopsBeingUsable_still (b : Nat) (s : State) : ∃ nxt, execFunctionStopsBeingUsable b s = .next nxt
    ∧ s.Still nxt := by
  unfold execFunctionStopsBeingUsable
  refine State.Still.live ?_
  have hL := State.Still.refl s
  repeat' first
    | with_reducible assumption
    | with_reducible apply State.logError_still
    | with_reducible apply State.csDrop_still
    | with_reducible apply State.onlyIf_still
    | with_reducible apply State.Still.ite
    | with_reducible refine State.Still.ite1 ?_ ?_
    | intro _

theorem execDozeEntry_still  (s : State) : ∃ nxt, execDozeEntry s = .next nxt ∧ s.Still nxt := by
  unfold execDozeEntry
  refine State.Still.live ?_
  have hL := State.Still.refl s
  repeat' first
    | with_reducible assumption
    | with_reducible apply State.onlyIf_still
    | with_reducible apply State.enterDoze_still

theorem execIntakeDecode_still (c : Command) (s : State) : ∃ nxt, execIntakeDecode c s = .next nxt ∧ s.Still nxt := by
  unfold execIntakeDecode
  refine State.Still.live ?_
  have hL := State.Still.refl s
  repeat' first
    | with_reducible assumption
    | with_reducible apply State.checked_still
    | with_reducible apply State.setDecodes_still
    | with_reducible apply State.Still.ite
    | with_reducible refine State.Still.ite1 ?_ ?_
    | intro _

theorem execIntakeStatus_still (c : Command) (s : State) : ∃ nxt, execIntakeStatus c s = .next nxt ∧ s.Still nxt := by
  unfold execIntakeStatus
  refine State.Still.live ?_
  have hL := State.Still.refl s
  repeat' first
    | with_reducible assumption
    | with_reducible apply State.finish_still
    | with_reducible apply State.checked_still
    | with_reducible apply State.Still.ite
    | with_reducible refine State.Still.ite1 ?_ ?_
    | intro _

theorem State.writeField_still {s0 : State} {s : State} (u : Nat) (off : Nat) (v : Nat) (f : RegField) (hL : s0.Still s) :
    s0.Still (State.writeField s u off v f) := by
  unfold State.writeField
  repeat' first
    | with_reducible assumption
    | with_reducible apply State.setFld_still
    | with_reducible apply State.writeLive_still
    | with_reducible apply State.Still.ite
    | with_reducible refine State.Still.ite1 ?_ ?_
    | intro _
    | fail_if_no_progress (with_reducible refine State.Still.upd ?_ rfl rfl rfl rfl rfl)
    | with_reducible refine State.Still.snd ?_ (by assumption)
    | with_reducible refine State.Still.fst ?_ (by assumption)
    | extract_lets
    | split

theorem execXancaRead_still (c : Command) (s : State) : ∃ nxt, execXancaRead c s = .next nxt ∧ s.Still nxt := by
  unfold execXancaRead
  refine State.Still.live ?_
  have hL := State.Still.refl s
  repeat' first
    | with_reducible assumption
    | with_reducible apply State.finish_still
    | with_reducible apply State.checked_still
    | with_reducible apply State.Still.ite
    | with_reducible refine State.Still.ite1 ?_ ?_
    | intro _

theorem execCallsheetRead_still (c : Command) (s : State) : ∃ nxt, execCallsheetRead c s = .next nxt ∧ s.Still nxt := by
  unfold execCallsheetRead
  refine State.Still.live ?_
  have hL := State.Still.refl s
  repeat' first
    | with_reducible assumption
    | with_reducible apply State.finish_still
    | with_reducible apply State.defer_still
    | with_reducible apply State.checked_still
    | with_reducible apply State.Still.ite
    | with_reducible refine State.Still.ite1 ?_ ?_
    | intro _
    | fail_if_no_progress (with_reducible refine State.Still.upd ?_ rfl rfl rfl rfl rfl)

theorem execCallsheetWaitTimeout_still (i : Nat) (s : State) : ∃ nxt, execCallsheetWaitTimeout i s = .next nxt
    ∧ s.Still nxt := by
  unfold execCallsheetWaitTimeout
  refine State.Still.live ?_
  have hL := State.Still.refl s
  repeat' first
    | with_reducible assumption
    | with_reducible apply State.deferredDone_still
    | with_reducible apply State.onlyIf_still
    | with_reducible apply State.Still.ite
    | with_reducible refine State.Still.ite1 ?_ ?_
    | intro _
    | fail_if_no_progress (with_reducible refine State.Still.upd ?_ rfl rfl rfl rfl rfl)
    | with_reducible refine State.Still.snd ?_ (by assumption)
    | with_reducible refine State.Still.fst ?_ (by assumption)
    | extract_lets
    | split

theorem execCallsheetDeadline_still (b : Nat) (s : State) : ∃ nxt, execCallsheetDeadline b s = .next nxt ∧ s.Still nxt := by
  unfold execCallsheetDeadline
  refine State.Still.live ?_
  have hL := State.Still.refl s
  repeat' first
    | with_reducible assumption
    | with_reducible apply State.logError_still
    | with_reducible apply State.csApply_still
    | with_reducible apply State.onlyIf_still
    | with_reducible apply State.Still.ite
    | with_reducible refine State.Still.ite1 ?_ ?_
    | intro _
    | fail_if_no_progress (with_reducible refine State.Still.upd ?_ rfl rfl rfl rfl rfl)

theorem execRegisterWrite_still (unit : Nat) (offset : Nat) (value : Nat) (s : State)
    : ∃ nxt, execRegisterWrite unit offset value s = .next nxt ∧ s.Still nxt := by
  unfold execRegisterWrite
  refine State.Still.live ?_
  have hL := State.Still.refl s
  repeat' first
    | with_reducible assumption
    | with_reducible apply State.onlyIf_still
    | with_reducible apply State.writeField_still
    | with_reducible apply State.Still.ite
    | with_reducible refine State.Still.ite1 ?_ ?_
    | intro _
    | with_reducible refine State.Still.foldl ?_ (fun _ _ _ => ?_)

theorem execBadRegisterAccess_still (addr : Nat) (size : Nat) (write : Bool) (s : State)
    : ∃ nxt, execBadRegisterAccess addr size write s = .next nxt ∧ s.Still nxt := by
  unfold execBadRegisterAccess
  refine State.Still.live ?_
  have hL := State.Still.refl s
  repeat' first
    | with_reducible assumption
    | with_reducible apply State.logError_still
    | with_reducible apply State.onlyIf_still
    | with_reducible apply State.Still.ite
    | with_reducible refine State.Still.ite1 ?_ ?_
    | intro _

end Sys2Proof.Machine
end

