-- ==== Sys2Proof/Tests/Slice0.lean ====
section
/-! SUPPORT. Small states that meet the hypotheses of the statements, clause by clause, at boundary values; ill-formed commands that
the well-formedness checks refuse. -/

set_option Elab.async false

namespace Sys2Proof.Tests

open Sys2Proof.Machine

/-! ## Small states and commands -/

/-- A command header of session 1, queue 1, of the job with tag 7. -/
def hdr : CmdHdr := ⟨1, 1, 0, 0, 0x0001, 1, 0, 7, 0, 9⟩
/-- A command in its basic form. -/
def cmd (ps : List Byte) : Command := ⟨hdr, ps⟩
/-- A command in its expert form. -/
def xcmd (ps : List Byte) : Command := ⟨{ hdr with flags := 1 }, ps⟩

/-- A powered, locked device at 2 s: the host port up, session 1 open, queue 1 bound to it, and in slot 0 a job of tag 7 whose
allotment is logical core 0. -/
def base : State := State.setFld
  { powered := true
    umauth := { sessions := [(1, { isOpen := true, addr := 5, inst := 1, hostWindow := 16, rxBusy := 1 })]
                queues := [(1, { phase := .bound, depth := 16, session := 1, jobTag := 7 })] }
    timecode := { ns := 2000000000, phase := .locked, timePll := true }
    sched := { jobs := [(0, { phase := .active, tag := 7 })], allotmentMode := true
               allotments := [(0, { valid := true, cores := [0] })] } } uHostport 0x010 63 60 2

/-- The datagram of a kind, on session 1. -/
def dgram (kind tseq : Nat) : Datagram := ⟨5, false, false, 64, 1, kind, 1, tseq, 0, 16⟩

/-- A datagram that the device has sent once, at time 0. -/
def sent (timed : Nat) : SentDatagram := ⟨1, 0, timed, 0, default⟩
/-- `base` with session 1 changed. -/
def inSession (f : Session → Session) : State := base.setSession 1 (f (base.session 1))
/-- `base` with queue 1 changed. -/
def inQueue (f : Queue → Queue) : State := base.setQueue 1 (f (base.queue 1))

theorem test_datagrams : Normal.dataInOrder base (dgram 1 1) = true ∧ Normal.dataAhead base (dgram 1 2) = true ∧
    Normal.dataAhead base (dgram 1 512) = true ∧ Normal.dataAhead base (dgram 1 513) = false ∧
    Normal.datagram base (dgram 2 0) 2 = true ∧ Normal.datagram base (dgram 3 0) 3 = true ∧
    Normal.datagram base (dgram 8 0) 8 = true ∧ Normal.datagram base (dgram 7 0) 7 = true ∧
    Normal.openSession base (dgram 4 0) ⟨List.replicate 56 0⟩ = true := by decide +kernel
theorem test_timers : Normal.timedRetransmission (inSession fun x => { x with unacked := [sent 7] }) 1 1 (sent 7) = true ∧
    Normal.retransmitExhausted (inSession fun x => { x with unacked := [sent 8] }) 1 1 = true ∧
    Normal.silence base 1 = true ∧ Normal.windowReopen base 1 1 = true := by decide +kernel
theorem test_queues : Normal.queueBind base (cmd (le 2 4095 ++ le 2 0 ++ le 4 7 ++ le 2 4 ++ le 6 0)) = true ∧
    Normal.queueUnbind base (cmd (le 2 1 ++ le 6 1)) = true ∧
    Normal.queueDrained (inQueue fun q => { q with phase := .draining }) 1 = true ∧
    Normal.queueAttach base (cmd (le 2 1 ++ le 6 0)) = true ∧ Normal.queueStatus base (cmd (le 8 0)) = true ∧
    Normal.queueFlush base (cmd (le 2 1 ++ le 6 0)) = true ∧
    Normal.dispatch { inQueue (fun q => { q with admitted := [cmd []] }) with xanca := { ready := 1 } } 1 (cmd []) = true := by decide +kernel

/-- `base` with the counter at `ns` in a state of the timecode unit. -/
def inPhase (p : TcPhase) (ns : Nat) : State := { base with timecode := { base.timecode with phase := p, ns := ns } }
/-- `base` following PTP. -/
def onPtp : State := State.setFld { base with timecode := { base.timecode with ptpValid := true, source := 2 } } uTimecode 0x040 33 33 1

theorem test_discovery : Normal.xancaRead base (cmd (le 2 641 ++ le 2 63 ++ le 4 0)) = true ∧
    Normal.xancaRead base (cmd (le 2 642 ++ le 2 63 ++ le 4 0)) = false ∧
    Normal.callsheetWait base (xcmd (le 8 1 ++ le 4 60000 ++ le 4 0)) = true ∧
    Normal.callsheetTimeout { base with xanca := { waits := [⟨cmd [], 1, 5⟩] } } 0 ⟨cmd [], 1, 5⟩ = true ∧
    Normal.callsheetDeadline base 0 = true ∧ Normal.registerWrite base 703 8 = true := by decide +kernel
theorem test_timecode : Normal.ptpMessage onPtp ⟨.syncOneStep, onPtp.fld uTimecode 0x040 47 40, true, 1, 0, 0⟩ = true ∧
    Normal.ptpFollowed onPtp = true ∧ Normal.servoAdjust onPtp = true ∧
    Normal.parentSearchTimeout { base with timecode := { base.timecode with searchSince := some 0 } } 0 = true ∧
    Normal.ptpLost onPtp = true ∧
    Normal.holdoverLimit { inPhase .holdover 2000000000 with regs := [(uTimecode * 65536 + 0x040, 0)] } = true ∧
    Normal.unlockedLimit (inPhase .unlocked (2 ^ 50 - 1)) = true := by decide +kernel

/-! ### Cores -/

/-- A task of the job, of kernel 3, at place 0 of its command. -/
def task0 : Task := ⟨hdr, 0, 0, false, 3, 0, [], 0, 0, [], .kernel, 0⟩
/-- A kernel of these bundles, loaded on core 0. -/
def kern (bs : List Nat) : Kernel := ⟨bs, 0, 0, 0, [0], none, []⟩
/-- END. -/
def endB : Nat := 6 * 2 ^ 124
/-- The core that runs `task0`. -/
def core0 : Core := { phase := .running, task := some task0 }
/-- `base` with core 0 in a state, kernel 3 loaded, and the lines below n of its scratchpad full with these bytes from line 0. -/
def onCore (c : Core) (bs : List Nat) (line0 : List Byte) (n : Nat := 8) : State :=
  { base with
    cores := { cores := [(0, c)], kernels := [(3, kern bs)] }
    spads := { bytes := putBytes [] 0 line0, full := (List.range n).map fun l => (l, true) } }
/-- A MODE 0 generator whose rows lie from line 0. -/
def gen0 : List Byte := le 8 0 ++ le 4 512 ++ le 52 0
/-- A MODE 0 generator whose rows of one line lie from line 0. -/
def gen2 : List Byte := le 8 0 ++ le 4 128 ++ le 52 0
/-- A MODE 1 generator of an input of one position. -/
def gen1 : List Byte := le 4 0 ++ [1] ++ le 11 0 ++ le 2 1 ++ le 2 1 ++ le 2 1 ++ le 2 1 ++ [1, 1, 1, 0, 1, 1, 1, 0, 1, 1, 1, 0, 0, 0, 0, 0] ++
  le 2 1 ++ le 2 1 ++ le 2 1 ++ le 18 0
/-- Core 0 stands at the COMPUTE bundle `b`, with both generators set up. -/
def compute (b : Nat) (line0 : List Byte) (n : Nat := 8) : State := onCore { core0 with generators := [(0, gen0), (1, gen1), (2, gen2)], bankRows := [(0, 1)] } [b, endB] line0 n
/-- Whether a slot of the bundle may act there. -/
def ready (b slot : Nat) (line0 : List Byte) (n : Nat := 8) : Bool :=
  Normal.slotReady (compute b line0 n) 0 task0 (kern [b, endB]) b slot

theorem test_tasks : Normal.taskPlace { onCore { phase := .gated } [endB] [] with sched := { base.sched with ready := [task0] } } 0 0 0 task0 = true ∧
    ((onCore { phase := .waking } [] []).core 0).phase = .waking ∧
    Normal.coreGate ((onCore { phase := .idle } [] []).setFld (uCore 0) 0x040 0 0 1) 0 = true ∧
    Normal.repairHoldEnd (onCore { phase := .repairHold, repairs := [⟨5, none, false, false⟩] } [] []) 0 ⟨5, none, false, false⟩ [] = true ∧
    Normal.taskWatchdog (onCore core0 [endB] []) 0 task0 = true := by decide +kernel
theorem test_kernel_commands : Normal.kernelRun (onCore {} [endB] []) (cmd (le 2 3 ++ le 2 0 ++ le 4 1048576 ++ le 16 0)) (kern [endB]) = true ∧
    Normal.kernelRun (onCore {} [endB] []) (cmd (le 2 3 ++ le 2 0 ++ le 4 1048577 ++ le 16 0)) (kern [endB]) = false ∧
    Normal.kernelUnload (onCore {} [endB] []) (cmd (le 2 3 ++ le 6 0)) (kern [endB]) = true ∧
    Normal.opeRepair (onCore { retiredRows := [5] } [] []) (cmd (le 2 157 ++ le 6 129)) = true ∧
    Normal.opeRepair (onCore { retiredRows := [5, 6] } [] []) (cmd (le 2 157 ++ le 6 129)) = false ∧
    Normal.opeRepair (onCore { retiredRows := [5, 6] } [] []) (cmd (le 2 157 ++ le 6 5)) = true := by decide +kernel
theorem test_outer_product : ready (1 * 2 ^ 108 + 1 * 2 ^ 104 + 1 * 2 ^ 88) 0 [] = true ∧ ready (2 * 2 ^ 108) 0 [] = true ∧
    ready (4 * 2 ^ 108) 0 [] = true := by decide +kernel
theorem test_convolution : ready (5 * 2 ^ 108 + 3 * 2 ^ 104 + 1 * 2 ^ 84 + 2 * 2 ^ 80) 0 [] 128 = true := by decide +kernel
theorem nodup_eraseDups (l : List Nat) (h : l.Nodup) : l.eraseDups = l := by
  induction l with
  | nil => rfl
  | cons a l ih =>
    rw [List.eraseDups_cons, List.filter_eq_self.2]
    · rw [ih (List.nodup_cons.1 h).2]
    · intro x hx
      have := (List.nodup_cons.1 h).1
      simp only [Bool.not_eq_true', beq_eq_false_iff_ne]; rintro rfl; exact this hx
/-- LOAD of bank 0 by generator 0. -/
def loadB : Nat := 3 * 2 ^ 108
theorem get_lines (n a k : Nat) (h : k < n) : TMap.get false ((List.range' a n).map fun l => (l, true)) (a + k) = true := by
  induction n generalizing a k with
  | zero => omega
  | succ n ih =>
    rw [List.range'_succ, List.map_cons, TMap.get_cons]
    split
    · rfl
    · have := ih (a + 1) (k - 1) (by omega)
      rwa [show a + 1 + (k - 1) = a + k by omega] at this
theorem load_plan (c : Core) (ls : List Nat) (h : c.generator 0 0 = some gen0) (e : tileLines gen0 0 128 = ls) :
    c.opePlan loadB = .ok { reads := ls } := by
  have p : pitchOk gen0 0 = true := by decide +kernel
  change (match c.generator 0 0 with | some d => _ | none => _) = _
  rw [h]
  change (if (!pitchOk gen0 0) = true then _ else if 0 ≠ 0 then _ else Except.ok ({ reads := tileLines gen0 0 128 } : Plan)) = _
  rw [p, e]
  rfl
theorem load_footprint (s : State) (ls : List Nat) (h : (s.core 0).generator 0 0 = some gen0) (e : tileLines gen0 0 128 = ls)
    (hd : ls.Nodup) : s.footprint 0 loadB = ls := by
  have h0 : s.slotReads 0 loadB 0 = ls := by
    unfold State.slotReads
    dsimp only
    rw [load_plan _ _ h e]
    exact nodup_eraseDups _ hd
  have h1 : s.slotReads 0 loadB 1 = [] := rfl
  have h2 : s.slotReads 0 loadB 2 = [] := rfl
  unfold State.footprint
  rw [h0, h1, h2, List.append_nil, List.filter_nil, List.append_nil]
  exact nodup_eraseDups _ hd
theorem load_lines : tileLines gen0 0 128 = List.range 512 := by decide +kernel
theorem load_full : (Normal.interlocked (compute loadB [] 512) 0 (kern [loadB, endB])).spads.full =
    (List.range' 0 512).map fun l => (l, true) := by decide +kernel
/-- A port of four positions serves a run of lines, four in a cycle. -/
theorem run_ports (st n a : Nat) : bankRule 4 ((List.range' a n).map fun i => (st + i / 4, i)) = true := by
  induction n generalizing a with
  | zero => rfl
  | succ n ih =>
    have few : ∀ (p : Nat × Nat → Bool) (l : List Nat), l.length < 4 →
        (∀ i, a < i → st + i / 4 < st + a / 4 + 16 → p (st + i / 4, i) = true → i ∈ l) →
        ((((List.range' (a + 1) n).map fun i => (st + i / 4, i)).takeWhile fun r => decide (r.1 < st + a / 4 + 16)).filter p).length < 4 := by
      intro p l hl h
      refine lt_of_le_of_lt ?_ hl
      rw [List.takeWhile_map, List.filter_map, List.length_map]
      refine (List.subperm_of_subset (List.Nodup.filter _ ((List.takeWhile_sublist _).nodup List.nodup_range')) ?_).length_le
      intro i hi
      obtain ⟨hi, hp⟩ := List.mem_filter.1 hi
      have := List.mem_range'_1.1 ((List.takeWhile_sublist _).subset hi)
      exact h i (by omega) (by simpa using List.mem_takeWhile_imp hi) hp
    rw [List.range'_succ, List.map_cons]
    simp only [bankRule, Bool.and_eq_true, decide_eq_true_eq]
    refine ⟨⟨few _ [a + 1, a + 2, a + 3] (by simp) fun i h _ e => ?_, few _ [a + 16, a + 32, a + 48] (by simp) fun i h w e => ?_⟩, ih _⟩
    · simp only [beq_iff_eq, List.mem_cons, List.not_mem_nil, or_false] at e ⊢; omega
    · simp only [beq_iff_eq, List.mem_cons, List.not_mem_nil, or_false] at e ⊢; omega
theorem load_row : ∀ k < 128, (linesOf (rowAddr gen0 0 k) (rowBytes 0)).filter (fun l => rowAddr gen0 0 k ≤ 128 * l) =
    [4 * k, 4 * k + 1, 4 * k + 2, 4 * k + 3] := by decide +kernel
theorem load_ports (c : Core) (h : c.generator 0 0 = some gen0) (hr : c.outReqs = []) : c.portsOk loadB = true := by
  have q : c.outRequests loadB = (List.range' 0 512).map fun i => (c.outStart loadB + i / 4, i) := by
    have e : c.outRequests loadB = (match c.generator 0 0 with
      | none => []
      | some d => (List.range 128).flatMap fun k => rowRequests d 0 k fun _ => c.outStart loadB + k) := rfl
    have r : (List.range' 0 512) = (List.range 128).flatMap fun k => [4 * k, 4 * k + 1, 4 * k + 2, 4 * k + 3] := by decide +kernel
    rw [e, h, r, List.map_flatMap]
    refine List.flatMap_congr ?_
    intro k hk
    unfold rowRequests
    rw [load_row k (List.mem_range.1 hk)]
    simp [List.zipIdx_cons]
    omega
  unfold Core.portsOk
  rw [hr, q, List.nil_append, run_ports, Bool.or_true, Bool.and_true]
  rfl
theorem test_load : ready loadB 0 [] 512 = true := by
  simp only [ready, Normal.slotReady, Bool.and_eq_true, Bool.or_eq_true]
  refine ⟨⟨⟨by decide +kernel, by decide +kernel⟩, by decide +kernel⟩, Or.inr ⟨⟨⟨by decide +kernel, ?_⟩, by decide +kernel⟩, ?_⟩⟩
  · rw [load_footprint _ _ (by decide +kernel) load_lines List.nodup_range, List.all_eq_true]
    intro l hl
    unfold State.isFull
    rw [load_full, show lineKey 0 l = 0 + l by unfold lineKey; omega]
    exact get_lines 512 0 l (List.mem_range.1 hl)
  · unfold State.computeFault State.readPoison State.readTouch
    rw [load_footprint (h := by decide +kernel) (e := load_lines) (hd := List.nodup_range)]
    dsimp only
    rw [load_footprint (h := by decide +kernel) (e := load_lines) (hd := List.nodup_range)]
    rw [load_ports _ (by decide +kernel) (by decide +kernel)]
    decide +kernel
theorem test_vector : ([1, 2, 3, 4, 5, 6, 7, 8, 9, 10, 11, 12, 15, 16].all fun v => ready (v * 2 ^ 66) 1 []) = true := by decide +kernel
/-- CVT, LANE_SUM and RNG. -/
theorem test_vector_moves : ready (8 * 2 ^ 66) 1 [] = true ∧ ready (0xF * 2 ^ 66) 1 [] = true ∧ ready (0x10 * 2 ^ 66) 1 [] = true := by
  decide +kernel
/-- A row descriptor in line 0: one row of width 1 at line 1, the second input at `in2`, AUX at `aux`. -/
def rowDesc (in2 aux : Nat) : List Byte :=
  le 2 1 ++ le 2 1 ++ le 16 0 ++ le 2 1 ++ le 2 0 ++ le 2 in2 ++ le 2 0 ++ le 2 0xFFFF ++ le 2 0 ++ le 2 0xFFFF ++ le 2 0xFFFF ++
    le 2 aux ++ le 2 0xFFFF
/-- Whether an operation of the continuity engine may run there; frames 0, 1 and 2 are of LN, RMS and SMAX. -/
def contReady (cop frame in2 aux : Nat) : Bool :=
  let b := cop * 2 ^ 26 + frame * 4 + (if cop < 4 then 2 else 0)
  let s := compute b (rowDesc in2 aux)
  let f (k : Nat) : FrameTag := ⟨true, false, 0, k, 1, 0⟩
  Normal.slotReady { s with conts := { s.conts with windows := [(0, ⟨0, 4, 0⟩)], tags := [(0, f 1), (1, f 2), (2, f 3)] } } 0 task0
    (kern [b, endB]) b 2
theorem test_continuity_forward : contReady 1 0 0xFFFF 0xFFFF = true ∧ contReady 2 1 0xFFFF 0xFFFF = true ∧
    contReady 3 2 0xFFFF 0xFFFF = true ∧ contReady 4 2 0xFFFF 3 = true ∧ contReady 5 2 0xFFFF 3 = true ∧
    contReady 5 2 0xFFFF 0xFFFF = false := by decide +kernel
theorem test_continuity_backward : contReady 9 0 2 0xFFFF = true ∧ contReady 10 1 2 0xFFFF = true ∧
    contReady 11 2 2 0xFFFF = true ∧ contReady 11 1 2 0xFFFF = false ∧ contReady 16 3 0 0 = true ∧ contReady 16 4 0 0 = false := by
  decide +kernel
/-- Core 0 at a bundle with sixteen generators whose rows all lie at line 0. -/
def vecState (b : Nat) : State := onCore { core0 with generators := (List.range 16).map fun i => (i, le 64 0) } [b, endB] []
theorem vector_lines (c : Core) (imm : Nat) (h : c.generators = (List.range 16).map fun i => (i, le 64 0)) :
    ((c.generator (Config.vectorGenerator imm % 16) 0).map fun d => linesOf (rowAddr d 0 (Config.vectorRow imm)) 512) =
      some [0, 1, 2, 3] := by
  have a : rowAddr (le 64 0) 0 (Config.vectorRow imm) = 0 := by
    have e : leAt (le 64 0) 0 4 = 0 ∧ leAt (le 64 0) 8 4 = 0 ∧ rowGroup 0 = 1 := by decide +kernel
    unfold rowAddr
    rw [e.1, e.2.1, e.2.2, Nat.mod_one]
    omega
  have g : ∀ k < 16, c.generator k 0 = some (le 64 0) := by
    unfold Core.generator
    rw [h]
    decide +kernel
  rw [g _ (Nat.mod_lt _ (by decide)), Option.map_some, a]
  rfl
theorem vector_plan (c : Core) (h : c.generators = (List.range 16).map fun i => (i, le 64 0)) :
    c.vecPlan (0xD * 2 ^ 66) = .ok { reads := [0, 1, 2, 3] } ∧ c.vecPlan (0xE * 2 ^ 66) = .ok { writes := [0, 1, 2, 3] } := by
  constructor <;> unfold Core.vecPlan <;> dsimp only <;> rw [vector_lines _ _ h] <;> rfl
theorem vector_footprint (s : State) (h : (s.core 0).generators = (List.range 16).map fun i => (i, le 64 0)) :
    s.footprint 0 (0xD * 2 ^ 66) = [0, 1, 2, 3] ∧ s.footprint 0 (0xE * 2 ^ 66) = [] := by
  have p := vector_plan _ h
  have h0 : ∀ v ∈ [0xD, 0xE], s.slotReads 0 (v * 2 ^ 66) 0 = [] ∧ s.slotReads 0 (v * 2 ^ 66) 2 = [] := by
    intro v hv
    simp only [List.mem_cons, List.not_mem_nil, or_false] at hv
    rcases hv with rfl | rfl <;> exact ⟨rfl, rfl⟩
  have h1 : s.slotReads 0 (0xD * 2 ^ 66) 1 = [0, 1, 2, 3] := by
    unfold State.slotReads; dsimp only; rw [p.1]; rfl
  have h2 : s.slotReads 0 (0xE * 2 ^ 66) 1 = [] := by
    unfold State.slotReads; dsimp only; rw [p.2]; rfl
  unfold State.footprint
  rw [(h0 _ (by decide)).1, (h0 _ (by decide)).2, (h0 0xE (by decide)).1, (h0 0xE (by decide)).2, h1, h2]
  exact ⟨rfl, rfl⟩
theorem vector_ports (c : Core) (h : c.generators = (List.range 16).map fun i => (i, le 64 0)) (hr : c.vecReqs = []) :
    c.portsOk (0xD * 2 ^ 66) = true ∧ c.portsOk (0xE * 2 ^ 66) = true := by
  have f : ∀ v ∈ [0xD, 0xE], c.feedersOk (v * 2 ^ 66) = true ∧ bOop (v * 2 ^ 66) = 0 := by
    intro v hv
    simp only [List.mem_cons, List.not_mem_nil, or_false] at hv
    rcases hv with rfl | rfl <;> exact ⟨rfl, rfl⟩
  have r : ∀ n : Nat, bankRule 4 [(n, 0), (n, 1), (n, 2), (n, 3)] = true := by
    intro n; simp [bankRule]
  have p := vector_plan c h
  unfold Core.portsOk Core.vecRequests
  rw [(f _ (by decide)).1, (f _ (by decide)).2, (f 0xE (by decide)).1, (f 0xE (by decide)).2, p.1, p.2, hr]
  exact ⟨r c.cycle, r c.cycle⟩
theorem test_vector_load : Normal.slotReady (vecState (0xD * 2 ^ 66)) 0 task0 (kern [0xD * 2 ^ 66, endB]) (0xD * 2 ^ 66) 1 = true := by
  simp only [Normal.slotReady, Bool.and_eq_true, Bool.or_eq_true]
  refine ⟨⟨⟨by decide +kernel, by decide +kernel⟩, by decide +kernel⟩, Or.inr ⟨⟨⟨?_, ?_⟩, by decide +kernel⟩, ?_⟩⟩
  · unfold Core.computeLines
    rw [(vector_plan _ (by decide +kernel)).1]
    decide +kernel
  · rw [(vector_footprint _ (by decide +kernel)).1]
    decide +kernel
  · unfold State.computeFault State.readPoison State.readTouch
    rw [(vector_footprint _ (by decide +kernel)).1]
    dsimp only
    rw [(vector_footprint _ (by decide +kernel)).1]
    rw [(vector_ports _ (by decide +kernel) (by decide +kernel)).1]
    decide +kernel
theorem test_vector_store : Normal.slotReady (vecState (0xE * 2 ^ 66)) 0 task0 (kern [0xE * 2 ^ 66, endB]) (0xE * 2 ^ 66) 1 = true := by
  simp only [Normal.slotReady, Bool.and_eq_true, Bool.or_eq_true]
  refine ⟨⟨⟨by decide +kernel, by decide +kernel⟩, by decide +kernel⟩, Or.inr ⟨⟨⟨?_, ?_⟩, by decide +kernel⟩, ?_⟩⟩
  · unfold Core.computeLines
    rw [(vector_plan _ (by decide +kernel)).2]
    decide +kernel
  · rw [(vector_footprint _ (by decide +kernel)).2]
    decide +kernel
  · unfold State.computeFault State.readPoison State.readTouch
    rw [(vector_footprint _ (by decide +kernel)).2]
    dsimp only
    rw [(vector_footprint _ (by decide +kernel)).2]
    rw [(vector_ports _ (by decide +kernel) (by decide +kernel)).2]
    decide +kernel
/-- Core 0 at a DRAIN of 16 rows, 8 lines apart: each bank that it asks is asked 8 times in 16 cycles. -/
def crowded : State :=
  onCore { core0 with generators := [(0, le 8 0 ++ le 4 1024 ++ le 52 0)], bankRows := [(0, 16)] } [4 * 2 ^ 108, endB] []
/-- A port's rule: consecutive lines, strides, and a DRAIN that breaks it. -/
theorem test_port_rule : bankRule 4 ((List.range 64).map fun i => (i / 4, 3 + i)) = true ∧
    bankRule 1 ((List.range 16).map fun i => (i, 7 * i)) = true ∧ bankRule 1 ((List.range 16).map fun i => (i, 6 * i)) = false ∧
    Normal.slotIssues crowded 0 task0 (kern [4 * 2 ^ 108, endB]) (4 * 2 ^ 108) 0 = true ∧
    ((((Normal.interlocked crowded 0 (kern [4 * 2 ^ 108, endB])).coreWords 0 (4 * 2 ^ 108)).2.readTouch 0 0 (4 * 2 ^ 108)).core
      0).portsOk (4 * 2 ^ 108) = false := by decide +kernel
/-- The row operand of an ACC in FP8 asks one bank in 16 cycles as often as its pitch makes it; scale lines of one bank are refused. -/
theorem test_feeder_requests : bankRule 2 (feederRequests gen2 3 3 16 false false) = true ∧
    bankRule 2 (feederRequests (le 8 0 ++ le 4 256 ++ le 52 0) 3 3 16 false false) = true ∧
    bankRule 2 (feederRequests gen0 3 3 16 false false) = false ∧
    bankRule 1 (scaleRequests 5 [4] [5]) = true ∧ bankRule 1 (scaleRequests 5 [4] [20]) = false := by decide +kernel

/-! ### Sequencer, transfers, scratchpads, reels -/

/-- `s` with the job's map from virtual 0 to the physical gigabyte at 2^30, writeable. -/
def mapped (s : State) : State :=
  { s with memory := { s.memory with
      maps := [(0, { valid := true, pool := 2 ^ 22, poolBytes := 2 ^ 22, next4k := 2 ^ 22 + 2 ^ 21 + 4096, top256 := 2 ^ 23 })]
      bytes := putBytes (putBytes s.memory.bytes (2 ^ 22) (le 8 (2 ^ 22 + 2 ^ 21 + 1))) (2 ^ 22 + 2 ^ 21) (le 8 (2 ^ 30 + 7)) } }
/-- Core 0 at the bundle `b`, with argument 0. -/
def atB (b arg : Nat) (line0 : List Byte) : State := onCore { core0 with args := le 8 arg } [b, endB, endB] line0
/-- Whether the bundle may issue there. -/
def issues (b arg : Nat) (line0 : List Byte) : Bool := Normal.atBundle (atB b arg line0) 0 task0 (kern [b, endB, endB]) b
/-- SETUP of generator 1 from line 0. -/
def setupB : Nat := 2 * 2 ^ 124 + 1 * 2 ^ 108
theorem test_setup : issues setupB 0 gen1 = true ∧ bKind setupB = 2 ∧ 64 * bits setupB 107 92 < 24576 * 128 ∧
    generatorBad ((Normal.issued (atB setupB 0 gen1) 0 (kern [setupB, endB, endB]) |>.spadTouch 0 0 [0]).spadBytes 0 0 64) = false ∧
    (Normal.issued (atB setupB 0 gen1) 0 (kern [setupB, endB, endB]) |>.spadTouch 0 0 [0]).isPoisoned 0 0 = false := by decide +kernel
/-- WAIT_TAG in MODE 1 for a count of 3 in turnout 2. -/
def gaugeB : Nat := 4 * 2 ^ 124 + 1 * 2 ^ 110 + 2 * 2 ^ 76 + 3 * 2 ^ 44
/-- CLAP of clap 5. -/
def clapB : Nat := 5 * 2 ^ 124 + 5 * 2 ^ 106
/-- A clap of two members, on which `w` wait. -/
def clap2 (w : List (Nat × Nat)) : Clap := { broken := false, fabric := false, flush := false, members := 2, limitUs := 10, waiting := w, hdr := hdr }
theorem test_sequencer : issues (3 * 2 ^ 124 + 7 * 2 ^ 96 + 1 * 2 ^ 84) 0 [] = true ∧
    issues (4 * 2 ^ 124 + 1 * 2 ^ 80) 0 [] = true ∧ issues gaugeB 0 [] = true ∧ issues clapB 0 [] = true ∧ issues endB 0 [] = true ∧
    ((({ atB clapB 0 [] with streams := { claps := [(5, clap2 [])] } } : State).clap 0 5).map (·.broken)) = some false := by decide +kernel
theorem test_stalls : Normal.waitTagRelease (onCore { core0 with stall := some .waitTag } [4 * 2 ^ 124 + 1 * 2 ^ 80] []) 0
      (4 * 2 ^ 124 + 1 * 2 ^ 80) = true ∧
    Normal.emptySlotRelease (onCore { core0 with stall := some .emptySlot } [1 * 2 ^ 124 + 1 * 2 ^ 108 + 1 * 2 ^ 73] []) 0
      (1 * 2 ^ 124 + 1 * 2 ^ 108 + 1 * 2 ^ 73) = true := by decide +kernel
/-- The window of core 0's line 4. -/
def window4 : Nat := 2 ^ 63 + spadBase + 512
/-- Whether a TRANSFER may act, with its far address. -/
def transfers (b arg : Nat) (far : FarSide) : Bool :=
  Normal.transferReady (mapped (atB b arg [])) 0 task0 (kern [b, endB, endB]) b far
theorem test_transfers : transfers (1 * 2 ^ 124 + 2 * 2 ^ 73) window4 (.window 0 4) = true ∧
    transfers (1 * 2 ^ 124 + 2 * 2 ^ 73) 0x1000 (.virt 0x1000) = true ∧
    transfers (1 * 2 ^ 124 + 1 * 2 ^ 108 + 2 * 2 ^ 73) window4 (.window 0 4) = true ∧
    transfers (1 * 2 ^ 124 + 1 * 2 ^ 108 + 2 * 2 ^ 73) 0x1000 (.virt 0x1000) = true ∧
    transfers (1 * 2 ^ 124 + 2 * 2 ^ 108 + 24576 * 2 ^ 73) 0 .none = true ∧
    transfers (1 * 2 ^ 124 + 2 * 2 ^ 108 + 1 * 2 ^ 88 + 24576 * 2 ^ 73) 0 .none = false := by decide +kernel
theorem test_transfer_pages : (mapped (atB 0 0 [])).vcheck 0 0x1000 256 true = none ∧
    ((mapped (atB 0 0 [])).vcheck 0 (2 ^ 30) 256 true).isSome = true := by decide +kernel
/-- A packet of two lines for core 0's line 4. -/
def packet4 : MeshPacket := ⟨0, 4, List.replicate 2 (List.replicate 128 0, false), 0, 0, 0, ⟨hdr, 0, 0, 0, 0⟩⟩
/-- `base` with turnout 3 of core 0. -/
def turnout3 (x : Turnout) (mesh : List MeshPacket) : State := { base with spads := { turnouts := [(3, x)], mesh := mesh } }
/-- A turnout of lines 4 to 5. -/
def open3 : Turnout := { phase := .opened, byCount := true, base := 4, lines := 2, expect := 2 }
theorem test_packets : Normal.packet (turnout3 open3 [packet4]) 0 0 packet4 = true ∧ Normal.accepted (turnout3 open3 []) 0 3 packet4 = true ∧
    (∀ t < 16, Normal.accepted (turnout3 { open3 with epoch := 1 } []) 0 t packet4 = false) ∧
    Normal.writeRefused { base with spads := { refusals := [⟨⟨hdr, 0, 0, 0, 0⟩, 0, 4, 2, 1, default⟩] } } 0 ⟨⟨hdr, 0, 0, 0, 0⟩, 0, 4, 2, 1, default⟩ = true ∧
    Normal.turnoutLate (turnout3 { open3 with lateNotify := true, sinceNote := 1 } []) 0 3 = true ∧
    Normal.drainLimit (turnout3 { open3 with phase := .draining, drainDue := some 5 } []) 0 3 = true ∧
    Normal.spadScrub ((onCore { phase := .idle } [] []).setFld (uSpad 0) 0x380 0 0 1) 0 24575 = true := by decide +kernel
theorem test_turnout_commands : Normal.turnoutOpen base (cmd (le 2 0 ++ le 1 0xFF ++ le 1 1 ++ le 4 2 ++ le 2 24575 ++ le 2 1 ++ le 4 0)) 0 0 = true ∧
    Normal.turnoutOpen base (cmd (le 2 0 ++ le 1 15 ++ le 1 0 ++ le 4 0 ++ le 2 0 ++ le 2 24576 ++ le 4 0)) 0 15 = true ∧
    Normal.turnoutClose (turnout3 { open3 with phase := .closed } []) (cmd (le 2 0 ++ le 1 3 ++ le 1 0 ++ le 4 0)) 0 = true ∧
    Normal.turnoutClose (turnout3 open3 []) (cmd (le 2 0 ++ le 1 3 ++ le 1 0 ++ le 4 0)) 0 = true ∧
    (turnout3 { open3 with gauge := 2 } []).turnoutComplete 0 { open3 with gauge := 2 } = true ∧
    (turnout3 { open3 with gauge := 1 } []).turnoutComplete 0 { open3 with gauge := 1 } = false := by decide +kernel
theorem test_cont_commands : Normal.contScrub ((onCore { phase := .idle } [] []).setFld (uCont 0) 0x300 0 0 1) 0 511 = true ∧
    Normal.contRun base (cmd ([1, 0, 0, 0] ++ le 2 8192 ++ le 2 0 ++ le 4 16777215 ++ le 44 0)) = true ∧
    Normal.contRunFrames base (cmd ([0x20, 0, 0, 0] ++ le 2 0 ++ le 2 512 ++ le 4 0 ++ le 2 0 ++ le 2 20992 ++ le 40 0)) = true ∧
    Normal.contRunFrames base (cmd ([0x20, 0, 0, 0] ++ le 2 0 ++ le 2 512 ++ le 4 0 ++ le 2 0 ++ le 2 20993 ++ le 40 0)) = false := by decide +kernel
/-- Core 0 at a TRANSFER on its reel, whose ring is the lines 4 to 7 and whose top is `x`. -/
def onReel (b arg : Nat) (line0 : List Byte) (x : Reel) : State :=
  { atB b arg line0 with reels := { jobs := [(0, { ringBase := 4, ringLines := 4, reelVa := 2 ^ 40 })], cores := [(0, { x with slot := some 0 })] } }
/-- PUSH and the others, of line 0. -/
def reelB (xop : Nat) : Nat := 1 * 2 ^ 124 + xop * 2 ^ 108 + 1 * 2 ^ 73
/-- Frame 9, a data frame (KIND 2) of one line at line 4. -/
def mark9 : Marker := ⟨9, 2, 1, 0, 4, [], 0, 0⟩
theorem test_push : Normal.pushFrame (onReel (reelB 1) (2 ^ 40 + 9 * 128) (le 2 9 ++ [2, 0] ++ le 4 1 ++ le 8 0 ++ le 2 4) { promised := 1 }) 0 task0
    (kern [reelB 1, endB, endB]) (reelB 1) 9 = true := by decide +kernel
theorem test_pop : Normal.popFrame (onReel (reelB 0) (2 ^ 40 + 2 ^ 22 + 9 * 128) [] { depth := 1, marks := [mark9] }) 0 task0
      (kern [reelB 0, endB, endB]) (reelB 0) 9 false mark9 [] = true ∧
    Normal.popFrame (onReel (reelB 0) (2 ^ 40 + 2 * 2 ^ 22 + 9 * 128) [] { depth := 1, marks := [mark9] }) 0 task0
      (kern [reelB 0, endB, endB]) (reelB 0) 9 true mark9 [] = true ∧
    Normal.releaseFrame (onReel (reelB 0) (2 ^ 40 + 3 * 2 ^ 22 + 9 * 128) [] { depth := 1, held := [mark9] }) 0 task0
      (kern [reelB 0, endB, endB]) (reelB 0) 9 mark9 = true := by decide +kernel
/-- A kernel image of one END bundle. -/
def image : List Byte :=
  le 4 0x4E524B47 ++ le 2 1 ++ le 2 1 ++ le 4 80 ++ le 4 (crc32c (le 16 endB)) ++ le 48 0 ++ le 16 endB
theorem test_kernel_load : Normal.kernelLoad { mapped base with memory := { (mapped base).memory with
    bytes := putBytes (mapped base).memory.bytes (2 ^ 30) image } } (cmd (le 2 255 ++ le 2 0 ++ le 4 80 ++ le 16 0)) image = true := by decide +kernel

/-! ### Streams, claps, the reel's commands, the resilience unit's events -/

/-- A stage of a stream. -/
def stg (kind kernel bytes addr : Nat) : Stage := ⟨kind, kind == 1, false, kernel, bytes, addr, 128, []⟩
/-- A stream of the job: FETCH, KERNEL 3, STORE, one lane on core 0. -/
def stream0 : Stream :=
  { isOpen := true, lanes := 1, stages := [stg 1 0 128 0, stg 3 3 0 0, stg 4 0 128 (2 ^ 20)], borrowMax := 2, openCmd := some hdr }
/-- A run of ten iterations. -/
def run10 : StreamRun := ⟨cmd [], 10, 0, 0xFF, 0xFFFF, 0, 0⟩
/-- `s` with stream 5 and a pool of four slots of one line. -/
def withStream (s : State) (x : Stream) : State :=
  { s with streams := { s.streams with pools := [(0, ⟨true, 8, 1, 4, 0, 0⟩)], streams := [(5, x)] } }
/-- The core of the stream is idle; kernel 3 is loaded; memory is mapped. -/
def idle0 : State := mapped (onCore { phase := .idle } [endB] [])
/-- A stage's row of 32 bytes in `stream_open`. -/
def stgRow (kind kernel bytes : Nat) : List Byte := le 1 kind ++ le 1 0 ++ le 2 kernel ++ le 4 bytes ++ le 24 0
theorem test_stream_open : Normal.streamOpenPool base (cmd ([1, 3] ++ le 2 4096 ++ le 2 4 ++ le 2 8192 ++ le 8 0)) = true ∧
    Normal.streamOpenPool base (cmd ([1, 3] ++ le 2 4096 ++ le 2 4 ++ le 2 8193 ++ le 8 0)) = false ∧
    Normal.streamOpen (withStream idle0 {}) (cmd ([0, 3] ++ le 2 0xFFFF ++ [0, 1] ++ le 2 0 ++ le 8 0 ++ stgRow 1 0 128 ++ stgRow 3 3 0 ++
      stgRow 4 0 128)) 0 = true ∧
    Normal.streamOpen (withStream idle0 {}) (cmd ([0, 3] ++ le 2 255 ++ [0, 1] ++ le 2 0 ++ le 8 0 ++ stgRow 1 0 128 ++ stgRow 3 3 0 ++
      stgRow 4 0 128)) 255 = true := by decide +kernel
theorem test_stream_commands : Normal.streamRun (withStream base stream0) (cmd (le 2 5 ++ [63, 0] ++ le 4 16777215 ++ le 8 0 ++ le 2 0xFFFF ++ le 6 0)) = true ∧
    Normal.streamCancel (withStream base stream0) (cmd (le 2 5 ++ le 6 0)) = true ∧
    Normal.streamCancel (withStream base { stream0 with runs := [run10, run10] }) (cmd (le 2 5 ++ le 6 0)) = true ∧
    Normal.streamClose (withStream base stream0) (cmd (le 2 5 ++ le 6 0)) = true ∧
    Normal.poolClose (withStream base {}) (cmd (le 2 0 ++ [1, 0] ++ le 4 0)) = true ∧
    Normal.clapSet base (cmd ([63, 0] ++ le 2 288 ++ [1] ++ le 11 0)) = true ∧
    Normal.clapSet base (cmd ([64, 0] ++ le 2 288 ++ [1] ++ le 11 0)) = false := by decide +kernel
/-- The running stream. -/
def running0 : Stream := { stream0 with phase := .running, runs := [run10] }
/-- A slot of stage 0 that holds iteration 0. -/
def src0 : SlotUse := ⟨0, 0, 0, 0, true, []⟩
/-- The output slot of iteration 0. -/
def out0 : SlotUse := ⟨0, 2, 0, 1, false, []⟩
theorem test_stream_fetch : Normal.slotGranted (withStream idle0 { running0 with waiting := [(0, 5)] }) 5 0 0 0 = true ∧
    (match ((withStream idle0 { running0 with waiting := [(0, 5)] }).fetchData 5 0 0).1 with | .ok _ => true | .error _ => false) = true ∧
    Normal.streamFetching (withStream idle0 running0) 5 0 = true ∧
    (withStream idle0 { running0 with granted := [src0, { src0 with iter := 1 }, { src0 with iter := 2, index := 1 }, { src0 with iter := 3, index := 2 }] }).grantOne
      0 0 0 = none := by decide +kernel
theorem test_stream_task : Normal.streamTaskPlace (withStream idle0 { running0 with granted := [src0], headgate := true }) 5 0 0 run10 [⟨0, 2, 0, 1, false, []⟩] = true ∧
    Normal.streamStore (withStream idle0 { running0 with placed := [⟨0, true, [out0]⟩] }) 5 0 2 0 ⟨0, true, [out0]⟩ out0 = true ∧
    (idle0.storeOut 0 0 9 (2 ^ 20) 1).2 = none := by decide +kernel
theorem test_stream_events : Normal.warmFetch (withStream base { stream0 with standby := true, phase := .standby, warmIters := 1 }) 5 0 0 = true ∧
    Normal.creditWatchdog (withStream base { running0 with waiting := [(0, 5)] }) 5 0 0 (0, 5) = true ∧ running0.stallAction = 0 ∧
    Normal.clapLimit { base with streams := { claps := [(5, clap2 [(0, 1999990000)])] } } 0 5 (clap2 [(0, 1999990000)]) = true ∧
    Normal.clapLimit { base with streams := { claps := [(5, clap2 [(0, 1999990001)])] } } 0 5 (clap2 [(0, 1999990001)]) = false ∧
    Normal.resvScrub (base.setFld uResv 0x040 0 0 1) 393215 = true ∧
    Normal.streamDrained (withStream base { running0 with phase := .cancelling, cancelCmd := some (cmd []) }) 5 = true := by decide +kernel
/-- `base` whose reel job is `j`. -/
def reelJob (j : ReelJob) : State := { mapped base with reels := { jobs := [(0, j)] } }
/-- `reel_config` with an OP and the values of some fields. -/
def reelCmd (op index lines valid step va len : Nat) : Command :=
  cmd (le 1 op ++ le 1 index ++ le 2 0 ++ le 2 lines ++ le 1 valid ++ le 1 0 ++ le 4 step ++ le 4 0 ++ le 8 va ++ le 8 len)
theorem test_reel_commands : Normal.passes (mapped base) ((mapped base).reelConfigChecks (reelCmd 0 0 24576 0 0 (2 ^ 24) 128)) = true ∧
    Normal.passes (reelJob { phase := .configured }) ((reelJob { phase := .configured }).reelBeginChecks (reelCmd 1 0 0 0 9 0 0)) = true ∧
    (reelJob { phase := .configured }).freezeDue 0 9 = none ∧ ((reelJob { phase := .configured }).rjob 0).configured = false ∧
    Normal.passes (reelJob { phase := .inStep, step := 9 }) ((reelJob { phase := .inStep, step := 9 }).reelUpdateChecks (reelCmd 2 0 0 0 9 0 0)) = true ∧
    (reelJob { phase := .inStep, step := 9 }).gateReady 0 = true ∧
    Normal.passes (reelJob { phase := .inStep, step := 9, openIds := [3] })
      ((reelJob { phase := .inStep, step := 9, openIds := [3] }).reelUpdateChecks (reelCmd 2 0 0 0 9 0 0)) = true ∧
    (reelJob { phase := .inStep, step := 9, openIds := [3] }).gateReady 0 = false ∧
    Normal.passes base (base.reelShardChecks (reelCmd 3 15 0 1 7 65536 (2 ^ 57 - 65536))) = true ∧
    Normal.passes base (base.reelClearChecks (reelCmd 4 0 0 0 0 0 0)) = true := by decide +kernel
theorem test_reel_gate : Normal.gateOpens (reelJob { phase := .gatePending, gateCmd := some (cmd []) }) 0 (cmd []) = true ∧
    Normal.gateTimeout (reelJob { phase := .gatePending, gateCmd := some (cmd []), gateDue := 2000000000 }) 0 (cmd []) = true ∧
    Normal.gateTimeout (reelJob { phase := .gatePending, gateCmd := some (cmd []), gateDue := 2000000001 }) 0 (cmd []) = false := by decide +kernel

/-! ### Maps and memory, the far tier, attention -/

/-- A command of an opcode. -/
def opc (op : Nat) (ps : List Byte) : Command := ⟨{ hdr with opcode := op }, ps⟩
/-- What an edit comes to: whether it needs a shootdown. -/
def shoots (s : State) (c : Command) : Option Bool := match s.editEffect c 0 with | .ok (_, o) => some o.shoot | .error _ => none
/-- Two twoStacks are ACTIVE, and the job has no map. -/
def twoStacks : State := (base.setXentry (uHbm 0) { base.xentry (uHbm 0) with state := 1 }).setXentry (uHbm 1) { base.xentry (uHbm 1) with state := 1 }
/-- The command pool region lies in at most one of two places that are far apart. -/
theorem region_apart (n : Nat) (h : n ≤ 2 ^ 30) : meets 0 n (Config.capWord uQmgr 0) (2 ^ 27) = false ∨
    meets (2 ^ 35) n (Config.capWord uQmgr 0) (2 ^ 27) = false := by
  simp only [meets, Bool.and_eq_false_iff, decide_eq_false_iff_not]
  omega
theorem owned_base (pa n : Nat) (h : meets pa n (Config.capWord uQmgr 0) (2 ^ 27) = false) :
    ((twoStacks.ownedRanges ++ twoStacks.kvRanges).any fun r => meets pa n r.1 r.2) = false := by
  have o : twoStacks.ownedRanges ++ twoStacks.kvRanges = [(Config.capWord uQmgr 0, 2 ^ 27)] := rfl
  rw [o, List.any_cons, h]
  rfl
theorem test_map_create : ∃ c, Normal.passes twoStacks (twoStacks.mapCreateChecks c) = true := by
  have key : ∀ pa, pa = 0 ∨ pa = 2 ^ 35 → meets pa (2 ^ 22) (Config.capWord uQmgr 0) (2 ^ 27) = false →
      Normal.passes twoStacks (twoStacks.mapCreateChecks (cmd (le 8 pa ++ le 8 (2 ^ 22)))) = true := by
    intro pa hp h
    have a := owned_base pa (2 ^ 22) h
    simp only [Normal.passes, State.mapCreateChecks, firstFail_cons_eq_none, badIf_eq_none, failIf_eq_none, firstFail_nil, Bool.and_eq_true,
      Option.isNone_iff_eq_none, Bool.or_eq_false_iff]
    rcases hp with rfl | rfl
    · refine ⟨by decide +kernel, by decide +kernel, ⟨by decide +kernel, ?_⟩, by decide +kernel, by decide +kernel, by decide +kernel, trivial⟩
      rw [show (cmd (le 8 0 ++ le 8 (2 ^ 22))).u64 0 = 0 by decide +kernel, show (cmd (le 8 0 ++ le 8 (2 ^ 22))).u64 8 = 2 ^ 22 by decide +kernel]
      exact a
    · refine ⟨by decide +kernel, by decide +kernel, ⟨by decide +kernel, ?_⟩, by decide +kernel, by decide +kernel, by decide +kernel, trivial⟩
      rw [show (cmd (le 8 (2 ^ 35) ++ le 8 (2 ^ 22))).u64 0 = 2 ^ 35 by decide +kernel,
        show (cmd (le 8 (2 ^ 35) ++ le 8 (2 ^ 22))).u64 8 = 2 ^ 22 by decide +kernel]
      exact a
  rcases region_apart (2 ^ 22) (by decide) with h | h
  · exact ⟨_, key 0 (.inl rfl) h⟩
  · exact ⟨_, key _ (.inr rfl) h⟩
/-- `map_edit` UNMAP of the gigabyte at `va`. -/
def unmapC (va : Nat) : Command := opc 0x1002 ([2, 2] ++ le 6 0 ++ le 8 va ++ le 8 0 ++ le 8 (2 ^ 30))
/-- `map_edit` UNMAP of the last 2 MiB. -/
def unmapLast : Command := opc 0x1002 ([2, 1] ++ le 6 0 ++ le 8 (2 ^ 57 - 2 ^ 21) ++ le 8 0 ++ le 8 (2 ^ 21))
theorem test_map_edit : Normal.passes (mapped base) ((mapped base).mapEditChecks (unmapC 0)) = true ∧
    shoots (mapped base) (unmapC 0) = some true ∧ (mapped base).editWaits 0 ((mapped base).editRanges (unmapC 0)) [] = false ∧
    Normal.passes (mapped base) ((mapped base).mapEditChecks unmapLast) = true ∧
    shoots (mapped base) unmapLast = some false := by decide +kernel
/-- Sequence 3 of the job at 2^40, of one layer and head, with two tokens in layer 0. -/
def seq3 : KvSeq := { valid := true, va := 2 ^ 40, maxTokens := 512, kvHeads := 1, layers := 1, fmt := 1, lengths := [(0, 2)] }
/-- `s` with sequence 3. -/
def withSeq (s : State) (x : KvSeq) : State := { s with attn := { s.attn with seqs := [(3, x)], pools := [(0, { valid := true, base := 2 ^ 36, pages := 64 })] } }
theorem test_map_edit_waits : (withSeq (mapped base) { seq3 with va := 0, walkers := [1] }).editWaits 0 ((mapped base).editRanges (unmapC 0)) [] = true ∧
    (match (withSeq (mapped base) { seq3 with va := 0, walkers := [1] }).editEffect (unmapC 0) 0 with | .ok _ => true | .error _ => false) = true := by
  decide +kernel
/-- A shootdown of the job. -/
def shoot1 (answered : Bool) : Shoot := ⟨some (cmd []), 0, 0, 1, [], answered⟩
theorem test_maps : Normal.passes (mapped base) ((mapped base).mapDestroyChecks (cmd [])) = true ∧
    Normal.mapUnused { mapped base with memory := { (mapped base).memory with maps := [(0, { valid := true, destroyCmd := some (cmd []) })] } } 0 (cmd []) = true ∧
    Normal.shooting { base with memory := { shoots := [shoot1 true] } } 0 (shoot1 true) = true ∧
    Normal.shooting { base with memory := { shoots := [shoot1 false] } } 0 (shoot1 false) = true ∧
    Normal.passes base (base.memCopyChecks (cmd (le 8 (2 ^ 36) ++ le 8 0 ++ le 8 (2 ^ 36)))) = true ∧
    Normal.passes base (base.memCopyChecks (cmd (le 8 (2 ^ 36 - 256) ++ le 8 0 ++ le 8 (2 ^ 36)))) = false ∧
    Normal.passes base (base.memFillChecks (cmd (le 8 0 ++ le 8 (2 ^ 36) ++ le 8 7))) = true ∧
    Normal.scrubbed (base.setFld (uHbm 0) 0x040 0 0 1) (uHbm 0) 64 = true := by decide +kernel
/-- `twoStacks` with far channel 2 in a state. -/
def far2 (state : Nat) : State := twoStacks.setFld (uFar 2) 0x018 63 60 state
/-- `far_migrate` of `n` chunks of channel 2 from chunk `first`. -/
def moveC (op first n dest : Nat) : Command := cmd ([2, BitVec.ofNat 8 op, BitVec.ofNat 8 first, BitVec.ofNat 8 n] ++ le 4 0 ++ le 8 dest)
theorem test_far_back : Normal.passes ((far2 2).setChunk 2 127 2 (2 ^ 36)) (((far2 2).setChunk 2 127 2 (2 ^ 36)).migrateBackChecks (moveC 1 127 1 0)) = true ∧
    Normal.passes (far2 2) ((far2 2).migrateReleaseChecks (moveC 2 127 1 0)) = true ∧
    Normal.passes (far2 3) ((far2 3).farOnlineChecks (cmd (le 8 2))) = true ∧
    Normal.bringingUp { far2 1 with memory := { bringups := [(2, cmd [])] } } 2 (cmd []) = true := by decide +kernel
/-- A move of channel 2. -/
def move2 (back : Bool) (left : List Nat) : FarMove := ⟨moveC 0 0 2 (2 ^ 36), 2, back, left, 0, 0⟩
theorem test_chunks : Normal.chunkCopied { far2 2 with memory := { moves := [move2 false [0, 1]] } } 2 (move2 false [0, 1]) 0 = true ∧
    Normal.chunkCopied { far2 2 with memory := { moves := [move2 true [1]] } } 2 (move2 true [1]) 1 = true ∧
    Normal.slotFalls { base with pins := { base.pins with farSlotEn := [(2, 0)], slotPower := [(2, 1)], slotOffAt := [(2, 1940000000)] } } 2 = true ∧
    Normal.slotFalls { base with pins := { base.pins with farSlotEn := [(2, 0)], slotPower := [(2, 1)], slotOffAt := [(2, 1940000001)] } } 2 = false := by
  decide +kernel
theorem far_home : ∀ c < 12, ∀ k < 128, (far2 2).chunkPhase c k = 0 := by decide +kernel
theorem hosts_none (pa : Nat) : (far2 2).hosts pa = false := by
  simp only [State.hosts, List.any_eq_false, List.mem_range]
  intro c hc
  simp only [Bool.not_eq_true, List.any_eq_false, List.mem_range]
  intro k hk
  rw [far_home c hc k hk]
  simp
theorem test_far_offline : Normal.passes (far2 2) ((far2 2).farOfflineChecks ⟨{ hdr with flags := 16 }, le 8 2⟩) = true := by
  have h : (far2 2).hosted 2 = 0 := by
    simp only [State.hosted, hosts_none]
    rfl
  simp only [Normal.passes, State.farOfflineChecks, firstFail_cons_eq_none, badIf_eq_none, firstFail_nil, Bool.and_eq_true,
    Option.isNone_iff_eq_none]
  refine ⟨by decide +kernel, by decide +kernel, by decide +kernel, ?_, trivial⟩
  rw [show (⟨{ hdr with flags := 16 }, le 8 2⟩ : Command).u8 0 = 2 by decide +kernel, h]
  decide +kernel
theorem test_far_out : ∃ d, Normal.passes (far2 2) ((far2 2).migrateOutChecks (moveC 0 127 1 d)) = true := by
  have key : ∀ d, d = 0 ∨ d = 2 ^ 35 → meets d (2 ^ 30) (Config.capWord uQmgr 0) (2 ^ 27) = false →
      Normal.passes (far2 2) ((far2 2).migrateOutChecks (moveC 0 127 1 d)) = true := by
    intro d hd h
    have b : (far2 2).destBad 2 d = false := by
      have o : (far2 2).ownedRanges ++ (far2 2).kvRanges = [(Config.capWord uQmgr 0, 2 ^ 27)] := rfl
      simp only [State.destBad, hosts_none, o, List.any_cons, h, List.any_nil, Bool.or_false]
      rcases hd with rfl | rfl <;> decide +kernel
    have e : (moveC 0 127 1 d).u8 0 = 2 ∧ (moveC 0 127 1 d).u8 3 = 1 ∧ (moveC 0 127 1 d).u64 8 = d := by
      rcases hd with rfl | rfl <;> decide +kernel
    simp only [Normal.passes, State.migrateOutChecks, e.1, e.2.1, e.2.2, List.range_one, List.map_cons, List.map_nil, List.any_cons,
      List.any_nil, Nat.zero_mul, Nat.add_zero, b, Bool.or_false]
    rcases hd with rfl | rfl <;> decide +kernel
  rcases region_apart (2 ^ 30) (by decide) with h | h
  · exact ⟨_, key 0 (.inl rfl) h⟩
  · exact ⟨_, key _ (.inr rfl) h⟩

/-! ### Attention -/

/-- `seq_create` of a pool of 4 MiB at `pa`. -/
def poolC (pa : Nat) : Command := cmd ([0, 0] ++ le 14 0 ++ le 8 pa ++ le 8 (2 ^ 22))
theorem test_kv_pool : ∃ c, Normal.passes twoStacks (twoStacks.seqCreatePoolChecks c) = true := by
  have key : ∀ pa, pa = 0 ∨ pa = 2 ^ 35 → meets pa (2 ^ 22) (Config.capWord uQmgr 0) (2 ^ 27) = false →
      Normal.passes twoStacks (twoStacks.seqCreatePoolChecks (poolC pa)) = true := by
    intro pa hp h
    have a := owned_base pa (2 ^ 22) h
    have e : (poolC pa).u64 0x10 = pa ∧ (poolC pa).u64 0x18 = 2 ^ 22 := by rcases hp with rfl | rfl <;> decide +kernel
    simp only [Normal.passes, State.seqCreatePoolChecks, e.1, e.2, a, Bool.or_false]
    rcases hp with rfl | rfl <;> decide +kernel
  rcases region_apart (2 ^ 22) (by decide) with h | h
  · exact ⟨_, key 0 (.inl rfl) h⟩
  · exact ⟨_, key _ (.inr rfl) h⟩
/-- `mapped base` with sequence 3 and its pool. -/
def kv : State := withSeq (mapped base) seq3
theorem test_sequences : Normal.passes (mapped base) ((mapped base).seqCreateSequenceChecks (cmd ([1, 0] ++ le 2 0xFFFF ++ [1, 64] ++ le 2 1 ++ le 2 2 ++
      le 2 0 ++ le 4 512 ++ le 8 (2 ^ 41)))) = true ∧
    Normal.passes kv (kv.seqDestroyChecks (opc 0x7001 ([2, 0] ++ le 2 3 ++ le 32 0))) = true ∧
    shoots kv (opc 0x7001 ([2, 0] ++ le 2 3 ++ le 32 0)) = some false := by decide +kernel
/-- Page 0 of every layer and head of sequence 3. -/
def pageC (op : Nat) : Command := opc op (le 2 3 ++ le 2 0xFFFF ++ le 2 0xFFFF ++ le 2 0 ++ le 4 0 ++ le 4 1)
/-- The device with page 0 of sequence 3 mapped. -/
def kvMapped : State := match kv.editEffect (pageC 0x7002) 0 with | .ok (t, _) => t | .error _ => kv
theorem test_pages : Normal.passes kv (kv.kvPageMapChecks (pageC 0x7002)) = true ∧ shoots kv (pageC 0x7002) = some false ∧
    Normal.passes kvMapped (kvMapped.kvPageFreeChecks (pageC 0x7004)) = true ∧ shoots kvMapped (pageC 0x7004) = some true ∧
    (kvMapped.editWaits 0 (kvMapped.editRanges (pageC 0x7004)) []) = false := by decide +kernel
/-- Sequence 4, of the same shape, and `kv_page_share` of page 0 from 3 to 4. -/
def kvTwo : State := { kvMapped with attn := { kvMapped.attn with seqs := kvMapped.attn.seqs ++ [(4, { seq3 with va := 2 ^ 40 + 2 ^ 21 })] } }
def shareC : Command := opc 0x7003 (le 2 3 ++ le 2 4 ++ le 2 0xFFFF ++ le 2 0xFFFF ++ le 4 0 ++ le 4 1 ++ le 4 512 ++ le 4 0)
theorem test_share : Normal.passes kvTwo (kvTwo.kvPageShareChecks shareC) = true ∧ (shoots kvTwo shareC).isSome = true := by decide +kernel
/-- `attn_run` of one head on row 0, two query positions, a ring of two slots at line 4. -/
def attnC : Command := opc 0x7005 (le 2 3 ++ le 2 3 ++ le 2 0 ++ [0, 1] ++ le 2 0 ++ le 2 1 ++ [1, 0] ++ le 2 4 ++ [2, 0] ++ le 10 0 ++ le 4 2 ++ le 48 0)
/-- Its run. -/
def run3 : AttnRun := { cmd := attnC, order := 1, slot := 0, seq := 3, headgate := false, walking := true, length := 2 }
/-- The run's task on core 0. -/
def attnTask : Task := { task0 with kind := .attn 1 }
theorem test_attention : Normal.passes (withSeq idle0 seq3) ((withSeq idle0 seq3).attnRunChecks attnC) = true ∧
    run3.tiles 0 = [(0, false)] ∧
    Normal.editDue { kv with attn := { kv.attn with held := [⟨pageC 0x7004, 0, [(2 ^ 40, 65536)]⟩] } } 3 = true := by decide +kernel
theorem test_tile : Normal.tileDue { withSeq (onCore { core0 with task := some attnTask } [endB] [] 0) seq3 with attn :=
      { (withSeq base seq3).attn with runs := [run3] } } 0 attnTask run3 0 false = true := by decide +kernel

/-! ### The Flume engines -/

theorem ok_of {ε α} [DecidableEq α] (e : Except ε α) (a : α) (h : (match e with | .ok x => decide (x = a) | .error _ => false) = true) :
    e = .ok a := by
  cases e with
  | ok x => rw [of_decide_eq_true h]
  | error _ => exact absurd h (by simp)
/-- A descriptor of an OP that is owned by the device: one row of 128 bytes to 0x2000, or with LINK to 0x1000. -/
def descr (op wait : Nat) : List Byte :=
  [BitVec.ofNat 8 op, 0, 0, 0] ++ le 2 wait ++ le 2 0 ++ le 4 0 ++ le 4 (if op = 1 then 1 else 0) ++ le 8 (if op = 5 then 0x1000 else 0) ++
    le 8 (if op = 1 then 0x2000 else 0) ++ le 4 (if op = 1 then 128 else 0) ++ le 20 0 ++ le 8 (2 ^ 63)
/-- `mapped base` with engine 2 in use for jobs and channel 15 of it as given; the descriptor lies at virtual 0x40. -/
def flume (x : FlumeChannel) (op wait : Nat) : State :=
  let s := (mapped base).setXentry (uFlume 2) { base.xentry (uFlume 2) with state := 1 }
  { s with flume := { channels := [(47, { x with owner := some 0, desc := 0x40, cmd := some (cmd []), held := descr op wait })]
                      timers := [(3, ⟨some 0, 100, 2000000000, 7⟩)] }
           memory := { s.memory with bytes := putBytes s.memory.bytes (2 ^ 30 + 0x40) (descr op wait) } }
theorem test_flume_commands : Normal.passes (flume {} 1 0xFFFF) ((flume {} 1 0xFFFF).flumeChainStartChecks (cmd ([0, 2, 15, 0] ++ le 4 0 ++ le 8 0x40 ++ le 8 0))) = true ∧
    Normal.passes base (base.flumeTimerSetChecks (cmd ([1, 15, 0, 0] ++ le 4 4000000000 ++ le 8 0 ++ le 8 0))) = true ∧
    Normal.passes base (base.flumeTimerSetChecks (cmd ([1, 15, 0, 0] ++ le 4 100 ++ le 8 0 ++ le 8 3000000000))) = true ∧
    Normal.passes base (base.flumeTimerSetChecks (cmd ([1, 15, 0, 0] ++ le 4 99 ++ le 8 0 ++ le 8 0))) = false ∧
    Normal.timerDue (flume {} 1 0xFFFF) 3 = true ∧
    Normal.passes (flume { phase := .moving } 1 0xFFFF) ((flume { phase := .moving } 1 0xFFFF).flumeChainStopChecks (cmd ([2, 15, 1, 0] ++ le 4 0))) = true ∧
    Normal.passes base (base.flumeStatusChecks (cmd ([15, 0xFF] ++ le 6 0))) = true := by decide +kernel
theorem test_descriptor_read : Normal.flumePhase (flume { phase := .reading } 1 0xFFFF) 2 15 .reading = true ∧
    Normal.ownedDescriptor (flume { phase := .reading } 1 0xFFFF) (flumeKey 2 15) (descr 1 0xFFFF) ∧
    Normal.flumePhase (flume { phase := .waitOwn } 1 0xFFFF) 2 15 .waitOwn = true ∧
    Normal.ownedDescriptor (flume { phase := .waitOwn } 1 0xFFFF) (flumeKey 2 15) (descr 1 0xFFFF) ∧
    ((flume { phase := .waitOwn } 1 0xFFFF).channel 47).polledAt + base.fld (uFlume 2) 0x040 63 48 ≤ base.now :=
  ⟨by decide +kernel, ⟨by decide +kernel, ok_of _ _ (by decide +kernel), by decide +kernel⟩, by decide +kernel,
    ⟨by decide +kernel, ok_of _ _ (by decide +kernel), by decide +kernel⟩, by decide +kernel⟩
theorem test_event_wait : Normal.flumePhase (flume { phase := .waitEvent } 1 0x103) 2 15 .waitEvent = true ∧
    waitMet ((flume {} 1 0x103).eventSource 0x103).2 0 = true ∧ Normal.runnable (flume { phase := .waitEvent } 1 0x103) 47 (descr 1 0x103) := by
  refine ⟨by decide +kernel, by decide +kernel, by decide +kernel, by decide +kernel, .inr (by decide +kernel), .inl (by decide +kernel)⟩
theorem test_descriptors : ∀ op < 7, Normal.running (flume { phase := .moving } op 0xFFFF) 2 15 op = true ∧
    ((flume { phase := .moving } op 0xFFFF).channel 47).stopping = 0 ∧ ((flume { phase := .moving } op 0xFFFF).channel 47).result.bad = false := by
  decide +kernel
theorem test_write_back : Normal.writeBackDue (flume { phase := .draining } 1 0xFFFF) 2 15 = true ∧ (parseDescriptor (descr 1 0xFFFF)).op = 1 := by
  decide +kernel

/-! ### The fabric -/

/-- `mapped base` with port 15 as given, epoch 4 in slot 0, fabric id 5. -/
def fabric (x : Port) (f : FabricJob) : State :=
  let s := mapped base
  { s with timecode := { s.timecode with device := 5 }
           fabric := { ports := [(15, x)], jobs := [(0, { f with epoch := 4 })], maps := [(1, ⟨List.replicate 16 (7, 3), []⟩)], activeMap := some 1 } }
/-- A link control frame of device 7's port 3. -/
def lcf7 : LinkControl := ⟨0, none, 0, 7, 3, 0, 0, 0, 0, 0⟩
theorem test_links : Normal.portIn (fabric { phase := .up } {}) 15 .up = true ∧ lcf7.nack = none ∧
    ((((fabric { phase := .up } {}).setPort 15 { phase := .up, echo := (0, 2000000000), peer := 7, peerPort := 3 }).linkAck 15 0).port 15).phase = .up ∧
    Normal.portIn (fabric { phase := .miswired, peer := 7, peerPort := 3 } {}) 15 .miswired = true ∧
    Normal.lcfDue (fabric { phase := .up, lastLcf := 1999999000 } {}) 15 = true ∧
    Normal.lcfDue (fabric { phase := .up, lastLcf := 1999999001 } {}) 15 = false ∧
    Normal.portIn ((fabric { phase := .down } {}).setFld (uLink 15) 0x040 0 0 1) 15 .down = true ∧
    Normal.portIn (fabric { phase := .training, trainingSince := 1800000000 } {}) 15 .training = true ∧
    Normal.retryDue ((fabric { phase := .down, light := true, downSince := 1000000000 } {}).setFld (uLink 15) 0x040 0 0 1) 15 = true := by decide +kernel
/-- A good frame of a type for device 5 and the job, at port 15. -/
def frame (type epoch opId : Nat) : Frame :=
  let k : Packet := ⟨type, 0, 5, 7, 0, 0, 7, epoch, opId, 0, 0, 1, 0, default, []⟩
  ⟨15, 0, true, { k with crc := packetCrc k }⟩
theorem test_frames : (∀ type ∈ [1, 2, 3, 4], Normal.packetFor (fabric { phase := .up } {}) (frame type 4 0) type 0 = true) ∧
    Normal.packetFor (fabric { phase := .recutting } {}) (frame 3 5 0xFFFF) 3 0 = true ∧
    ((Normal.received (fabric { phase := .up } {}) (frame 1 4 0)).fjob 0).epoch = 4 := by decide +kernel
/-- A layout of one group of one part: devices 5 and 7. -/
def layout2 (epoch : Nat) : Layout := ⟨epoch, [⟨0, 2, 1⟩], [5, 7]⟩
/-- Its record. -/
def layoutBytes (epoch : Nat) : List Byte :=
  le 4 epoch ++ [1, 0, 0, 0] ++ le 4 2 ++ le 4 0 ++ le 4 0 ++ le 2 2 ++ le 2 1 ++ le 120 0 ++ le 2 5 ++ le 2 7
/-- `collective_run` of ALL_REDUCE over 512 bytes, and `gather_run` of 512 bytes. -/
def collC : Command := cmd ([2, 0] ++ le 2 9 ++ le 4 4 ++ le 8 512 ++ le 8 0x1000 ++ le 8 0x2000 ++ le 8 0 ++ le 8 0)
def gatherC (pass : Nat) : Command := cmd (le 2 9 ++ le 1 pass ++ [0] ++ le 4 4 ++ le 8 512 ++ le 8 0x1000 ++ le 8 0x2000)
/-- A collective that still misses data. -/
def coll9 : Collective := ⟨collC, 0, false, 2, 9, 4, 512, 0x1000, 0x2000, 0, 0, false, 0, [5, 7], 2000000000, [], [], [], [], [], [], false, [], [], 0, none⟩
theorem test_collectives : Normal.passes (fabric {} { layout := some (layout2 4) }) ((fabric {} { layout := some (layout2 4) }).collectiveRunChecks collC) = true ∧
    Normal.passes (fabric {} { layout := some (layout2 4) }) ((fabric {} { layout := some (layout2 4) }).gatherRunChecks (gatherC 0)) = true ∧
    Normal.passes (fabric {} { layout := some (layout2 4) }) ((fabric {} { layout := some (layout2 4) }).gatherRunChecks (gatherC 1)) = true ∧
    Normal.collectiveLate { fabric {} {} with fabric := { (fabric {} {}).fabric with collectives := [coll9] } } 0 false 9 coll9 = true := by decide +kernel
/-- A virtual range whose pages all translate into an unlisted part of memory reads as zeros. -/
theorem vread_zeros (s : State) (slot va n : Nat) (hm : ∀ e ∈ s.memory.bytes, e.1 < 2 ^ 30)
    (h : ((pieces va n).all fun q => (match s.translate slot (va + q.1) false with
      | .ok pa => decide (2 ^ 30 ≤ pa) && s.readSide pa == pa && !s.memPoison pa q.2
      | .error _ => false)) = true) : s.vread slot va n = .ok (List.replicate ((pieces va n).map (·.2)).sum 0, false) := by
  have get : ∀ m : TMap Byte, (∀ e ∈ m, e.1 < 2 ^ 30) → ∀ a, 2 ^ 30 ≤ a → m.get 0 a = 0 := by
    intro m hm a ha
    induction m with
    | nil => rfl
    | cons e m ih =>
      rw [show e = (e.1, e.2) from rfl, TMap.get_cons]
      have := hm e (by simp)
      split
      · omega
      · exact ih fun e he => hm e (by simp [he])
  have go : ∀ (l : List (Nat × Nat)) (acc : List Byte), (l.all fun q => (match s.translate slot (va + q.1) false with
      | .ok pa => decide (2 ^ 30 ≤ pa) && s.readSide pa == pa && !s.memPoison pa q.2
      | .error _ => false)) = true →
      l.foldlM (fun (acc : List Byte × Bool) q => match s.translate slot (va + q.1) false with
        | .error f => Except.error f
        | .ok pa => .ok (acc.1 ++ s.memBytes pa q.2, acc.2 || s.memPoison pa q.2)) (acc, false) =
      .ok (acc ++ List.replicate (l.map (·.2)).sum 0, false) := by
    intro l
    induction l with
    | nil => intro acc _; simp [pure, Except.pure]
    | cons q l ih =>
      intro acc h
      rw [List.all_cons, Bool.and_eq_true] at h
      obtain ⟨h1, h2⟩ := h
      rw [List.foldlM_cons]
      revert h1
      cases ht : s.translate slot (va + q.1) false with
      | error f => intro h1; exact absurd h1 (by simp)
      | ok pa =>
        intro h1
        simp only [Bool.and_eq_true, decide_eq_true_eq, beq_iff_eq, Bool.not_eq_true'] at h1
        have hb : s.memBytes pa q.2 = List.replicate q.2 0 := by
          rw [State.memBytes, h1.1.2, State.rawBytes]
          apply List.ext_getElem
          · simp
          · intro i _ _
            simp only [List.getElem_map, List.getElem_range, List.getElem_replicate]
            exact get _ hm _ (by omega)
        show l.foldlM _ (acc ++ s.memBytes pa q.2, false || s.memPoison pa q.2) = _
        rw [hb, h1.2, Bool.or_false, ih _ h2]
        simp
  have := go (pieces va n) [] h
  rw [List.nil_append] at this
  exact this
theorem test_port_map : Normal.passes (fabric {} {}) ((fabric {} {}).portMapSetChecks (cmd (le 8 7 ++ le 8 0x1000))) = true ∧
    Normal.record (fabric {} {}) 0 0x1000 32960 (List.replicate 32960 0) ∧ ∃ m, (fabric {} {}).parseMap (List.replicate 32960 0) = some m := by
  refine ⟨by decide +kernel, ?_, ?_⟩
  · have h := vread_zeros (fabric {} {}) 0 0x1000 32960 (by decide +kernel) (by decide +kernel)
    rw [show ((pieces 0x1000 32960).map (·.2)).sum = 32960 by decide +kernel] at h
    exact h
  · unfold State.parseMap
    dsimp only
    rw [if_neg (by decide +kernel)]
    exact ⟨_, rfl⟩
theorem test_fabric_id : Normal.passes base (base.fabricIdSetChecks (cmd (le 2 (2 ^ 15 + 8191) ++ [1] ++ le 5 0))) = true ∧
    Normal.passes base (base.fabricIdSetChecks (cmd (le 2 8192 ++ [1] ++ le 5 0))) = false ∧
    Normal.passes base (base.linkStatusChecks (cmd (le 8 0xFF))) = true ∧ Normal.passes base (base.linkStatusChecks (cmd (le 8 16))) = false := by
  decide +kernel
/-- The device with the record of the layout of epoch 5 at virtual 0x1000. -/
def layouts : State :=
  let s := fabric {} { fstate := .active, layout := some (layout2 4) }
  { s with memory := { s.memory with bytes := putBytes s.memory.bytes (2 ^ 30 + 0x1000) (layoutBytes 5) } }
/-- `recut_run` to epoch 5, in a MODE. -/
def recutC (mode : Nat) : Command := cmd (le 4 5 ++ [1] ++ le 1 mode ++ le 2 0 ++ le 8 0x1000 ++ le 8 0)
theorem test_recut : (∀ mode < 2, Normal.passes layouts (layouts.recutChecks (recutC mode) mode) = true) ∧
    Normal.layoutRead layouts 0 0x1000 5 (layout2 5) ((layouts.vtouch 0 0x1000 0x90).vtouch 0 0x1000 (0x90 + 2 * 2)) :=
  ⟨by decide +kernel, (layoutBytes 5).take 0x90, layoutBytes 5, ok_of _ _ (by decide +kernel), by decide +kernel,
    ok_of _ _ (by decide +kernel), rfl, by decide +kernel⟩
/-- A recut of slot 0 that changes port 15. -/
def recut5 (released dark : Bool) : Recut :=
  ⟨hdr, 5, 1, false, layout2 5, 0, 2000000000, 0, none, if released then some 0 else none, none, 0, [15], if dark then [15] else [], [], 0, false⟩
theorem test_recut_events : Normal.drained (fabric {} { fstate := .draining, recut := some (recut5 false false) }) 0 = true ∧
    Normal.darkDue (fabric { phase := .recutting } { recut := some (recut5 true false) }) 15 0 (recut5 true false) = true ∧
    Normal.relocks (fabric { phase := .recutting } { recut := some (recut5 true true) }) 15 0 (recut5 true true) 7 3 = true ∧
    Normal.recutLate (fabric {} { recut := some (recut5 true true) }) 0 (recut5 true true) = true ∧
    Normal.recutLate (fabric {} { recut := some (recut5 false false) }) 0 (recut5 false false) = true := by decide +kernel

/-! ### Scheduling -/

/-- `base` whose job 0 is as given. -/
def withJob (j : Job) (mode : Bool) : State := { base with sched := { base.sched with jobs := [(0, j)], allotmentMode := mode } }
/-- `task_migrate` of logical core 0 to core 1, with the range of lines 8 to 15. -/
def migrateC : Command := cmd ([1, 1] ++ le 6 0 ++ [0, 1] ++ le 30 0 ++ le 2 8 ++ le 2 8 ++ le 60 0)
/-- A migration that has closed its turnouts. -/
def mig : Migration := ⟨migrateC, 0, [(0, 1)], [(0, 1)], [(8, 8)], 0, [], true, 0, [], []⟩
/-- A device whose allotment 0 has cores 0 and 1. -/
def twoCores : State := { base with sched := { base.sched with allotments := [(0, { valid := true, cores := [0, 1], turnUs := 50 })] } }
/-- `allotment_set` of an allotment's cores. -/
def allotC (a reserve turn mask : Nat) : Command := cmd (le 1 a ++ le 1 reserve ++ le 2 0 ++ le 4 turn ++ le 18 mask ++ le 10 0)
theorem test_jobs : Normal.passes base (base.jobCreateChecks (cmd (le 4 8 ++ [0, 63] ++ le 2 0 ++ le 4 0))) = true ∧
    Normal.passes base (base.jobCreateChecks (cmd (le 4 8 ++ [0, 0xFF] ++ le 2 0 ++ le 4 0))) = true ∧
    (∀ mode < 2, Normal.passes base (base.jobDestroyChecks (cmd (le 4 7 ++ le 1 mode ++ le 3 0))) = true) ∧
    Normal.tornDown (withJob { phase := .destroying, tag := 7, destroyCmd := some (cmd (le 4 7 ++ [1, 0, 0, 0])) } true) 0
      (cmd (le 4 7 ++ [1, 0, 0, 0])) = true ∧
    (∀ mode < 2, Normal.passes (withJob {} true) ((withJob {} true).modeSetChecks (cmd (le 8 mode))) = true) := by decide +kernel
theorem test_allotments : (withJob {} false).sched.allotmentMode = false ∧
    Normal.passes (withJob {} false) ((withJob {} false).reserveSetChecks (allotC 0 144 0 (2 ^ 144 - 1))) = true ∧
    Normal.passes (withJob {} false) ((withJob {} false).reserveSetChecks (allotC 0 145 0 (2 ^ 144 - 1))) = false ∧
    twoCores.sched.allotmentMode = true ∧ Normal.passes twoCores (twoCores.allotmentSetChecks (allotC 0 1 50000 1)) = true ∧
    Normal.passes twoCores (twoCores.allotmentSetChecks (allotC 0 1 50001 1)) = false ∧
    Normal.passes twoCores (twoCores.allotmentSetChecks (allotC 15 1 50 4)) = true := by decide +kernel
/-- Allotment 0 after its cores have been set. -/
def setCores (s : State) (a mask : Nat) : Allotment :=
  (s.applyMask a (s.maskCores (allotC a 1 50 mask)) { s.sched.allotments.get {} a with valid := true }).sched.allotments.get {} a
theorem test_leaving : (setCores { twoCores with cores := { cores := [(1, { core0 with task := some { task0 with slot := 0 } })] } } 0 1).leaving = [1] ∧
    (setCores twoCores 15 4).leaving = [] ∧ (setCores twoCores 15 4).cmds = [] := by decide +kernel
theorem test_turns : Normal.turnOver twoCores 0 0 = false ∧
    Normal.turnOver { twoCores with sched := { twoCores.sched with allotments := [(0, { valid := true, cores := [0], turnUs := 50, emptyYield := false })] } } 0 0 = true ∧
    Normal.passes twoCores (twoCores.taskMigrateChecks migrateC) = true ∧
    Normal.movesNow { twoCores with sched := { twoCores.sched with jobs := [(0, { phase := .migrating, tag := 7, migration := some mig })] } } 0 mig = true := by
  decide +kernel

/-! ### The resilience unit -/

/-- `layouts` with a feed tag, an area and the job's resilience state. -/
def resil (r : ResJob) : State :=
  { (layouts.setFld uRes 0x018 15 0 3).setFld uRes 0x010 63 32 4096 with resil := { jobs := [(0, r)] } }
/-- The state in which a command of the unit is checked. -/
def resPasses (r : ResJob) (l : State → Command → List Check) (c : Command) : Bool := Normal.passes ((resil r).latestRes c) (l ((resil r).latestRes c) c)
/-- A slate of step 9. -/
def slate9 : List Byte := le 8 0 ++ le 8 9 ++ le 48 0
/-- The job has a partner, and freezes. -/
def partnered : ResJob := { phase := .running, partner := 7, configured := true, ringSlates := 10, slates := [(9, slate9)] }
/-- A freeze of step 9, whose job stopped as given. -/
def freeze9 (stopped : Option (Stamp × Nat)) : Freeze := ⟨1, cmd [], none, 9, stopped⟩
/-- A `partner_set` under way. -/
def pairing7 : Pairing := ⟨cmd [], 7, 0, false, 1000000000, 1000, false⟩
/-- A snapshot of step 9 of device 5 with no ranges, and its load from this device. -/
def snap9 : Snap := ⟨⟨7, 9, 4, 5, 3, [], [], []⟩, [], []⟩
def load9 : Load := ⟨cmd [], 5, 5, 9, [], some snap9, [], []⟩
theorem test_partners : resPasses {} State.partnerSetChecks (cmd (le 2 7 ++ le 6 0)) = true ∧
    Normal.handshakeLimit (resil { handshake := some pairing7 }) 0 pairing7 = true ∧
    Normal.partnerLimit (resil { partnered with mirrorSent := [(9, 0)] }) 0 = true ∧
    Normal.slateMirror (resil { partnered with toMirror := [9] }) 0 9 [] slate9 = true := by decide +kernel
theorem test_freeze_commands : resPasses { partner := 7 } State.freezeSetChecks
      (cmd (le 2 2047 ++ le 2 1 ++ le 4 9 ++ le 4 4096 ++ le 4 0 ++ le 8 4096 ++ le 8 256 ++ le 8 0 ++ le 8 65536 ++ le 240 0)) = true ∧
    resPasses { partner := 7, newest := some 0 } State.freezeSetChecks
      (cmd (le 2 2047 ++ le 2 1 ++ le 4 9 ++ le 4 4096 ++ le 4 0 ++ le 8 4096 ++ le 8 256 ++ le 8 0 ++ le 8 65536 ++ le 240 0)) = true ∧
    (∀ w < 2, resPasses partnered State.freezeTakeChecks (cmd (le 8 w)) = true) ∧
    Normal.freezeStop (resil { partnered with freeze := some (freeze9 none) }) 0 (freeze9 none) = true ∧
    Normal.freezeResume (resil { partnered with freeze := some (freeze9 (some (default, 1))) }) 0 (freeze9 (some (default, 1))) default 1 = true := by
  decide +kernel
theorem test_slates : resPasses partnered State.slateReadChecks (cmd (le 2 0xFFFF ++ le 2 1 ++ le 4 9 ++ le 8 4096)) = true ∧
    ((resil partnered).slatesOut 0 4096 ((resil partnered).slatesFrom 0 0xFFFF 9 1)).2.2 = none ∧
    (resil partnered).slatesFrom 0 0xFFFF 9 1 = [slate9] ∧
    resPasses { partnered with newest := some 0, snaps := [(0, snap9)] } State.negativeLoadChecks (cmd (le 2 0xFFFF ++ le 2 0xFFFF ++ le 4 9 ++ le 128 0)) = true ∧
    resPasses { partnered with newest := some 0, snaps := [(0, snap9)], load := some load9 } State.negativeLoadChecks
      (cmd (le 2 0xFFFF ++ le 2 0xFFFF ++ le 4 9 ++ le 128 0)) = true ∧
    resPasses partnered State.retakeRunChecks (cmd (le 4 9 ++ le 4 0)) = true := by decide +kernel
theorem test_loads : Normal.negativeLoadDone (resil { partnered with load := some load9 }) 0 load9 snap9 = true ∧ load9.targets snap9 = [] := by
  decide +kernel
/-- `spread_apply` of the failed device 7, whose leaf device 5 takes over. -/
def spreadC : Command := cmd ([1, 1, 0, 0] ++ le 4 5 ++ le 4 10 ++ le 4 0 ++ le 8 0x1000 ++ le 2 7 ++ le 14 0)
/-- The layout without device 7, and the device with its record. -/
def layout5 : Layout := ⟨5, [⟨0, 2, 1⟩], [5, 5]⟩
def layout4 : Layout := ⟨4, [⟨0, 2, 1⟩], [5, 7]⟩
def layoutBytes5 : List Byte := le 4 5 ++ [1, 0, 0, 0] ++ le 4 2 ++ le 4 0 ++ le 4 0 ++ le 2 2 ++ le 2 1 ++ le 120 0 ++ le 2 5 ++ le 2 5
def spreading : State :=
  let s := fabric {} { fstate := .active, layout := some layout4 }
  { s with memory := { s.memory with bytes := putBytes s.memory.bytes (2 ^ 30 + 0x1000) layoutBytes5 }, resil := { jobs := [(0, partnered)] } }
theorem test_spread : Normal.passes (spreading.latestRes spreadC) ((spreading.latestRes spreadC).spreadApplyChecks spreadC) = true ∧
    Normal.layoutRead (spreading.latestRes spreadC) 0 0x1000 5 layout5
      (((spreading.latestRes spreadC).vtouch 0 0x1000 0x90).vtouch 0 0x1000 (0x90 + 2 * 2)) ∧
    layout5.equivalent layout4 = true ∧ (layout5.entries.any fun e => [7].contains e) = false :=
  ⟨by decide +kernel, ⟨layoutBytes5.take 0x90, layoutBytes5, ok_of _ _ (by decide +kernel), by decide +kernel,
    ok_of _ _ (by decide +kernel), rfl, by decide +kernel⟩, by decide +kernel, by decide +kernel⟩

/-! ### Errors, power, pins, bring-up -/

/-- A test of a unit that began at 0. -/
def screen (unit sub type : Nat) : Screen := ⟨unit, sub, type, 0, true, [], [hdr], false, false, false⟩
/-- `base` with that test under way. -/
def testing (unit sub type : Nat) : State := { base with diag := { screens := [screen unit sub type] } }
/-- `base` where sweeps are due each ms, and both cores of the allotment are free. -/
def sweeping : State := State.setFld
  { base with sched := { base.sched with jobs := [], allotments := [(0, { valid := true, cores := [0, 1] })] } } uDiag 0x050 63 32 1
theorem test_screens : Normal.tested (testing 642 0 0x32) 642 0 0x32 (screen 642 0 0x32) = true ∧
    Normal.sweepDue sweeping 0 0 0 = true ∧ Normal.sweepDue { sweeping with diag := { lastSweep := [(0, 1999999999)] } } 0 0 0 = false ∧
    Normal.passes base (base.screenTestRunChecks (cmd (le 2 642 ++ le 6 0))) = true ∧ unitTest 642 = some (0x32, 642) := by decide +kernel
theorem test_error_log : Normal.passes base (base.errorLogReadChecks (cmd (le 4 0 ++ le 4 63))) = true ∧
    Normal.passes base (base.errorLogReadChecks (cmd (le 4 0 ++ le 4 64))) = false ∧
    (∀ mode < 2, Normal.passes (base.setFld uDiag 0x050 0 0 1) ((base.setFld uDiag 0x050 0 0 1).errorInjectChecks (cmd (le 2 uResv ++ le 1 mode ++ le 13 0))) = true) ∧
    Normal.passes (base.setFld uDiag 0x050 0 0 1) ((base.setFld uDiag 0x050 0 0 1).errorInjectChecks (cmd (le 2 642 ++ le 1 2 ++ le 13 0))) = true ∧
    Normal.passes base (base.errorInjectChecks (cmd (le 2 642 ++ le 1 2 ++ le 13 0))) = false := by decide +kernel
theorem test_heartbeats : Normal.heartbeatLost { base with power := { alive := 1 }, diag := { lastReport := [(0, 1990000000)] } } 0 = true ∧
    Normal.heartbeatLost { base with power := { alive := 1 }, diag := { lastReport := [(0, 1990000001)] } } 0 = false ∧
    base.diag.timeouts = [] ∧ base.diag.controlRetired = [] := by decide +kernel

/-- `base` with the power unit as given. -/
def atPower (p : Power) : State := { base with power := p }
theorem test_power : (atPower { excursionUs := 1500, peakMs := 2 }).power.atBackstop = true ∧
    (atPower { clampK := 3 }).clampCause.1 = 0 ∧ (atPower { cmpC := 200 }).power.point < 4 ∧
    Normal.mustLower (atPower { cmpC := 200, point := 0 }) = true ∧
    Normal.mayRaise ((atPower { point := 1, tdpW := 700 }).setFld uGaffer 0x040 63 56 95) = true ∧
    (atPower { pendingPoint := some 1 }).power.pendingPoint = some 1 ∧
    Normal.passes base (base.telemetryReadChecks (xcmd (le 8 1))) = true ∧
    Normal.passes base (base.powerLimitSetChecks (cmd (le 2 300 ++ le 2 1150 ++ le 1 10 ++ le 3 0))) = true ∧
    Normal.passes base (base.powerLimitSetChecks (cmd (le 2 299 ++ le 2 1150 ++ le 1 10 ++ le 3 0))) = false := by decide +kernel
theorem test_pins : base.pins.throtInN = true ∧ base.pins.testMode = false ∧
    (match exec .pwrGoodDeassert base with | .next t => t.powered == false && t.pins.pwrGood == false | _ => false) = true := by decide +kernel

/-- `base` with these functions ready, in a device state. -/
def inState (d : DState) (rdy : Nat) : State := { base with xanca := { ready := rdy }, power := { dstate := d } }
theorem test_functions : (inState .run 2).canBeReady 16 = true ∧ (inState .run 2).canBeReady 2 = true ∧
    (inState .standby 2).canBeReady 2 = false ∧ Normal.functionStops (inState .run 4) 2 = true ∧
    Normal.functionStops (inState .run (2 ^ 16)) 16 = true := by decide +kernel
theorem test_states : Normal.passes (inState .doze 0) ((inState .doze 0).movePowerChecks (cmd (le 8 1))) = true ∧
    Normal.passes (inState .sleep 0) ((inState .sleep 0).movePowerChecks (cmd (le 8 0))) = true ∧
    Normal.dozeDue ((inState .run 0).setFld uWmaster 0x040 0 0 1) = true ∧ base.power.moving = false ∧
    ((base.setChannel 0 { base.channel 0 with discarding := true }).channel 0).discarding = true ∧
    State.reset.powered = false ∧ State.reset.pins.pwrGood = false := by decide +kernel

/-! ### Security, the host port and intake -/

/-- A COMMIT of `base` in which a load of 16384 bytes is held by session 1. -/
def loading : State := { base with security := { loadSession := 1, imageLen := 16384, phase := .loading } }
theorem test_firmware_load : Normal.passes base (base.firmwareLoadBeginChecks (cmd (le 8 0 ++ le 8 16384))) = true ∧
    Normal.passes base (base.firmwareLoadBeginChecks (cmd (le 8 0 ++ le 8 16383))) = false ∧
    Normal.passes loading (loading.firmwareLoadDataChecks (cmd ([1, 0, 0, 0] ++ le 4 0 ++ le 8 8 ++ le 8 5))) = true ∧
    Normal.passes loading (loading.firmwareLoadCommitChecks (cmd (le 16 2))) = true ∧
    Normal.passes loading (loading.firmwareLoadAbortChecks (cmd (le 16 3))) = true ∧
    Normal.passes base (base.firmwareLoadAbortChecks (cmd (le 16 3))) = true := by decide +kernel
/-- `config_write` of DOZE_HOLD_US of the wavemaster. -/
def setHold (op apply value : Nat) : Command := cmd (le 1 op ++ le 1 1 ++ le 6 apply ++ le 2 128 ++ le 2 0 ++ le 2 64 ++ [63, 32] ++ le 8 value)
theorem test_config_write : (∀ apply < 2, Normal.passes base (base.configWriteSetChecks (setHold 0 apply 1000000)) = true) ∧
    Normal.passes base (base.configWriteSetChecks (setHold 0 0 1000001)) = false ∧
    Normal.passes base (base.configWriteClearChecks (setHold 1 0 0)) = true ∧
    Normal.passes base (base.configWriteHostKeyChecks (cmd ([2] ++ le 39 0))) = true ∧
    Normal.passes { base with security := { fwSvn := 4 } } (State.configWriteMinSvnChecks { base with security := { fwSvn := 4 } } (cmd (le 4 3 ++ le 4 4))) = true ∧
    Normal.passes { base with security := { fwSvn := 4 } } (State.configWriteMinSvnChecks { base with security := { fwSvn := 4 } } (cmd (le 4 3 ++ le 4 5))) = false := by
  decide +kernel
theorem test_attest : Normal.passes base (base.attestReportChecks (cmd (le 40 0))) = true ∧
    Normal.passes { base with security := { nextIndex := 1048512 } } (State.attestReportChecks { base with security := { nextIndex := 1048512 } } (cmd (le 40 0))) = false ∧
    Normal.passes base (base.attestChainChecks (cmd (le 1 1 ++ le 39 1))) = true ∧
    Normal.passes base (base.attestRollChecks ⟨{ hdr with flags := 17 }, le 40 2⟩) = true ∧
    base.security.chain = [] ∧ base.security.reservedTo ≤ base.security.nextIndex := by decide +kernel

/-- A queue pair of session 1, with one receive slot at virtual address 0. -/
def qp17 : QueuePair := { session := 1, inst := 1, jobTag := 7, recvSlots := 1, rkey := 3, hostQpn := 99, hostAddr := 5 }
/-- `mapped base` with the host port enabled for RDMA, and queue pair 17. -/
def port1 : State := State.setFld { mapped base with hostPort := { qps := [(17, qp17)] } } uHostport 0x040 0 0 1
theorem test_host_port : base.hostUp = true ∧ (base.rxBytes 0).ownAddress (base.rxBytes 0).hostAddress = true ∧
    (base.rxBytes 8).ownAddress (linkLocal (base.rxBytes 8).hostMac) = true ∧ (base.rxBytes 0).fld uHostport 0x040 7 4 ≤ 7 := by decide +kernel
theorem test_queue_pairs : Normal.connects port1 ⟨5, 99, le 4 7 ++ le 2 1 ++ le 2 0 ++ le 8 0 ++ le 4 1 ++ le 4 0⟩ = true ∧
    Normal.connected port1 17 qp17 = true ∧
    (((List.range qp17.recvSlots).map fun k => (qp17.nextSlot + k) % qp17.recvSlots).find? fun i =>
      !((Normal.requested port1 8 false qp17).unreleased qp17).contains i) = some 0 ∧
    ((Normal.requested port1 8 false qp17).vwrite 0 qp17.recvVa (le 8 5) false).2.2 = none ∧
    (match (Normal.requested port1 0 true qp17).vread 0 0x1000 16 with | .ok x => x.2 == false | .error _ => false) = true := by decide +kernel
/-- `intake_decode` of 1000 bytes, as a JPEG, on engine 2. -/
def decodeC : Command := cmd ([1, 2, 0, 0] ++ le 4 4 ++ le 8 0x1000 ++ le 8 1000 ++ le 8 0x2000 ++ le 8 0x3000 ++ le 8 0)
theorem test_intake : Normal.passes (mapped base) ((mapped base).intakeDecodeChecks decodeC) = true ∧
    Normal.decoded (base.setDecodes 2 [⟨decodeC, 0, false⟩]) 2 ⟨4, 4, 8, []⟩ ⟨decodeC, 0, false⟩ [] = true ∧
    Normal.passes base (base.intakeStatusChecks (cmd (le 8 0xFF))) = true ∧
    Normal.passes base (base.intakeStatusChecks (cmd (le 8 4))) = false := by decide +kernel

/-! ### The worked examples of the spec -/

/-- Core 36 with these rows of its engine retired (the example of spec/05). -/
def rowsOut (rows : List Nat) : State := { base with cores := { cores := [(36, { retiredRows := rows })] } }
/-- Its OPE_SPARE_MAP, OPE_TRIM_LO and OPE_TRIM_HI. -/
def mapOf (rows : List Nat) : List Nat := [0x10, 0x18, 0x20].map ((rowsOut rows).regView (uOpe 36))
theorem test_example_spare_rows : mapOf [] = [0x00000000FFFF0002, 0, 0] ∧
    mapOf [37] = [0x00000601FF250001, 0x8000800000000000, 0x8000800080008000] ∧
    mapOf [37, 100] = [0x0000080264250000, 0x8000800000000000, 0xC000C00080008000] := by decide +kernel
/-- T3 of logical core 40 after the gather (the example of spec/06). -/
def gathered : Turnout := { phase := .closed, byCount := true, placement := 7, epoch := 12, slot := 2, base := 4096, lines := 16384, expect := 16384
                            gauge := 16384, late := 4, lastReason := 1 }
theorem test_example_turnout : [0x160, 0x168, 0x170, 0x178].map (({ base with spads := { turnouts := [(turnoutKey 40 3, gathered)] } } : State).regView (uSpad 40)) =
    [0xE00000070000000C, 0x0002000040001000, 0x0000400000004000, 0x0000000400000001] := by decide +kernel
/-- The window of slot 1 on core 0, and frame 20 (the example of spec/07). -/
def framed (t : FrameTag) : State :=
  { base with conts := { windows := [(windowKey 0 1, ⟨8, 176, 23616⟩)], tags := [(frameKey 0 20, t)] } }
theorem test_example_frames : (framed {}).regView (uCont 0) 0x108 = 0x00005C4000B00008 ∧
    (framed ⟨true, false, 1, 1, 128, 0x0A03⟩).regView (uCont 0) (0x1000 + 8 * 20) = 0x8110800000000A03 ∧
    (framed ⟨false, false, 1, 1, 128, 0x0A03⟩).regView (uCont 0) (0x1000 + 8 * 20) = 0x0110800000000A03 ∧
    framePlace ⟨8, 176, 23616⟩ 12 = some (20, none) ∧ framePlace ⟨8, 176, 23616⟩ 56 = some (64, some 23616) ∧
    framePlace ⟨8, 176, 23616⟩ 175 = some (183, some 24568) := by decide +kernel
theorem test_example_sum : canonicalSum [0x4B800000, 0x3F800000, 0x3F800000] = 0x4B800000 ∧
    fadd (fadd 0x3F800000 0x3F800000) 0x4B800000 = 0x4B800001 := by decide +kernel
/-- Chain B's first descriptor (Table 13.9). -/
def chainB : Descriptor := parseDescriptor ([0x0000002500000102, 0x0000008000000001, 0x0000040010000000, 0x8000F0000A100000, 0x0000008000000080, 0, 0,
  0x8000000000000000].flatMap (le 8))
theorem test_example_skew : chainB.op = 2 ∧ chainB.flags = 1 ∧ chainB.waitEvent = 0x25 ∧ chainB.waitValue = 1 ∧ chainB.rows = 128 ∧
    chainB.rowBytes = 128 ∧ chainB.srcPitch = 128 ∧ chainB.skewLines = 135 ∧ chainB.status / 2 ^ 63 = 1 ∧
    bits chainB.dst 47 0 = spadBase + 40 * 2 ^ 22 + 8192 * 128 ∧ bitAt chainB.dst 63 = true := by decide +kernel
theorem test_example_units : [uCore 72, uOpe 72, uCont 72, uSpad 72, uCore 77, uOpe 77, uCont 77, uSpad 77] = [73, 229, 385, 541, 78, 234, 390, 546] ∧
    farOf 0x026780000000 = some (11, 30) := by decide +kernel
/-- Job slot 1 while it migrates and after (the example of spec/15). -/
def slot1 (p : JobPhase) (placement : Nat) : State := { base with sched := { jobs := [(1, { phase := p, tag := 0x102, placement := placement })] } }
theorem test_example_job : (slot1 .migrating 7).regView uSched 0x410 = 0xA000000700000102 ∧
    (slot1 .active 8).regView uSched 0x410 = 0x9000000800000102 := by decide +kernel
theorem test_example_leaf : State.signaturesLeft { base with security := { nextIndex := 41217 } } = 1007295 := by decide +kernel
/-- Session 3 with its Q0, where the next SEQ is 5 (the example of spec/02). -/
def before17 : State := { base with umauth := { sessions := [(3, { isOpen := true, addr := 5, inst := 1, hostWindow := 16, ack := 8 })]
                                                queues := [(q0Key 3, { phase := .bound, depth := 16, session := 3, expSeq := 5 })] }
                                    sched := { base.sched with jobs := [(0, { phase := .active, tag := 0x102 })] } }
/-- `queue_bind` of queue 17 (Table 2.11). -/
def bind17 : Command := ⟨{ session := 3, inst := 1, format := 1, flags := 2, opcode := 0x10, queue := 0, seq := 5, jobTag := 0, startTc := 0, cookie := 0xA1 },
  [0x11, 0, 0, 0, 2, 1, 0, 0, 4, 0, 0, 0, 0, 0, 0, 0]⟩
/-- The messages that a command sends. -/
def sentBy (i : Instr) (s : State) : List Msg := match exec i s with
  | .next t => (t.outputs.drop s.outputs.length).filterMap fun o => match o with | .datagram _ _ _ _ _ _ m => m | _ => none
  | _ => []
theorem test_example_bind : (sentBy (.queueBind bind17) before17).map (fun m => [m.flags, m.opcode, m.status, m.seq, m.detail, m.cookie]) =
      [[2, 0x10, 0, 5, 0, 0xA1]] ∧
    (sentBy (.queueBind bind17) before17).map (·.body) = [[0x11, 0, 4, 0, 0xFC, 0x7F, 0, 0]] := by decide +kernel
/-- Six `kernel_run` commands for queue 17, SEQ 0 to 5, in one datagram (Table 2.12). -/
def bound17 : State := { before17 with umauth := { before17.umauth with queues := [(17, { phase := .bound, depth := 4, session := 3, jobTag := 0x102 })] } }
def run17 (k : Nat) : Command := ⟨{ bind17.hdr with flags := 0, opcode := 0x2002, queue := 17, seq := k, jobTag := 0x102 }, le 2 3 ++ le 2 0 ++ le 4 1 ++ le 16 0⟩
theorem test_example_burst : (sentBy (.data { dgram 1 9 with session := 3 } ((List.range 6).map run17)) { bound17 with xanca := { ready := 2 ^ 64 - 1 } }).map
    (fun m => (m.seq, m.status, m.detail)) = [(4, stQueueFull, 4), (5, stSeqGap, 4)] := by decide +kernel

/-! ### More cases of the statements' hypotheses -/

/-- A PTP message of a kind. -/
def ptp (k : PtpKind) (tai : Bool) : PtpMessage := ⟨k, onPtp.fld uTimecode 0x040 47 40, tai, 946684801, 5, 0⟩
theorem test_ptp : (∀ k ∈ [PtpKind.syncOneStep, .syncTwoStep, .followUp, .delayResp, .announce], ∀ tai ∈ [true, false],
      Normal.ptpMessage onPtp (ptp k tai) = true) ∧
    Normal.ptpFollowed { onPtp with timecode := { onPtp.timecode with ptpT1 := some 5, ptpT2 := some 9 } } = true ∧
    State.reset.idle.now = 0 ∧ (State.idle { base with timecode := { base.timecode with timePll := false } }).now = 2000000040 := by decide +kernel
theorem test_call_sheet : Normal.callsheetWait { base with xanca := { ready := 1 } } (xcmd (le 8 1 ++ le 8 1)) = true ∧
    badAccess registerBase 4 false = true ∧ badAccess registerBase 8 false = false ∧ badAccess registerBase 8 true = true ∧ (cmd (le 8 1)).expert = false := by decide +kernel
theorem test_task_args : (match (onCore { phase := .gated } [endB] []).taskArgs task0 with
    | .ok x => x.1.isEmpty && !x.2 | .error _ => false) = true := by decide +kernel
theorem test_ope_repairs : Normal.opeRepair (onCore {} [] []) (xcmd (le 2 157 ++ le 6 5 ++ le 8 1)) = true ∧
    Normal.opeRepair (onCore core0 [endB] []) (cmd (le 2 157 ++ le 6 5)) = true ∧
    ((onCore core0 [endB] []).core 0).retiredRows.contains 5 = false := by decide +kernel
theorem test_gauge_turnout : (Normal.issued { atB gaugeB 0 [] with spads := { turnouts := [(2, open3)] } } 0
      (kern [gaugeB, endB, endB])).turnout 0 2 = open3 ∧ bits gaugeB 79 76 = 2 ∧ bits gaugeB 111 110 = 1 := by decide +kernel
theorem test_cont_task : ((onCore { core0 with task := some { task0 with kind := .cont 0 } } [] []).core 0).phase = .running := by
  decide +kernel

/-! ### The general statements -/

theorem test_queue : ((step { base with pending := [.nop (cmd []), .gafferTick] }) = exec (.nop (cmd [])) { base with pending := [.gafferTick] }) ∧
    step base = .next base.idle := ⟨rfl, rfl⟩
theorem test_unpowered : State.reset.powered = false ∧ Normal.takenUnpowered .i3cRead = false := ⟨rfl, rfl⟩
theorem test_sound : base.Sound := by
  refine ⟨?_, ?_, ?_⟩ <;> decide +kernel
theorem test_frames_covered : Normal.storesNothing (.nop (cmd [])) = true ∧ Normal.readsOnly (.nop (cmd [])) = true ∧
    Normal.storesNothing (.opeDrain 0) = false := ⟨rfl, rfl, rfl⟩
theorem test_verified : (match step { base with security := { committed := true } } with | .next t => t.security.committed | _ => false) = true := by
  decide +kernel
theorem test_rolled : (match step { base with pending := [.keyRolled true], security := { rollCmd := some (cmd (le 40 2)), nextIndex := 9 } } with
    | .next t => t.security.nextIndex == 0 && t.security.keyGen == base.security.keyGen + 1 | _ => false) = true := by decide +kernel
theorem test_leaf : (match step { base with pending := [.attestReport (cmd (le 48 0))], security := { nextIndex := 9 } } with
    | .next t => t.security.nextIndex == 10 | _ => false) = true := by decide +kernel
theorem test_host_key : (match step { base with pending := [.configWriteHostKey (cmd ([2] ++ le 7 0 ++ le 32 5))] } with
    | .next t => t.security.hostKey.isSome | _ => false) = true := by decide +kernel
theorem test_first_failure : (Normal.checksOf base (.errorLogRead (cmd (le 8 0)))).map (fun x => firstFail x.2) = some (some (stBadParam, 0x24)) := by
  decide +kernel
theorem test_stores : base.dead 0 = false ∧ ([] : List Nat).Nodup ∧ (liveRows [3, 129]).length = 128 ∧ (liveRows [3, 129]).getD 3 0 = 4 := by
  decide +kernel
theorem test_queue_names : base.queueNamed 0 = false ∧ base.queueNamed 1 = true ∧ base.queueNamed 2 = false ∧ base.queueNamed 4096 = false := by
  decide +kernel
theorem test_reply : (cmd []).hdr.notify = false ∧ stBadParam ≠ stOk := by decide +kernel
theorem test_aggregate : bitAt (State.csRecompute { base with xanca := { ready := 0xF * 2 ^ 16 } }).xanca.ready 12 = true ∧
    bitAt (State.csRecompute { base with xanca := { ready := 0x7 * 2 ^ 16 } }).xanca.ready 12 = false := by decide +kernel

/-! ### Well-formed commands (each check refuses an ill-formed term) -/

/-- A message of an opcode. -/
def ofOp (n : Nat) : Command := ⟨{ hdr with opcode := n }, []⟩
/-- Half 1 of the commands that carry a message, with their opcodes. -/
def messages1 : List ((Command → Instr) × Nat) :=
  [(.queueBind, 0x0010), (.queueUnbind, 0x0011), (.queueAttach, 0x0012), (.queueStatus, 0x0013), (.queueFlush, 0x0014),
   (.nop, 0x0040), (.xancaRead, 0x0001), (.callsheetRead, 0x0002), (.kernelLoad, 0x2001), (.kernelRun, 0x2002),
   (.kernelUnload, 0x2003), (.opeRepair, 0x2010), (.turnoutOpen, 0x1030), (.turnoutClose, 0x1031), (.contRun, 0x2020),
   (.contRunFrames, 0x2020), (.streamOpenPool, 0x3001), (.streamOpen, 0x3001), (.streamRun, 0x3002), (.streamCancel, 0x3003),
   (.streamClose, 0x3004), (.clapSet, 0x3010), (.reelConfig, 0x3020), (.reelBegin, 0x3020), (.reelUpdate, 0x3020),
   (.reelShard, 0x3020), (.reelClear, 0x3020), (.mapCreate, 0x1001), (.mapEdit, 0x1002), (.mapDestroy, 0x1003),
   (.memCopy, 0x1010), (.memFill, 0x1011), (.farMigrateOut, 0x1020), (.farMigrateBack, 0x1020), (.farMigrateRelease, 0x1020),
   (.farOffline, 0x1021), (.farOnline, 0x1022), (.seqCreatePool, 0x7001), (.seqCreateSequence, 0x7001), (.seqDestroy, 0x7001),
   (.kvPageMap, 0x7002), (.kvPageShare, 0x7003), (.kvPageFree, 0x7004), (.attnRun, 0x7005)]
/-- Half 2 of the commands that carry a message, with their opcodes. -/
def messages2 : List ((Command → Instr) × Nat) :=
  [(.flumeChainStart, 0x8001), (.flumeTimerSet, 0x8001), (.flumeChainStop, 0x8002), (.flumeStatus, 0x8003), (.fabricIdSet, 0x4001),
   (.portMapSet, 0x4002), (.recutDrain, 0x4003), (.recutAbandon, 0x4003), (.collectiveRun, 0x4004), (.gatherRun, 0x4005),
   (.linkStatus, 0x4010), (.jobCreate, 0x6001), (.jobDestroy, 0x6002), (.modeSet, 0x6003), (.allotmentSet, 0x6004),
   (.taskMigrate, 0x6005), (.freezeSet, 0x5001), (.freezeTake, 0x5002), (.partnerSet, 0x5003), (.feedTagSet, 0x5004),
   (.slateRead, 0x5005), (.negativeLoad, 0x5006), (.spreadApply, 0x5007), (.retakeRun, 0x5008), (.screenTestRun, 0xF001),
   (.errorLogRead, 0xF002), (.errorInject, 0xF003), (.powerStateSet, 0x9001), (.powerLimitSet, 0x9002), (.telemetryRead, 0x9003),
   (.firmwareLoadBegin, 0xA001), (.firmwareLoadData, 0xA001), (.firmwareLoadCommit, 0xA001), (.firmwareLoadAbort, 0xA001), (.configWriteSet, 0xA002),
   (.configWriteClear, 0xA002), (.configWriteHostKey, 0xA002), (.configWriteMinSvn, 0xA002), (.attestReport, 0xA003), (.attestChain, 0xA003),
   (.attestRoll, 0xA003), (.intakeDecode, 0xB001), (.intakeStatus, 0xB002)]
theorem test_wf_messages : ((messages1 ++ messages2).all fun x => (x.1 (ofOp x.2)).wf && !(x.1 (ofOp 0xFFFF)).wf) = true := by decide +kernel
/-- The commands of a physical core. -/
def coreRows : List (Nat → Instr) :=
  [.coreWake, .coreGate, .opeAcc, .opeZero, .opeLoad, .opeDrain, .opeConv, .vecFma,
   .vecAdd, .vecMul, .vecMin, .vecMax, .vecCmp, .vecSel, .vecCvt, .vecExp2,
   .vecLog2, .vecRcp, .vecRsqrt, .vecLoad, .vecStore, .vecLaneSum, .vecRng, .lnFwd,
   .rmsFwd, .smaxFwd, .smaxPart, .smaxFin, .lnBwd, .rmsBwd, .smaxBwd, .frameRelease,
   .getLines, .putLines, .emptyLines, .pushFrame, .popFrame, .holdFrame, .releaseFrame, .setupGenerator,
   .loopBundle, .waitTag, .waitTagRelease, .emptySlotStallRelease, .clapBundle, .endTask, .taskWatchdog, .attnTileSend]
theorem test_wf_cores : (coreRows.all fun f => (f 155).wf && !(f 156).wf) = true := by decide +kernel
/-- The headers with one field too wide each. -/
def badHeaders : List CmdHdr :=
  [{ hdr with session := 0 }, { hdr with session := 17 }, { hdr with format := 256 }, { hdr with flags := 256 }, { hdr with opcode := 65536 },
   { hdr with queue := 65536 }, { hdr with seq := 2 ^ 32 }, { hdr with jobTag := 2 ^ 32 }, { hdr with startTc := 2 ^ 64 }, { hdr with cookie := 2 ^ 64 }]
theorem test_wf_header : (badHeaders.all fun h => !h.wf) = true ∧ hdr.wf = true := by decide +kernel
theorem test_wf_params : Command.wf ⟨hdr, List.replicate 65536 0⟩ = false := by
  rw [Command.wf, List.length_replicate]; decide
/-- The datagrams with one field too wide each. -/
def badDatagrams : List Datagram :=
  [{ dgram 1 1 with src := 2 ^ 128 }, { dgram 1 1 with version := 256 }, { dgram 1 1 with kind := 256 }, { dgram 1 1 with session := 65536 },
   { dgram 1 1 with tseq := 2 ^ 32 }, { dgram 1 1 with ack := 2 ^ 32 }, { dgram 1 1 with window := 65536 }]
theorem test_wf_datagram : ([fun d => .data d [], .ack, fun d => .nack d 0, fun d => .openSession d ⟨[]⟩, .close, .keepalive].all
      fun (f : Datagram → Instr) => (f (dgram 1 1)).wf && badDatagrams.all fun d => !(f d).wf) = true ∧
    (Instr.data (dgram 1 1) [⟨{ hdr with session := 0 }, []⟩]).wf = false ∧ (Instr.nack (dgram 3 1) (2 ^ 64)).wf = false := by decide +kernel
/-- A good stamp, packet, frame and link control frame, and each with one field out of its width. -/
def packet0 : Packet := ⟨1, 0, 5, 7, 0, 0, 7, 0, 0, 0, 0, 1, 0, default, []⟩
def badPackets : List Packet :=
  [{ packet0 with type := 256 }, { packet0 with flags := 256 }, { packet0 with dst := 65536 }, { packet0 with src := 65536 },
   { packet0 with level := 256 }, { packet0 with pass := 256 }, { packet0 with jobTag := 2 ^ 32 }, { packet0 with epoch := 2 ^ 32 },
   { packet0 with opId := 65536 }, { packet0 with tag := 2 ^ 32 }, { packet0 with offset := 2 ^ 64 }, { packet0 with pseq := 2 ^ 32 },
   { packet0 with crc := 2 ^ 32 }, { packet0 with tc := ⟨2 ^ 64, 0, 0, 0, 0⟩ }, { packet0 with tc := ⟨0, 2, 0, 0, 0⟩ },
   { packet0 with tc := ⟨0, 0, 2 ^ 15, 0, 0⟩ }, { packet0 with tc := ⟨0, 0, 0, 65536, 0⟩ }, { packet0 with tc := ⟨0, 0, 0, 0, 2 ^ 32⟩ },
   { packet0 with payload := [0] }, { packet0 with payload := List.replicate 4224 0 }]
def badFrames : List Frame := [⟨16, 0, true, packet0⟩, ⟨0, 4096, true, packet0⟩] ++ badPackets.map (⟨0, 0, true, ·⟩)
theorem test_wf_frames : ([.collPacket, .gatherPiece, .clapPacket, fun f => .bulkPacket f (.slate 0), fun f => .partnerHandshake f 0].all
      fun (f : Frame → Instr) => (f ⟨0, 0, true, packet0⟩).wf && badFrames.all fun x => !(f x).wf) = true ∧
    (Instr.partnerHandshake ⟨0, 0, true, packet0⟩ 65536).wf = false := by decide +kernel
def link0 : LinkControl := ⟨0, none, 0, 7, 3, 0, 0, 0, 0, 0⟩
def badLinks : List LinkControl :=
  [{ link0 with ack := 4096 }, { link0 with nack := some 4096 }, { link0 with peer := 65536 }, { link0 with peerPort := 256 },
   { link0 with root := 65536 }, { link0 with hops := 256 }]
def facts0 : BootFacts := ⟨true, true, true, [], [], []⟩
theorem test_wf_links : (Instr.lcf 15 link0).wf = true ∧ (Instr.lcf 16 link0).wf = false ∧ (badLinks.all fun l => !(Instr.lcf 0 l).wf) = true ∧
    ([{ facts0 with failedCores := [156] }, { facts0 with failedUnits := [704] }, { facts0 with emptySlots := [12] }].all fun f =>
      !(Instr.pwrGood f).wf && !(Instr.hostPortEnergyWake f).wf) = true ∧ (Instr.pwrGood facts0).wf = true := by decide +kernel
/-- One operand out of its range each: the transport, registers, cores, scrubbers and streams. -/
def badOperands1 : List Instr :=
  [.timedRetransmission 0 1, .timedRetransmission 17 1, .timedRetransmission 1 0, .timedRetransmission 1 (2 ^ 32), .retransmitExhausted 0 1,
   .retransmitExhausted 17 1, .retransmitExhausted 1 0, .retransmitExhausted 1 (2 ^ 32), .sessionSilenceTimeout 0,
   .sessionSilenceTimeout 17, .windowReopen 0 0, .windowReopen 17 0, .windowReopen 1 513, .commandDispatch 0, .commandDispatch 4113,
   .commandDispatch 4096, .queueDrained 0, .queueDrained 4096, .callsheetDeadline 64, .registerWrite 704 0 0, .registerWrite 0 65536 0,
   .registerWrite 0 0 (2 ^ 64), .badRegisterAccess (2 ^ 48) 8 true, .badRegisterAccess 0 65 true, .lcfTransmit 16,
   .ptpMessage ⟨.announce, 256, true, 0, 0, 0⟩, .ptpMessage ⟨.announce, 0, true, 0, 10 ^ 9, 0⟩, .taskPlace 144, .repairHoldEnd 156 true,
   .turnoutLate 156 0, .turnoutLate 0 16, .remoteRead 144 0 1, .remoteRead 0 24576 1, .remoteRead 0 0 24577, .turnoutDrainLimit 156 0,
   .turnoutDrainLimit 0 16, .spadScrub 156 0 0 true, .spadScrub 0 24576 0 true, .spadScrub 0 0 65536 true, .contScrub 156 0 0 true,
   .contScrub 0 512 0 true, .contScrub 0 0 65536 true, .resvScrub 393216 0 true, .resvScrub 0 65536 true, .memoryScrub 641 0 0 0 true,
   .memoryScrub 658 0 0 0 true, .memoryScrub 642 (2 ^ 48) 0 0 true, .memoryScrub 642 0 65536 0 true, .memoryScrub 642 0 0 (2 ^ 32) true,
   .streamFetch 256 0 0, .streamFetch 0 (2 ^ 32) 0, .streamFetch 0 0 8, .streamTaskPlace 256 0, .streamTaskPlace 0 (2 ^ 32),
   .streamStore 256 0 0, .streamStore 0 (2 ^ 32) 0, .streamStore 0 0 8, .warmFetch 256 0 0, .warmFetch 0 (2 ^ 32) 0, .warmFetch 0 0 8]
theorem test_wf_operands1 : (badOperands1.all fun i => !i.wf) = true := by decide +kernel
/-- The same for the others. -/
def badOperands2 : List Instr :=
  [.creditWatchdog 256 0 0, .creditWatchdog 0 144 0, .creditWatchdog 0 0 8, .clapLimit 64 0, .clapLimit 0 64, .updateGateOpen 64,
   .slateMirror 64, .updateGateTimeout 64, .chunkFlip 12, .farOnlineComplete 12 0 0 0 0 0, .farOnlineComplete 0 256 0 0 0 0,
   .farOnlineComplete 0 0 (2 ^ 32) 0 0 0, .farOnlineComplete 0 0 0 65536 0 0, .farOnlineComplete 0 0 0 0 65536 0,
   .farOnlineComplete 0 0 0 0 0 65536, .slotPowerFall 12, .deferredEditApply 1024, .timerTick 16, .lightDetected 16,
   .trainingComplete 16 0 0 4, .trainingComplete 0 65536 0 4, .trainingComplete 0 0 256 4, .trainingComplete 0 0 0 5, .trainingTimeout 16,
   .lossOfLight 16, .connectorRemoval 4, .recutDrained 64, .portDark 16, .portRelock 16 0 0 4, .portRelock 0 65536 0 4, .portRelock 0 0 256 4,
   .portRelock 0 0 0 5, .recutLimit 64, .collectiveLimit 64 false 0, .collectiveLimit 0 false 65536, .jobTeardown 64, .rotationTurnEnd 16,
   .migrationDrained 64, .freezeStop 64, .freezeResume 64, .partnerLimit 64, .screenTestComplete 704 0 0 true [] true,
   .screenTestComplete 0 (2 ^ 32) 0 true [] true, .screenTestComplete 0 0 65536 true [] true, .sweep 144, .heartbeat 4,
   .controlHeartbeatTimeout 4, .powerEstimate 65536 0, .powerEstimate 1 2, .railSample [] [0, 0, 0, 0, 0, 0],
   .railSample [0, 0, 0, 0, 0, 65536] [0, 0, 0, 0, 0, 0], .railSample [0, 0, 0, 0, 0, 0] [], .railSample [0, 0, 0, 0, 0, 0] [0, 0, 0, 0, 0, 2 ^ 24],
   .tempSample 256 0 [0, 0, 0, 0] [0, 0, 0, 0], .tempSample 0 256 [0, 0, 0, 0] [0, 0, 0, 0], .tempSample 0 0 [] [0, 0, 0, 0],
   .tempSample 0 0 [256, 0, 0, 0] [0, 0, 0, 0], .tempSample 0 0 [0, 0, 0, 0] [], .tempSample 0 0 [0, 0, 0, 0] [256, 0, 0, 0],
   .neighbourDiscovery (2 ^ 128) 0, .neighbourDiscovery 0 (2 ^ 128), .icmpv6Echo (2 ^ 128) 0 [], .icmpv6Echo 0 (2 ^ 128) [],
   .cmReq ⟨2 ^ 128, 0, []⟩, .cmReq ⟨0, 2 ^ 24, []⟩, .cmDreq (2 ^ 24), .rdmaSend (2 ^ 24) true [], .rdmaWrite (2 ^ 24) true 0 0 [],
   .rdmaWrite 0 true (2 ^ 64) 0 [], .rdmaWrite 0 true 0 (2 ^ 32) [], .rdmaRead (2 ^ 24) true 0 0 0, .rdmaRead 0 true (2 ^ 64) 0 0,
   .rdmaRead 0 true 0 (2 ^ 32) 0, .rdmaRead 0 true 0 0 (2 ^ 32), .intakeDecodeComplete 4 default, .functionReady 64,
   .functionStopsBeingUsable 64, .trainingRetry 16, .partnerHandshakeLimit 64, .negativeLoadDone 64, .mapDestroyDone 64,
   .readDrainComplete true 256 0, .readDrainComplete true 0 (2 ^ 32), .pfcFrame 8 0, .pfcFrame 0 65536, .dynamicAddressAssignment 128]
theorem test_wf_operands2 : (badOperands2.all fun i => !i.wf) = true := by decide +kernel
/-- The commands of a Flume channel. -/
def channelRows : List (Nat → Nat → Instr) :=
  [.descriptorRead, .ownPoll, .copyDescriptor, .fillDescriptor, .skewDescriptor, .transposeDescriptor, .eventDescriptor, .linkDescriptor,
   .stopChain, .eventWaitRelease, .descriptorWriteBack]
theorem test_wf_channels : (channelRows.all fun f => (f 15 15).wf && !(f 16 0).wf && !(f 0 16).wf) = true := by decide +kernel
theorem test_table_words (n w : Nat) : decodeTableWord n w = none := rfl

end Sys2Proof.Tests
end

section
/-! SUPPORT. When a command or event whose condition holds has its effect: the power guard and the checks or the condition in one
step. -/

namespace Sys2Proof.Machine

theorem passes_iff {s : State} {l : List Check} : Normal.passes s l = true ↔ s.powered = true ∧ firstFail l = none := by
  simp [Normal.passes]

/-- A command whose every check passes on a powered device has its effect (R38). -/
theorem State.live_checked {s : State} {c : Command} {l : State → List Check} {f : State → State → State}
    (h : Normal.passes s (l s) = true) : s.live (fun s => s.checked c (l s) (f s)) = .next (f s s) := by
  obtain ⟨hp, hc⟩ := passes_iff.1 h
  rw [State.live_powered _ hp, State.checked_pass hc]

/-- An event whose condition holds on a powered device has its effect. -/
theorem State.live_onlyIf {s : State} {b : State → Bool} {f : State → State → State}
    (hp : s.powered = true) (hb : b s = true) : s.live (fun s => s.onlyIf (b s) (f s)) = .next (f s s) := by
  rw [State.live_powered _ hp, State.onlyIf_of hb]

end Sys2Proof.Machine
end

section
/-! SUPPORT. Reads of memory leave the scheduler alone, so that the job of a command stays the same; a record or layout that is
readable is what the command goes on with. -/

namespace Sys2Proof.Machine

@[simp] theorem State.countGranules_sched (s : State) (pa off n : Nat) : (s.countGranules pa off n).sched = s.sched := by
  unfold State.countGranules; split <;> simp

@[simp] theorem State.memFound_sched (s : State) (pa errors sub flags : Nat) :
    (s.memFound pa errors sub flags).sched = s.sched := by
  unfold State.memFound
  split
  · rfl
  · split_ifs <;> simp

@[simp] theorem State.memTouch_sched (s : State) (pa n : Nat) : (s.memTouch pa n).sched = s.sched := by
  simp only [State.memTouch, State.countGranules_sched]
  exact foldl_field State.sched _ (fun _ _ => State.memFound_sched ..) _ _

@[simp] theorem State.vtouch_sched (s : State) (slot va n : Nat) : (s.vtouch slot va n).sched = s.sched := by
  refine foldl_field State.sched _ (fun s q => ?_) _ _
  split <;> simp

/-- The job of a command is told by the scheduler's record. -/
theorem State.cmdSlot_congr {s t : State} (h : t.sched = s.sched) (hdr : CmdHdr) : t.cmdSlot hdr = s.cmdSlot hdr := by
  simp only [State.cmdSlot, State.slotOf, State.job, h]

@[simp] theorem State.vtouch_cmdSlot (s : State) (slot va n : Nat) (h : CmdHdr) :
    (s.vtouch slot va n).cmdSlot h = s.cmdSlot h := State.cmdSlot_congr (s.vtouch_sched slot va n) h

theorem State.readRecord_of_record {s : State} {c : Command} {src va n : Nat} {b : List Byte} {f : List Byte → State → State}
    (h : Normal.record s (s.cmdSlot c.hdr) va n b) :
    s.readRecord c src va n f = f b (s.vtouch (s.cmdSlot c.hdr) va n) := by
  rw [Normal.record] at h
  simp [State.readRecord, h]

theorem State.readLayout_of_layoutRead {s u : State} {c : Command} {va epoch off : Nat} {l : Layout}
    {f : Layout → State → State} (h : Normal.layoutRead s (s.cmdSlot c.hdr) va epoch l u) :
    s.readLayout c va epoch off f = f l u := by
  obtain ⟨head, b, hhead, hlen, hb, rfl, hl⟩ := h
  rw [State.readLayout, State.readRecord_of_record hhead, if_neg (Nat.not_lt.2 hlen),
    State.readRecord_of_record (by simpa using hb)]
  simp [hl]

end Sys2Proof.Machine
end

section
/-! SUPPORT. Tasks, cores, kernels and row repairs, one lemma for each command and event (R16, R97-R114, R360, R369). -/

namespace Sys2Proof.Machine

/-- R16, R360: the free core takes its task, whose argument record has been read. -/
theorem exec_taskPlace (s : State) (c p a : Nat) (t : Task) (h : Normal.taskPlace s c p a t = true) :
    let above := t.headgate && s.sched.ready.any fun u => !u.headgate && s.mayRun u c
    let s1 := if above then s.setCore p { s.core p with preempts := satAdd 16 (s.core p).preempts 1 } else s
    ∀ args, s1.taskArgs t = .ok (args, false) →
    exec (.taskPlace c) s =
      .next ((if t.argSize = 0 then s1 else s1.vtouch t.slot t.argVa t.argSize).startTask p t args) := by
  intro above s1 args hargs
  simp only [Normal.taskPlace, Bool.and_eq_true, decide_eq_true_eq, List.all_eq_true] at h
  obtain ⟨⟨⟨⟨⟨hp, ha⟩, hph⟩, hfree⟩, hpick⟩, hlow⟩ := h
  simp only [exec, execTaskPlace, State.live_powered _ hp, ha, hph, hfree, hpick, if_true]
  rw [if_neg]
  · rw [hargs]; rfl
  · rw [Bool.not_eq_true, List.any_eq_false]
    intro d hd
    have hother := hlow d hd
    cases hq : s.pickTask d <;> simp_all

/-- R101, R103: a core whose wake is over goes on. -/
theorem exec_coreWake (s : State) (p : Nat) (hp : s.powered = true) (hph : (s.core p).phase = .waking) :
    exec (.coreWake p) s = .next ((s.setCore p { s.core p with
      wakes := satAdd 16 (s.core p).wakes 1, wokeAt := s.now, idleSince := s.now }).afterWake p) := by
  change execCoreWake p s = _
  refine State.live_onlyIf hp ?_
  rw [hph]; rfl

/-- R108: a core that has idled for IDLE_HOLD_US is gated. -/
theorem exec_coreGate (s : State) (p : Nat) (h : Normal.coreGate s p = true) :
    exec (.coreGate p) s = .next (s.setCore p { s.core p with phase := .gated }) := by
  simp only [Normal.coreGate, Bool.and_eq_true, decide_eq_true_eq] at h
  obtain ⟨⟨⟨⟨hp, hph⟩, htask⟩, henabled⟩, hidle⟩ := h
  change execCoreGate p s = _
  refine State.live_onlyIf hp ?_
  simp [*]

/-- R111: an image that verifies is loaded, or with the dry run only measured. -/
theorem exec_kernelLoad (s : State) (c : Command) (img : List Byte) (h : Normal.kernelLoad s c img = true) :
    let slot := s.cmdSlot c.hdr
    let s1 := s.vtouch slot (c.u64 8) (c.u32 4)
    let k : Kernel := ⟨imageBundles img, leAt img 0x10 8, leAt img 0x18 2, leAt img 0x1A 1, s.jobPhys slot, none, []⟩
    let s2 := if c.ex (c.u8 0x10) 0 = 1 then s1 else s1.setKernel slot (c.u16 0) k
    exec (.kernelLoad c) s = .next (s2.finish c stOk 0
      (le 2 (imageBundles img).length ++ le 2 (s2.leastFree (s.jobPhys slot)) ++ le 4 0)) := by
  intro slot s1 k s2
  simp only [Normal.kernelLoad, Bool.and_eq_true, decide_eq_true_eq, beq_iff_eq, Option.isNone_iff_eq_none,
    Bool.not_eq_true'] at h
  obtain ⟨⟨⟨⟨⟨⟨⟨⟨⟨hp, hid⟩, hnew⟩, hmin⟩, hmax⟩, hva⟩, hdry⟩, hread⟩, himg⟩, hroom⟩ := h
  have hok : s.vread (s.cmdSlot c.hdr) (c.u64 8) (c.u32 4) = .ok (img, false) := by
    split at hread
    · next d _ => obtain ⟨b, poison⟩ := d; simp_all
    · cases hread
  change execKernelLoad c s = _
  refine (State.live_checked ?_).trans ?_
  · simp [passes_iff, hp, hnew, hid, hmin, hmax, hva, hdry]
  · simp only [hok, himg, Bool.false_eq_true, if_false]
    rw [if_neg (Nat.not_lt.2 hroom)]

/-- R112, R364: the tasks of a `kernel_run` become ready. -/
theorem exec_kernelRun (s : State) (c : Command) (k : Kernel) (h : Normal.kernelRun s c k = true) :
    exec (.kernelRun c) s = .next (s.addRun c (s.cmdSlot c.hdr) (c.ex (c.u16 0x18) 0) (c.ex (c.u8 0x1A) 0 == 1) (c.u64 0x20)
      (kernelTasks c s.sched.nextOrder (s.cmdSlot c.hdr) (s.queue c.hdr.qkey).headgate s.now)) := by
  simp only [Normal.kernelRun, Bool.and_eq_true, decide_eq_true_eq, beq_iff_eq, bne_iff_ne, Bool.or_eq_true] at h
  obtain ⟨⟨⟨⟨⟨⟨⟨⟨⟨⟨⟨⟨hp, hid⟩, hk⟩, hkept⟩, hcycles⟩, hsome⟩, hmany⟩, hva⟩, hsize⟩, hsize16⟩, hmin⟩, hcores⟩, htrace⟩ := h
  change execKernelRun c s = _
  refine State.live_checked ?_
  simp only [passes_iff, hp, hk, Option.map_some, Option.getD_some]
  rcases hcycles with (hheadgate | hunlimited) | ⟨hstated, hfits⟩
  · simp [*]
  · simp [*]
  · simp [*]

/-- R113: a kernel that no run names goes at once; else it goes after the runs that name it. -/
theorem exec_kernelUnload (s : State) (c : Command) (k : Kernel) (h : Normal.kernelUnload s c k = true) :
    let slot := s.cmdSlot c.hdr
    exec (.kernelUnload c) s = .next
      (if s.runsNaming slot (c.u16 0) = [] then
        State.finish { s with cores := { s.cores with kernels := s.cores.kernels.erase (slot * 256 + c.u16 0) } } c stOk 0 []
      else (s.setKernel slot (c.u16 0) { k with unloading := some c, namedBy := s.runsNaming slot (c.u16 0) }).defer c 0 []) := by
  simp only [Normal.kernelUnload, Bool.and_eq_true, decide_eq_true_eq] at h
  obtain ⟨⟨⟨hp, hid⟩, hk⟩, hkept⟩ := h
  simp [exec, execKernelUnload, State.live_powered _ hp, hk, hkept, Nat.not_lt.2 hid]

/-- The checks of OPE_REPAIR (R114). -/
def State.opeRepairChecks (s : State) (c : Command) : List Check :=
  let rows := (s.core (c.u16 0 - 157)).retiredRows
  [badIf (c.u16 0 < 157 || 312 < c.u16 0) 0, badIf (129 < c.u8 2) 2, badIf (1 < c.ex (c.u8 8) 0) 8,
   failIf ((s.xentry (c.u16 0)).state == 3) stRetired (c.u16 0),
   failIf (!rows.contains (c.u8 2) && 2 ≤ rows.length) stNoResource 0x20]

theorem opeRepair_passes {s : State} {c : Command} (h : Normal.opeRepair s c = true) :
    Normal.passes s (s.opeRepairChecks c) = true := by
  simp only [Normal.opeRepair, Bool.and_eq_true, decide_eq_true_eq, bne_iff_ne, Bool.or_eq_true] at h
  obtain ⟨⟨⟨⟨⟨⟨hp, hlo⟩, hhi⟩, hrow⟩, hdry⟩, hst⟩, hroom⟩ := h
  rcases hroom with hretired | hspare
  · rw [List.contains_iff_mem] at hretired
    simp [passes_iff, State.opeRepairChecks, *]
  · simp [passes_iff, State.opeRepairChecks, *]

/-- R114: a row that is retired already is only reported. -/
theorem exec_opeRepair_retired (s : State) (c : Command) (h : Normal.opeRepair s c = true)
    (hrow : (s.core (c.u16 0 - 157)).retiredRows.contains (c.u8 2) = true) :
    exec (.opeRepair c) s = .next (s.finish c stOk 0 (opeMap (s.core (c.u16 0 - 157)).retiredRows)) := by
  change execOpeRepair c s = _
  exact (State.live_checked (opeRepair_passes h)).trans (congrArg _ (if_pos hrow))

/-- R114: a dry run answers the map that the repair would leave. -/
theorem exec_opeRepair_dry (s : State) (c : Command) (h : Normal.opeRepair s c = true)
    (hrow : (s.core (c.u16 0 - 157)).retiredRows.contains (c.u8 2) = false) (hdry : c.ex (c.u8 8) 0 = 1) :
    exec (.opeRepair c) s = .next (s.finish c stOk 0 (opeMap ((s.core (c.u16 0 - 157)).retiredRows ++ [c.u8 2]))) := by
  change execOpeRepair c s = _
  refine (State.live_checked (opeRepair_passes h)).trans (congrArg _ ?_)
  rw [if_neg (Bool.eq_false_iff.1 hrow), if_pos hdry]

/-- R114: the repair of a busy core waits for its task's end. -/
theorem exec_opeRepair_busy (s : State) (c : Command) (h : Normal.opeRepair s c = true)
    (hrow : (s.core (c.u16 0 - 157)).retiredRows.contains (c.u8 2) = false) (hdry : c.ex (c.u8 8) 0 ≠ 1)
    (htask : (s.core (c.u16 0 - 157)).task.isSome = true) :
    exec (.opeRepair c) s = .next ((s.setCore (c.u16 0 - 157) { s.core (c.u16 0 - 157) with
      repairs := (s.core (c.u16 0 - 157)).repairs ++ [⟨c.u8 2, some c, true, false⟩] }).defer c 0 []) := by
  change execOpeRepair c s = _
  refine (State.live_checked (opeRepair_passes h)).trans (congrArg _ ?_)
  rw [if_neg (Bool.eq_false_iff.1 hrow), if_neg hdry, if_pos htask]

/-- R103: after the hold a row whose check pass agrees is retired, and the core goes on. -/
theorem exec_repairHoldEnd (s : State) (p : Nat) (r : RowRepair) (rest : List RowRepair)
    (h : Normal.repairHoldEnd s p r rest = true) :
    let k := (s.core p).opeZero 0
    let s1 := (s.setCore p { k with repairs := rest, retiredRows := k.retiredRows ++ [r.row] }).opeRepaired p r.row stOk
    exec (.repairHoldEnd p true) s = .next
      (((s1.mramRepair (uOpe p) 1 r.row r.injected).repairReply p r stOk 0).afterWake p) := by
  intro k s1
  simp only [Normal.repairHoldEnd, Bool.and_eq_true, decide_eq_true_eq] at h
  obtain ⟨⟨⟨hp, hrepairs⟩, hph⟩, hdue⟩ := h
  simp only [exec, execRepairHoldEnd, State.live_powered _ hp, hrepairs]
  rw [State.onlyIf_of (by simp [hph, hdue])]
  simp only [if_true, s1, k]

/-- R369: a task that has run beyond its limit is ended. -/
theorem exec_taskWatchdog (s : State) (p : Nat) (t : Task) (h : Normal.taskWatchdog s p t = true) :
    exec (.taskWatchdog p) s = .next (State.failTask (if (s.core p).stall.isNone then
        s.logError { type := 0x12, cls := 2, unit := uCore p, job := t.slot, sub := (s.core p).pc } else s) p 17 stCancelled 0) := by
  simp only [Normal.taskWatchdog, Bool.and_eq_true, decide_eq_true_eq] at h
  obtain ⟨⟨⟨hp, htask⟩, hph⟩, hdue⟩ := h
  simp only [exec, execTaskWatchdog, State.live_powered _ hp, htask]
  rw [State.onlyIf_of]
  simp only [Bool.and_eq_true, decide_eq_true_eq]
  exact ⟨hph, hdue⟩

/-- Settles O27: one lemma for each of its commands and events. -/
theorem tasksAndKernelsComplete : Obligations.TasksAndKernelsComplete :=
  ⟨exec_taskPlace, exec_coreWake, exec_coreGate, exec_kernelLoad, exec_kernelRun, exec_kernelUnload, exec_opeRepair_retired,
    exec_opeRepair_dry, exec_opeRepair_busy, exec_repairHoldEnd, exec_taskWatchdog⟩

end Sys2Proof.Machine
end

section
/-! SUPPORT. Port maps, identities and recuts, one lemma for each command and event (R24, R332-R339, R347-R356). -/

namespace Sys2Proof.Machine

@[simp] theorem State.port_setPort_self (s : State) (p : Nat) (x : Port) : (s.setPort p x).port p = x := TMap.get_insert_self ..
@[simp] theorem State.fjob_setFjob_self (s : State) (j : Nat) (f : FabricJob) : (s.setFjob j f).fjob j = f :=
  TMap.get_insert_self ..
@[simp] theorem State.port_setFjob (s : State) (j p : Nat) (f : FabricJob) : (s.setFjob j f).port p = s.port p := rfl
@[simp] theorem State.sendLcf_timecode (s : State) (p : Nat) : (s.sendLcf p).timecode = s.timecode := rfl

/-- R332, R352: a legal port map is stored. -/
theorem exec_portMapSet (s : State) (c : Command) (b : List Byte) (m : PortMap)
    (h : Normal.passes s (s.portMapSetChecks c) = true) (hb : Normal.record s (s.cmdSlot c.hdr) (c.u64 8) 32960 b) :
    let u := s.vtouch (s.cmdSlot c.hdr) (c.u64 8) 32960
    u.parseMap b = some m →
    exec (.portMapSet c) s = .next (({ u with fabric := { u.fabric with maps := u.fabric.maps.insert (c.u8 0) m } }).finish c stOk 0
      (le 2 (u.differs m).length ++ le 2 0 ++ le 4 m.routes.length)) := by
  intro u hm
  change execPortMapSet c s = _
  refine (State.live_checked h).trans ?_
  rw [State.readRecord_of_record hb]
  change State.parseMap (s.vtouch _ _ _) b = _ at hm
  simp only [hm, u]

/-- R24, R347, R351: the device takes its fabric id. -/
theorem exec_fabricIdSet (s : State) (c : Command) (h : Normal.passes s (s.fabricIdSetChecks c) = true) :
    let u : State := { s with
      timecode := { s.timecode with twin := c.u16 0 / 2 ^ 15, device := c.u16 0 % 2 ^ 15 }
      fabric := { s.fabric with twinConfig := c.u8 2 == 1 } }
    exec (.fabricIdSet c) s = .next (u.tcReselect.finish c stOk 0 (le 2 s.fabricId ++ le 6 0)) := by
  change execFabricIdSet c s = _
  exact State.live_checked h

/-- R356: the registers of one port or of all are answered. -/
theorem exec_linkStatus (s : State) (c : Command) (h : Normal.passes s (s.linkStatusChecks c) = true) :
    exec (.linkStatus c) s = .next (s.finish c stOk 0 ((if c.u8 0 = 0xFF then List.range 16 else [c.u8 0]).flatMap fun p =>
      (List.range 9).flatMap fun i => le 8 (s.linkReg p (0x010 + 8 * i)))) := by
  change execLinkStatus c s = _
  exact State.live_checked h

/-- The state in which `recut` has been answered ST_DEFERRED, after its layout has been read in `u` (R338). -/
def State.recutDeferred (s u : State) (c : Command) : State :=
  u.defer c 0x0401 (le 4 (s.fjob (s.cmdSlot c.hdr)).epoch ++ le 4 (u.activeCount (s.cmdSlot c.hdr)) ++ le 8 u.now)

/-- The recut that `recut` starts with a layout, as it is accepted in `v` (R336, R338). -/
def State.newRecut (s v : State) (c : Command) (l : Layout) : Recut :=
  { cmd := c.hdr, epoch := c.u32 0, map := c.u8 4, abandon := c.u8 5 == 1, layout := l, switchTc := c.u64 0x10
    limitAt := v.now + s.recutLimit c 0x18 * msec, acceptedAt := v.now, clapAt := none, releasedAt := none, darkAt := none
    cancelled := 0, changed := [], dark := [], heard := [], sent := 0, bySpread := false }

/-- R338: a `recut` that passes names the epoch after the job's. -/
theorem recutChecks_epoch {s : State} {c : Command} {mode : Nat} (h : firstFail (s.recutChecks c mode) = none) :
    c.u32 0 = (s.fjob (s.cmdSlot c.hdr)).epoch + 1 := by
  simp only [State.recutChecks, firstFail_cons_eq_none, badIf_eq_none, bne_eq_false_iff_eq] at h
  obtain ⟨-, hepoch, -⟩ := h
  exact hepoch

/-- Both forms of `recut` answer ST_DEFERRED and accept the recut (R336, R337). -/
theorem live_recut {s u : State} {c : Command} {l : Layout} (h : Normal.passes s (s.recutChecks c (c.u8 5)) = true)
    (hl : Normal.layoutRead s (s.cmdSlot c.hdr) (c.u64 8) (c.u32 0) l u) :
    s.live (fun s => s.recut c (c.u8 5)) =
      .next ((s.recutDeferred u c).acceptRecut (s.cmdSlot c.hdr) (s.newRecut (s.recutDeferred u c) c l)) := by
  have hepoch := recutChecks_epoch (passes_iff.1 h).2
  unfold State.recut
  refine (State.live_checked h).trans ?_
  rw [← hepoch, State.readLayout_of_layoutRead hl]
  rfl

/-- A recut that drains leaves the job DRAINING (R336). -/
theorem State.acceptRecut_drain (s : State) (slot : Nat) {r : Recut} (h : r.abandon = false) :
    s.acceptRecut slot r = s.setFjob slot { s.fjob slot with
      recut := some r, latestRecut := some r.cmd, fstate := .draining } := by
  simp [State.acceptRecut, h]

/-- R336: `recut` with MODE 0 begins to drain. -/
theorem exec_recutDrain (s : State) (c : Command) (l : Layout) (u : State)
    (h : Normal.passes s (s.recutChecks c (c.u8 5)) = true) (hmode : c.u8 5 = 0)
    (hl : Normal.layoutRead s (s.cmdSlot c.hdr) (c.u64 8) (c.u32 0) l u) :
    let slot := s.cmdSlot c.hdr
    let v := u.defer c 0x0401 (le 4 (s.fjob slot).epoch ++ le 4 (u.activeCount slot) ++ le 8 u.now)
    ∃ r : Recut, exec (.recutDrain c) s = .next (v.setFjob slot { v.fjob slot with
        recut := some r, latestRecut := some c.hdr, fstate := .draining }) ∧
      r.epoch = c.u32 0 ∧ r.map = c.u8 4 ∧ r.abandon = false ∧ r.layout = l ∧ r.switchTc = c.u64 0x10 ∧ r.clapAt = none ∧
      r.releasedAt = none := by
  intro slot v
  have hdrain : (s.newRecut v c l).abandon = false := by simp [State.newRecut, hmode]
  exact ⟨s.newRecut v c l, (live_recut h hl).trans (congrArg _ (State.acceptRecut_drain _ _ hdrain)), rfl, rfl, hdrain, rfl, rfl,
    rfl, rfl⟩

/-- R337: `recut` with MODE 1 abandons the epoch. -/
theorem exec_recutAbandon (s : State) (c : Command) (l : Layout) (u : State)
    (h : Normal.passes s (s.recutChecks c (c.u8 5)) = true) (hmode : c.u8 5 = 1)
    (hl : Normal.layoutRead s (s.cmdSlot c.hdr) (c.u64 8) (c.u32 0) l u) :
    let slot := s.cmdSlot c.hdr
    let v := u.defer c 0x0401 (le 4 (s.fjob slot).epoch ++ le 4 (u.activeCount slot) ++ le 8 u.now)
    ∃ r : Recut, exec (.recutAbandon c) s = .next (v.acceptRecut slot r) ∧
      r.epoch = c.u32 0 ∧ r.map = c.u8 4 ∧ r.abandon = true ∧ r.layout = l ∧ r.switchTc = c.u64 0x10 := by
  intro slot v
  exact ⟨s.newRecut v c l, live_recut h hl, rfl, rfl, by simp [State.newRecut, hmode], rfl, rfl⟩

/-- R336: a drained job arrives at the boundary clap. -/
theorem exec_recutDrained (s : State) (slot : Nat) (h : Normal.drained s slot = true) :
    exec (.recutDrained slot) s = .next (s.arriveBoundary slot) := by
  simp only [Normal.drained, Bool.and_eq_true] at h
  obtain ⟨⟨⟨⟨hp, hstate⟩, hrecut⟩, hactive⟩, habort⟩ := h
  change execRecutDrained slot s = _
  refine State.live_onlyIf hp ?_
  simp only [hstate, hrecut, hactive, habort, Bool.and_true]

/-- R339: a changed port goes dark, and its recut notes it. -/
theorem exec_portDark (s : State) (p j : Nat) (r : Recut) (h : Normal.darkDue s p j r = true) :
    ∃ t, exec (.portDark p) s = .next t ∧ (t.port p).light = false ∧ (t.port p).peer = 0xFFFF ∧ (t.port p).credit = 0 ∧
      ∃ q, (t.fjob j).recut = some q ∧ q.dark = p :: r.dark ∧ q.darkAt = (r.darkAt.orElse fun _ => some s.now) := by
  simp only [Normal.darkDue, Bool.and_eq_true, decide_eq_true_eq] at h
  obtain ⟨⟨⟨⟨⟨hp, hrecut⟩, hph⟩, hlit⟩, htc⟩, hacked⟩ := h
  simp only [exec, execPortDark, State.live_powered _ hp, hrecut]
  rw [State.onlyIf_of (by simp only [hph, hlit, htc, hacked, decide_true, Bool.and_true])]
  refine ⟨_, rfl, ?_⟩
  simp [State.now]

/-- R336, R339: a dark port that sees its new peer is UP, and the recut may end. -/
theorem exec_portRelock (s : State) (p j : Nat) (r : Recut) (a b w : Nat) (h : Normal.relocks s p j r a b = true) :
    exec (.portRelock p a b w) s = .next (((s.setPort p { s.port p with
      light := true, peer := a, peerPort := b, width := min (s.port p).working w }).portUpNow p).tryEndRecut j) := by
  simp only [Normal.relocks, Bool.and_eq_true, decide_eq_true_eq] at h
  obtain ⟨⟨⟨⟨hp, hrecut⟩, hph⟩, hdark⟩, hpeer⟩ := h
  simp only [exec, execPortRelock, State.live_powered _ hp, hrecut]
  rw [State.onlyIf_of (by simp only [hph, hdark, hpeer, Bool.and_true])]

/-- R336, R338: what the limit of a recut does, before its release and after. -/
theorem exec_recutLimit {s : State} {slot : Nat} {r : Recut} (h : Normal.recutLate s slot r = true) :
    exec (.recutLimit slot) s = .next (if r.releasedAt.isSome then
      ((r.changed.filter fun p => (s.port p).phase == .recutting).foldl (fun s p => s.portLost p .down) s).endRecut slot stOk 0
      else s.endRecut slot stEpochBusy 3) := by
  simp only [Normal.recutLate, Bool.and_eq_true, decide_eq_true_eq] at h
  obtain ⟨⟨hp, hrecut⟩, hdue⟩ := h
  simp only [exec, execRecutLimit, State.live_powered _ hp, hrecut]
  rw [State.onlyIf_of (decide_eq_true hdue)]

/-- Settles O48: one lemma for each of its commands and events; the two outcomes of the limit are the branches of one. -/
theorem recutsComplete : Obligations.RecutsComplete := by
  refine ⟨exec_portMapSet, exec_fabricIdSet, exec_linkStatus, exec_recutDrain, exec_recutAbandon, exec_recutDrained,
    exec_portDark, exec_portRelock, fun s slot r h hheld => ?_, fun s slot r h hreleased => ?_⟩
  · rw [exec_recutLimit h, hheld]; rfl
  · rw [exec_recutLimit h, if_pos (Option.isSome_iff_ne_none.2 hreleased)]

end Sys2Proof.Machine
end

section
/-! SUPPORT. Jobs, modes, allotments, turns and migrations, one lemma for each command and event (R24, R358-R382). -/

namespace Sys2Proof.Machine

/-- The report of an overrun takes no time (R368). -/
@[simp] theorem State.overrun_timecode (s : State) (a : Nat) : (s.overrun a).timecode = s.timecode := by
  dsimp only [State.overrun]
  split_ifs <;> simp [State.draw]

/-- The report of an overrun counts no turn (R368). -/
@[simp] theorem State.overrun_turns (s : State) (a : Nat) : (s.overrun a).sched.turns = s.sched.turns := by
  dsimp only [State.overrun]
  split_ifs <;> simp [State.draw]

/-- R358, R377: the job takes the slot that the command names, or a free one. -/
theorem exec_jobCreate (s : State) (c : Command) (h : Normal.passes s (s.jobCreateChecks c) = true) :
    ∃ j, (c.u8 5 ≠ 0xFF → j = c.u8 5) ∧ (s.job j).phase = .free ∧
      exec (.jobCreate c) s = .next ((s.setJob j { phase := .active, tag := c.u32 0, allotment := c.u8 4, placement := 1
                                                   taskLimitUs := c.ex (c.u32 8) 0 }).finish c stOk 0
        (le 1 j ++ le 1 (c.u8 4) ++ le 2 1 ++ le 4 0)) := by
  have hexec : execJobCreate c s = _ := State.live_checked h
  have hc := (passes_iff.1 h).2
  simp only [State.jobCreateChecks, firstFail_cons_eq_none, badIf_eq_none, failIf_eq_none] at hc
  obtain ⟨-, -, hnamed, hfree, -⟩ := hc
  refine ⟨_, fun hn => if_neg hn, ?_, hexec⟩
  by_cases hn : c.u8 5 = 0xFF
  · simp only [hn, beq_self_eq_true, Bool.true_and, Option.isNone_eq_false_iff] at hfree
    obtain ⟨j, hj⟩ := Option.isSome_iff_exists.1 hfree
    rw [if_pos hn, hj]
    simpa using List.find?_some hj
  · rw [if_neg hn]
    simp only [bne_iff_ne.2 hn, Bool.true_and, Bool.or_eq_false_iff, bne_eq_false_iff_eq] at hnamed
    exact hnamed.2

/-- R378: the job is DESTROYING, its queues are flushed, and MODE 1 cancels its work. -/
theorem exec_jobDestroy (s : State) (c : Command) (h : Normal.passes s (s.jobDestroyChecks c) = true) :
    let slot := (s.slotOf (c.u32 0)).getD 0
    let u := s.defer c 0 []
    let v := u.setJob slot { u.job slot with phase := .destroying, destroyCmd := some c }
    let w := ((v.jobQueues (c.u32 0)).foldl (fun s q => s.flushQueue q) v).endMigration slot 0 stCancelled 0
    exec (.jobDestroy c) s = .next (if c.u8 4 = 1 then w.cancelJob slot else w) := by
  change execJobDestroy c s = _
  exact State.live_checked h

/-- R378: a destroyed job with nothing in progress leaves its slot free. -/
theorem exec_jobTeardown (s : State) (slot : Nat) (c : Command) (h : Normal.tornDown s slot c = true) :
    ∃ u : State, exec (.jobTeardown slot) s = .next (u.deferredDone c.hdr stOk 0) ∧ u.job slot = {} := by
  simp only [Normal.tornDown, Bool.and_eq_true, decide_eq_true_eq] at h
  obtain ⟨⟨⟨⟨hp, hcmd⟩, hph⟩, hidle⟩, hgate⟩ := h
  simp only [exec, execJobTeardown, State.live_powered _ hp, hcmd]
  rw [State.onlyIf_of (by rw [hph, hidle, hgate]; rfl)]
  refine ⟨_, rfl, ?_⟩
  simp [State.job]

/-- R365, R379: the device takes the mode. -/
theorem exec_modeSet (s : State) (c : Command) (h : Normal.passes s (s.modeSetChecks c) = true) :
    ∃ u : State, exec (.modeSet c) s = .next (u.finish c stOk 0 (le 1 (b2n s.sched.allotmentMode) ++ le 7 0)) ∧
      u.sched.allotmentMode = (c.u8 0 == 1) ∧ u.sched.jobs = s.sched.jobs := by
  have hexec : execModeSet c s = _ := State.live_checked h
  refine ⟨_, hexec, ?_⟩
  split
  · next hsame => exact ⟨beq_iff_eq.1 hsame, rfl⟩
  · exact ⟨rfl, rfl⟩

/-- R366: in Interleave mode `allotment_set` sets the reserve. -/
theorem exec_allotmentSet_interleave (s : State) (c : Command) (hm : s.sched.allotmentMode = false)
    (h : Normal.passes s (s.reserveSetChecks c) = true) :
    ∃ u : State, exec (.allotmentSet c) s = .next (u.finish c stOk 0
        (le 1 ((List.range 144).filter fun i => !(s.diag.absent.any fun a => a.1 == i)).length ++ le 1 0 ++ le 6 0 ++ le 8 s.now)) ∧
      (u.sched.allotments.get ({} : Allotment) 0).hgReserve = c.u8 1 := by
  obtain ⟨hp, hc⟩ := passes_iff.1 h
  simp only [exec, execAllotmentSet, State.live_powered _ hp, hm, Bool.not_false, if_true, State.reserveSet, State.checked_pass hc]
  refine ⟨_, rfl, ?_⟩
  simp

/-- R367, R380: in Allotment mode the allotment takes its new cores; the command waits while a core that leaves still runs. -/
theorem exec_allotmentSet_allotment (s : State) (c : Command) (hm : s.sched.allotmentMode = true)
    (h : Normal.passes s (s.allotmentSetChecks c) = true) :
    let a := c.u8 0
    let old := s.sched.allotments.get {} a
    let turn := c.u32 4
    let u := s.applyMask a (s.maskCores c) { old with
      valid := !(leAt c.params 8 18 % 2 ^ 144 == 0), emptyYield := c.ex (c.u8 0x20) 1 == 1, hgReserve := c.u8 1, turnUs := turn
      guardUs := c.ex (c.u32 0x24) 0, turnActive := old.turnActive && turn == old.turnUs }
    let x := u.sched.allotments.get {} a
    let result := le 1 (s.maskCores c).length ++ le 1 x.leaving.length ++ le 6 0 ++ le 8 u.now
    (x.leaving ≠ [] → exec (.allotmentSet c) s = .next
      (({ u with sched := { u.sched with allotments := u.sched.allotments.insert a { x with cmds := x.cmds ++ [c] } } }).defer
        c 0 result)) ∧
    (x.leaving = [] → x.cmds = [] → ∃ v : State, exec (.allotmentSet c) s = .next (v.finish c stOk 0 result)) := by
  intro a old turn u x result
  obtain ⟨hp, hc⟩ := passes_iff.1 h
  simp only [exec, execAllotmentSet, State.live_powered _ hp, hm, Bool.not_true, Bool.false_eq_true, if_false,
    State.checked_pass hc]
  constructor
  · intro hleaving
    rw [if_neg (mt List.isEmpty_iff.1 hleaving)]
  · intro hnone _
    rw [if_pos (List.isEmpty_iff.2 hnone)]
    exact ⟨_, rfl⟩

/-- R368: the next job's turn begins, and is counted. -/
theorem exec_rotationTurnEnd (s : State) (a j : Nat) (h : Normal.turnOver s a j = true) :
    ∃ t, exec (.rotationTurnEnd a) s = .next t ∧ (t.sched.allotments.get ({} : Allotment) a).turnActive = true ∧
      (t.sched.allotments.get ({} : Allotment) a).turnJob = j ∧ (t.sched.allotments.get ({} : Allotment) a).turnStart = s.now ∧
      t.sched.turns = satAdd 32 s.sched.turns 1 := by
  simp only [Normal.turnOver, Bool.and_eq_true, decide_eq_true_eq, Bool.or_eq_true] at h
  obtain ⟨⟨⟨⟨⟨hp, hm⟩, hvalid⟩, hturn⟩, hnext⟩, hover⟩ := h
  simp only [exec, execRotationTurnEnd, State.live_powered _ hp, hnext]
  rw [State.onlyIf_of]
  · refine ⟨_, rfl, ?_⟩
    simp [State.now, b2n]
  · simp only [hm, hvalid, hturn, Option.isSome_some, Bool.or_true, Bool.and_true, Bool.true_and, Bool.or_eq_true,
      decide_eq_true_eq]
    exact .inl (.inl hover)

/-- R371, R381: the job is MIGRATING, with the pairs and ranges that the command names. -/
theorem exec_taskMigrate (s : State) (c : Command) (h : Normal.passes s (s.taskMigrateChecks c) = true) :
    let slot := s.cmdSlot c.hdr
    ∃ m : Migration, exec (.taskMigrate c) s = .next ((s.setJob slot { s.job slot with
        phase := .migrating, migration := some m }).defer c 0x0601
          (le 2 (s.job slot).placement ++ le 2 m.waitFor.length ++ le 4 0)) ∧
      m.cmd = c ∧ m.pairs = migratePairs c ∧ m.ranges = migrateRanges c ∧ m.closing = false := by
  have hexec : execTaskMigrate c s = _ := State.live_checked h
  exact ⟨_, hexec, rfl, rfl, rfl, rfl⟩

/-- R371: with its turnouts closed, the migration moves its ranges. -/
theorem exec_migrationDrained (s : State) (slot : Nat) (m : Migration) (h : Normal.movesNow s slot m = true) :
    exec (.migrationDrained slot) s = .next (s.finishMove slot m) := by
  simp only [Normal.movesNow, Bool.and_eq_true, decide_eq_true_eq] at h
  obtain ⟨⟨⟨hp, hmigration⟩, hclosing⟩, hready⟩ := h
  simp [exec, execMigrationDrained, State.live_powered _ hp, hmigration, hclosing, hready]

/-- Settles O49: one lemma for each of its commands and events. -/
theorem schedulingComplete : Obligations.SchedulingComplete :=
  ⟨exec_jobCreate, exec_jobDestroy, exec_jobTeardown, exec_modeSet, exec_allotmentSet_interleave, exec_allotmentSet_allotment,
    exec_rotationTurnEnd, exec_taskMigrate, exec_migrationDrained⟩

end Sys2Proof.Machine
end

section
/-! SUPPORT. The guards of a command that fails its checks, of an event whose conditions hold, and of a datagram (R26, R37, R38). -/

namespace Sys2Proof.Machine

/-- On a powered device the first check that fails answers the command (R38). -/
theorem State.live_checked_fail {s : State} {c : Command} {l : State → List Check} {f : State → State → State} {st d : Nat}
    (hp : s.powered = true) (h : firstFail (l s) = some (st, d)) :
    s.live (fun s => s.checked c (l s) (f s)) = .next (s.finish c st d []) := by
  rw [State.live_powered _ hp, State.checked_fail h]

/-- A command of `Normal.checksOf` stands behind the power guard and begins with its checks (R37, R38). -/
theorem exec_of_checksOf {i : Instr} {s : State} {c : Command} {l : List Check} (h : Normal.checksOf s i = some (c, l)) :
    ∃ f : State → State, exec i s = if s.powered then .next (s.checked c l f) else .next s := by
  unfold Normal.checksOf at h
  split at h
  case h_57 => cases h -- the commands without a list of checks
  all_goals
    obtain ⟨rfl, rfl⟩ := h
    exact ⟨_, rfl⟩

/-- Settles O16: the command begins with its checks, of which the first that fails answers. -/
theorem firstFailedCheckAnswers : Obligations.FirstFailedCheckAnswers := by
  intro i s c l st d hp hc hfail
  obtain ⟨f, hf⟩ := exec_of_checksOf hc
  rw [hf, if_pos hp, State.checked_fail hfail]

end Sys2Proof.Machine
end

section
/-! SUPPORT. What is read of sessions and queues after the transport's operations: sending on a session keeps every queue, posting
keeps all but what the queue retains, completion all but what it runs (R28, R43-R49). -/

namespace Sys2Proof.Machine

@[simp] theorem State.session_setSession_self (s : State) (n : Nat) (x : Session) : (s.setSession n x).session n = x :=
  TMap.get_insert_self ..
@[simp] theorem State.session_sendDatagram (s : State) (n kind tseq : Nat) (body : List Byte) (m : Option Msg) (k : Nat) :
    (s.sendDatagram n kind tseq body m).session k = s.session k := rfl

@[simp] theorem State.queue_setQueue_self (s : State) (k : Nat) (q : Queue) : (s.setQueue k q).queue k = q :=
  TMap.get_insert_self ..
theorem State.queue_setQueue_of_ne (s : State) {k j : Nat} (q : Queue) (h : j ≠ k) : (s.setQueue k q).queue j = s.queue j :=
  TMap.get_insert_of_ne _ _ _ _ _ h
@[simp] theorem State.queue_setSession (s : State) (n k : Nat) (x : Session) : (s.setSession n x).queue k = s.queue k := rfl
@[simp] theorem State.queue_setFld (s : State) (u off hi lo v k : Nat) : (s.setFld u off hi lo v).queue k = s.queue k := rfl

/-- Sending on a session keeps every queue. -/
@[simp] theorem State.queue_sendOn (s : State) (n mid : Nat) (m : Msg) (k : Nat) : (s.sendOn n mid m).queue k = s.queue k := by
  unfold State.sendOn; extract_lets; split <;> rfl

/-- A message that is posted to a queue joins what the queue retains (R47), whether its session is open or not. -/
theorem State.postTo_retained (s : State) (k : Nat) (m : Msg) :
    ((s.postTo k m).queue k).retained = (s.queue k).retained ++
      [(s.umauth.nextMid, { m with doneTc := max m.doneTc (s.queue k).lastTc })] := by
  unfold State.postTo
  extract_lets q mid n tc m' s1 u s2
  have hs2 : (s2.queue k).retained = q.retained ++ [(mid, m')] :=
    congrArg Queue.retained (s.queue_setQueue_self k _)
  split
  · rw [State.queue_sendOn, hs2]
  · exact hs2

/-- A message of a command whose session has not ended goes to the command's queue. -/
theorem State.post_of_not_orphaned {s : State} {h : CmdHdr} (m : Msg) (ho : s.orphaned h = false) :
    s.post h m = s.postTo h.qkey m := by
  simp [State.post, ho]

/-- A command that completes leaves what every queue retains. -/
@[simp] theorem State.complete_retained (s : State) (h : CmdHdr) (k : Nat) :
    ((s.complete h).queue k).retained = (s.queue k).retained := by
  unfold State.complete
  split
  · rfl
  · by_cases hk : k = h.qkey
    · subst hk; simp
    · rw [State.queue_setQueue_of_ne _ _ hk]

/-- With NOTIFY clear, ST_OK only completes the command (R43). -/
theorem State.finish_silent (s : State) {c : Command} (d : Nat) (r : List Byte) (h : c.hdr.notify = false) :
    s.finish c stOk d r = s.complete c.hdr := by
  simp [State.finish, State.damagedBy, h]

/-- A status other than ST_OK is posted (R43). -/
theorem State.finish_of_ne_ok (s : State) (c : Command) {st : Nat} (d : Nat) (r : List Byte) (h : st ≠ stOk) :
    s.finish c st d r = ((s.post c.hdr (s.replyMsg c.hdr st d r)).complete c.hdr).damagedBy c.hdr st := by
  simp [State.finish, h]

/-- Settles O17: the silent completion, the posted one, and what posting adds to the queue; deferrals and records are posted by
definition. -/
theorem replyRule : Obligations.ReplyRule := by
  refine ⟨fun s c d r hn => ?_, fun s c st d r hst => s.finish_of_ne_ok c d r hst, fun _ _ _ _ => rfl,
    fun _ _ _ _ _ => rfl, fun s h m ho => ?_⟩
  · rw [s.finish_silent d r hn]
    exact ⟨s.complete_outputs c.hdr, s.complete_retained c.hdr⟩
  · rw [State.post_of_not_orphaned m ho]
    exact ⟨_, _, s.postTo_retained h.qkey m⟩

end Sys2Proof.Machine
end

section
/-! SUPPORT. Datagrams and the timers of the transport, one lemma for each (R28-R31, R46, R47, R462). -/

namespace Sys2Proof.Machine

@[simp] theorem State.sendDatagram_outputs (s : State) (n kind tseq : Nat) (body : List Byte) (m : Option Msg) :
    (s.sendDatagram n kind tseq body m).outputs =
      s.outputs ++ [.datagram n kind tseq (s.session n).ack (s.session n).window body m] := rfl

/-- A datagram of its kind on an open session has its effect once its bytes are counted (R26). -/
theorem State.live_receive {s : State} {d : Datagram} {kind : Nat} {f : State → State} (h : Normal.datagram s d kind = true) :
    s.live (fun s => s.receive d kind f) = .next (f (s.rxBytes d.length)) := by
  simp only [Normal.datagram, Bool.and_eq_true, Bool.not_eq_true', beq_iff_eq] at h
  obtain ⟨⟨⟨⟨hp, hup⟩, hkept⟩, hkind⟩, hopen⟩ := h
  simp [State.live_powered _ hp, State.receive, hup, hkept, hkind, hopen]

/-- R29: DATA in its turn is accepted and its messages are delivered; nothing is buffered behind it. -/
theorem exec_data_inOrder (s : State) (d : Datagram) (ms : List Command) (h : Normal.dataInOrder s d = true) :
    let s1 := (s.rxBytes d.length).heard d
    let x := s1.session d.session
    exec (.data d ms) s = .next (((s1.setSession d.session { x with
      ack := d.tseq, rxBusy := x.rxBusy + 1 }).deliverAll d.session ms).sendAck d.session) := by
  intro s1 x
  simp only [Normal.dataInOrder, Bool.and_eq_true, beq_iff_eq, List.isEmpty_iff] at h
  obtain ⟨hd, hnext, hbuffered⟩ := h
  have hexec : exec (.data d ms) s = _ := State.live_receive hd
  simp only [hexec, hnext, hbuffered, if_true, List.length_nil, State.acceptBuffered, s1, x]

/-- R29: DATA ahead of its turn is buffered. -/
theorem exec_data_ahead (s : State) (d : Datagram) (ms : List Command) (h : Normal.dataAhead s d = true) :
    let s1 := (s.rxBytes d.length).heard d
    let x := s1.session d.session
    exec (.data d ms) s = .next ((s1.setSession d.session { x with
      buffered := x.buffered ++ [⟨d.tseq, ms⟩] }).sendAck d.session) := by
  intro s1 x
  simp only [Normal.dataAhead, Bool.and_eq_true, decide_eq_true_eq, Bool.not_eq_true'] at h
  obtain ⟨hd, ⟨hmin, hmax⟩, hfresh⟩ := h
  have hexec : exec (.data d ms) s = _ := State.live_receive hd
  have hturn : steps x.ack d.tseq ≠ 1 := Nat.ne_of_gt hmin
  simp only [hexec, hmin, hmax, hfresh, hturn, if_false, if_true, decide_true, Bool.not_false, Bool.and_true, s1, x]

/-- R46, R462: an OPEN whose credential verifies gets a session while one is free, and its nonce is kept. -/
theorem exec_openSession (s : State) (d : Datagram) (cred : Credential) (h : Normal.openSession s d cred = true) :
    let s1 := s.rxBytes d.length
    exec (.openSession d cred) s = .next (State.openOn { s1 with
      security := { s1.security with nonces := (leAt cred.bytes 8 8 :: s1.security.nonces).take 1024 } } d) := by
  intro s1
  simp only [Normal.openSession, Bool.and_eq_true, Bool.not_eq_true', beq_iff_eq, Option.isNone_iff_eq_none] at h
  obtain ⟨⟨⟨⟨⟨hp, hup⟩, hkept⟩, hkind⟩, hcred⟩, hfree⟩ := h
  simp only [exec, execOpenSession, State.live_powered _ hp, hup, hkept, hkind, hcred, Bool.not_true, Bool.false_eq_true,
    if_false, ne_eq, not_true_eq_false]
  exact congrArg _ (if_neg (Bool.eq_false_iff.1 hfree))

/-- Settles O22: one lemma for each kind of datagram; those that only are heard, or end the session, by the receive rule. -/
theorem datagramsComplete : Obligations.DatagramsComplete :=
  ⟨exec_data_inOrder, exec_data_ahead, fun _ _ h => State.live_receive h, fun _ _ _ h => State.live_receive h,
    fun _ _ h => State.live_receive h, fun _ _ h => State.live_receive h, exec_openSession⟩

/-- R30: a timed retransmission carries the original TSEQ and message, and is counted. -/
theorem exec_timedRetransmission (s : State) (n q : Nat) (u : SentDatagram) (h : Normal.timedRetransmission s n q u = true) :
    exec (.timedRetransmission n q) s = .next ((s.setSession n { s.session n with
      unacked := (s.session n).unacked.map fun v => if v.tseq = q then { v with timed := v.timed + 1 } else v
      }).sendDatagram n 0x01 q [] (some u.msg)) := by
  simp only [Normal.timedRetransmission, Bool.and_eq_true, decide_eq_true_eq] at h
  obtain ⟨⟨⟨⟨hp, hopen⟩, hfind⟩, htimed⟩, hdue⟩ := h
  simp only [exec, execTimedRetransmission, State.live_powered _ hp, hfind]
  rw [State.onlyIf_of (by simp [hopen, htimed, hdue])]

/-- R30: 12.8 ms after the eighth timed retransmission the session is lost. -/
theorem exec_retransmitExhausted (s : State) (n q : Nat) (h : Normal.retransmitExhausted s n q = true) :
    exec (.retransmitExhausted n q) s = .next (s.endSession n true) := by
  simp only [Normal.retransmitExhausted, Bool.and_eq_true] at h
  obtain ⟨⟨hp, hopen⟩, hlast⟩ := h
  change execRetransmitExhausted n q s = _
  refine State.live_onlyIf hp ?_
  simp only [hopen, hlast, Bool.and_self]

/-- R31: a session that has been silent for 1 s is lost. -/
theorem exec_sessionSilenceTimeout (s : State) (n : Nat) (h : Normal.silence s n = true) :
    exec (.sessionSilenceTimeout n) s = .next (s.endSession n true) := by
  simp only [Normal.silence, Bool.and_eq_true] at h
  obtain ⟨⟨hp, hopen⟩, hsilent⟩ := h
  change execSessionSilenceTimeout n s = _
  refine State.live_onlyIf hp ?_
  simp only [hopen, hsilent, Bool.and_self]

/-- R46: receive buffers become free; an ACK reopens a window that was shut. -/
theorem exec_windowReopen (s : State) (n b : Nat) (h : Normal.windowReopen s n b = true) :
    ∃ t, exec (.windowReopen n b) s = .next t ∧ t.session n = { s.session n with rxBusy := (s.session n).rxBusy - b } ∧
      t.outputs.length = s.outputs.length + (if (s.session n).window = 0 then 1 else 0) := by
  simp only [Normal.windowReopen, Bool.and_eq_true] at h
  obtain ⟨⟨⟨hp, hopen⟩, hb⟩, hbusy⟩ := h
  simp only [exec, execWindowReopen, State.live_powered _ hp, hopen, hb, hbusy, Bool.and_self, State.onlyIf_true]
  refine ⟨_, rfl, ?_⟩
  by_cases hshut : (s.session n).window = 0
  · simp [hshut]
  · simp [hshut]

/-- Settles O23: one lemma for each timer. -/
theorem transportTimersComplete : Obligations.TransportTimersComplete :=
  ⟨exec_timedRetransmission, exec_retransmitExhausted, exec_sessionSilenceTimeout, exec_windowReopen⟩

end Sys2Proof.Machine
end

section
/-! SUPPORT. The queue commands, dispatch and `nop`, one lemma for each (R32-R35, R40, R50, R52, R513). -/

namespace Sys2Proof.Machine

/-- The queues that the queue commands may name (R513). -/
theorem State.queueNamed_iff (s : State) (k : Nat) :
    s.queueNamed k = true ↔ 1 ≤ k ∧ k ≤ 4095 ∧ (s.queue k).phase ≠ .unbound := by
  simp [State.queueNamed, and_assoc]

/-- A command whose first check fails is refused at that check's offset (R38). -/
theorem State.checked_badIf_true (s : State) (c : Command) (off : Nat) (l : List Check) (f : State → State) :
    s.checked c (badIf true off :: l) f = s.finish c stBadParam (0x20 + off) [] := rfl

/-! ## Bind and unbind (R32-R34) -/

/-- The checks of `queue_bind` (Table 2.3, R32, R33). -/
def State.queueBindChecks (s : State) (c : Command) : List Check :=
  let id := c.u16 0
  let depth := if c.u16 8 = 0 then 64 else c.u16 8
  let session := if c.u16 0xA = 0 then c.hdr.session else c.u16 0xA
  let retain := c.ex (c.u16 0x12) 64
  [badIf (id = 0 || id > 4095 || (s.queue id).phase != .unbound) 0,
   badIf (c.u8 2 > 1) 2,
   badIf (!s.allotmentOk (c.u8 3) || !s.allotmentIsJobs (c.u32 4) (c.u8 3)) 3,
   badIf (!s.jobLive (c.u32 4)) 4,
   badIf (depth < 4 || depth > 1024) 8,
   badIf (session > 16 || !(s.session session).isOpen) 0xA,
   badIf (c.ex (c.u8 0x10) 0 > 1) 0x10,
   badIf (retain < 16 || retain > 256) 0x12,
   failIf (depth > s.poolFree) stNoResource 2,
   failIf (c.u8 2 = 1 && s.headgateQueues ≥ 256) stNoResource 3]

theorem queueBind_passes {s : State} {c : Command} (h : Normal.queueBind s c = true) :
    Normal.passes s (s.queueBindChecks c) = true := by
  simp only [Normal.queueBind, Bool.and_eq_true, decide_eq_true_eq] at h
  obtain ⟨⟨⟨⟨⟨⟨⟨⟨⟨⟨⟨⟨⟨⟨⟨⟨hp, hmin⟩, hmax⟩, hfree⟩, hmode⟩, hallot⟩, hjobs⟩, hlive⟩, hdmin⟩, hdmax⟩, hsess⟩, hopen⟩,
    hexpert⟩, hrmin⟩, hrmax⟩, hpool⟩, hgate⟩ := h
  rw [passes_iff]
  refine ⟨hp, ?_⟩
  simp [State.queueBindChecks, *]
  omega

/-- R32, R33: the queue is bound as the command says, and the pool's rest is answered. -/
theorem exec_queueBind (s : State) (c : Command) (h : Normal.queueBind s c = true) :
    ∃ u : State, exec (.queueBind c) s = .next (u.finish c stOk 0
        (le 2 (c.u16 0) ++ le 2 (if c.u16 8 = 0 then 64 else c.u16 8) ++ le 4 u.poolFree)) ∧
      (u.queue (c.u16 0)).phase = .bound ∧ (u.queue (c.u16 0)).headgate = (c.u8 2 == 1) ∧
      (u.queue (c.u16 0)).jobTag = c.u32 4 ∧ (u.queue (c.u16 0)).allotment = c.u8 3 ∧
      (u.queue (c.u16 0)).depth = (if c.u16 8 = 0 then 64 else c.u16 8) ∧ (u.queue (c.u16 0)).expSeq = 0 ∧
      (u.queue (c.u16 0)).session = (if c.u16 0xA = 0 then c.hdr.session else c.u16 0xA) := by
  have hexec : execQueueBind c s = _ := State.live_checked (l := fun s => s.queueBindChecks c) (queueBind_passes h)
  refine ⟨_, hexec, ?_⟩
  simp

/-- R34: a queue that holds nothing is unbound at once; another drains. -/
theorem exec_queueUnbind (s : State) (c : Command) (h : Normal.queueUnbind s c = true) :
    let s1 := if c.u8 2 = 1 then s.flushQueue (c.u16 0) else s
    let q := s1.queue (c.u16 0)
    exec (.queueUnbind c) s = .next
      (if q.admitted.isEmpty && q.running.isEmpty && q.retained.isEmpty then (s1.setQueue (c.u16 0) {}).finish c stOk 0 []
       else (s1.setQueue (c.u16 0) { q with phase := .draining, unbindCmd := some c }).defer c 0 []) := by
  intro s1 q
  simp only [Normal.queueUnbind, Bool.and_eq_true, decide_eq_true_eq] at h
  obtain ⟨⟨⟨hp, hnamed⟩, hphase⟩, hmode⟩ := h
  simp only [exec, execQueueUnbind, State.live_powered _ hp]
  rw [State.checked_pass]
  simp [hnamed, hphase, hmode]

/-- R34: a queue whose drain has ended is unbound, and its `queue_unbind` is done. -/
theorem exec_queueDrained (s : State) (q : Nat) (h : Normal.queueDrained s q = true) :
    exec (.queueDrained q) s = .next (match (s.queue q).unbindCmd with
      | none => s.setQueue q {}
      | some u => ((s.setQueue q {}).recordCmd u.hdr 0x0002 stOk (le 2 q ++ le 6 0)).deferredDone u.hdr stOk 0) := by
  simp only [Normal.queueDrained, Bool.and_eq_true, decide_eq_true_eq] at h
  obtain ⟨⟨⟨⟨hp, hphase⟩, hadmitted⟩, hrunning⟩, hretained⟩ := h
  change execQueueDrained q s = _
  refine State.live_onlyIf hp ?_
  simp only [hphase, hadmitted, hrunning, hretained, beq_self_eq_true, Bool.and_self]

/-! ## Attach, status and flush (R35, R50, R513) -/

/-- R50: the queue's replies go out again on its new session, and nothing else of the queue changes. -/
theorem exec_queueAttach (s : State) (c : Command) (h : Normal.queueAttach s c = true) :
    ∃ u : State, exec (.queueAttach c) s = .next (u.finish c stOk 0 (le 4 (s.queue (c.u16 0)).retained.length ++ le 4 0)) ∧
      u.queue (c.u16 0) = { s.queue (c.u16 0) with session := if c.u16 2 = 0 then c.hdr.session else c.u16 2 } := by
  simp only [Normal.queueAttach, Bool.and_eq_true, decide_eq_true_eq] at h
  obtain ⟨⟨⟨hp, hnamed⟩, hsess⟩, hopen⟩ := h
  simp only [exec, execQueueAttach, State.live_powered _ hp]
  rw [State.checked_pass]
  · refine ⟨_, rfl, ?_⟩
    rw [foldl_field (fun t : State => t.queue (c.u16 0)) _ fun t r => State.queue_sendOn ..]
    exact State.queue_setQueue_self ..
  · simp [hnamed, hsess, hopen]

/-- R513: the state of Q0 or of a named queue is answered. -/
theorem exec_queueStatus (s : State) (c : Command) (h : Normal.queueStatus s c = true) :
    exec (.queueStatus c) s = .next (s.finish c stOk 0 (if c.u16 0 = 0 then (s.queue (q0Key c.hdr.session)).status true
      else (s.queue (c.u16 0)).status false)) := by
  simp only [Normal.queueStatus, Bool.and_eq_true, Bool.or_eq_true, beq_iff_eq] at h
  obtain ⟨hp, hid⟩ := h
  simp only [exec, execQueueStatus, State.live_powered _ hp]
  rw [State.checked_pass]
  · split_ifs <;> rfl
  · simpa [or_iff_not_imp_left] using hid

/-- R35: the admitted commands of the queue are flushed and counted. -/
theorem exec_queueFlush (s : State) (c : Command) (h : Normal.queueFlush s c = true) :
    exec (.queueFlush c) s = .next ((s.flushQueue (c.u16 0)).finish c stOk 0
      (le 4 (s.queue (c.u16 0)).admitted.length ++ le 4 0)) := by
  simp only [Normal.queueFlush, Bool.and_eq_true] at h
  obtain ⟨hp, hnamed⟩ := h
  simp only [exec, execQueueFlush, State.live_powered _ hp]
  rw [State.checked_pass]
  simp [hnamed]

/-- Settles O20: the four commands check QUEUE_ID first; `queue_status` and `queue_flush` of a named queue have their lemmas above. -/
theorem queueNames : Obligations.QueueNames := by
  refine ⟨fun s c hp hn => ⟨?_, ?_, ?_, fun h0 => ?_⟩, State.queueNamed_iff, fun s c hp hn => ⟨?_, ?_⟩⟩
  · simp [exec, execQueueUnbind, State.live_powered _ hp, State.checked_badIf_true, hn]
  · simp [exec, execQueueAttach, State.live_powered _ hp, State.checked_badIf_true, hn]
  · simp [exec, execQueueFlush, State.live_powered _ hp, State.checked_badIf_true, hn]
  · simp [exec, execQueueStatus, State.live_powered _ hp, State.checked_badIf_true, hn, bne_iff_ne.2 h0]
  · have hid : c.u16 0 ≠ 0 := Nat.ne_of_gt ((s.queueNamed_iff _).1 hn).1
    rw [exec_queueStatus s c (by simp [Normal.queueStatus, hp, hn]), if_neg hid]
  · exact exec_queueFlush s c (by simp [Normal.queueFlush, hp, hn])

/-! ## Dispatch and `nop` (R40, R52) -/

/-- R52: `nop` is answered. -/
theorem exec_nop (s : State) (c : Command) (hp : s.powered = true) : exec (.nop c) s = .next (s.finish c stOk 0 []) :=
  by simp only [exec, execNop, State.live_powered _ hp]

/-- The state in which the first admitted command of a queue has been dispatched, and its wait noted (R40). -/
def State.dispatched (s : State) (q : Nat) (c : Command) : State :=
  let x := s.queue q
  let s := s.setQueue q { x with
    admitted := x.admitted.tail, running := x.running ++ [c], lastDispatch := s.now, freeSince := none }
  let waited := min (x.freeSince.elim 0 fun t => s.now - t) (2 ^ 32 - 1)
  if s.fld uQmgr 0x028 63 32 < waited then s.setFld uQmgr 0x028 63 32 waited else s

@[simp] theorem State.dispatched_xanca (s : State) (q : Nat) (c : Command) : (s.dispatched q c).xanca = s.xanca := by
  unfold State.dispatched; extract_lets; split <;> rfl
@[simp] theorem State.dispatched_fabric (s : State) (q : Nat) (c : Command) : (s.dispatched q c).fabric = s.fabric := by
  unfold State.dispatched; extract_lets; split <;> rfl
@[simp] theorem State.dispatched_sched (s : State) (q : Nat) (c : Command) : (s.dispatched q c).sched = s.sched := by
  unfold State.dispatched; extract_lets; split <;> rfl
@[simp] theorem State.dispatched_reels (s : State) (q : Nat) (c : Command) : (s.dispatched q c).reels = s.reels := by
  unfold State.dispatched; extract_lets; split <;> rfl

theorem State.queue_dispatched (s : State) (q : Nat) (c : Command) :
    (s.dispatched q c).queue q = { s.queue q with
      admitted := (s.queue q).admitted.tail, running := (s.queue q).running ++ [c], lastDispatch := s.now
      freeSince := none } := by
  unfold State.dispatched
  extract_lets
  split <;> exact s.queue_setQueue_self q _

/-- The gating bits of a command are told by the table and the fabric (R67). -/
theorem State.gateMissing_congr {s t : State} (hx : t.xanca = s.xanca) (hf : t.fabric = s.fabric) (o : OpInfo) (c : Command) :
    t.gateMissing o c = s.gateMissing o c := by
  simp only [State.gateMissing, State.gatesOf, State.gatingPorts, State.expectPeer, hx, hf]

/-- Whether a command's job is ABORTED is told by the scheduler and the reels (R210). -/
theorem State.abortedRefuses_congr {s t : State} (hs : t.sched = s.sched) (hr : t.reels = s.reels) (c : Command) :
    t.abortedRefuses c = s.abortedRefuses c := by
  simp only [State.abortedRefuses, State.slotOf, State.job, hs, hr]

/-- R40, R68: the first admitted command runs, and its queue notes when; its gates and its job are as before. -/
theorem exec_commandDispatch (s : State) (q : Nat) (c : Command) (h : Normal.dispatch s q c = true) :
    ∃ t, exec (.commandDispatch q) s = .next t ∧ (t.queue q).admitted = (s.queue q).admitted.tail ∧
      (t.queue q).running = (s.queue q).running ++ [c] ∧ (t.queue q).lastDispatch = s.now := by
  simp only [Normal.dispatch, Bool.and_eq_true, decide_eq_true_eq, Bool.not_eq_true', Option.isNone_iff_eq_none] at h
  obtain ⟨⟨⟨⟨hp, hhead⟩, hready⟩, habort⟩, hgate⟩ := h
  obtain ⟨rest, hadmitted⟩ := List.head?_eq_some_iff.1 hhead
  have habort' : (s.dispatched q c).abortedRefuses c = false := by
    rw [State.abortedRefuses_congr (s.dispatched_sched q c) (s.dispatched_reels q c), habort]
  have hgate' : ((opInfo c.hdr.opcode).bind fun o => (s.dispatched q c).gateMissing o c) = none := by
    simpa only [State.gateMissing_congr (s.dispatched_xanca q c) (s.dispatched_fabric q c)] using hgate
  refine ⟨s.dispatched q c, ?_, by simp [State.queue_dispatched]⟩
  simp only [State.dispatched, hadmitted, List.tail_cons] at habort' hgate' ⊢
  simp only [exec, execCommandDispatch, State.live_powered _ hp, hadmitted, hready, habort', hgate', Bool.not_true,
    Bool.false_eq_true, if_false]

/-- Settles O24: one lemma for each command and event. -/
theorem queueCommandsComplete : Obligations.QueueCommandsComplete :=
  ⟨exec_queueBind, exec_queueUnbind, exec_queueDrained, exec_queueAttach, exec_queueStatus, exec_queueFlush, exec_nop,
    exec_commandDispatch⟩

end Sys2Proof.Machine
end

section
/-! SUPPORT and O7. What a step keeps, put together from what each command keeps (Laws/Leads*.lean). -/

namespace Sys2Proof.Machine

/-- The commands that may change what `State.Leads` keeps of the security block: the start of firmware (R464), the host key (R474)
and the end of a rollover (R470). -/
def securityChanger : Instr → Bool
  | .firmwareLoadCommit _ | .configWriteHostKey _ | .keyRolled _ => true
  | _ => false

/-- Every other command answers a next state that the state before leads to. -/
theorem exec_leads (i : Instr) (s : State) (h : securityChanger i = false) : ∃ t, exec i s = .next t ∧ s.Leads t := by
  cases i with
  | data d ms => exact execData_leads d ms s
  | ack d => exact execAck_leads d s
  | nack d bitmap => exact execNack_leads d bitmap s
  | openSession d cred => exact execOpenSession_leads d cred s
  | close d => exact execClose_leads d s
  | keepalive d => exact execKeepalive_leads d s
  | timedRetransmission session tseq => exact execTimedRetransmission_leads session tseq s
  | retransmitExhausted session tseq => exact execRetransmitExhausted_leads session tseq s
  | sessionSilenceTimeout session => exact execSessionSilenceTimeout_leads session s
  | windowReopen session buffers => exact execWindowReopen_leads session buffers s
  | queueBind c => exact execQueueBind_leads c s
  | queueUnbind c => exact execQueueUnbind_leads c s
  | queueAttach c => exact execQueueAttach_leads c s
  | queueStatus c => exact execQueueStatus_leads c s
  | queueFlush c => exact execQueueFlush_leads c s
  | nop c => exact execNop_leads c s
  | commandDispatch q => exact execCommandDispatch_leads q s
  | queueDrained q => exact execQueueDrained_leads q s
  | xancaRead c => exact execXancaRead_leads c s
  | callsheetRead c => exact execCallsheetRead_leads c s
  | callsheetWaitTimeout idx => exact execCallsheetWaitTimeout_leads idx s
  | callsheetDeadline b => exact execCallsheetDeadline_leads b s
  | registerWrite unit offset value => exact execRegisterWrite_leads unit offset value s
  | badRegisterAccess addr size write => exact execBadRegisterAccess_leads addr size write s
  | lcf port l => exact execLcf_leads port l s
  | lcfTransmit port => exact execLcfTransmit_leads port s
  | ptpMessage m => exact execPtpMessage_leads m s
  | servoAdjust => exact execServoAdjust_leads s
  | parentSearchTimeout => exact execParentSearchTimeout_leads s
  | ptpLost => exact execPtpLost_leads s
  | holdoverLimitExceeded => exact execHoldoverLimitExceeded_leads s
  | unlockedNsLimit => exact execUnlockedNsLimit_leads s
  | taskPlace c => exact execTaskPlace_leads c s
  | coreWake p => exact execCoreWake_leads p s
  | coreGate p => exact execCoreGate_leads p s
  | opeAcc p => exact execOpeAcc_leads p s
  | opeZero p => exact execOpeZero_leads p s
  | opeLoad p => exact execOpeLoad_leads p s
  | opeDrain p => exact execOpeDrain_leads p s
  | opeConv p => exact execOpeConv_leads p s
  | vecFma p => exact execVecFma_leads p s
  | vecAdd p => exact execVecAdd_leads p s
  | vecMul p => exact execVecMul_leads p s
  | vecMin p => exact execVecMin_leads p s
  | vecMax p => exact execVecMax_leads p s
  | vecCmp p => exact execVecCmp_leads p s
  | vecSel p => exact execVecSel_leads p s
  | vecCvt p => exact execVecCvt_leads p s
  | vecExp2 p => exact execVecExp2_leads p s
  | vecLog2 p => exact execVecLog2_leads p s
  | vecRcp p => exact execVecRcp_leads p s
  | vecRsqrt p => exact execVecRsqrt_leads p s
  | vecLoad p => exact execVecLoad_leads p s
  | vecStore p => exact execVecStore_leads p s
  | vecLaneSum p => exact execVecLaneSum_leads p s
  | vecRng p => exact execVecRng_leads p s
  | lnFwd p => exact execLnFwd_leads p s
  | rmsFwd p => exact execRmsFwd_leads p s
  | smaxFwd p => exact execSmaxFwd_leads p s
  | smaxPart p => exact execSmaxPart_leads p s
  | smaxFin p => exact execSmaxFin_leads p s
  | lnBwd p => exact execLnBwd_leads p s
  | rmsBwd p => exact execRmsBwd_leads p s
  | smaxBwd p => exact execSmaxBwd_leads p s
  | frameRelease p => exact execFrameRelease_leads p s
  | getLines p => exact execGetLines_leads p s
  | putLines p => exact execPutLines_leads p s
  | emptyLines p => exact execEmptyLines_leads p s
  | pushFrame p => exact execPushFrame_leads p s
  | popFrame p => exact execPopFrame_leads p s
  | holdFrame p => exact execHoldFrame_leads p s
  | releaseFrame p => exact execReleaseFrame_leads p s
  | setupGenerator p => exact execSetupGenerator_leads p s
  | loopBundle p => exact execLoopBundle_leads p s
  | waitTag p => exact execWaitTag_leads p s
  | waitTagRelease p => exact execWaitTagRelease_leads p s
  | emptySlotStallRelease p => exact execEmptySlotStallRelease_leads p s
  | clapBundle p => exact execClapBundle_leads p s
  | endTask p => exact execEndTask_leads p s
  | taskWatchdog p => exact execTaskWatchdog_leads p s
  | kernelLoad c => exact execKernelLoad_leads c s
  | kernelRun c => exact execKernelRun_leads c s
  | kernelUnload c => exact execKernelUnload_leads c s
  | opeRepair c => exact execOpeRepair_leads c s
  | repairHoldEnd p checkOk => exact execRepairHoldEnd_leads p checkOk s
  | remoteWritePacket idx => exact execRemoteWritePacket_leads idx s
  | writeRefused idx => exact execWriteRefused_leads idx s
  | turnoutLate p t => exact execTurnoutLate_leads p t s
  | remoteRead c first lines => exact execRemoteRead_leads c first lines s
  | turnoutOpen c => exact execTurnoutOpen_leads c s
  | turnoutClose c => exact execTurnoutClose_leads c s
  | turnoutDrainLimit p t => exact execTurnoutDrainLimit_leads p t s
  | spadScrub p line errors passEnd => exact execSpadScrub_leads p line errors passEnd s
  | contScrub p line errors passEnd => exact execContScrub_leads p line errors passEnd s
  | resvScrub line errors passEnd => exact execResvScrub_leads line errors passEnd s
  | memoryScrub u addr errors sub passEnd => exact execMemoryScrub_leads u addr errors sub passEnd s
  | contRun c => exact execContRun_leads c s
  | contRunFrames c => exact execContRunFrames_leads c s
  | streamOpenPool c => exact execStreamOpenPool_leads c s
  | streamOpen c => exact execStreamOpen_leads c s
  | streamRun c => exact execStreamRun_leads c s
  | streamCancel c => exact execStreamCancel_leads c s
  | streamClose c => exact execStreamClose_leads c s
  | clapSet c => exact execClapSet_leads c s
  | streamFetch id iter stage => exact execStreamFetch_leads id iter stage s
  | streamTaskPlace id iter => exact execStreamTaskPlace_leads id iter s
  | streamStore id iter stage => exact execStreamStore_leads id iter stage s
  | warmFetch id iter stage => exact execWarmFetch_leads id iter stage s
  | creditWatchdog id lane stage => exact execCreditWatchdog_leads id lane stage s
  | clapLimit slot n => exact execClapLimit_leads slot n s
  | reelConfig c => exact execReelConfig_leads c s
  | reelBegin c => exact execReelBegin_leads c s
  | reelUpdate c => exact execReelUpdate_leads c s
  | reelShard c => exact execReelShard_leads c s
  | reelClear c => exact execReelClear_leads c s
  | updateGateOpen slot => exact execUpdateGateOpen_leads slot s
  | slateMirror slot => exact execSlateMirror_leads slot s
  | updateGateTimeout slot => exact execUpdateGateTimeout_leads slot s
  | mapCreate c => exact execMapCreate_leads c s
  | mapEdit c => exact execMapEdit_leads c s
  | shootdownComplete idx => exact execShootdownComplete_leads idx s
  | mapDestroy c => exact execMapDestroy_leads c s
  | memCopy c => exact execMemCopy_leads c s
  | memFill c => exact execMemFill_leads c s
  | farMigrateOut c => exact execFarMigrateOut_leads c s
  | farMigrateBack c => exact execFarMigrateBack_leads c s
  | farMigrateRelease c => exact execFarMigrateRelease_leads c s
  | chunkFlip channel => exact execChunkFlip_leads channel s
  | farOffline c => exact execFarOffline_leads c s
  | farOnline c => exact execFarOnline_leads c s
  | farOnlineComplete channel outcome serial capacity rate trainMs =>
    exact execFarOnlineComplete_leads channel outcome serial capacity rate trainMs s
  | slotPowerFall channel => exact execSlotPowerFall_leads channel s
  | seqCreatePool c => exact execSeqCreatePool_leads c s
  | seqCreateSequence c => exact execSeqCreateSequence_leads c s
  | seqDestroy c => exact execSeqDestroy_leads c s
  | kvPageMap c => exact execKvPageMap_leads c s
  | kvPageShare c => exact execKvPageShare_leads c s
  | kvPageFree c => exact execKvPageFree_leads c s
  | attnRun c => exact execAttnRun_leads c s
  | attnTileSend p => exact execAttnTileSend_leads p s
  | deferredEditApply id => exact execDeferredEditApply_leads id s
  | flumeChainStart c => exact execFlumeChainStart_leads c s
  | flumeTimerSet c => exact execFlumeTimerSet_leads c s
  | flumeChainStop c => exact execFlumeChainStop_leads c s
  | flumeStatus c => exact execFlumeStatus_leads c s
  | descriptorRead engine channel => exact execDescriptorRead_leads engine channel s
  | ownPoll engine channel => exact execOwnPoll_leads engine channel s
  | copyDescriptor engine channel => exact execCopyDescriptor_leads engine channel s
  | fillDescriptor engine channel => exact execFillDescriptor_leads engine channel s
  | skewDescriptor engine channel => exact execSkewDescriptor_leads engine channel s
  | transposeDescriptor engine channel => exact execTransposeDescriptor_leads engine channel s
  | eventDescriptor engine channel => exact execEventDescriptor_leads engine channel s
  | linkDescriptor engine channel => exact execLinkDescriptor_leads engine channel s
  | stopChain engine channel => exact execStopChain_leads engine channel s
  | eventWaitRelease engine channel => exact execEventWaitRelease_leads engine channel s
  | timerTick t => exact execTimerTick_leads t s
  | descriptorWriteBack engine channel => exact execDescriptorWriteBack_leads engine channel s
  | collPacket f => exact execCollPacket_leads f s
  | gatherPiece f => exact execGatherPiece_leads f s
  | clapPacket f => exact execClapPacket_leads f s
  | bulkPacket f b => exact execBulkPacket_leads f b s
  | lightDetected port => exact execLightDetected_leads port s
  | trainingComplete port peer peerPort width => exact execTrainingComplete_leads port peer peerPort width s
  | trainingTimeout port => exact execTrainingTimeout_leads port s
  | lossOfLight port => exact execLossOfLight_leads port s
  | connectorRemoval engine => exact execConnectorRemoval_leads engine s
  | fabricIdSet c => exact execFabricIdSet_leads c s
  | portMapSet c => exact execPortMapSet_leads c s
  | recutDrain c => exact execRecutDrain_leads c s
  | recutAbandon c => exact execRecutAbandon_leads c s
  | recutDrained slot => exact execRecutDrained_leads slot s
  | portDark port => exact execPortDark_leads port s
  | portRelock port peer peerPort width => exact execPortRelock_leads port peer peerPort width s
  | recutLimit slot => exact execRecutLimit_leads slot s
  | collectiveRun c => exact execCollectiveRun_leads c s
  | gatherRun c => exact execGatherRun_leads c s
  | collectiveLimit slot gather id => exact execCollectiveLimit_leads slot gather id s
  | linkStatus c => exact execLinkStatus_leads c s
  | jobCreate c => exact execJobCreate_leads c s
  | jobDestroy c => exact execJobDestroy_leads c s
  | jobTeardown slot => exact execJobTeardown_leads slot s
  | modeSet c => exact execModeSet_leads c s
  | allotmentSet c => exact execAllotmentSet_leads c s
  | rotationTurnEnd a => exact execRotationTurnEnd_leads a s
  | taskMigrate c => exact execTaskMigrate_leads c s
  | migrationDrained slot => exact execMigrationDrained_leads slot s
  | freezeSet c => exact execFreezeSet_leads c s
  | freezeTake c => exact execFreezeTake_leads c s
  | freezeStop slot => exact execFreezeStop_leads slot s
  | freezeResume slot => exact execFreezeResume_leads slot s
  | partnerSet c => exact execPartnerSet_leads c s
  | partnerHandshake f feed => exact execPartnerHandshake_leads f feed s
  | partnerLimit slot => exact execPartnerLimit_leads slot s
  | feedTagSet c => exact execFeedTagSet_leads c s
  | slateRead c => exact execSlateRead_leads c s
  | negativeLoad c => exact execNegativeLoad_leads c s
  | spreadApply c => exact execSpreadApply_leads c s
  | retakeRun c => exact execRetakeRun_leads c s
  | screenTestComplete unit sub type failed subs spare => exact execScreenTestComplete_leads unit sub type failed subs spare s
  | sweep c => exact execSweep_leads c s
  | screenTestRun c => exact execScreenTestRun_leads c s
  | errorLogRead c => exact execErrorLogRead_leads c s
  | errorInject c => exact execErrorInject_leads c s
  | heartbeat n => exact execHeartbeat_leads n s
  | controlHeartbeatTimeout n => exact execControlHeartbeatTimeout_leads n s
  | hostPortEnergyWake f => exact execHostPortEnergyWake_leads f s
  | dozeEntry => exact execDozeEntry_leads s
  | powerStateSet c => exact execPowerStateSet_leads c s
  | powerLimitSet c => exact execPowerLimitSet_leads c s
  | telemetryRead c => exact execTelemetryRead_leads c s
  | gafferTick => exact execGafferTick_leads s
  | setpointReached => exact execSetpointReached_leads s
  | powerEstimate watts dynamic => exact execPowerEstimate_leads watts dynamic s
  | excursionBackstop => exact execExcursionBackstop_leads s
  | clampReleaseStep => exact execClampReleaseStep_leads s
  | throtInAssert => exact execThrotInAssert_leads s
  | throtInDeassert => exact execThrotInDeassert_leads s
  | railSample mv ma => exact execRailSample_leads mv ma s
  | tempSample cmp iod hbm opt => exact execTempSample_leads cmp iod hbm opt s
  | i3cIndexWrite data => exact execI3cIndexWrite_leads data s
  | i3cRead => exact execI3cRead_leads s
  | setpAlert low => exact execSetpAlert_leads low s
  | pwrGood f => exact execPwrGood_leads f s
  | pwrGoodDeassert => exact execPwrGoodDeassert_leads s
  | railFault => exact execRailFault_leads s
  | thermalTrip => exact execThermalTrip_leads s
  | firmwareLoadBegin c => exact execFirmwareLoadBegin_leads c s
  | firmwareLoadData c => exact execFirmwareLoadData_leads c s
  | firmwareLoadCommit => cases h
  | firmwareLoadAbort c => exact execFirmwareLoadAbort_leads c s
  | configWriteSet c => exact execConfigWriteSet_leads c s
  | configWriteClear c => exact execConfigWriteClear_leads c s
  | configWriteHostKey => cases h
  | configWriteMinSvn c => exact execConfigWriteMinSvn_leads c s
  | attestReport c => exact execAttestReport_leads c s
  | attestChain c => exact execAttestChain_leads c s
  | attestRoll c => exact execAttestRoll_leads c s
  | keyRolled => cases h
  | neighbourDiscovery target src => exact execNeighbourDiscovery_leads target src s
  | icmpv6Echo dst src data => exact execIcmpv6Echo_leads dst src data s
  | hostLinkLoss => exact execHostLinkLoss_leads s
  | cmReq r => exact execCmReq_leads r s
  | cmDreq qpn => exact execCmDreq_leads qpn s
  | rdmaSend qpn ecn data => exact execRdmaSend_leads qpn ecn data s
  | rdmaWrite qpn ecn va rkey data => exact execRdmaWrite_leads qpn ecn va rkey data s
  | rdmaRead qpn ecn va rkey n => exact execRdmaRead_leads qpn ecn va rkey n s
  | intakeDecode c => exact execIntakeDecode_leads c s
  | intakeDecodeComplete e r => exact execIntakeDecodeComplete_leads e r s
  | intakeStatus c => exact execIntakeStatus_leads c s
  | ppsInEdge => exact execPpsInEdge_leads s
  | tapInstruction idx => exact execTapInstruction_leads idx s
  | functionReady b => exact execFunctionReady_leads b s
  | functionStopsBeingUsable b => exact execFunctionStopsBeingUsable_leads b s
  | trainingRetry port => exact execTrainingRetry_leads port s
  | partnerHandshakeLimit slot => exact execPartnerHandshakeLimit_leads slot s
  | negativeLoadDone slot => exact execNegativeLoadDone_leads slot s
  | mapDestroyDone slot => exact execMapDestroyDone_leads slot s
  | readDrainComplete chain id discarded => exact execReadDrainComplete_leads chain id discarded s
  | pfcFrame prio quanta => exact execPfcFrame_leads prio quanta s
  | dynamicAddressAssignment addr => exact execDynamicAddressAssignment_leads addr s

/-- Every command answers a next state, and keeps what all commands keep. -/
theorem exec_keeps (i : Instr) (s : State) : ∃ t, exec i s = .next t ∧ s.Keeps t := by
  cases h : securityChanger i with
  | false =>
    obtain ⟨t, ht, hL⟩ := exec_leads i s h
    exact ⟨t, ht, hL.toKeeps⟩
  | true =>
    unfold securityChanger at h
    split at h
    · next c =>
      obtain ⟨t, ht, hK, -⟩ := execFirmwareLoadCommit_holds c s
      exact ⟨t, ht, hK⟩
    · next c =>
      obtain ⟨t, ht, hK, -⟩ := execConfigWriteHostKey_holds c s
      exact ⟨t, ht, hK⟩
    · next ok =>
      obtain ⟨t, ht, hK, -⟩ := execKeyRolled_holds ok s
      exact ⟨t, ht, hK⟩
    · cases h

/-- What all commands keep carries a sound state to a sound state. -/
theorem State.Sound.of_keeps {s t : State} (hs : s.Sound) (h : s.Keeps t) : t.Sound :=
  ⟨h.stable hs.stable, h.memory hs.memory, h.spads hs.spads⟩

/-- A command leads from a sound state to a sound state. -/
theorem exec_sound {i : Instr} {s t : State} (hs : s.Sound) (h : exec i s = .next t) : t.Sound := by
  obtain ⟨u, hu, hK⟩ := exec_keeps i s
  obtain rfl : u = t := by simpa [hu] using h
  exact hs.of_keeps hK

/-- Settles O7: a tick keeps what every command keeps; a command runs on the state with the queue's rest, which is as sound. -/
theorem stepKeepsSound : Obligations.StepKeepsSound := by
  intro s t hs h
  unfold step at h
  split at h
  · cases h
    exact hs.of_keeps (State.idle_leads (State.Leads.refl s)).toKeeps
  · next c rest _ =>
    have hrest : State.Sound { s with pending := rest } := ⟨hs.stable, hs.memory, hs.spads⟩
    exact exec_sound hrest h

end Sys2Proof.Machine
end

section
/-! SUPPORT. Reading one bit after bits were written. -/

namespace Sys2Proof.Machine

theorem bitAt_eq_testBit (v n : Nat) : bitAt v n = v.testBit n := by
  simp [bitAt, Nat.testBit_eq_decide_div_mod_eq, Nat.shiftRight_eq_div_pow, beq_eq_decide]

/-- A number with one bit written keeps what lies below the bit and what lies above it. -/
theorem putBit_eq (v n : Nat) (b : Bool) :
    putBit v n b = 2 ^ n * (2 * (v / 2 ^ n / 2) + b.toNat) + v % 2 ^ n := by
  have hv := Nat.div_add_mod v (2 ^ n)
  have hq := congrArg (2 ^ n * ·) (Nat.div_add_mod (v / 2 ^ n) 2)
  have hb : (if b then 1 else 0) % 2 = b.toNat := by cases b <;> rfl
  simp only [Nat.mul_add] at hq
  simp only [putBit, putBits, bits, Nat.add_sub_cancel_left, pow_one, Nat.shiftRight_eq_div_pow, Nat.shiftLeft_eq, hb,
    Nat.mul_add]
  rw [Nat.mul_comm (v / 2 ^ n % 2), Nat.mul_comm b.toNat]
  omega

/-- A written bit reads as it was written; every other bit reads as before. -/
@[simp] theorem bitAt_putBit (v n m : Nat) (b : Bool) : bitAt (putBit v n b) m = if m = n then b else bitAt v m := by
  simp only [bitAt_eq_testBit, putBit_eq]
  rw [Nat.testBit_two_pow_mul_add _ (Nat.mod_lt v (Nat.two_pow_pos n))]
  rcases Nat.lt_trichotomy m n with h | rfl | h
  · simp [h, Nat.ne_of_lt h, Nat.testBit_mod_two_pow]
  · cases b <;> simp [Nat.testBit_zero]
  · obtain ⟨k, rfl⟩ := Nat.exists_eq_add_of_lt h
    have hk : n + k + 1 - n = k + 1 := by omega
    simp only [show ¬ n + k + 1 < n by omega, show n + k + 1 ≠ n by omega, if_false, hk, Nat.testBit_succ]
    rw [show (2 * (v / 2 ^ n / 2) + b.toNat) / 2 = v / 2 ^ n / 2 by have := b.toNat_lt; omega]
    simp [Nat.testBit_div_two_pow, ← Nat.testBit_succ, Nat.add_comm, Nat.add_assoc]

/-- A fold that sets bits leaves set what it was set before, and sets each of its bits. -/
theorem bitAt_foldl_putBit (bs : List Nat) (r b : Nat) :
    bitAt (bs.foldl (fun r b => putBit r b true) r) b = (decide (b ∈ bs) || bitAt r b) := by
  induction bs generalizing r with
  | nil => simp
  | cons a bs ih =>
    rw [List.foldl_cons, ih, bitAt_putBit]
    by_cases hab : b = a <;> simp [hab]

/-- Raising a bit, or leaving it, clears no other. -/
theorem bitAt_raise {r b m : Nat} {touched x : Bool} (h : bitAt r b = true) :
    bitAt (if touched then putBit r m (bitAt r m || x) else r) b = true := by
  split
  · by_cases hbm : b = m
    · simp [← hbm, h]
    · simp [hbm, h]
  · exact h

end Sys2Proof.Machine
end

section
/-! SUPPORT and O19. The masks of the call sheet after its operations (R62-R65). -/

namespace Sys2Proof.Machine

/-- A report of a bit stamps its transition and changes nothing else of the table. -/
@[simp] theorem State.csReport_xanca (s : State) (b : Nat) (f : Bool) :
    (s.csReport b f).xanca = { s.xanca with csTc := s.xanca.csTc.set 0 b s.now } := by
  unfold State.csReport; dsimp only; split <;> simp

/-- Serving the waits takes those that are done and changes nothing else of the table. -/
@[simp] theorem State.csWake_xanca (s : State) :
    s.csWake.xanca = { s.xanca with waits := s.xanca.waits.filter fun w => s.xanca.ready &&& w.mask != w.mask } :=
  foldl_field (·.xanca) _ (fun _ _ => by simp) _ _

/-- R62: the ready mask is as given, with bit 63 decided by the counted bits. -/
@[simp] theorem State.csApply_ready (s : State) (r f : Nat) : (s.csApply r f).xanca.ready = putBit r 63 (s.csAll r) := by
  simp only [State.csApply, State.csWake_xanca]
  exact foldl_field (·.xanca.ready) _ (fun _ _ => by simp) _ _
@[simp] theorem State.csApply_failed (s : State) (r f : Nat) : (s.csApply r f).xanca.failed = f := by
  simp only [State.csApply, State.csWake_xanca]
  exact foldl_field (·.xanca.failed) _ (fun _ _ => by simp) _ _

/-- R63: bits that become ready are ready; bit 63 is decided by R62. -/
theorem State.csSetBits_ready_of_mem (s : State) {bs : List Nat} {b : Nat} (hb : b ∈ bs) (h63 : b ≠ 63) :
    bitAt (s.csSetBits bs).xanca.ready b = true := by
  have hset := bitAt_foldl_putBit bs s.xanca.ready b
  rw [decide_eq_true hb, Bool.true_or] at hset
  rw [State.csSetBits, State.csApply_ready, bitAt_putBit, if_neg h63]
  exact bitAt_raise (bitAt_raise hset)

/-- R64: an aggregate holds where at least one member is ACTIVE and every ACTIVE member is ready. -/
theorem State.csAggregate_iff (s : State) (r b : Nat) :
    s.csAggregate r b = true ↔ (∃ m ∈ aggregateMembers b, s.active m.2 = true) ∧
      ∀ m ∈ aggregateMembers b, s.active m.2 = true → bitAt r m.1 = true := by
  simp [State.csAggregate, imp_iff_not_or]

/-- Settles O19: each aggregate is decided by R64 from the members' bits, which no aggregate's bit is among. -/
theorem aggregateBits : Obligations.AggregateBits := by
  intro s
  have hfar (k : Nat) : 20 + k ≠ 12 := by omega
  constructor
  · simp [State.csRecompute, State.csAggregate_iff, aggregateMembers]
  · simp [State.csRecompute, State.csAggregate_iff, aggregateMembers, hfar]

end Sys2Proof.Machine
end

section
/-! SUPPORT and O25. The table, the call sheet and the registers, one lemma for each command and event (R63, R71, R72, R6, R7). -/

namespace Sys2Proof.Machine

/-- R71: a range that faults nothing is answered with GENERATION and the entries, or with the registers of a unit. -/
theorem exec_xancaRead (s : State) (c : Command) (h : Normal.xancaRead s c = true) :
    exec (.xancaRead c) s = .next (s.finish c stOk 0 (le 8 s.xanca.generation ++
      (if c.ex (c.u8 8) 0 = 0 then s.entries (if c.u16 0 = 0 then s.tableCrc else 0) (c.u16 0) (c.u16 2)
       else (List.range (c.u16 0x10)).flatMap fun i => le 8 (s.regView (c.u16 0xA) (c.u32 0xC + 8 * i))))) :=
  show execXancaRead c s = _ from State.live_checked (l := fun _ => xancaChecks c) h

/-- R72: the short form is answered with the call sheet. -/
theorem exec_callsheetRead_short (s : State) (c : Command) (hp : s.powered = true) (hc : c.expert = false) :
    exec (.callsheetRead c) s = .next (s.finish c stOk 0 s.callSheet) := by
  simp [exec, execCallsheetRead, State.live_powered _ hp, hc]

/-- R72: the expert form on a powered device, its fields in range, is answered at once or waits. -/
theorem exec_callsheetRead_expert {s : State} {c : Command} (h : Normal.callsheetWait s c = true) :
    exec (.callsheetRead c) s = .next (if s.xanca.ready &&& c.u64 0 = c.u64 0 then s.finish c stOk 0 s.callSheet
      else
        let u := s.defer c 0 s.callSheet
        { u with xanca := { u.xanca with waits := u.xanca.waits ++ [⟨c, c.u64 0, u.sinceBoot + c.u32 8 * msec⟩] } }) := by
  simp only [Normal.callsheetWait, Bool.and_eq_true, bne_iff_ne, beq_iff_eq, decide_eq_true_eq] at h
  obtain ⟨⟨⟨⟨⟨hp, hx⟩, hmask⟩, hdefined⟩, hms⟩, hmax⟩ := h
  simp only [exec, execCallsheetRead, State.live_powered _ hp, hx, Bool.not_true, Bool.false_eq_true, if_false]
  rw [State.checked_pass]
  simp [hmask, hdefined, hms, hmax]

/-- R72: with every bit of its mask ready it is answered. -/
theorem exec_callsheetRead_ready (s : State) (c : Command) (h : Normal.callsheetWait s c = true)
    (hr : s.xanca.ready &&& c.u64 0 = c.u64 0) :
    exec (.callsheetRead c) s = .next (s.finish c stOk 0 s.callSheet) := by
  rw [exec_callsheetRead_expert h, if_pos hr]

/-- R72: else it is added to the waits, with the time at which it is over. -/
theorem exec_callsheetRead_wait (s : State) (c : Command) (h : Normal.callsheetWait s c = true)
    (hr : s.xanca.ready &&& c.u64 0 ≠ c.u64 0) :
    ∃ t, exec (.callsheetRead c) s = .next t ∧
      t.xanca.waits = s.xanca.waits ++ [⟨c, c.u64 0, s.sinceBoot + c.u32 8 * msec⟩] := by
  rw [exec_callsheetRead_expert h, if_neg hr]
  exact ⟨_, rfl, by simp [State.sinceBoot, State.now]⟩

/-- R72: a wait that has run out is answered ST_NOT_READY, and is a wait no more. -/
theorem exec_callsheetWaitTimeout (s : State) (i : Nat) (w : CsWait) (h : Normal.callsheetTimeout s i w = true) :
    ∃ (u : State) (b : Nat), exec (.callsheetWaitTimeout i) s = .next (u.deferredDone w.cmd.hdr stNotReady b) ∧
      u.xanca.waits = s.xanca.waits.eraseIdx i := by
  simp only [Normal.callsheetTimeout, Bool.and_eq_true, decide_eq_true_eq] at h
  obtain ⟨⟨hp, hw⟩, hdue⟩ := h
  simp only [exec, execCallsheetWaitTimeout, State.live_powered _ hp, hw, State.onlyIf_of (decide_eq_true hdue)]
  exact ⟨_, _, rfl, rfl⟩

/-- Bit 63 has no deadline (Table 3.4). -/
theorem State.ne_63_of_csDeadline {s : State} {b : Nat} {p : Nat → Bool} (h : (s.csDeadline b).any p = true) : b ≠ 63 := by
  rintro rfl
  simp [State.csDeadline] at h

/-- R63: a bit that misses its deadline is failed, and stays not ready. -/
theorem exec_callsheetDeadline (s : State) (b : Nat) (h : Normal.callsheetDeadline s b = true) :
    ∃ t, exec (.callsheetDeadline b) s = .next t ∧ bitAt t.xanca.failed b = true ∧ bitAt t.xanca.ready b = false := by
  simp only [Normal.callsheetDeadline, Bool.and_eq_true, Bool.not_eq_true'] at h
  obtain ⟨⟨⟨⟨hp, hdue⟩, hready⟩, hfailed⟩, hmissed⟩ := h
  have hexec : execCallsheetDeadline b s = _ := State.live_onlyIf hp (by simp [hdue, hready, hfailed, hmissed])
  refine ⟨_, hexec, ?_, ?_⟩
  · simp
  · simp [State.ne_63_of_csDeadline hdue, hready]

/-- R6, R8: every field of the register takes what the write gives it. -/
theorem exec_registerWrite (s : State) (u off v : Nat) (h : Normal.registerWrite s u off = true) :
    exec (.registerWrite u off v) s = .next (((typeFields (unitType u)).filter (·.at off)).foldl
      (fun s f => s.writeField u off v f) s) := by
  simp only [Normal.registerWrite, Bool.and_eq_true, decide_eq_true_eq] at h
  obtain ⟨⟨⟨hp, hu⟩, halign⟩, hoff⟩ := h
  change execRegisterWrite u off v s = _
  exact State.live_onlyIf hp (by simp [hu, halign, hoff])

/-- R7: a refused access is logged by the block that it meets, and has no other effect. -/
theorem exec_badRegisterAccess (s : State) (a n : Nat) (w : Bool) (hp : s.powered = true) (hbad : badAccess a n w = true) :
    ∃ t unit sub, exec (.badRegisterAccess a n w) s = .next t ∧
      t = s.logError { type := 0x0001, cls := 3, unit := unit, sub := sub, addr := a } := by
  have hexec : execBadRegisterAccess a n w s = _ := State.live_onlyIf (b := fun _ => badAccess a n w) hp hbad
  exact ⟨_, _, _, hexec, rfl⟩

/-- Settles O25: one lemma for each command and event; `callsheet_read` has its short form, the answer and the wait. -/
theorem discoveryComplete : Obligations.DiscoveryComplete :=
  ⟨exec_xancaRead, exec_callsheetRead_short, exec_callsheetRead_ready, exec_callsheetRead_wait, exec_callsheetWaitTimeout,
    fun s b _ => exec_callsheetDeadline s b, exec_registerWrite, exec_badRegisterAccess⟩

end Sys2Proof.Machine
end

section
/-! SUPPORT and O55. Power-good, functions, device states and a chain's last read, one lemma for each command and event (R63,
R65, R66, R438, R443-R446, R456, R460). -/

namespace Sys2Proof.Machine

/-- R460: bring-up ends with the host port's link up and bit 2 set. -/
theorem exec_pwrGood (s : State) (f : BootFacts) (hp : s.powered = false) (hpin : s.pins.pwrGood = false) :
    ∃ u : State, exec (.pwrGood f) s = .next (u.hostLinkUp.csSetBits [2]) ∧
      bitAt (u.hostLinkUp.csSetBits [2]).xanca.ready 2 = true := by
  simp only [exec, execPwrGood, hp, hpin, Bool.or_self, Bool.false_eq_true, if_false]
  exact ⟨_, rfl, State.csSetBits_ready_of_mem _ (List.mem_singleton_self 2) (by decide)⟩

/-- R63, R66: a function other than the optics that can become ready sets its bit. -/
theorem exec_functionReady (s : State) (b : Nat) (hp : s.powered = true) (hb : s.canBeReady b = true) (h35 : b ≠ 35) :
    ∃ u : State, exec (.functionReady b) s = .next (u.csSetBits [b]) := by
  simp only [exec, execFunctionReady, State.live_powered _ hp, State.onlyIf_of hb, h35, decide_false, Bool.false_and,
    Bool.false_eq_true, if_false]
  exact ⟨_, rfl⟩

/-- R65: a function that stops being usable loses its bit; that of a stack or a channel is logged besides. -/
theorem exec_functionStops {s : State} {b : Nat} (h : Normal.functionStops s b = true) :
    exec (.functionStopsBeingUsable b) s = .next (
      if 16 ≤ b && b ≤ 19 then (s.csDrop b).logError { type := 0x32, cls := 2, unit := uHbm (b - 16), sub := b - 16 }
      else if 20 ≤ b && b ≤ 31 then
        (s.csDrop b).logError { type := 0x33, cls := 2, unit := uFar (b - 20), sub := b - 20 }
      else s.csDrop b) := by
  simp only [Normal.functionStops, Bool.and_eq_true, decide_eq_true_eq] at h
  obtain ⟨⟨⟨⟨⟨⟨hp, hready⟩, hmax⟩, h0⟩, h1⟩, h12⟩, h32⟩ := h
  change execFunctionStopsBeingUsable b s = _
  exact State.live_onlyIf hp (by simp only [hready, hmax, h0, h1, h12, h32, decide_true, Bool.and_self])

/-- R65: outside the memories nothing is logged. -/
theorem exec_functionStops_plain (s : State) (b : Nat) (h : Normal.functionStops s b = true) (hb : b < 16 ∨ 31 < b) :
    exec (.functionStopsBeingUsable b) s = .next (s.csDrop b) := by
  have hhbm : (decide (16 ≤ b) && decide (b ≤ 19)) = false := by simp; omega
  have hfar : (decide (20 ≤ b) && decide (b ≤ 31)) = false := by simp; omega
  rw [exec_functionStops h, hhbm, hfar, if_neg Bool.false_ne_true, if_neg Bool.false_ne_true]

/-- R65: an HBM stack that stops being usable is logged. -/
theorem exec_functionStops_hbm (s : State) (b : Nat) (h : Normal.functionStops s b = true) (h16 : 16 ≤ b) (h19 : b ≤ 19) :
    exec (.functionStopsBeingUsable b) s = .next ((s.csDrop b).logError
      { type := 0x32, cls := 2, unit := uHbm (b - 16), sub := b - 16 }) := by
  rw [exec_functionStops h, if_pos (by simp [h16, h19])]

/-! ## Device states -/

/-- Entering a state changes DSTATE and its time, and nothing else of the Watermaster. -/
@[simp] theorem State.enter_power (s : State) (new : DState) (cause moveNs : Nat) :
    (s.enter new cause moveNs).power = { s.power with dstate := new, stateTc := s.now } := by
  simp [State.enter, State.powerStateRecord]

@[simp] theorem State.enterDoze_dstate (s : State) : s.enterDoze.power.dstate = .doze := by simp [State.enterDoze]
@[simp] theorem State.enterSleep_dstate (s : State) : s.enterSleep.power.dstate = .sleep := by simp [State.enterSleep]

@[simp] theorem State.dozeSettings_power (s : State) (c : Command) : (s.dozeSettings c).power = s.power := by
  simp only [State.dozeSettings]; split_ifs <;> simp

/-- R446: with no move in progress the move is made at once. -/
theorem exec_powerStateSet {s : State} {c : Command} (hp : s.powered = true) (hm : s.power.moving = false) :
    exec (.powerStateSet c) s = .next (s.movePower c) := by
  simp [exec, execPowerStateSet, State.live_powered _ hp, hm]

/-- R444, R456: from DOZE the device enters SLEEP, in a time that is free. -/
theorem exec_powerStateSet_dozeToSleep (s : State) (c : Command) (h : Normal.passes s (s.movePowerChecks c) = true)
    (hm : s.power.moving = false) (htarget : c.u8 0 = 1) (hold : s.power.dstate = .doze) :
    ∃ u : State, exec (.powerStateSet c) s = .next (u.finish c stOk 0
        (u.moveResult .doze (Config.freeValue (s.dozeSettings c).freshCount))) ∧ u.power.dstate = .sleep := by
  obtain ⟨hp, hc⟩ := passes_iff.1 h
  refine ⟨(s.dozeSettings c).draw.2.enterSleep, ?_, State.enterSleep_dstate _⟩
  rw [exec_powerStateSet hp hm, State.movePower, State.checked_pass hc]
  simp [htarget, hold, State.draw]

/-- R444, R456: from SLEEP to RUN the wake begins. -/
theorem exec_powerStateSet_wake (s : State) (c : Command) (h : Normal.passes s (s.movePowerChecks c) = true)
    (hm : s.power.moving = false) (htarget : c.u8 0 = 0) (hold : s.power.dstate = .sleep) :
    exec (.powerStateSet c) s = .next ((s.dozeSettings c).beginWake c) := by
  obtain ⟨hp, hc⟩ := passes_iff.1 h
  rw [exec_powerStateSet hp hm, State.movePower, State.checked_pass hc]
  simp [htarget, hold]

/-- R446: during a move another is held. -/
theorem exec_powerStateSet_held (s : State) (c : Command) (hp : s.powered = true) (hm : s.power.moving = true) :
    exec (.powerStateSet c) s = .next { s with power := { s.power with heldMoves := s.power.heldMoves ++ [c] } } := by
  simp [exec, execPowerStateSet, State.live_powered _ hp, hm]

/-- R443: a device that has rested long enough enters DOZE. -/
theorem exec_dozeEntry (s : State) (h : Normal.dozeDue s = true) :
    ∃ t, exec .dozeEntry s = .next t ∧ t.power.dstate = .doze := by
  simp only [Normal.dozeDue, Bool.and_eq_true, decide_eq_true_eq] at h
  obtain ⟨⟨⟨⟨⟨hp, hrun⟩, hmoving⟩, hauto⟩, hquiet⟩, hheld⟩ := h
  have hexec : execDozeEntry s = _ :=
    State.live_onlyIf hp (by simp only [hrun, hmoving, hauto, hquiet, hheld, decide_true, Bool.and_self])
  exact ⟨_, hexec, s.enterDoze_dstate⟩

/-- R438, R445: a wake by the host port from STANDBY ends in SLEEP, with its cause. -/
theorem exec_hostPortEnergyWake (s : State) (f : BootFacts) (hp : s.powered = true) (hs : s.power.dstate = .standby) :
    ∃ t, exec (.hostPortEnergyWake f) s = .next t ∧ t.power.dstate = .sleep ∧ t.power.wakeCause = 5 := by
  have hexec : execHostPortEnergyWake f s = _ := State.live_onlyIf hp (by simp [hs])
  refine ⟨_, hexec, ?_, ?_⟩ <;> rw [State.enter_power]

/-- R180, R320: the last read of a stopped chain has arrived, and its descriptor is written back. -/
theorem exec_readDrainComplete_chain (s : State) (k n : Nat) (hp : s.powered = true) (hd : (s.channel k).discarding = true) :
    exec (.readDrainComplete true k n) s = .next
      ((s.setChannel k { s.channel k with discarding := false }).flumeWriteBack k n) := by
  simp only [exec, execReadDrainComplete, State.live_powered _ hp, State.chainDrained, hd, if_true]

/-- Settles O55: one lemma for each command and event. -/
theorem bringupComplete : Obligations.BringupComplete :=
  ⟨exec_pwrGood, exec_functionReady, exec_functionStops_plain, exec_functionStops_hbm, exec_powerStateSet_dozeToSleep,
    exec_powerStateSet_wake, exec_powerStateSet_held, exec_dozeEntry, exec_hostPortEnergyWake, exec_readDrainComplete_chain⟩

end Sys2Proof.Machine
end

section
/-! SUPPORT and O2. The counter's tick while no command waits (R74, R81). -/

namespace Sys2Proof.Machine

/-- R74: before the TIME PLL runs a counter that is not held at its limit moves by 40 ns. -/
theorem Timecode.tick_ns_of_pll_off {t : Timecode} (hphase : t.phase ≠ .unlocked) (hpll : t.timePll = false) :
    t.tick.ns = t.ns + 40 := by
  simp [Timecode.tick, hpll, hphase]

/-- R81: while the TIME PLL runs the accumulated rate correction adds or withholds at most 1 ns of a tick. -/
theorem Timecode.tick_ns_of_pll_on {t : Timecode} (hphase : t.phase ≠ .unlocked) (hpll : t.timePll = true) :
    t.tick.ns = t.ns + (if 1000000000 ≤ t.fraction + t.ratePpb then 2
      else if t.fraction + t.ratePpb ≤ -1000000000 then 0 else 1) := by
  simp only [Timecode.tick, hpll, hphase, Bool.not_true, Bool.false_eq_true, if_false, ge_iff_le]
  split_ifs <;> rfl

/-- Noting that something keeps the device from DOZE leaves the counter as the tick has it. -/
@[simp] theorem State.idle_timecode (s : State) : s.idle.timecode = s.tick.timecode := by
  unfold State.idle; dsimp only; split <;> rfl

theorem State.idle_now_off {s : State} (hp : s.powered = false) : s.idle.now = s.now := by
  simp [State.now, State.tick, hp]

theorem State.idle_now_on {s : State} (hp : s.powered = true) : s.idle.now = s.timecode.tick.ns := by
  simp [State.now, State.tick, hp]

/-- Settles O2: the counter's tick without power, before the TIME PLL runs, and with it for the three ranges of the accumulated
rate. -/
theorem emptyQueueTicks : Obligations.EmptyQueueTicks := by
  refine ⟨?_, fun s => State.idle_now_off, ?_, ?_, ?_⟩
  · intro s hempty
    simp only [step, hempty]
  · intro s hp hphase hpll
    rw [State.idle_now_on hp, Timecode.tick_ns_of_pll_off hphase hpll]
  · intro s hp hphase hpll
    rw [State.idle_now_on hp, Timecode.tick_ns_of_pll_on hphase hpll]
    dsimp only [State.now]
    split_ifs <;> omega
  · intro s hp hphase hpll hrate hfraction
    rw [State.idle_now_on hp, Timecode.tick_ns_of_pll_on hphase hpll, hrate, hfraction]
    rfl

end Sys2Proof.Machine
end

section
/-! SUPPORT and O26. PTP messages, the servo, and the moves between the states of Table 4.3, one lemma for each (R77, R79-R81, R85,
R86). -/

namespace Sys2Proof.Machine

/-- R79: a message of the configured domain, on a host port that is up with PTP enabled, has its effect. -/
theorem State.live_ptp {s : State} {m : PtpMessage} {f : State → State → State} (h : Normal.ptpMessage s m = true) :
    s.live (fun s => s.onlyIf (s.hostUp && s.fld uTimecode 0x040 33 33 == 1 && m.domain == s.fld uTimecode 0x040 47 40)
      (f s)) = .next (f s s) := by
  simp only [Normal.ptpMessage, Bool.and_eq_true] at h
  obtain ⟨⟨⟨hp, hup⟩, henabled⟩, hdomain⟩ := h
  exact State.live_onlyIf hp (by simp only [hup, henabled, hdomain, Bool.and_self])

/-- R79: an Announce on the TAI timescale makes the source valid, and the device chooses its source again. -/
theorem exec_ptpMessage_announceTai (s : State) (m : PtpMessage) (h : Normal.ptpMessage s m = true) (hk : m.kind = .announce)
    (htai : m.tai = true) : exec (.ptpMessage m) s = .next (State.tcReselect { s with timecode := { s.timecode with
      ptpValid := true } }) := by
  simp only [exec, execPtpMessage, State.live_ptp h, hk, htai, if_true]

/-- R79: an Announce on the ARB timescale is ignored. -/
theorem exec_ptpMessage_announceArb (s : State) (m : PtpMessage) (h : Normal.ptpMessage s m = true) (hk : m.kind = .announce)
    (harb : m.tai = false) : exec (.ptpMessage m) s = .next s := by
  simp only [exec, execPtpMessage, State.live_ptp h, hk, harb, Bool.false_eq_true, if_false]

/-- R79: a one-step Sync brings its origin with it. -/
theorem exec_ptpMessage_syncOneStep (s : State) (m : PtpMessage) (h : Normal.ptpMessage s m = true)
    (hk : m.kind = .syncOneStep) : exec (.ptpMessage m) s = .next { s with timecode := { s.timecode with
      ptpT1 := some (ptpNs m), ptpT2 := some s.now } } := by
  simp only [exec, execPtpMessage, State.live_ptp h, hk]

/-- R79: a two-step Sync leaves its origin to the Follow_Up. -/
theorem exec_ptpMessage_syncTwoStep (s : State) (m : PtpMessage) (h : Normal.ptpMessage s m = true)
    (hk : m.kind = .syncTwoStep) : exec (.ptpMessage m) s = .next { s with timecode := { s.timecode with
      ptpT1 := none, ptpT2 := some s.now } } := by
  simp only [exec, execPtpMessage, State.live_ptp h, hk]

theorem exec_ptpMessage_followUp (s : State) (m : PtpMessage) (h : Normal.ptpMessage s m = true) (hk : m.kind = .followUp) :
    exec (.ptpMessage m) s = .next { s with timecode := { s.timecode with ptpT1 := some (ptpNs m) } } := by
  simp only [exec, execPtpMessage, State.live_ptp h, hk]

/-- Table 4.3: an offset measured while LOCKED does not move the counter; the device chooses its source again. -/
theorem State.tcMeasured_locked {s : State} (offset : Int) (h : s.timecode.phase = .locked) :
    s.tcMeasured offset = s.tcReselect := by
  simp only [State.tcMeasured, h]

/-- The choice of a source (R80) does not look at the PTP exchange in progress. -/
theorem State.tcSource_ptpExchange (s : State) (offset : Int) (t1 t2 : Option Nat) :
    State.tcSource { s with timecode := { s.timecode with ptpOffset := offset, ptpT1 := t1, ptpT2 := t2 } } = s.tcSource := rfl

/-- R79, R85: a Delay_Resp ends the exchange with an offset, which a locked device that follows PTP takes as measured. -/
theorem exec_ptpMessage_delayResp (s : State) (m : PtpMessage) (t1 t2 : Nat) (h : Normal.ptpMessage s m = true)
    (hfollowed : Normal.ptpFollowed s = true) (hk : m.kind = .delayResp) (ht1 : s.timecode.ptpT1 = some t1)
    (ht2 : s.timecode.ptpT2 = some t2) :
    exec (.ptpMessage m) s = .next (State.tcReselect { s with timecode := { s.timecode with
      ptpOffset := (((t2 : Int) - t1) - ((ptpNs m : Int) - m.requestTc)) / 2, ptpT1 := none, ptpT2 := none } }) := by
  simp only [Normal.ptpFollowed, Bool.and_eq_true] at hfollowed
  obtain ⟨⟨hvalid, hsource⟩, hlocked⟩ := hfollowed
  simp only [exec, execPtpMessage, State.live_ptp h, hk, ht1, ht2, State.tcSource_ptpExchange, hvalid, hsource, Bool.and_self,
    if_true]
  exact congrArg _ (State.tcMeasured_locked _ (eq_of_beq hlocked))

/-- R81: the servo's rate is within ±200 ppm. -/
theorem exec_servoAdjust (s : State) (h : Normal.servoAdjust s = true) :
    ∃ r : Int, exec .servoAdjust s = .next { s with timecode := { s.timecode with ratePpb := r } } ∧
      -200000 ≤ r ∧ r ≤ 200000 := by
  simp only [Normal.servoAdjust, Bool.and_eq_true] at h
  obtain ⟨⟨hp, hsource⟩, hphase⟩ := h
  have hexec : execServoAdjust s = _ := State.live_onlyIf hp (by simp only [hsource, hphase, Bool.and_self])
  exact ⟨_, hexec, le_max_left _ _, max_le (by decide) (min_le_left _ _)⟩

/-- R85: with no parent found within 1 ms the device is in HOLDOVER since its parent's loss. -/
theorem exec_parentSearchTimeout (s : State) (t : Nat) (h : Normal.parentSearchTimeout s t = true) :
    exec .parentSearchTimeout s = .next (s.enterHoldover t) := by
  simp only [Normal.parentSearchTimeout, Bool.and_eq_true, decide_eq_true_eq] at h
  obtain ⟨⟨⟨⟨hp, hsince⟩, hlocked⟩, hdue⟩, hnone⟩ := h
  simp only [exec, execParentSearchTimeout, State.live_powered _ hp, hsince]
  rw [State.onlyIf_of (by simp only [hlocked, hdue, hnone, decide_true, Bool.and_self])]

/-- R85: a locked device that follows PTP enters HOLDOVER when PTP is lost. -/
theorem exec_ptpLost (s : State) (h : Normal.ptpLost s = true) :
    exec .ptpLost s = .next (State.enterHoldover { s with timecode := { s.timecode with
      ptpValid := false, ptpT1 := none, ptpT2 := none } } s.now) := by
  simp only [Normal.ptpLost, Bool.and_eq_true] at h
  obtain ⟨⟨⟨hp, hvalid⟩, hlocked⟩, hfollows⟩ := h
  simp only [exec, execPtpLost, State.live_powered _ hp, State.onlyIf_of hvalid, hlocked, hfollows, Bool.and_self, if_true]

/-- R65: a bit that is cleared reads as cleared. -/
theorem State.csClearBits_ready_self (s : State) {b : Nat} (h63 : b ≠ 63) :
    bitAt (s.csClearBits [b]).xanca.ready b = false := by
  simp [State.csClearBits, h63]

/-- R85, R86: past HOLDOVER_LIMIT_NS the device is in FREERUN, bit 3 is clear, and the counter has not moved. -/
theorem exec_holdoverLimitExceeded (s : State) (h : Normal.holdoverLimit s = true) :
    ∃ t, exec .holdoverLimitExceeded s = .next t ∧ t.timecode.phase = .freerun ∧ bitAt t.xanca.ready 3 = false ∧
      t.timecode.ns = s.timecode.ns := by
  simp only [Normal.holdoverLimit, Bool.and_eq_true] at h
  obtain ⟨⟨hp, hholdover⟩, hlimit⟩ := h
  have hexec : execHoldoverLimitExceeded s = _ := State.live_onlyIf hp (by simp only [hholdover, hlimit, Bool.and_self])
  refine ⟨_, hexec, ?_, State.csClearBits_ready_self _ (by decide), ?_⟩ <;> rw [State.csClearBits_timecode]

/-- R77: an unlocked counter holds at its limit. -/
theorem exec_unlockedNsLimit (s : State) (h : Normal.unlockedLimit s = true) :
    exec .unlockedNsLimit s = .next { s with timecode := { s.timecode with ns := unlockedLimit } } := by
  simp only [Normal.unlockedLimit, Bool.and_eq_true] at h
  obtain ⟨⟨hp, hunlocked⟩, hlimit⟩ := h
  change execUnlockedNsLimit s = _
  exact State.live_onlyIf hp (by simp only [hunlocked, hlimit, Bool.and_self])

/-- R86: in both states without a source the bound grows by 50 ns per second from its value at loss, and saturates. -/
theorem State.errBound_of_lost (s : State) (h : s.timecode.phase = .holdover ∨ s.timecode.phase = .freerun) :
    s.errBound = min (s.timecode.boundAtLoss + 50 * (s.now - s.timecode.lostAt) / 1000000000) 0xFFFF := by
  rcases h with h | h <;> simp only [State.errBound, h]

/-- Settles O26: one lemma for each kind of message, for the servo, for each move, and for the bound after a loss. -/
theorem timecodeComplete : Obligations.TimecodeComplete :=
  ⟨exec_ptpMessage_announceTai, exec_ptpMessage_announceArb, exec_ptpMessage_syncOneStep, exec_ptpMessage_syncTwoStep,
    exec_ptpMessage_followUp, exec_ptpMessage_delayResp, exec_servoAdjust, exec_parentSearchTimeout, exec_ptpLost,
    exec_holdoverLimitExceeded, exec_unlockedNsLimit, State.errBound_of_lost⟩

end Sys2Proof.Machine
end

section
/-! SUPPORT and O18. The rows of an outer-product engine that are left (R102). -/

namespace Sys2Proof.Machine

/-- The `r`-th number below `n` that passes a test is below `n`, passes it, and `r` numbers below it pass. -/
theorem getD_range_filter (q : Nat → Bool) (n r : Nat) (hr : r < ((List.range n).filter q).length) :
    let p := ((List.range n).filter q).getD r 0
    p < n ∧ q p = true ∧ ((List.range p).filter q).length = r := by
  induction n with
  | zero => simp at hr
  | succ n ih =>
    rw [List.range_succ, List.filter_append] at hr ⊢
    by_cases hold : r < ((List.range n).filter q).length
    · rw [List.getD_append _ _ _ _ hold]
      obtain ⟨hlt, hq, hcount⟩ := ih hold
      exact ⟨Nat.lt_succ_of_lt hlt, hq, hcount⟩
    · rw [List.getD_append_right _ _ _ _ (Nat.not_lt.1 hold)]
      by_cases hn : q n = true
      · simp only [hn, List.filter_cons_of_pos, List.filter_nil, List.length_append, List.length_singleton] at hr ⊢
        have hlast : ((List.range n).filter q).length = r := by omega
        simp [hlast, hn]
      · simp [hn] at hr
        exact absurd hr hold

/-- The rows below `n` are those that are retired and those that are not. -/
theorem retired_add_live (retired : List Nat) (n : Nat) :
    ((List.range n).filter fun q => retired.contains q).length +
      ((List.range n).filter fun q => !retired.contains q).length = n := by
  rw [← List.countP_eq_length_filter, ← List.countP_eq_length_filter]
  simpa using (List.length_eq_countP_add_countP (fun q => retired.contains q) (l := List.range n)).symm

/-- No more rows are found retired below `n` than are retired. -/
theorem retired_below_le (retired : List Nat) (n : Nat) :
    ((List.range n).filter fun q => retired.contains q).length ≤ retired.length :=
  (List.subperm_of_subset (List.nodup_range.filter _) fun q hq => by simpa using (List.mem_filter.1 hq).2).length_le

/-- Of the 130 rows those are left that are not retired. -/
theorem liveRows_length {retired : List Nat} (hnodup : retired.Nodup) (hrows : ∀ p ∈ retired, p < 130) :
    (liveRows retired).length + retired.length = 130 := by
  have hall : retired.length ≤ ((List.range 130).filter fun q => retired.contains q).length :=
    (List.subperm_of_subset hnodup fun q hq => by simpa [hq] using hrows q hq).length_le
  have hle := retired_below_le retired 130
  have hsum := retired_add_live retired 130
  rw [liveRows]
  omega

/-- Settles O18: at most two retired rows lie below a live one, so it is at most two above its logical row. -/
theorem spareRows : Obligations.SpareRows := by
  intro retired hnodup htwo hrows
  have hlen := liveRows_length hnodup hrows
  refine ⟨by omega, fun r hr => ?_⟩
  obtain ⟨hlt, hlive, hbelow⟩ := getD_range_filter (fun q => !retired.contains q) 130 r (by rw [liveRows] at hlen; omega)
  rw [← liveRows] at hlt hlive hbelow
  have hsum := retired_add_live retired ((liveRows retired).getD r 0)
  have hle := retired_below_le retired ((liveRows retired).getD r 0)
  refine ⟨hlt, by simpa using hlive, hbelow, by omega, ?_⟩
  by_cases htrim : (liveRows retired).getD r 0 / 16 = r / 16
  · rw [trimOn, bne_eq_false_iff_eq.2 htrim, htrim]
    simp [b2n]
  · rw [trimOn, bne_iff_ne.2 htrim, b2n, if_pos rfl]
    omega

end Sys2Proof.Machine
end

section
/-! SUPPORT. What a bundle command does at the bundle where its core stands, and a row of a COMPUTE bundle once its slot can act
(R97, R98, R122). -/

namespace Sys2Proof.Machine

/-- A core that stands at a bundle is powered. -/
theorem powered_of_atBundle {s : State} {p : Nat} {t : Task} {kn : Kernel} {b : Nat} (h : Normal.atBundle s p t kn b = true) :
    s.powered = true := by
  simp only [Normal.atBundle, Bool.and_eq_true] at h
  obtain ⟨⟨⟨⟨⟨⟨⟨hp, -⟩, -⟩, -⟩, -⟩, -⟩, -⟩, -⟩ := h
  exact hp

/-- A core that stands at a bundle runs its task, which is of a kind that runs a kernel. -/
theorem task_of_atBundle {s : State} {p : Nat} {t : Task} {kn : Kernel} {b : Nat} (h : Normal.atBundle s p t kn b = true) :
    (s.core p).task = some t ∧ ∀ order, t.kind ≠ .cont order := by
  simp only [Normal.atBundle, Bool.and_eq_true, decide_eq_true_eq] at h
  obtain ⟨⟨⟨⟨⟨⟨⟨-, htask⟩, -⟩, -⟩, -⟩, hkind⟩, -⟩, -⟩ := h
  refine ⟨htask, fun order hk => ?_⟩
  rw [hk] at hkind
  cases hkind

/-- A bundle command acts on the bundle at which its core stands, in the state in which that bundle issues (R97). -/
theorem State.issue_of_atBundle {s : State} {p : Nat} {t : Task} {kn : Kernel} {b : Nat} {k : Task → Nat → State → State}
    (h : Normal.atBundle s p t kn b = true) : s.issue p k = k t b (Normal.issued s p kn) := by
  simp only [Normal.atBundle, Bool.and_eq_true, decide_eq_true_eq, Bool.not_eq_true'] at h
  obtain ⟨⟨⟨⟨⟨⟨⟨hp, htask⟩, hkernel⟩, hrunning⟩, hstall⟩, hkind⟩, hbundle⟩, hlegal⟩ := h
  simp only [State.issue, htask, hkernel]
  rw [State.onlyIf_of (by rw [hrunning, hstall]; exact hkind)]
  rw [Normal.issued] at hbundle hlegal ⊢
  simp only [hbundle, hlegal, Bool.false_eq_true, if_false]

/-- How a COMPUTE bundle issues after the interlock: the first obstacle of malformed operands, missing lines, bad words and faults
stops it, otherwise the row goes on with `run`. -/
def State.issueCompute (s : State) (p : Nat) (t : Task) (b : Nat) (run : State → State) : State :=
  match (s.core p).computeLines b with
  | .error k => s.failTask p k stBadParam 0
  | .ok ls =>
    if ls.any (24576 ≤ ·) then s.failTask p 6 stBadParam 0
    else if (s.footprint p b).any fun l => !s.isFull p l then s.stallAt p .emptySlot
    else if (s.coreWords p b).1 then (s.coreWords p b).2.failTask p 18 stFaultHw 0x10
    else match ((s.coreWords p b).2.readTouch p t.slot b).computeFault p t.slot b with
      | some f => ((s.coreWords p b).2.readTouch p t.slot b).endTask p (some f)
      | none => run ((s.coreWords p b).2.readTouch p t.slot b)

/-- A row that names the bundle's next slot and its operation: the bundle's first row issues it, a later one acts at once. -/
theorem State.computeRow_of_atBundle {s : State} {p : Nat} {t : Task} {kn : Kernel} {b slot : Nat} {mine : Nat → Bool}
    {effect : Task → Nat → State → State} (h : Normal.atBundle s p t kn b = true) (hcompute : bKind b = 0)
    (hnext : ((Normal.issued s p kn).core p).nextSlot b = some slot) (hmine : mine b = true) :
    let run := fun u : State => (effect t b (u.takeLines p (u.slotReads p b slot))).slotDone p b slot
    s.computeRow p slot mine effect = if ((Normal.issued s p kn).core p).slotsDone ≠ 0 then run (Normal.issued s p kn)
      else (Normal.interlocked s p kn).issueCompute p t b run := by
  rw [State.computeRow, State.issue_of_atBundle h]
  exact if_neg (by simp [hcompute, hnext, hmine])

/-- A bundle that nothing stops issues, and its row goes on in the state in which its operands have been read. -/
theorem State.issueCompute_of_ready {s : State} {p : Nat} {t : Task} {b : Nat} {run : State → State} {ls : List Nat}
    (hlines : (s.core p).computeLines b = .ok ls) (hin : ls.all (· < 24576) = true)
    (hfull : (s.footprint p b).all (s.isFull p) = true) (hwords : (s.coreWords p b).1 = false)
    (hfault : ((s.coreWords p b).2.readTouch p t.slot b).computeFault p t.slot b = none) :
    s.issueCompute p t b run = run ((s.coreWords p b).2.readTouch p t.slot b) := by
  have hout : ¬ ls.any (24576 ≤ ·) = true := by simpa using hin
  have hmissing : ¬ ((s.footprint p b).any fun l => !s.isFull p l) = true := by simpa using hfull
  simp only [State.issueCompute, hlines, hwords, hfault, if_neg hout, if_neg hmissing, Bool.false_eq_true, if_false]

/-- A row whose slot can act does so, and is then counted as done: where it is the bundle's first, the bundle has issued without a
fault. -/
theorem State.computeRow_of_slotReady {s : State} {p : Nat} {t : Task} {kn : Kernel} {b slot : Nat} {mine : Nat → Bool}
    {effect : Task → Nat → State → State} (h : Normal.slotReady s p t kn b slot = true) (hmine : mine b = true) :
    s.computeRow p slot mine effect = (effect t b (Normal.slotState s p t kn b slot)).slotDone p b slot := by
  simp only [Normal.slotReady, Bool.and_eq_true, Bool.or_eq_true, decide_eq_true_eq, beq_iff_eq, bne_iff_ne,
    Bool.not_eq_true', Option.isNone_iff_eq_none] at h
  obtain ⟨⟨⟨hat, hcompute⟩, hnext⟩, hready⟩ := h
  rw [State.computeRow_of_atBundle hat hcompute hnext hmine, Normal.slotState]
  by_cases hlater : ((Normal.issued s p kn).core p).slotsDone ≠ 0
  · rw [if_pos hlater, if_pos hlater]
  · obtain ⟨⟨⟨hoperands, hfull⟩, hwords⟩, hfault⟩ := hready.resolve_left hlater
    rw [if_neg hlater, if_neg hlater]
    split at hoperands
    · next ls hlines => exact State.issueCompute_of_ready hlines hoperands hfull hwords hfault
    · cases hoperands

/-- A slot that can act stands at its bundle. -/
theorem atBundle_of_slotReady {s : State} {p : Nat} {t : Task} {kn : Kernel} {b slot : Nat}
    (h : Normal.slotReady s p t kn b slot = true) : Normal.atBundle s p t kn b = true := by
  simp only [Normal.slotReady, Bool.and_eq_true] at h
  obtain ⟨⟨⟨hat, -⟩, -⟩, -⟩ := h
  exact hat

/-- The command of a row whose slot can act: its effect on the slot's state, and the slot is done. -/
theorem State.live_computeRow {s : State} {p : Nat} {t : Task} {kn : Kernel} {b slot : Nat} {mine : Nat → Bool}
    {effect : Task → Nat → State → State} (h : Normal.slotReady s p t kn b slot = true) (hmine : mine b = true) :
    s.live (fun s => s.computeRow p slot mine effect) =
      .next ((effect t b (Normal.slotState s p t kn b slot)).slotDone p b slot) := by
  rw [State.live_powered _ (powered_of_atBundle (atBundle_of_slotReady h)), State.computeRow_of_slotReady h hmine]

end Sys2Proof.Machine
end

section
/-! SUPPORT and O28. The outer-product engine's operations, as rows of the first slot (R91, R93, R95, R220, R223, R515). -/

namespace Sys2Proof.Machine

/-- The command of an outer-product row whose slot can act. -/
theorem State.live_opeRow {s : State} {p : Nat} {t : Task} {kn : Kernel} {b oop : Nat} {effect : Nat → Nat → State → State}
    (h : Normal.slotReady s p t kn b 0 = true) (hop : bOop b = oop) :
    s.live (fun s => s.opeRow p oop effect) = .next ((effect t.slot b (Normal.slotState s p t kn b 0)).slotDone p b 0) :=
  State.live_computeRow h (beq_iff_eq.2 hop)

/-- Settles O28: each operation is a row of the outer-product slot. -/
theorem outerProductComplete : Obligations.OuterProductComplete := by
  refine ⟨?_, ?_, ?_, ?_, ?_⟩ <;> exact fun _ _ _ _ _ h hop => State.live_opeRow h hop

end Sys2Proof.Machine
end

section
/-! SUPPORT, O30 and O31. The vector unit's operations, as rows of the second slot (R96, R227, R230). -/

namespace Sys2Proof.Machine

/-- The command of a vector row whose slot can act: its effect, and the time of its operation. -/
theorem State.live_vecRow {s : State} {p : Nat} {t : Task} {kn : Kernel} {w vop : Nat} {effect : Nat → Nat → State → State}
    (h : Normal.slotReady s p t kn w 1 = true) (hop : bVop w = vop) :
    s.live (fun s => s.vecRow p vop effect) =
      .next (Normal.vectorDone p w (effect t.slot w (Normal.slotState s p t kn w 1))) :=
  State.live_computeRow h (beq_iff_eq.2 hop)

/-- The command of a vector operation that acts lane by lane, by a function that may look at IMM. -/
theorem State.live_vecLanes {s : State} {p : Nat} {t : Task} {kn : Kernel} {w vop : Nat}
    {f : Nat → Word32 → Word32 → Word32 → Word32} (h : Normal.slotReady s p t kn w 1 = true) (hop : bVop w = vop) :
    s.live (fun s => s.vecLanes p vop f) = .next (Normal.lanes s p t kn w (f (bImm w))) :=
  State.live_vecRow h hop

/-- Settles O30: each operation acts lane by lane. -/
theorem vectorLanesComplete : Obligations.VectorLanesComplete := by
  refine ⟨?_, ?_, ?_, ?_, ?_, ?_, ?_, ?_, ?_, ?_, ?_⟩ <;> exact fun _ _ _ _ _ h hop => State.live_vecLanes h hop

/-- Settles O31: each operation is a row of the vector slot. -/
theorem vectorMovesComplete : Obligations.VectorMovesComplete := by
  refine ⟨?_, ?_, ?_, ?_, ?_⟩ <;> exact fun _ _ _ _ _ h hop => State.live_vecRow h hop

end Sys2Proof.Machine
end

section
/-! SUPPORT and O33. The SETUP, LOOP, WAIT_TAG, CLAP and END bundles and the release of stalls, one lemma for each (R95, R97, R100,
R122, R124, R182, R183, R514). -/

namespace Sys2Proof.Machine

/-- The command of a bundle at which its core stands acts in the state in which the bundle issues. -/
theorem State.live_issue {s : State} {p : Nat} {t : Task} {kn : Kernel} {b : Nat} {k : Task → Nat → State → State}
    (h : Normal.atBundle s p t kn b = true) : s.live (fun s => s.issue p k) = .next (k t b (Normal.issued s p kn)) := by
  rw [State.live_powered _ (powered_of_atBundle h), State.issue_of_atBundle h]

/-- R95, R514: a generator is loaded from a well-formed descriptor. -/
theorem exec_setupGenerator (s : State) (p : Nat) (t : Task) (kn : Kernel) (b : Nat) (h : Normal.atBundle s p t kn b = true)
    (hkind : bKind b = 2) :
    let off := 64 * bits b 107 92
    let u := (Normal.issued s p kn).spadTouch p t.slot [off / 128]
    let d := (Normal.issued s p kn |>.spadTouch p t.slot [off / 128]).spadBytes p off 64
    off < 24576 * 128 → u.isPoisoned p (off / 128) = false → generatorBad d = false →
    exec (.setupGenerator p) s = .next (u.setCore p
      (Core.advance { u.core p with generators := (u.core p).generators.insert (bits b 111 108) d } b)) := by
  intro off u d hoff hpoison hgood
  have hexec : execSetupGenerator p s = _ := State.live_issue h
  refine hexec.trans (congrArg _ ?_)
  rw [if_neg (not_not.2 hkind), if_neg (Nat.not_le.2 hoff), if_neg (Bool.eq_false_iff.1 hpoison),
    if_neg (Bool.eq_false_iff.1 hgood)]

/-- R97: a LOOP opens its body. -/
theorem exec_loopBundle (s : State) (p : Nat) (t : Task) (kn : Kernel) (b : Nat) (h : Normal.atBundle s p t kn b = true)
    (hkind : bKind b = 3) :
    let u := Normal.issued s p kn
    let c := u.core p
    exec (.loopBundle p) s = .next (u.setCore p { c with
      pc := c.pc + 1, loops := ⟨c.pc + 1, c.pc + bits b 95 84, bits b 111 96⟩ :: c.loops, cycle := c.cycle + 1 + bDelay b }) := by
  intro u c
  have hexec : execLoopBundle p s = _ := State.live_issue h
  exact hexec.trans (congrArg _ (if_neg (not_not.2 hkind)))

/-- R124: a WAIT_TAG whose condition holds is passed; otherwise the sequencer stalls. -/
theorem exec_waitTag (s : State) (p : Nat) (t : Task) (kn : Kernel) (b : Nat) (h : Normal.atBundle s p t kn b = true)
    (hkind : bKind b = 4) :
    let u := Normal.issued s p kn
    (bits b 111 110 = 1 → (u.turnout p (bits b 79 76)).phase ≠ .free) →
    exec (.waitTag p) s = .next (if u.waitHolds p b then u.setCore p ((u.core p).advance b)
      else u.setCore p { u.core p with stall := some .waitTag, stallSince := u.now }) := by
  intro u hturnout
  have hexec : execWaitTag p s = _ := State.live_issue h
  refine hexec.trans (congrArg _ ?_)
  rw [if_neg (not_not.2 hkind), if_neg (by simpa using hturnout)]
  rfl

/-- R124: a stalled WAIT_TAG whose condition holds is passed. -/
theorem exec_waitTagRelease (s : State) (p b : Nat) (h : Normal.waitTagRelease s p b = true) :
    exec (.waitTagRelease p) s = .next ((s.endStall p).bundleDone p b) := by
  simp only [Normal.waitTagRelease, Bool.and_eq_true, decide_eq_true_eq] at h
  obtain ⟨⟨⟨⟨hp, hbundle⟩, hkind⟩, hstall⟩, hholds⟩ := h
  simp only [exec, execWaitTagRelease, State.live_powered _ hp, hbundle]
  rw [State.onlyIf_of (by simp only [hkind, hstall, hholds, Bool.and_self])]

/-- R122: a bundle whose missing lines have turned full may issue. -/
theorem exec_emptySlotStallRelease (s : State) (p b : Nat) (h : Normal.emptySlotRelease s p b = true) :
    exec (.emptySlotStallRelease p) s = .next (s.endStall p) := by
  simp only [Normal.emptySlotRelease, Bool.and_eq_true, decide_eq_true_eq] at h
  obtain ⟨⟨⟨hp, hbundle⟩, hstall⟩, hfull⟩ := h
  simp only [exec, execEmptySlotStallRelease, State.live_powered _ hp, hbundle]
  rw [State.onlyIf_of (by simp only [hstall, hfull, Bool.and_self])]

/-- R182, R183: an arrival at a clap, with or without waiting for its release. -/
theorem exec_clapBundle (s : State) (p : Nat) (t : Task) (kn : Kernel) (b : Nat) (k : Clap)
    (h : Normal.atBundle s p t kn b = true) (hkind : bKind b = 5) :
    let u := Normal.issued s p kn
    let n := bits b 111 106
    u.clap t.slot n = some k → k.broken = false →
    exec (.clapBundle p) s = .next (if bitAt b 105 then (u.bundleDone p b).arrive t.slot n
      else ((u.stallAt p (.clap n k.generation)).setClap t.slot n { k with waiting := k.waiting ++ [(p, u.now)] }).arrive t.slot n) := by
  intro u n hclap hwhole
  have hexec : execClapBundle p s = _ := State.live_issue h
  refine hexec.trans (congrArg _ ?_)
  simp only [u, n] at hclap
  rw [if_neg (not_not.2 hkind)]
  simp only [hclap, hwhole, Bool.false_eq_true, if_false, u, n]

/-- R100: the END bundle ends the task once the core's engines are idle. -/
theorem exec_endTask (s : State) (p : Nat) (t : Task) (kn : Kernel) (b : Nat) (h : Normal.atBundle s p t kn b = true)
    (hkind : bKind b = 6) :
    let u := Normal.issued s p kn
    let c := u.core p
    exec (.endTask p) s = .next ((u.setCore p { c with
      cycle := max (max c.cycle c.engineEnd) c.transferEnd + 1 }).endTask p none) := by
  intro u c
  obtain ⟨htask, hnotCont⟩ := task_of_atBundle h -- `hnotCont` lets `simp` take the default arm of the kind
  simp only [exec, execEndTask, State.live_powered _ (powered_of_atBundle h), htask]
  rw [State.issue_of_atBundle h]
  exact congrArg _ (if_neg (not_not.2 hkind))

/-- R100, R158: the END of a row task of a `cont_run` carries out its rows. -/
theorem exec_endTask_cont (s : State) (p : Nat) (t : Task) (o : Nat) (hp : s.powered = true) (htask : (s.core p).task = some t)
    (hkind : t.kind = .cont o) (hrunning : (s.core p).phase = .running) :
    exec (.endTask p) s = .next ((s.firstIssue p).contTask p t o) := by
  simp only [exec, execEndTask, State.live_powered _ hp, htask, hkind]
  rw [State.onlyIf_of (by rw [hrunning]; rfl)]

/-- Settles O33: one lemma for each bundle and event. -/
theorem sequencerComplete : Obligations.SequencerComplete :=
  ⟨exec_setupGenerator, exec_loopBundle, exec_waitTag, exec_waitTagRelease, exec_emptySlotStallRelease, exec_clapBundle,
    exec_endTask, exec_endTask_cont⟩

end Sys2Proof.Machine
end

section
/-! SUPPORT and O13. A remote write's packets, block by block (R128). -/

namespace Sys2Proof.Machine

/-- The `i`-th packet of a run of lines: its part of the `i`-th block of four lines (R128). -/
def blockPart (first n i : Nat) : Nat × Nat :=
  let a := if i = 0 then first else first - first % 4 + 4 * i
  (a, min (first - first % 4 + 4 * (i + 1)) (first + n) - a)

theorem packets_eq_map_blockPart {first n : Nat} (hn : n ≠ 0) :
    packets first n = (List.range ((first % 4 + n + 3) / 4)).map (blockPart first n) := if_neg hn

/-- A packet is not empty and stays within its block. -/
theorem blockPart_in_block {first n i : Nat} (hn : n ≠ 0) (hi : i < (first % 4 + n + 3) / 4) :
    1 ≤ (blockPart first n i).2 ∧ (blockPart first n i).2 ≤ 4 ∧
      (blockPart first n i).1 / 4 = ((blockPart first n i).1 + (blockPart first n i).2 - 1) / 4 := by
  dsimp only [blockPart]
  split <;> omega

/-- The lines of the first `k` packets are those of the run up to the end of the last one's block. -/
theorem flatMap_blockPart {first n : Nat} (k : Nat) (hk : k ≤ (first % 4 + n + 3) / 4) :
    ((List.range k).flatMap fun i => List.range' (blockPart first n i).1 (blockPart first n i).2) =
      List.range' first (min (first - first % 4 + 4 * k) (first + n) - first) := by
  induction k with
  | zero =>
    have hempty : min (first - first % 4 + 4 * 0) (first + n) - first = 0 := by omega
    rw [hempty]; rfl
  | succ k ih =>
    have hstart : (blockPart first n k).1 = first + (min (first - first % 4 + 4 * k) (first + n) - first) := by
      dsimp only [blockPart]
      split <;> omega
    have hend : min (first - first % 4 + 4 * (k + 1)) (first + n) - first =
        (min (first - first % 4 + 4 * k) (first + n) - first) + (blockPart first n k).2 := by
      dsimp only [blockPart]
      split <;> omega
    rw [List.range_succ, List.flatMap_append, ih (by omega), List.flatMap_singleton, hstart, List.range'_append_1, hend]

/-- Settles O13: the packets are the parts of the blocks, laid end to end. -/
theorem remoteWritePackets : Obligations.RemoteWritePackets := by
  intro first n
  by_cases hn : n = 0
  · subst hn
    exact ⟨rfl, fun p hp => absurd hp List.not_mem_nil⟩
  · simp only [← List.range'_eq_map_range]
    rw [packets_eq_map_blockPart hn]
    refine ⟨?_, fun p hp => ?_⟩
    · have hall : min (first - first % 4 + 4 * ((first % 4 + n + 3) / 4)) (first + n) - first = n := by omega
      rw [List.flatMap_map, flatMap_blockPart _ le_rfl, hall]
    · obtain ⟨i, hi, rfl⟩ := List.mem_map.1 hp
      exact blockPart_in_block hn (List.mem_range.1 hi)

end Sys2Proof.Machine
end

section
/-! SUPPORT and O15. What a store to a scratchpad line writes, and what is read of the lines afterwards (R120). -/

namespace Sys2Proof.Machine

/-- A byte beside the stored run keeps its value. -/
theorem get_putBytes_of_beside (m : TMap Byte) (k : Nat) (data : List Byte) (j : Nat) (h : j < k ∨ k + data.length ≤ j) :
    (putBytes m k data).get 0 j = m.get 0 j := by
  induction data generalizing m k with
  | nil => rfl
  | cons b data ih =>
    rw [List.length_cons] at h
    rw [putBytes, ih _ _ (by omega), TMap.get_set_of_ne _ _ _ _ _ (by omega)]

/-- A byte of the stored run reads as the data. -/
theorem get_putBytes_of_lt (m : TMap Byte) (k : Nat) (data : List Byte) (i : Nat) (h : i < data.length) :
    (putBytes m k data).get 0 (k + i) = data[i] := by
  induction data generalizing m k i with
  | nil => cases h
  | cons b data ih =>
    rw [putBytes]
    cases i with
    | zero => rw [get_putBytes_of_beside _ _ _ _ (by omega), Nat.add_zero, TMap.get_set_self, List.getElem_cons_zero]
    | succ i =>
      have hkey : k + (i + 1) = k + 1 + i := by omega
      rw [hkey, ih _ _ i (Nat.lt_of_succ_lt_succ h), List.getElem_cons_succ]

@[simp] theorem State.storeLine_bytes (s : State) (p l : Nat) (data : List Byte) (poison : Bool) :
    (s.storeLine p l data poison).spads.bytes = putBytes s.spads.bytes (byteKey p (128 * l)) (data.take 128) := by
  unfold State.storeLine; split <;> rfl

@[simp] theorem State.storeLine_full (s : State) (p l : Nat) (data : List Byte) (poison : Bool) :
    (s.storeLine p l data poison).spads.full = s.spads.full.set false (lineKey p l) true := by
  unfold State.storeLine; split <;> rfl

@[simp] theorem State.storeLine_poison (s : State) (p l : Nat) (data : List Byte) (poison : Bool) :
    (s.storeLine p l data poison).spads.poison = s.spads.poison.set false (lineKey p l) poison := by
  unfold State.storeLine; split <;> rfl

/-- Different lines have different tags. -/
theorem lineKey_ne {p l p' l' : Nat} (hl : l < 24576) (hl' : l' < 24576) (hne : (p', l') ≠ (p, l)) :
    lineKey p' l' ≠ lineKey p l := by
  rw [Ne, Prod.mk.injEq] at hne
  unfold lineKey
  omega

/-- Different lines have no byte in common. -/
theorem byteKey_beside_line {p l p' l' i : Nat} (hl : l < 24576) (hl' : l' < 24576) (hi : i < 128) (hne : (p', l') ≠ (p, l)) :
    byteKey p' (128 * l' + i) < byteKey p (128 * l) ∨ byteKey p (128 * l) + 128 ≤ byteKey p' (128 * l' + i) := by
  rw [Ne, Prod.mk.injEq] at hne
  unfold byteKey
  omega

/-- The stored line reads as the data. -/
theorem State.line_storeLine_self (s : State) (p l : Nat) (data : List Byte) (poison : Bool) (hlen : data.length = 128) :
    (s.storeLine p l data poison).line p l = data := by
  refine List.ext_getElem (by simp [State.line, State.spadBytes, hlen]) fun i hi hdata => ?_
  have htake : data.take 128 = data := List.take_of_length_le hlen.le
  have hkey : byteKey p (128 * l + i) = byteKey p (128 * l) + i := (Nat.add_assoc ..).symm
  simp only [State.line, State.spadBytes, List.getElem_map, List.getElem_range, State.storeLine_bytes, htake, hkey]
  exact get_putBytes_of_lt _ _ _ i hdata

/-- Every other line reads as before. -/
theorem State.line_storeLine_of_ne (s : State) {p l p' l' : Nat} (data : List Byte) (poison : Bool) (hl : l < 24576)
    (hl' : l' < 24576) (hne : (p', l') ≠ (p, l)) : (s.storeLine p l data poison).line p' l' = s.line p' l' := by
  unfold State.line State.spadBytes
  refine List.map_congr_left fun i hi => ?_
  have hbeside := byteKey_beside_line hl hl' (List.mem_range.1 hi) hne
  have hlen : (data.take 128).length ≤ 128 := List.length_take_le ..
  rw [State.storeLine_bytes, get_putBytes_of_beside _ _ _ _ (by omega)]

/-- Settles O15: the stored line's bytes and tags are those written, and no other line shares a byte or a tag with it. -/
theorem scratchpadReadAfterWrite : Obligations.ScratchpadReadAfterWrite := by
  intro s p l data poison hl hlen t
  refine ⟨s.line_storeLine_self p l data poison hlen, ?_, ?_, fun p' l' hl' hne => ⟨?_, ?_, ?_⟩⟩
  · simp [t, State.isFull]
  · simp [t, State.isPoisoned]
  · exact s.line_storeLine_of_ne data poison hl hl' hne
  · simp only [t, State.isFull, State.storeLine_full]
    exact TMap.get_set_of_ne _ _ _ _ _ (lineKey_ne hl hl' hne)
  · simp only [t, State.isPoisoned, State.storeLine_poison]
    exact TMap.get_set_of_ne _ _ _ _ _ (lineKey_ne hl hl' hne)

end Sys2Proof.Machine
end

section
/-! SUPPORT and O29. Which requests meet the rule of a scratchpad port, and the end of a task whose bundle breaks it (R118,
R516). -/

namespace Sys2Proof.Machine

/-- In the order of their cycles, the requests before a cycle stand at the front. -/
theorem takeWhile_cycle_eq_filter {rs : List (Nat × Nat)} (h : rs.Pairwise fun a b => a.1 ≤ b.1) (c : Nat) :
    rs.takeWhile (fun r => r.1 < c) = rs.filter fun r => r.1 < c := by
  induction rs with
  | nil => rfl
  | cons r rs ih =>
    obtain ⟨hr, hrs⟩ := List.pairwise_cons.1 h
    by_cases hc : r.1 < c
    · rw [List.takeWhile_cons_of_pos (by simpa using hc), List.filter_cons_of_pos (by simpa using hc), ih hrs]
    · rw [List.takeWhile_cons_of_neg (by simpa using hc), List.filter_cons_of_neg (by simpa using hc), eq_comm,
        List.filter_eq_nil_iff]
      intro x hx
      have hlater : r.1 ≤ x.1 := hr x hx
      simp only [decide_eq_true_eq]
      omega

/-- R118 on requests in the order of their cycles: the first of them meets fewer than `n` later ones in its cycle, and fewer than
`n` of its bank in its 16 cycles. -/
theorem bankRule_cons_iff {n : Nat} {q : Nat × Nat} {rs : List (Nat × Nat)} (h : rs.Pairwise fun a b => a.1 ≤ b.1) :
    bankRule n (q :: rs) = true ↔ (rs.filter fun r => r.1 == q.1).length < n ∧
      (rs.filter fun r => decide (r.1 < q.1 + 16) && r.2 % 16 == q.2 % 16).length < n ∧ bankRule n rs = true := by
  have hsame : (rs.filter fun r => r.1 == q.1 && decide (r.1 < q.1 + 16)) = rs.filter fun r => r.1 == q.1 :=
    List.filter_congr fun r _ => by
      rw [Bool.eq_iff_iff, Bool.and_eq_true, beq_iff_eq, decide_eq_true_eq]
      omega
  simp only [bankRule, takeWhile_cycle_eq_filter h, List.filter_filter, Bool.and_eq_true, decide_eq_true_eq, and_assoc, hsame,
    Bool.and_comm (_ % 16 == _)]

/-- Line `j` of a run, read `n` lines in each cycle, meets line `a` before it: within `w` cycles, and in the same of `w` banks. -/
def runMeets (n w a j : Nat) : Bool := decide (j / n < a / n + w) && j % w == a % w

theorem exists_of_runMeets {n w a j : Nat} (hn : 1 ≤ n) (hlater : a < j) (h : runMeets n w a j = true) :
    ∃ k < n - 1, a + w * (k + 1) = j := by
  simp only [runMeets, Bool.and_eq_true, decide_eq_true_eq, beq_iff_eq] at h
  obtain ⟨hnear, hbank⟩ := h
  obtain ⟨k, hk⟩ := (Nat.modEq_iff_dvd' hlater.le).1 hbank.symm
  obtain ⟨k, rfl⟩ : ∃ i, k = i + 1 := Nat.exists_eq_succ_of_ne_zero (by rintro rfl; omega)
  have hj : j < (a / n + w) * n := (Nat.div_lt_iff_lt_mul hn).1 hnear
  have ha : a / n * n ≤ a := Nat.div_mul_le_self a n
  rw [Nat.add_mul] at hj
  have hturns : k + 1 < n := Nat.lt_of_mul_lt_mul_left (a := w) (by omega)
  exact ⟨k, by omega, by omega⟩

/-- A line of a run meets fewer than `n` of the lines that follow it, one in each of fewer than `n` turns of the banks. -/
theorem length_filter_runMeets_lt {n : Nat} (w a m : Nat) (hn : 1 ≤ n) :
    ((List.range' (a + 1) m).filter (runMeets n w a)).length < n := by
  have hsub : (List.range' (a + 1) m).filter (runMeets n w a) ⊆ (List.range (n - 1)).map fun k => a + w * (k + 1) := by
    intro j hj
    obtain ⟨hrun, hmeets⟩ := List.mem_filter.1 hj
    obtain ⟨k, hk, hline⟩ := exists_of_runMeets hn (List.mem_range'_1.1 hrun).1 hmeets
    exact List.mem_map.2 ⟨k, List.mem_range.2 hk, hline⟩
  have hle := (List.subperm_of_subset ((List.nodup_range' ..).filter _) hsub).length_le
  rw [List.length_map, List.length_range] at hle
  omega

/-- The requests for `m` consecutive lines from line `l + a` on, `n` lines in each cycle. -/
def runRequests (n l a m : Nat) : List (Nat × Nat) := (List.range' a m).map fun i => (i / n, l + i)

/-- The requests for `m` lines from line `l + p * a` on, `p` lines apart, one line in each cycle. -/
def strideRequests (p l a m : Nat) : List (Nat × Nat) := (List.range' a m).map fun i => (i, l + p * i)

/-- A run of consecutive lines meets the rule of every port (R118). -/
theorem bankRule_runRequests {n : Nat} (l a m : Nat) (hn : 1 ≤ n) : bankRule n (runRequests n l a m) = true := by
  induction m generalizing a with
  | zero => rfl
  | succ m ih =>
    have hsorted : (runRequests n l (a + 1) m).Pairwise fun x y => x.1 ≤ y.1 :=
      List.pairwise_map.2 ((List.pairwise_lt_range' ..).imp fun h => Nat.div_le_div_right h.le)
    refine (bankRule_cons_iff hsorted).2 ⟨?_, ?_, ih (a + 1)⟩ <;> rw [runRequests, List.filter_map, List.length_map]
    · refine lt_of_eq_of_lt (congrArg _ (List.filter_congr fun j hj => ?_)) (length_filter_runMeets_lt 1 a m hn)
      have hcycle : a / n ≤ j / n := Nat.div_le_div_right (Nat.le_of_lt (List.mem_range'_1.1 hj).1)
      rw [Bool.eq_iff_iff]
      simp only [Function.comp, runMeets, Bool.and_eq_true, decide_eq_true_eq, beq_iff_eq]
      omega
    · refine lt_of_eq_of_lt (congrArg _ (List.filter_congr fun j _ => ?_)) (length_filter_runMeets_lt 16 a m hn)
      rw [Bool.eq_iff_iff]
      simp only [Function.comp, runMeets, Bool.and_eq_true, decide_eq_true_eq, beq_iff_eq]
      omega

/-- Lines an odd number apart come back to their bank after 16 cycles and no sooner. -/
theorem bankRule_strideRequests {p : Nat} (l a m : Nat) (hp : p % 2 = 1) : bankRule 1 (strideRequests p l a m) = true := by
  induction m generalizing a with
  | zero => rfl
  | succ m ih =>
    have hsorted : (strideRequests p l (a + 1) m).Pairwise fun x y => x.1 ≤ y.1 :=
      List.pairwise_map.2 ((List.pairwise_lt_range' ..).imp Nat.le_of_lt)
    refine (bankRule_cons_iff hsorted).2 ⟨?_, ?_, ih (a + 1)⟩
    all_goals
      rw [Nat.lt_one_iff, List.length_eq_zero_iff, List.filter_eq_nil_iff]
      intro r hr
      obtain ⟨j, hj, rfl⟩ := List.mem_map.1 hr
      have hlater : a + 1 ≤ j := (List.mem_range'_1.1 hj).1
    · exact fun h => Nat.ne_of_gt hlater (beq_iff_eq.1 h)
    · simp only [Bool.and_eq_true, decide_eq_true_eq, beq_iff_eq]
      rintro ⟨hnear, hbank⟩
      have hcoprime : Nat.gcd 16 p = 1 := Nat.Coprime.pow_left 4 (Nat.coprime_two_left.2 (Nat.odd_iff.2 hp))
      have hsame : j % 16 = a % 16 := Nat.ModEq.cancel_left_of_coprime hcoprime (Nat.ModEq.add_left_cancel' l hbank)
      omega

/-- Lines an even number apart meet their bank again after at most 8 cycles. -/
theorem odd_of_bankRule_strideRequests {p l m : Nat} (hm : 16 ≤ m) (h : bankRule 1 (strideRequests p l 0 m) = true) :
    p % 2 = 1 := by
  obtain ⟨m, rfl⟩ : ∃ k, m = k + 1 := ⟨m - 1, by omega⟩
  have hsorted : (strideRequests p l 1 m).Pairwise fun x y => x.1 ≤ y.1 :=
    List.pairwise_map.2 ((List.pairwise_lt_range' ..).imp Nat.le_of_lt)
  obtain ⟨-, hbank, -⟩ := (bankRule_cons_iff hsorted).1 h
  rw [Nat.lt_one_iff, List.length_eq_zero_iff, List.filter_eq_nil_iff] at hbank
  have hline := hbank (8, l + p * 8) (List.mem_map.2 ⟨8, List.mem_range'_1.2 ⟨by omega, by omega⟩, rfl⟩)
  by_contra heven
  obtain ⟨k, rfl⟩ : 2 ∣ p := by omega
  apply hline
  simp only [Bool.and_eq_true, decide_eq_true_eq, beq_iff_eq]
  omega

/-- At a bundle whose bank and engine are free, requests that break the rule of their port are the first fault (R118, R516). -/
theorem State.computeFault_of_portsOk_false {s : State} {p slot b : Nat}
    (hdrain : (s.core p).drainEnd.get 0 (bBank b) ≤ (s.core p).cycle) (hcont : (s.core p).contFree ≤ (s.core p).cycle)
    (hports : (s.core p).portsOk b = false) :
    s.computeFault p slot b = some { cause := 6, status := stBadParam } := by
  simp only [State.computeFault, Nat.not_lt.2 hdrain, Nat.not_lt.2 hcont, hports, decide_false, Bool.and_false, Bool.not_false,
    Bool.false_eq_true, if_false, if_true]

/-- A bundle that issues with a fault ends its task with it. -/
theorem State.issueCompute_of_fault {s : State} {p : Nat} {t : Task} {b : Nat} {run : State → State} {ls : List Nat}
    {f : TaskFault} (hlines : (s.core p).computeLines b = .ok ls) (hin : ls.all (· < 24576) = true)
    (hfull : (s.footprint p b).all (s.isFull p) = true) (hwords : (s.coreWords p b).1 = false)
    (hfault : ((s.coreWords p b).2.readTouch p t.slot b).computeFault p t.slot b = some f) :
    s.issueCompute p t b run = ((s.coreWords p b).2.readTouch p t.slot b).endTask p (some f) := by
  have hout : ¬ ls.any (24576 ≤ ·) = true := by simpa using hin
  have hmissing : ¬ ((s.footprint p b).any fun l => !s.isFull p l) = true := by simpa using hfull
  simp only [State.issueCompute, hlines, hwords, hfault, if_neg hout, if_neg hmissing, Bool.false_eq_true, if_false]

/-- The command of a row whose bundle issues with requests that break the rule of their port. -/
theorem State.live_computeRow_of_portsOk_false {s : State} {p : Nat} {t : Task} {kn : Kernel} {b slot : Nat} {mine : Nat → Bool}
    {effect : Task → Nat → State → State} (h : Normal.slotIssues s p t kn b slot = true) (hmine : mine b = true) :
    let u := ((Normal.interlocked s p kn).coreWords p b).2.readTouch p t.slot b
    (u.core p).portsOk b = false →
    s.live (fun s => s.computeRow p slot mine effect) = .next (u.endTask p (some { cause := 6, status := stBadParam })) := by
  intro u hports
  simp only [Normal.slotIssues, Bool.and_eq_true, decide_eq_true_eq, beq_iff_eq, Bool.not_eq_true'] at h
  obtain ⟨⟨⟨⟨⟨⟨⟨⟨hat, hcompute⟩, hnext⟩, hfirst⟩, hoperands⟩, hfull⟩, hwords⟩, hdrain⟩, hcont⟩ := h
  have hfirst' : ¬ ((Normal.issued s p kn).core p).slotsDone ≠ 0 := by
    simpa [Normal.interlocked, State.core, State.setCore] using hfirst
  rw [State.live_powered _ (powered_of_atBundle hat), State.computeRow_of_atBundle hat hcompute hnext hmine, if_neg hfirst']
  split at hoperands
  · next ls hlines =>
    rw [State.issueCompute_of_fault hlines hoperands hfull hwords (State.computeFault_of_portsOk_false hdrain hcont hports)]
  · cases hoperands

/-- R118, R516: a bundle whose requests break the rule of their port ends its task with cause 6, whichever of the rows that use a
port it begins with. -/
theorem exec_of_portsOk_false (s : State) (p : Nat) (t : Task) (kn : Kernel) (b slot : Nat) (e : Nat × Nat × (Nat → Instr))
    (he : e ∈ [(0, 1, Instr.opeAcc), (0, 3, Instr.opeLoad), (0, 4, Instr.opeDrain), (0, 5, Instr.opeConv),
      (1, 0xD, Instr.vecLoad), (1, 0xE, Instr.vecStore)])
    (hslot : slot = e.1) (hop : (if slot = 0 then bOop b else bVop b) = e.2.1) (h : Normal.slotIssues s p t kn b slot = true) :
    let u := ((Normal.interlocked s p kn).coreWords p b).2.readTouch p t.slot b
    (u.core p).portsOk b = false →
    exec (e.2.2 p) s = .next (u.endTask p (some { cause := 6, status := stBadParam })) := by
  subst hslot
  simp only [List.mem_cons, List.not_mem_nil, or_false] at he
  obtain rfl | rfl | rfl | rfl | rfl | rfl := he
  all_goals exact State.live_computeRow_of_portsOk_false h (beq_iff_eq.2 hop)

/-- Settles O29: the rule on runs, on strided lines and on any requests in order, and the task's end. -/
theorem portRuleEndsTask : Obligations.PortRuleEndsTask := by
  refine ⟨fun n l m hn => ?_, fun p l m hm => ?_, fun n q rs hsorted hrule => ?_, exec_of_portsOk_false⟩
  · rw [List.range_eq_range']
    exact bankRule_runRequests l 0 m hn
  · rw [List.range_eq_range']
    exact ⟨odd_of_bankRule_strideRequests hm, bankRule_strideRequests l 0 m⟩
  · obtain ⟨hcycle, hbank, -⟩ := (bankRule_cons_iff hsorted.of_cons).1 hrule
    exact ⟨hcycle, hbank⟩

end Sys2Proof.Machine
end

section
/-! SUPPORT and O34. GET, PUT and EMPTY as rows of a TRANSFER bundle that can act (R98, R122, R126-R128). -/

namespace Sys2Proof.Machine

/-- The command of a TRANSFER row that can act: its effect in the state after the interlock, in which a PUT has read its lines. -/
theorem State.live_transferRow {s : State} {p : Nat} {t : Task} {kn : Kernel} {b : Nat} {far : FarSide}
    {mine : Nat → FarSide → Bool} {effect : Task → Nat → FarSide → State → State}
    (h : Normal.transferReady s p t kn b far = true) (hmine : mine b far = true) :
    s.live (fun s => s.transferRow p mine effect) = .next (effect t b far (Normal.transferState s p t kn b)) := by
  simp only [Normal.transferReady, Bool.and_eq_true, decide_eq_true_eq, beq_iff_eq, Bool.not_eq_true'] at h
  obtain ⟨⟨⟨⟨⟨hat, hkind⟩, hfar⟩, hgood⟩, hfull⟩, hwords⟩ := h
  refine (State.live_issue hat).trans (congrArg _ ?_)
  have hissues : ¬ (decide (bKind b ≠ 1) || !mine b far) = true := by simp [hkind, hmine]
  have hstall : ¬ (decide (tXop b = 1) && ((List.range (tLines b)).map (tLocal b + ·)).any fun l => !State.isFull
      ((Normal.issued s p kn).setCore p { (Normal.issued s p kn).core p with
        cycle := max ((Normal.issued s p kn).core p).cycle ((Normal.issued s p kn).core p).engineEnd }) p l) = true := by
    rw [Bool.and_eq_true, decide_eq_true_eq, List.any_eq_true]
    rintro ⟨hput, l, hl, hempty⟩
    rw [hfull hput l hl] at hempty
    cases hempty
  rw [hfar, if_neg hissues]
  split
  · cases hgood
  · rw [if_neg hstall]
    simp only [hwords, Bool.false_eq_true, if_false]
    rfl

/-- R126, R127: GET from a scratchpad window stores its lines with their poison. -/
theorem exec_getLines_window (s : State) (p : Nat) (t : Task) (kn : Kernel) (b c l q : Nat)
    (h : Normal.transferReady s p t kn b (.window c l) = true) (hget : tXop b = 0) :
    let u := Normal.transferState s p t kn b
    u.physOf c = some q →
    let v := u.spadTouch q t.slot ((List.range (tLines b)).map (l + ·))
    exec (.getLines p) s = .next ((v.storeLines p (tLocal b) ((List.range (tLines b)).map fun i =>
      (v.line q (l + i), v.isPoisoned q (l + i)))).transferDone p b (ceilDiv (tLines b) 2)) := by
  intro u hcore v
  have hexec : execGetLines p s = _ := State.live_transferRow h (by simp [hget])
  refine hexec.trans (congrArg _ ?_)
  simp only [u] at hcore
  simp only [hcore, u, v]

/-- The lines that a GET brings from virtual memory, where every page has been translated (R126). -/
def State.virtLines (s : State) (slot va n : Nat) : List (List Byte × Bool) :=
  (List.range n).map fun i =>
    match s.vread slot (va + 128 * i) 128 with
    | .ok d => d
    | .error _ => ([], true)

theorem State.length_virtLines (s : State) (slot va n : Nat) : (s.virtLines slot va n).length = n := by
  rw [State.virtLines, List.length_map, List.length_range]

theorem State.getElem?_virtLines {s : State} {slot va n i : Nat} {d : List Byte × Bool} (hi : i < n)
    (hread : s.vread slot (va + 128 * i) 128 = .ok d) : (s.virtLines slot va n)[i]? = some d := by
  simp only [State.virtLines, List.getElem?_map, List.getElem?_range hi, Option.map_some, hread]

/-- R126: GET from virtual memory reads its lines once every page has been translated. -/
theorem exec_getLines_virt (s : State) (p : Nat) (t : Task) (kn : Kernel) (b va : Nat)
    (h : Normal.transferReady s p t kn b (.virt va) = true) (hget : tXop b = 0) :
    let u := Normal.transferState s p t kn b
    u.vcheck t.slot va (128 * tLines b) false = none →
    ∃ (v : State) (ds : List (List Byte × Bool)), v = u.vtouch t.slot va (128 * tLines b) ∧ ds.length = tLines b ∧
      (∀ i d, i < tLines b → v.vread t.slot (va + 128 * i) 128 = .ok d → ds[i]? = some d) ∧
      exec (.getLines p) s = .next ((v.storeLines p (tLocal b) ds).transferDone p b (ceilDiv (tLines b) 2)) := by
  intro u hpages
  have hexec : execGetLines p s = _ := State.live_transferRow h (by simp [hget])
  refine ⟨_, (u.vtouch t.slot va (128 * tLines b)).virtLines t.slot va (tLines b), rfl, State.length_virtLines .., ?_,
    hexec.trans (congrArg _ ?_)⟩
  · exact fun i d => State.getElem?_virtLines
  · simp only [u] at hpages
    simp only [hpages, u]
    rfl

/-- R127, R128: PUT to a scratchpad window sends its lines as packets. -/
theorem exec_putLines_window (s : State) (p : Nat) (t : Task) (kn : Kernel) (b c l : Nat)
    (h : Normal.transferReady s p t kn b (.window c l) = true) (hput : tXop b = 1) :
    let u := Normal.transferState s p t kn b
    let ks : List MeshPacket := (packets l (tLines b)).map fun g =>
      ⟨c, g.1, ((u.localLines p b).drop (g.1 - l)).take g.2, t.slot, (u.job t.slot).placement, u.jobEpoch t.slot,
        ⟨t.cmd, (u.core p).pc, t.index, u.logicalOf p, u.spads.nextSerial⟩⟩
    let v : State := { u with spads := { u.spads with mesh := u.spads.mesh ++ ks, nextSerial := u.spads.nextSerial + 1 } }
    exec (.putLines p) s = .next ((v.takeLines p ((List.range (tLines b)).map (tLocal b + ·))).transferDone p b
      (ceilDiv (tLines b) 2)) := by
  intro u ks v
  have hexec : execPutLines p s = _ := State.live_transferRow h (by simp [hput])
  exact hexec

/-- R126: PUT to virtual memory writes its lines once every page has been translated. -/
theorem exec_putLines_virt (s : State) (p : Nat) (t : Task) (kn : Kernel) (b va : Nat)
    (h : Normal.transferReady s p t kn b (.virt va) = true) (hput : tXop b = 1) :
    let u := Normal.transferState s p t kn b
    u.vcheck t.slot va (128 * tLines b) true = none →
    let v := (u.localLines p b).zipIdx.foldl (fun s d => (s.vwrite t.slot (va + 128 * d.2) d.1.1 d.1.2).1) u
    exec (.putLines p) s = .next ((v.takeLines p ((List.range (tLines b)).map (tLocal b + ·))).transferDone p b
      (ceilDiv (tLines b) 2)) := by
  intro u hpages v
  have hexec : execPutLines p s = _ := State.live_transferRow h (by simp [hput])
  refine hexec.trans (congrArg _ ?_)
  simp only [u] at hpages
  simp only [hpages, u, v]

/-- R126, R127: EMPTY clears F of its lines. -/
theorem exec_emptyLines (s : State) (p : Nat) (t : Task) (kn : Kernel) (b : Nat)
    (h : Normal.transferReady s p t kn b .none = true) (hempty : tXop b = 2) :
    exec (.emptyLines p) s = .next (((Normal.transferState s p t kn b).setEmptyRange p (tLocal b) (tLines b)).transferDone p b
      (ceilDiv (tLines b) 16)) :=
  State.live_transferRow h (beq_iff_eq.2 hempty)

/-- Settles O34: one lemma for each operation and far side. -/
theorem transfersComplete : Obligations.TransfersComplete :=
  ⟨exec_getLines_window, exec_getLines_virt, exec_putLines_window, exec_putLines_virt, exec_emptyLines⟩

end Sys2Proof.Machine
end

section
/-! SUPPORT and O35. Remote packets and the turnout test, the events and commands of turnouts, the scrubber (R127, R128, R131-R135,
R137-R143). -/

namespace Sys2Proof.Machine

/-! ## The turnout test (R131) -/

/-- Table 6.11: a matched turnout takes a packet that nothing of it refuses. -/
theorem refusalReason_eq_zero_iff (x : Turnout) (first n slot placement epoch : Nat) :
    refusalReason x first n slot placement epoch = 0 ↔ x.accepting = true ∧ x.placement = placement ∧ x.epoch = epoch ∧
      x.slot = slot ∧ first + n ≤ x.base + x.lines := by
  simp [refusalReason, ite_eq_iff]

/-- A packet is accepted where the turnout that its first line matches has no reason to refuse it. -/
theorem accepted_iff {s : State} {p t : Nat} {k : MeshPacket} : Normal.accepted s p t k = true ↔
    s.matchTurnout p k.first = some t ∧
      refusalReason (s.turnout p t) k.first k.lines.length k.slot k.placement k.epoch = 0 := by
  simp only [Normal.accepted, Bool.and_eq_true, decide_eq_true_eq, beq_iff_eq, refusalReason_eq_zero_iff, and_assoc]

/-- An accepted packet is counted by its turnout and its lines are stored (R131, R133). -/
theorem State.remoteWrite_of_accepted {s : State} {p t : Nat} {k : MeshPacket} (h : Normal.accepted s p t k = true) :
    s.remoteWrite p k.first k.lines k.slot k.placement k.epoch = (0, (s.setTurnout p t { s.turnout p t with
      gauge := satAdd 32 (s.turnout p t).gauge k.lines.length }).storeLines p k.first k.lines) := by
  obtain ⟨hmatch, hreason⟩ := accepted_iff.1 h
  simp only [State.remoteWrite, hmatch, hreason, if_true]

/-- What a refused packet leaves of the scratchpads: everything but the turnouts that counted it (R131, R135). -/
theorem State.remoteWrite_of_refused {s : State} {p : Nat} {k : MeshPacket} (h : ∀ t, Normal.accepted s p t k = false) :
    ∃ r u, s.remoteWrite p k.first k.lines k.slot k.placement k.epoch = (r, u) ∧ r ≠ 0 ∧
      ∃ turnouts, u.spads = { s.spads with turnouts := turnouts } := by
  refine ⟨_, _, Prod.mk.eta.symm, ?_⟩
  cases hmatch : s.matchTurnout p k.first with
  | none =>
    simp only [State.remoteWrite, hmatch]
    exact ⟨Nat.succ_ne_zero 4, s.spads.turnouts, rfl⟩
  | some t =>
    have hreason : refusalReason (s.turnout p t) k.first k.lines.length k.slot k.placement k.epoch ≠ 0 := fun h0 =>
      Bool.false_ne_true ((h t).symm.trans (accepted_iff.2 ⟨hmatch, h0⟩))
    simp only [State.remoteWrite, hmatch, if_neg hreason]
    exact ⟨hreason, _, rfl⟩

/-- A packet on the mesh meets the turnout test at the core that holds its target; a refusal is noted for its sender (R131,
R135). -/
theorem exec_remoteWritePacket {s : State} {i p : Nat} {k : MeshPacket} {r : Nat} {u : State} (h : Normal.packet s i p k = true)
    (hwrite : State.remoteWrite { s with spads := { s.spads with mesh := s.spads.mesh.eraseIdx i } } p k.first k.lines k.slot
      k.placement k.epoch = (r, u)) :
    exec (.remoteWritePacket i) s = .next (if r = 0 then u
      else if u.spads.refusals.any fun x => x.origin == k.origin && x.target == k.target then
        { u with spads := { u.spads with refusals := u.spads.refusals.map fun x =>
          if x.origin == k.origin && x.target == k.target then { x with lines := x.lines + k.lines.length } else x } }
      else { (u.stamp (uSpad p)).2 with spads := { u.spads with
        refusals := u.spads.refusals ++ [⟨k.origin, k.target, k.first, k.lines.length, r, (u.stamp (uSpad p)).1⟩] } }) := by
  simp only [Normal.packet, Bool.and_eq_true, decide_eq_true_eq] at h
  obtain ⟨⟨hp, hpacket⟩, hcore⟩ := h
  have hcore' : State.physOf { s with spads := { s.spads with mesh := s.spads.mesh.eraseIdx i } } k.target = some p := hcore
  simp only [exec, execRemoteWritePacket, State.live_powered _ hp, hpacket, hcore', hwrite]
  rfl

/-- R128, R131: an accepted packet stores its lines. -/
theorem exec_remoteWritePacket_accepted (s : State) (i p t : Nat) (k : MeshPacket) (h : Normal.packet s i p k = true) :
    let u : State := { s with spads := { s.spads with mesh := s.spads.mesh.eraseIdx i } }
    Normal.accepted u p t k = true →
    exec (.remoteWritePacket i) s = .next ((u.setTurnout p t { u.turnout p t with
      gauge := satAdd 32 (u.turnout p t).gauge k.lines.length }).storeLines p k.first k.lines) :=
  fun haccepted => (exec_remoteWritePacket h (State.remoteWrite_of_accepted haccepted)).trans (congrArg _ (if_pos rfl))

/-- R131, R135: a refused packet stores nothing, and its refusal is noted with those of its bundle for its target. -/
theorem exec_remoteWritePacket_refused (s : State) (i p : Nat) (k : MeshPacket) (h : Normal.packet s i p k = true) :
    let u : State := { s with spads := { s.spads with mesh := s.spads.mesh.eraseIdx i } }
    (∀ t, Normal.accepted u p t k = false) →
    ∃ v, exec (.remoteWritePacket i) s = .next v ∧ v.spads.bytes = s.spads.bytes ∧ v.spads.full = s.spads.full ∧
      v.spads.poison = s.spads.poison ∧ v.spads.mesh = s.spads.mesh.eraseIdx i ∧
      (v.spads.refusals.any fun x => x.origin == k.origin && x.target == k.target) = true := by
  intro u hrefused
  obtain ⟨r, w, hwrite, hr, turnouts, hspads⟩ := State.remoteWrite_of_refused hrefused
  refine ⟨_, exec_remoteWritePacket h hwrite, ?_⟩
  rw [if_neg hr]
  split
  · next hnoted =>
    simp only [hspads, u, true_and, List.any_map]
    rw [← hnoted, hspads]
    refine congrArg (List.any _) (funext fun x => ?_)
    simp only [Function.comp]
    split <;> rfl
  · simp [hspads, u]

/-! ## Refusals, late lines and the drain limit (R133, R135, R143) -/

/-- R135, R143: the refusals of a bundle for a target are reported once, and the note goes. -/
theorem exec_writeRefused (s : State) (i : Nat) (x : RefusalNote) (h : Normal.writeRefused s i x = true) :
    ∃ u : State, exec (.writeRefused i) s = .next (u.recordCmd x.origin.hdr 0x1032 stWindowClosed
        (le 2 x.target ++ le 2 x.first ++ le 2 x.lines ++ le 1 x.reason ++ le 1 0 ++ le 2 x.origin.sender ++
          le 2 x.origin.bundle ++ le 4 x.origin.task ++ x.stamp.bytes)) ∧
      u.spads.refusals = s.spads.refusals.eraseIdx i := by
  simp only [Normal.writeRefused, Bool.and_eq_true, decide_eq_true_eq] at h
  obtain ⟨⟨hp, hnote⟩, hlast⟩ := h
  simp only [exec, execWriteRefused, State.live_powered _ hp, hnote]
  rw [State.onlyIf_of hlast]
  refine ⟨_, rfl, ?_⟩
  split <;> rfl

/-- R135: the lines refused since the last record are reported, and counted anew. -/
theorem exec_turnoutLate (s : State) (p t : Nat) (h : Normal.turnoutLate s p t = true) :
    let x := s.turnout p t
    let u := s.setTurnout p t { x with sinceNote := 0, firstRefused := none, lastNote := some s.now }
    exec (.turnoutLate p t) s = .next (match x.openCmd with
      | some h => u.recordCmd h 0x1031 stWindowClosed (le 2 (s.logicalOf p) ++ le 1 t ++ le 1 x.lastReason ++ le 4 x.sinceNote ++
          (x.firstRefused.getD default).bytes)
      | none => u) := by
  intro x u
  simp only [Normal.turnoutLate, Bool.and_eq_true] at h
  obtain ⟨⟨⟨hp, hnotify⟩, hlines⟩, hpause⟩ := h
  change execTurnoutLate p t s = _
  refine State.live_onlyIf hp ?_
  simp only [hnotify, hlines, Bool.true_and]
  exact hpause

/-- R133: a turnout whose drain has passed its limit closes. -/
theorem exec_turnoutDrainLimit (s : State) (p t : Nat) (h : Normal.drainLimit s p t = true) :
    exec (.turnoutDrainLimit p t) s = .next ((s.noteLimit (s.turnout p t).slot (turnoutKey p t)).closeTurnout p t (s.logicalOf p) 2
      ((s.turnout p t).closeCmd.map (·.hdr)) stWindowClosed stWindowClosed 1) := by
  simp only [Normal.drainLimit, Bool.and_eq_true] at h
  obtain ⟨⟨hp, hphase⟩, hdue⟩ := h
  change execTurnoutDrainLimit p t s = _
  refine State.live_onlyIf hp ?_
  simp only [hphase, hdue, Bool.and_self]

/-! ## Remote reads and the scrubber (R127, R137-R139) -/

/-- R127: a remote read only finds what is wrong with its lines. -/
theorem exec_remoteRead (s : State) (c p first n : Nat) (hp : s.powered = true) (hcore : s.physOf c = some p) :
    exec (.remoteRead c first n) s = .next (s.spadTouch p 0xFFFF ((List.range n).map (first + ·))) := by
  simp only [exec, execRemoteRead, State.live_powered _ hp, hcore]

/-- R137-R139: the scrubber reads its line and finds its errors; the end of a pass is stamped. -/
theorem exec_spadScrub (s : State) (p l e : Nat) (h : Normal.spadScrub s p l = true) (passEnd : Bool) :
    let u := (s.spadTouch p 0xFFFF [l]).spadFound p l e 0xFFFF 0
    exec (.spadScrub p l e passEnd) s = .next (if passEnd then u.setReg (uSpad p) 0x390 u.now else u) := by
  intro u
  simp only [Normal.spadScrub, Bool.and_eq_true] at h
  obtain ⟨⟨⟨⟨⟨hp, hcore⟩, hline⟩, hgated⟩, hwaking⟩, henabled⟩ := h
  change execSpadScrub p l e passEnd s = _
  refine State.live_onlyIf hp ?_
  simp only [hcore, hline, hgated, hwaking, henabled, Bool.and_self]

/-! ## `turnout_open` and `turnout_close` (R141, R142) -/

/-- A logical core that the command may name passes the checks of R141 and R423. -/
theorem State.firstFail_coreChecks_append {s : State} {c : Command} {l off : Nat} {checks : List Check}
    (h : Normal.coreNamed s c l = true) (hrest : firstFail checks = none) : firstFail (s.coreChecks c l off ++ checks) = none := by
  simp only [Normal.coreNamed, Bool.and_eq_true, decide_eq_true_eq, Option.isNone_iff_eq_none] at h
  obtain ⟨⟨⟨hl, hallot⟩, hphys⟩, habsent⟩ := h
  obtain ⟨p, hp⟩ := Option.isSome_iff_exists.1 hphys
  simpa [State.coreChecks, habsent, hl, hp, hrest] using hallot

/-- The turnout that `turnout_open` takes, and the checks that it passes with it (R141). -/
theorem turnoutOpen_takes {s : State} {p named t : Nat}
    (h : (if named = 0xFF then decide ((List.range 16).find? (fun t => !(s.turnout p t).accepting) = some t)
      else named == t && decide (t ≤ 15) && !(s.turnout p t).accepting) = true) :
    (if named = 0xFF then ((List.range 16).find? fun t => !(s.turnout p t).accepting).getD 0 else named) = t ∧
      (named != 0xFF && (decide (15 < named) || (s.turnout p named).accepting)) = false ∧
      (named == 0xFF && ((List.range 16).find? fun t => !(s.turnout p t).accepting).isNone) = false := by
  by_cases hany : named = 0xFF
  · rw [if_pos hany, decide_eq_true_eq] at h
    simp [hany, h]
  · simp only [if_neg hany, Bool.and_eq_true, decide_eq_true_eq, beq_iff_eq, Bool.not_eq_true'] at h
    obtain ⟨⟨rfl, hlast⟩, hfree⟩ := h
    simp [hany, hfree, hlast]

/-- R141: the turnout opens with its lines emptied, unless the command keeps them. -/
theorem exec_turnoutOpen (s : State) (c : Command) (p t : Nat) (h : Normal.turnoutOpen s c p t = true) :
    let placement := c.ex (c.u16 0x10) (s.job (s.cmdSlot c.hdr)).placement
    let epoch := c.ex (c.u32 0x14) (s.fjob (s.cmdSlot c.hdr)).epoch
    let u := if c.ex (c.u8 0x13) 0 = 1 then s else s.setEmptyRange p (c.u16 8) (c.u16 0xA)
    exec (.turnoutOpen c) s = .next ((u.setTurnout p t
      { phase := .opened, byCount := c.u8 3 == 1, lateNotify := c.ex (c.u8 0x12) 0 == 1, placement := placement, epoch := epoch
        slot := s.cmdSlot c.hdr, base := c.u16 8, lines := c.u16 0xA, expect := c.u32 4, openCmd := some c.hdr }).finish c stOk 0
      (le 1 t ++ le 1 0 ++ le 2 placement ++ le 4 epoch)) := by
  intro placement epoch u
  simp only [Normal.turnoutOpen, Bool.and_eq_true, decide_eq_true_eq] at h
  obtain ⟨⟨⟨⟨⟨⟨⟨⟨⟨⟨⟨hp, hnamed⟩, hcore⟩, hturnout⟩, hcount⟩, hexpect⟩, hbase⟩, hlines⟩, hend⟩, hnotify⟩, hkeep⟩,
    hapart⟩ := h
  obtain ⟨htake, hfree, hfound⟩ := turnoutOpen_takes hturnout
  have hoverlap : ((List.range 16).any fun t => (s.turnout p t).accepting &&
      decide ((s.turnout p t).base < c.u16 8 + c.u16 0xA) &&
      decide (c.u16 8 < (s.turnout p t).base + (s.turnout p t).lines)) = false := by
    rw [List.any_eq_false]
    intro k hk
    have hk := List.all_eq_true.1 hapart k hk
    simp only [Bool.or_eq_true, Bool.not_eq_true', decide_eq_true_eq] at hk
    simp only [Bool.and_eq_true, decide_eq_true_eq, not_and, not_lt]
    rintro ⟨haccepting, hbelow⟩
    simp only [haccepting, Bool.true_eq_false, false_or] at hk
    omega
  have hcounted : (if c.u8 3 = 1 then c.u32 4 == 0 else c.u32 4 != 0) = false := by
    by_cases hbycount : c.u8 3 = 1 <;> simpa [hbycount] using hexpect
  have hexec : execTurnoutOpen c s = _ := State.live_powered _ hp
  refine hexec.trans (congrArg _ ?_)
  simp only [hcore, Option.getD_some]
  rw [State.checked_pass (State.firstFail_coreChecks_append hnamed ?_)]
  · rw [htake]
  · simp only [firstFail_cons_eq_none, badIf_eq_none, failIf_eq_none, hfree, hfound, hcounted, hoverlap, decide_eq_false_iff_not,
      Bool.or_eq_false_iff, firstFail_nil, true_and, and_true, not_lt]
    exact ⟨hcount, hbase, ⟨beq_eq_false_iff_ne.2 (bne_iff_ne.1 hlines), hend⟩, hnotify, hkeep⟩

/-- `turnout_close` of a turnout in use answers with its result where it is closed or closes now, and else lets it drain (R142). -/
theorem exec_turnoutClose {s : State} {c : Command} {p : Nat} (h : Normal.turnoutClose s c p = true) :
    let t := c.u8 2
    let x := s.turnout p t
    exec (.turnoutClose c) s = .next (
      if x.phase = .closed then s.finish c stOk 0 (x.result t)
      else if (c.u8 3 == 1) = true then
        let u := s.closeTurnout p t (c.u16 0) 1 (some c.hdr) stOk stCancelled 0
        u.finish c stOk 0 ((u.turnout p t).result t)
      else if s.turnoutComplete p x = true then
        let u := s.closeTurnout p t (c.u16 0) 0 (some c.hdr) stOk stOk 0
        u.finish c stOk 0 ((u.turnout p t).result t)
      else
        let us := if c.ex (c.u32 8) 0 = 0 then s.fld (uSpad p) 0x380 63 32 else c.ex (c.u32 8) 0
        let u := s.setTurnout p t { x with
          phase := .draining, closeCmd := some c
          drainDue := if c.ex (c.u32 8) 0 = 0xFFFFFFFF then none else some (s.now + us * usec) }
        u.defer c 0 ((u.turnout p t).result t)) := by
  intro t x
  simp only [Normal.turnoutClose, Bool.and_eq_true, decide_eq_true_eq] at h
  obtain ⟨⟨⟨⟨⟨⟨⟨hp, hnamed⟩, hcore⟩, hlast⟩, hmode⟩, hused⟩, hslot⟩, hdraining⟩ := h
  have hexec : execTurnoutClose c s = _ := State.live_powered _ hp
  refine hexec.trans (congrArg _ ?_)
  simp only [hcore, Option.getD_some]
  rw [State.checked_pass (State.firstFail_coreChecks_append hnamed ?_)]
  have hagain : (!(c.u8 3 == 1) && (s.turnout p (c.u8 2)).phase == .draining) = false := by
    rw [← Bool.not_inj_iff, Bool.not_and, Bool.not_not]
    exact hdraining
  simp only [firstFail_cons_eq_none, badIf_eq_none, firstFail_nil, Bool.or_eq_false_iff, decide_eq_false_iff_not, hagain, not_lt]
  exact ⟨⟨⟨⟨hlast, beq_eq_false_iff_ne.2 (bne_iff_ne.1 hused)⟩, bne_eq_false_iff_eq.2 (beq_iff_eq.1 hslot)⟩, trivial⟩,
    hmode, trivial⟩

/-- R142: a closed turnout answers with its result. -/
theorem exec_turnoutClose_closed (s : State) (c : Command) (p : Nat) (h : Normal.turnoutClose s c p = true)
    (hclosed : (s.turnout p (c.u8 2)).phase = .closed) :
    exec (.turnoutClose c) s = .next (s.finish c stOk 0 ((s.turnout p (c.u8 2)).result (c.u8 2))) :=
  (exec_turnoutClose h).trans (congrArg _ (if_pos hclosed))

/-- R142: a close-now, or a turnout whose condition holds, closes at once. -/
theorem exec_turnoutClose_now (s : State) (c : Command) (p : Nat) (h : Normal.turnoutClose s c p = true)
    (hopen : (s.turnout p (c.u8 2)).phase ≠ .closed)
    (hends : c.u8 3 = 1 ∨ s.turnoutComplete p (s.turnout p (c.u8 2)) = true) :
    let u := s.closeTurnout p (c.u8 2) (c.u16 0) (if c.u8 3 = 1 then 1 else 0) (some c.hdr) stOk
      (if c.u8 3 = 1 then stCancelled else stOk) 0
    exec (.turnoutClose c) s = .next (u.finish c stOk 0 ((u.turnout p (c.u8 2)).result (c.u8 2))) := by
  intro u
  refine (exec_turnoutClose h).trans (congrArg _ ?_)
  rw [if_neg hopen]
  by_cases hnow : c.u8 3 = 1
  · simp only [u, hnow, if_true, beq_self_eq_true]
  · simp only [u, hnow, if_false, if_neg (mt beq_iff_eq.1 hnow), if_pos (hends.resolve_left hnow)]

/-- R142: a close-drain of a turnout whose condition does not hold waits for it, up to its limit. -/
theorem exec_turnoutClose_drain (s : State) (c : Command) (p : Nat) (h : Normal.turnoutClose s c p = true)
    (hopen : (s.turnout p (c.u8 2)).phase ≠ .closed) (hdrain : c.u8 3 = 0)
    (hmore : s.turnoutComplete p (s.turnout p (c.u8 2)) = false) :
    let us := if c.ex (c.u32 8) 0 = 0 then s.fld (uSpad p) 0x380 63 32 else c.ex (c.u32 8) 0
    let u := s.setTurnout p (c.u8 2) { s.turnout p (c.u8 2) with
      phase := .draining, closeCmd := some c, drainDue := if c.ex (c.u32 8) 0 = 0xFFFFFFFF then none else some (s.now + us * 1000) }
    exec (.turnoutClose c) s = .next (u.defer c 0 ((u.turnout p (c.u8 2)).result (c.u8 2))) := by
  intro us u
  have hlater : ¬ (c.u8 3 == 1) = true := by simp [hdrain]
  refine (exec_turnoutClose h).trans (congrArg _ ?_)
  rw [if_neg hopen, if_neg hlater, if_neg (Bool.eq_false_iff.1 hmore)]

/-- Settles O35: one lemma for each event and command, and for each way in which it ends. -/
theorem scratchpadComplete : Obligations.ScratchpadComplete :=
  ⟨exec_remoteWritePacket_accepted, exec_remoteWritePacket_refused, exec_writeRefused, exec_turnoutLate, exec_turnoutDrainLimit,
    exec_remoteRead, fun _ _ _ _ h => ⟨exec_spadScrub _ _ _ _ h true, exec_spadScrub _ _ _ _ h false⟩, exec_turnoutOpen,
    exec_turnoutClose_closed, exec_turnoutClose_now, exec_turnoutClose_drain⟩

end Sys2Proof.Machine
end

section
/-! SUPPORT and O32. The continuity engine's operations, as rows of the third slot (R144, R146-R155). -/

namespace Sys2Proof.Machine

/-- The command of a continuity row whose slot can act: its operation, and the time of Table 7.3 for which the engine is busy. -/
theorem State.live_contRow {s : State} {p : Nat} {t : Task} {kn : Kernel} {w cop : Nat}
    (h : Normal.slotReady s p t kn w 2 = true) (hop : cCop (bCont w) = cop) :
    s.live (fun s => s.contRow p cop) = .next (Normal.continuityDone s p t kn w) :=
  State.live_computeRow h (beq_iff_eq.2 hop)

/-- Settles O32: each operation is a row of the continuity slot. -/
theorem continuityComplete : Obligations.ContinuityComplete := by
  refine ⟨?_, ?_, ?_, ?_, ?_, ?_, ?_, ?_, ?_⟩ <;> exact fun _ _ _ _ _ h hop => State.live_contRow h hop

end Sys2Proof.Machine
end

section
/-! SUPPORT and O36. The scrubber of a continuity store, `cont_run` and its frame windows, one lemma for each (R156, R158-R160). -/

namespace Sys2Proof.Machine

/-- R156: the scrubber reads its line and finds its errors; the end of a pass is stamped. -/
theorem exec_contScrub (s : State) (p l e : Nat) (h : Normal.contScrub s p l = true) (passEnd : Bool) :
    let u := (s.contTouch p 0xFFFF [l]).contFound p l e 0xFFFF 0
    exec (.contScrub p l e passEnd) s = .next (if passEnd then u.setReg (uCont p) 0x030 u.now else u) := by
  intro u
  simp only [Normal.contScrub, Bool.and_eq_true] at h
  obtain ⟨⟨⟨⟨⟨hp, hcore⟩, hline⟩, hgated⟩, hwaking⟩, henabled⟩ := h
  change execContScrub p l e passEnd s = _
  refine State.live_onlyIf hp ?_
  simp only [hcore, hline, hgated, hwaking, henabled, Bool.and_self]

/-- R158: the rows of a `cont_run` become row tasks of up to 128 rows, each of the command's job and headgate. -/
theorem exec_contRun (s : State) (c : Command) (h : Normal.contRun s c = true) :
    ∃ ts : List Task, exec (.contRun c) s = .next (s.addRun c (s.cmdSlot c.hdr) (c.ex (c.u16 0x38) 0) false 0 ts) ∧
      ts.length = ceilDiv (c.u32 8) 128 ∧
      ∀ t ∈ ts, t.cmd = c.hdr ∧ t.slot = s.cmdSlot c.hdr ∧ t.headgate = (s.queue c.hdr.qkey).headgate := by
  simp only [Normal.contRun, Bool.and_eq_true, decide_eq_true_eq, beq_iff_eq] at h
  obtain ⟨⟨⟨⟨⟨⟨⟨⟨⟨⟨⟨⟨⟨⟨hp, hopMin⟩, hopMax⟩, hinFmt⟩, houtFmt⟩, hwidthMin⟩, hwidthMax⟩, hframes⟩, hrowsMin⟩, hrowsMax⟩,
    hbase⟩, hspill⟩, hsrc⟩, hdst⟩, hcores⟩ := h
  have hexec : execContRun c s = _ := State.live_checked (by
    simp [passes_iff, Nat.ne_of_gt hopMin, Nat.ne_of_gt hwidthMin, Nat.ne_of_gt hrowsMin, *])
  refine ⟨_, hexec, by simp, fun t ht => ?_⟩
  obtain ⟨i, -, rfl⟩ := List.mem_map.1 ht
  exact ⟨rfl, rfl, rfl⟩

/-- R160: a window that is empty or meets no other job's window on any of the cores takes no frame of theirs. -/
theorem State.windowTaken_eq_false {s : State} {ps : List Nat} {slot base n : Nat}
    (hapart : (n == 0 || ps.all fun p => (List.range 64).all fun j => j == slot || decide (base + n ≤ (s.window p j).base) ||
      decide ((s.window p j).base + (s.window p j).count ≤ base)) = true) :
    (n != 0 && ps.any fun p => (List.range 64).any fun j => j != slot && decide ((s.window p j).base < base + n) &&
      decide (base < (s.window p j).base + (s.window p j).count)) = false := by
  rw [← Bool.not_inj_iff]
  simpa only [Bool.not_and, bne, Bool.not_not, Bool.not_false, List.not_any_eq_all_not, ← decide_not, not_lt] using hapart

/-- R159, R160: the window takes effect on the cores that run no task of the job; the others take it at their task's end, and the
command is answered after them. -/
theorem exec_contRunFrames (s : State) (c : Command) (h : Normal.contRunFrames s c = true) :
    let slot := s.cmdSlot c.hdr
    let w : FrameWindow := if c.u16 6 = 0 then {} else ⟨c.u16 0xC, c.u16 6, c.u16 0xE⟩
    let busy := (s.jobPhys slot).filter fun p => s.runsJob p slot
    let u := ((s.jobPhys slot).filter fun p => !s.runsJob p slot).foldl (fun s p => s.applyWindow p slot w) s
    ∃ result, exec (.contRunFrames c) s = .next (if busy.isEmpty then u.finish c stOk 0 result
      else State.defer { u with conts := { u.conts with pending := u.conts.pending ++ [⟨c, slot, w, busy⟩] } } c 0 result) := by
  intro slot w busy u
  simp only [Normal.contRunFrames, Bool.and_eq_true, decide_eq_true_eq, beq_iff_eq] at h
  obtain ⟨⟨⟨⟨⟨⟨⟨⟨⟨⟨hp, hop⟩, hinFmt⟩, houtFmt⟩, hwidth⟩, hcount⟩, hrows⟩, hbase⟩, hend⟩, hspill⟩, hapart⟩ := h
  have hfree := State.windowTaken_eq_false hapart
  have hexec : execContRunFrames c s = _ := State.live_checked (by
    simp only [passes_iff, firstFail_cons_eq_none, badIf_eq_none, failIf_eq_none, firstFail_nil, hfree]
    simp [*])
  exact ⟨_, hexec⟩

/-- Settles O36: one lemma for each command and event. -/
theorem continuityCommandsComplete : Obligations.ContinuityCommandsComplete :=
  ⟨fun _ _ _ _ h => ⟨exec_contScrub _ _ _ _ h true, exec_contScrub _ _ _ _ h false⟩, exec_contRun, exec_contRunFrames⟩

end Sys2Proof.Machine
end

section
/-! SUPPORT and O38. The commands of streams, pools and claps, one lemma for each (R162, R167, R180, R183, R186-R189). -/

namespace Sys2Proof.Machine

@[simp] theorem State.stream_setStream_self (s : State) (id : Nat) (x : Stream) : (s.setStream id x).stream id = x :=
  TMap.get_insert_self ..
@[simp] theorem State.pool_setPool_self (s : State) (slot pool : Nat) (x : Pool) : (s.setPool slot pool x).pool slot pool = x :=
  TMap.get_insert_self ..

/-- R167, R186: the pool takes the lowest turnout and the lowest take region that are free on every core of the job. -/
theorem exec_streamOpenPool (s : State) (c : Command) (h : Normal.streamOpenPool s c = true) :
    ∃ (u : State) (t k : Nat), exec (.streamOpenPool c) s = .next (u.finish c stOk 0 (le 1 t ++ le 1 k ++ le 6 0)) ∧
      s.freePoolTurnout (s.cmdPhys c) = some t ∧ s.freeTakeRegion (s.cmdPhys c) = some k ∧
      u.pool (s.cmdSlot c.hdr) (c.u8 1) = ⟨true, c.u16 6, c.u16 2, c.u16 4, t, k⟩ := by
  simp only [Normal.streamOpenPool, Bool.and_eq_true, Option.isNone_iff_eq_none] at h
  obtain ⟨hp, hchecks⟩ := h
  have hfree := hchecks
  simp only [State.openPoolChecks, firstFail_cons_eq_none, failIf_eq_none, Bool.or_eq_false_iff, Option.isNone_eq_false_iff,
    Option.isSome_iff_exists] at hfree
  obtain ⟨-, -, -, -, -, ⟨⟨t, ht⟩, ⟨k, hk⟩⟩, -⟩ := hfree
  have hexec : execStreamOpenPool c s = _ := State.live_checked (passes_iff.2 ⟨hp, hchecks⟩)
  simp only [ht, hk, Option.getD_some] at hexec
  exact ⟨_, t, k, hexec, ht, hk, State.pool_setPool_self ..⟩

/-- R186: the id of the stream that opens is the one named, or the lowest that is not open. -/
theorem streamOpen_takes {named : Nat} {idle : Option Nat} {id : Nat}
    (h : (if named = 0xFFFF then decide (idle = some id) else named == id) = true) :
    (if named = 0xFFFF then idle.getD 0 else named) = id := by
  split_ifs at h ⊢
  · rw [of_decide_eq_true h, Option.getD_some]
  · exact eq_of_beq h

/-- R162, R186: the stream opens on its lanes with the stages that the command names. -/
theorem exec_streamOpen (s : State) (c : Command) (id : Nat) (h : Normal.streamOpen s c id = true) :
    ∃ u : State, exec (.streamOpen c) s = .next (u.finish c stOk 0
        (le 2 id ++ le 2 (s.firstLane c) ++ le 1 (c.u8 5) ++ le 1 (c.u8 4) ++ le 2 0)) ∧
      (u.stream id).isOpen = true ∧ (u.stream id).slot = s.cmdSlot c.hdr ∧ (u.stream id).pool = c.u8 4 ∧
      (u.stream id).lanes = c.u8 5 ∧ (u.stream id).firstCore = s.firstLane c ∧ (u.stream id).borrowMax = c.u8 8 ∧
      (u.stream id).phase = (if bitAt (c.u8 9) 0 then .standby else .idle) ∧ (u.stream id).runs = [] ∧
      (u.stream id).headgate = (s.queue c.hdr.qkey).headgate := by
  simp only [Normal.streamOpen, Bool.and_eq_true, Option.isNone_iff_eq_none] at h
  obtain ⟨⟨hp, hchecks⟩, hid⟩ := h
  have hexec : execStreamOpen c s = _ := State.live_checked (passes_iff.2 ⟨hp, hchecks⟩)
  simp only [streamOpen_takes hid] at hexec
  refine ⟨_, hexec, ?_⟩
  simp only [State.stream_setStream_self, and_self]

theorem Normal.streamNamed_eq (s : State) (c : Command) (id : Nat) : Normal.streamNamed s c id = s.streamNamed c id := rfl

/-- R187: the run joins the runs of its stream, which is RUNNING. -/
theorem exec_streamRun (s : State) (c : Command) (h : Normal.streamRun s c = true) :
    exec (.streamRun c) s = .next (s.setStream (c.u16 0) { s.stream (c.u16 0) with
      phase := .running
      runs := (s.stream (c.u16 0)).runs ++ [⟨c, c.u32 4, c.u64 8, c.u8 2, c.u16 0x10, c.u16 0x12, c.ex (c.u64 0x18) 0⟩] }) := by
  simp only [Normal.streamRun, Normal.streamNamed_eq, Bool.and_eq_true, bne_iff_ne, decide_eq_true_eq] at h
  obtain ⟨⟨⟨⟨⟨⟨⟨⟨hp, hnamed⟩, hcancelling⟩, hfaulted⟩, hclap⟩, hsome⟩, hiters⟩, hwarm⟩, hwarmIters⟩ := h
  change execStreamRun c s = _
  refine State.live_checked (passes_iff.2 ⟨hp, ?_⟩)
  simpa [hnamed, hcancelling, hfaulted, hsome, hiters, hwarmIters, or_iff_not_imp_left] using And.intro hclap hwarm

/-- `stream_cancel` first cancels the stream's decodes; a stream without runs is then done (R180, R188). -/
theorem exec_streamCancel {s : State} {c : Command} (h : Normal.streamCancel s c = true) :
    let x := s.stream (c.u16 0)
    let s0 := s.cancelDecodes fun d => d.slot == s.cmdSlot c.hdr && d.stream == c.u16 0
    let s1 := s0.bump uResv 0x038 7 0 1
    let s2 := (s1.setStream (c.u16 0) { x with
      phase := .cancelling, ending := some (stCancelled, 0), cancelCmd := some c, cancelAt := s1.now
      drainedAt := s1.now }).dropUnplaced (c.u16 0)
    exec (.streamCancel c) s = .next (if x.runs.isEmpty = true then s0.finish c stOk 0 (le 24 0)
      else (x.runs.drop 1).foldl (fun s r => s.finish r.cmd stCancelled 0 [])
        (s2.setStream (c.u16 0) { s2.stream (c.u16 0) with runs := x.runs.take 1 })) := by
  simp only [Normal.streamCancel, Normal.streamNamed_eq, Bool.and_eq_true, bne_iff_ne] at h
  obtain ⟨⟨hp, hnamed⟩, hphase⟩ := h
  change execStreamCancel c s = _
  refine State.live_checked (passes_iff.2 ⟨hp, ?_⟩)
  simp [hnamed, hphase]

/-- R188: a cancel of a stream without runs has nothing more to end. -/
theorem exec_streamCancel_idle (s : State) (c : Command) (h : Normal.streamCancel s c = true)
    (hruns : (s.stream (c.u16 0)).runs = []) :
    exec (.streamCancel c) s = .next
      ((s.cancelDecodes fun d => d.slot == s.cmdSlot c.hdr && d.stream == c.u16 0).finish c stOk 0 (le 24 0)) := by
  rw [exec_streamCancel h, hruns]
  rfl

/-- R180, R188: what the first run has not placed is dropped, and the runs behind it end CANCELLED. -/
theorem exec_streamCancel_running (s : State) (c : Command) (r : StreamRun) (rest : List StreamRun)
    (h : Normal.streamCancel s c = true) (hruns : (s.stream (c.u16 0)).runs = r :: rest) :
    let s1 := (s.cancelDecodes fun d => d.slot == s.cmdSlot c.hdr && d.stream == c.u16 0).bump uResv 0x038 7 0 1
    let s2 := (s1.setStream (c.u16 0) { s.stream (c.u16 0) with
      phase := .cancelling, ending := some (stCancelled, 0), cancelCmd := some c, cancelAt := s1.now
      drainedAt := s1.now }).dropUnplaced (c.u16 0)
    exec (.streamCancel c) s = .next (rest.foldl (fun s r => s.finish r.cmd stCancelled 0 [])
      (s2.setStream (c.u16 0) { s2.stream (c.u16 0) with runs := [r] })) := by
  intro s1 s2
  refine (exec_streamCancel h).trans (congrArg _ ?_)
  have hempty : ¬ (s.stream (c.u16 0)).runs.isEmpty = true := by simp [hruns]
  have hbehind : (s.stream (c.u16 0)).runs.drop 1 = rest := by rw [hruns]; rfl
  have hfirst : (s.stream (c.u16 0)).runs.take 1 = [r] := by rw [hruns]; rfl
  rw [if_neg hempty, hbehind, hfirst]

/-- R188: a stream without runs is closed at once; else the close waits for its last run. -/
theorem exec_streamClose (s : State) (c : Command) (h : Normal.streamClose s c = true) :
    exec (.streamClose c) s = .next (if (s.stream (c.u16 0)).runs.isEmpty then (s.freeStream (c.u16 0)).finish c stOk 0 []
      else (s.setStream (c.u16 0) { s.stream (c.u16 0) with closeCmd := some c }).defer c 0 []) := by
  simp only [Normal.streamClose, Normal.streamNamed_eq, Bool.and_eq_true, beq_iff_eq, Option.isNone_iff_eq_none] at h
  obtain ⟨⟨⟨⟨hp, hop⟩, hnamed⟩, hclose⟩, hpool⟩ := h
  have hexec : execStreamClose c s = _ := State.live_powered _ hp
  refine hexec.trans (congrArg _ ?_)
  rw [if_pos hop, State.checked_pass]
  simp [hnamed, hclose, hpool]

/-- R188: a pool that no stream uses is gone. -/
theorem exec_streamClose_pool (s : State) (c : Command) (h : Normal.poolClose s c = true) :
    ∃ u : State, exec (.streamClose c) s = .next ((u.setPool (s.cmdSlot c.hdr) (c.u8 3) {}).finish c stOk 0 []) := by
  simp only [Normal.poolClose, Bool.and_eq_true, beq_iff_eq, decide_eq_true_eq] at h
  obtain ⟨⟨⟨⟨⟨hp, hop⟩, hid⟩, hunused⟩, hlast⟩, hvalid⟩ := h
  have hexec : execStreamClose c s = _ := State.live_powered _ hp
  rw [if_neg (by simp [hop]), State.checked_pass (by simp [hop, hid, hunused, hlast, hvalid])] at hexec
  exact ⟨_, hexec⟩

/-- The checks of `clap_set` (R189). -/
def State.clapSetChecks (s : State) (c : Command) : List Check :=
  let old := s.clap (s.cmdSlot c.hdr) (c.u8 0)
  let limit := if c.hdr.expert then c.u32 8 else s.fld uResv 0x040 39 24
  [badIf (63 < c.u8 0) 0, badIf (1 < c.u8 1) 1,
   badIf (288 < c.u16 2 || (old.any fun k => !k.broken && k.arrived != 0)) 2,
   badIf (1 < c.u8 4) 4,
   badIf (c.hdr.expert && (limit < 10 || 4000000 < limit)) 8,
   failIf (c.u8 1 == 1 && (s.fjob (s.cmdSlot c.hdr)).recut.isSome) stEpochBusy 1,
   failIf (old.isNone && c.u16 2 != 0 && 1024 ≤ s.streams.claps.length) stNoResource 0x53]

/-- A clap on which nobody has arrived, or which is broken, is not in use (R189). -/
theorem clap_idle_iff {k : Option Clap} :
    k.all (fun k => k.broken || k.arrived == 0) = true ↔ (k.any fun k => !k.broken && k.arrived != 0) = false := by
  cases k <;> simp [or_iff_not_imp_left]

theorem clapSet_passes {s : State} {c : Command} (h : Normal.clapSet s c = true) :
    Normal.passes s (s.clapSetChecks c) = true := by
  simp only [Normal.clapSet, Bool.and_eq_true, decide_eq_true_eq] at h
  obtain ⟨⟨⟨⟨⟨⟨⟨⟨hp, hclap⟩, hscope⟩, hmembers⟩, hidle⟩, hflush⟩, hlimit⟩, hepoch⟩, hroom⟩ := h
  rw [clap_idle_iff] at hidle
  have hrange : (c.hdr.expert && (decide ((if c.hdr.expert then c.u32 8 else s.fld uResv 0x040 39 24) < 10) ||
      decide (4000000 < if c.hdr.expert then c.u32 8 else s.fld uResv 0x040 39 24))) = false := by
    cases hexpert : c.hdr.expert
    · rfl
    · simpa [hexpert] using hlimit
  refine passes_iff.2 ⟨hp, ?_⟩
  simp only [State.clapSetChecks, firstFail_cons_eq_none, badIf_eq_none, failIf_eq_none, firstFail_nil, Bool.or_eq_false_iff,
    decide_eq_false_iff_not, not_lt, hclap, hscope, hmembers, hidle, hflush, hrange, true_and, and_true]
  constructor
  · rcases Bool.or_eq_true_iff.1 hepoch with hlocal | hnone
    · simp [eq_of_beq hlocal]
    · simp [Option.isNone_iff_eq_none.1 hnone]
  · simpa [or_iff_not_imp_left, Option.isSome_iff_ne_none] using hroom

/-- R183, R189: the clap is set, with its generation going on, or removed; a fabric clap takes the arrivals that came early. -/
theorem exec_clapSet (s : State) (c : Command) (h : Normal.clapSet s c = true) :
    let slot := s.cmdSlot c.hdr
    let gen := ((s.clap slot (c.u8 0)).map (·.generation)).getD 0
    let s1 : State :=
      if c.u16 2 = 0 then { s with streams := { s.streams with claps := s.streams.claps.erase (clapKey slot (c.u8 0)) } }
      else s.setClap slot (c.u8 0)
        { broken := false, fabric := c.u8 1 == 1, flush := c.u8 4 == 1, members := c.u16 2, generation := gen, hdr := c.hdr
          limitUs := if c.hdr.expert then c.u32 8 else s.fld uResv 0x040 39 24 }
    let s2 := if c.u16 2 ≠ 0 ∧ c.u8 1 = 1 then s1.clapEarly slot (c.u8 0) else s1
    exec (.clapSet c) s = .next (s2.finish c stOk 0 (le 4 gen ++ le 4 0)) := by
  intro slot gen s1 s2
  have hexec : execClapSet c s = _ := State.live_checked (l := (·.clapSetChecks c)) (clapSet_passes h)
  have hfabric : (c.u16 2 != 0 && c.u8 1 == 1) = true ↔ c.u16 2 ≠ 0 ∧ c.u8 1 = 1 := by simp
  exact hexec.trans (congrArg (fun u : State => Host.Outcome.next (u.finish c stOk 0 (le 4 gen ++ le 4 0)))
    (if_congr hfabric rfl rfl))

/-- Settles O38: one lemma for each command; a cancel of a stream with and without runs, a close of a stream and of a pool. -/
theorem streamCommandsComplete : Obligations.StreamCommandsComplete :=
  ⟨exec_streamOpenPool, exec_streamOpen, exec_streamRun, exec_streamCancel_idle, exec_streamCancel_running, exec_streamClose,
    exec_streamClose_pool, exec_clapSet⟩

end Sys2Proof.Machine
end

section
/-! SUPPORT. A read of memory and a fill of the reservoir touch neither the streams nor the scratchpads (R179), and translation does
not look at the streams (R254). -/

namespace Sys2Proof.Machine

@[simp] theorem State.countGranules_streams (s : State) (pa off n : Nat) : (s.countGranules pa off n).streams = s.streams := by
  unfold State.countGranules; split <;> simp

@[simp] theorem State.countGranules_spads (s : State) (pa off n : Nat) : (s.countGranules pa off n).spads = s.spads := by
  unfold State.countGranules; split <;> simp

@[simp] theorem State.memFound_streams (s : State) (pa errors sub flags : Nat) :
    (s.memFound pa errors sub flags).streams = s.streams := by
  unfold State.memFound
  split
  · rfl
  · split_ifs <;> simp

@[simp] theorem State.memFound_spads (s : State) (pa errors sub flags : Nat) :
    (s.memFound pa errors sub flags).spads = s.spads := by
  unfold State.memFound
  split
  · rfl
  · split_ifs <;> simp

@[simp] theorem State.memTouch_streams (s : State) (pa n : Nat) : (s.memTouch pa n).streams = s.streams := by
  simp only [State.memTouch, State.countGranules_streams]
  exact foldl_field State.streams _ (fun _ _ => State.memFound_streams ..) _ _

@[simp] theorem State.memTouch_spads (s : State) (pa n : Nat) : (s.memTouch pa n).spads = s.spads := by
  simp only [State.memTouch, State.countGranules_spads]
  exact foldl_field State.spads _ (fun _ _ => State.memFound_spads ..) _ _

@[simp] theorem State.resvFill_streams_streams (s : State) (pa slot stream count : Nat) (headgate : Bool) (data : List Byte)
    (poison : Bool) : (s.resvFill pa slot stream count headgate data poison).streams.streams = s.streams.streams := by
  simp only [State.resvFill]
  split_ifs
  · rfl
  · rfl
  · split <;> rfl

@[simp] theorem State.resvFill_spads (s : State) (pa slot stream count : Nat) (headgate : Bool) (data : List Byte)
    (poison : Bool) : (s.resvFill pa slot stream count headgate data poison).spads = s.spads := by
  simp only [State.resvFill]
  split_ifs
  · rfl
  · rfl
  · split <;> rfl

@[simp] theorem State.entryAt_setStream (s : State) (id a : Nat) (x : Stream) : (s.setStream id x).entryAt a = s.entryAt a := rfl
@[simp] theorem State.map_setStream (s : State) (id slot : Nat) (x : Stream) : (s.setStream id x).map slot = s.map slot := rfl
@[simp] theorem State.vacant_setStream (s : State) (id pa : Nat) (x : Stream) : (s.setStream id x).vacant pa = s.vacant pa := rfl
@[simp] theorem State.guardHit_setStream (s : State) (id slot va n : Nat) (x : Stream) :
    (s.setStream id x).guardHit slot va n = s.guardHit slot va n := rfl

@[simp] theorem State.walk_setStream (s : State) (id : Nat) (x : Stream) (va : Nat) (write : Bool)
    (levels : List (Nat × Nat × Nat)) (table : Nat) :
    (s.setStream id x).walk va write levels table = s.walk va write levels table := by
  induction levels generalizing table with
  | nil => rfl
  | cons level rest ih =>
    unfold State.walk
    rw [State.entryAt_setStream]
    simp only [ih]

@[simp] theorem State.translate_setStream (s : State) (id : Nat) (x : Stream) (slot va : Nat) (write : Bool) :
    (s.setStream id x).translate slot va write = s.translate slot va write := by
  unfold State.translate
  rw [State.map_setStream, State.walk_setStream]
  cases s.walk va write walkLevels (s.map slot).pool with
  | error f => rfl
  | ok pa =>
    dsimp only
    rw [State.vacant_setStream, State.guardHit_setStream]

@[simp] theorem State.vcheck_setStream (s : State) (id : Nat) (x : Stream) (slot va n : Nat) (write : Bool) :
    (s.setStream id x).vcheck slot va n write = s.vcheck slot va n write := by
  simp only [State.vcheck, State.translate_setStream]

/-- The streams are told by the record of the streams. -/
theorem State.stream_congr {s t : State} (h : t.streams = s.streams) (id : Nat) : t.stream id = s.stream id := by
  simp only [State.stream, h]

end Sys2Proof.Machine
end

section
/-! SUPPORT and O39. What streams do by themselves, one lemma for each event (R163-R166, R168, R171, R173, R176, R179-R181, R183). -/

namespace Sys2Proof.Machine

/-- R163: a stream fetches on a powered device while it is open and runs, for a source of its own. -/
theorem streamFetching_iff {s : State} {id stage : Nat} : Normal.streamFetching s id stage = true ↔ s.powered = true ∧
    ((s.stream id).isOpen && (s.stream id).phase == .running && (s.stream id).ending.isNone &&
      (s.stream id).sources.contains stage && !s.closing (s.stream id).slot) = true := by
  simp only [Normal.streamFetching, Bool.and_eq_true, and_assoc]

/-- R163, R168: a slot granted to the ring of a FETCH stage is taken, and the data fill it. -/
theorem exec_streamFetch_granted (s : State) (id iter stage idx : Nat) (h : Normal.slotGranted s id iter stage idx = true)
    (hkind : ((s.stream id).stage stage).kind = 1) :
    let x := s.stream id
    let c := x.laneCore (iter % x.lanes)
    let y : Stream := { x with
      granted := x.granted ++ [⟨iter % x.lanes, stage, iter, idx, false, []⟩]
      waiting := x.waiting.erase (iter % x.lanes * 8 + stage) }
    let s1 := s.setStream id { y with peakBorrowed := max y.peakBorrowed y.borrowed }
    ∀ data gens u, s1.fetchData id iter stage = (.ok (data, gens), u) →
    let v := u.fillSlot x.slot c ((s.pool x.slot x.pool).line idx) data
    exec (.streamFetch id iter stage) s = .next ((v.setStream id { v.stream id with
      granted := (v.stream id).granted.map fun w =>
        if w.stage == stage && w.iter == iter then { w with filled := true, gens := gens } else w }).noteProgress x.slot x.pool c) := by
  intro x c y s1 data gens u hdata v
  simp only [Normal.slotGranted, Bool.and_eq_true, decide_eq_true_eq] at h
  obtain ⟨⟨⟨⟨hfetching, hfresh⟩, hidx⟩, hgrant⟩, hnext⟩ := h
  obtain ⟨hp, hruns⟩ := streamFetching_iff.1 hfetching
  have hexec : execStreamFetch id iter stage s = _ := State.live_onlyIf hp hruns
  refine hexec.trans (congrArg _ ?_)
  have hkind2 : ¬ ((s.stream id).stage stage).kind = 2 := by simp [hkind]
  dsimp only
  rw [List.find?_eq_none.2 (List.any_eq_false.1 (Bool.not_eq_true' _ ▸ hfresh)), hidx]
  dsimp only
  rw [if_pos (by simp [hgrant, hnext]), if_neg hkind2, hdata]

/-- R168, R181: a ring that the next slot is not granted to waits for it. -/
theorem exec_streamFetch_waits (s : State) (id iter stage : Nat) (h : Normal.streamFetching s id stage = true)
    (hfresh : ((s.stream id).granted.any fun u => u.stage == stage && u.iter == iter && !u.filled) = false)
    (hgrant : s.grantOne (s.stream id).slot (s.stream id).pool ((s.stream id).laneCore (iter % (s.stream id).lanes)) ≠
      some (id, stage)) :
    exec (.streamFetch id iter stage) s = .next
      (s.setStream id ((s.stream id).wait (iter % (s.stream id).lanes * 8 + stage) s.now)) := by
  obtain ⟨hp, hruns⟩ := streamFetching_iff.1 h
  have hexec : execStreamFetch id iter stage s = _ := State.live_onlyIf hp hruns
  refine hexec.trans (congrArg _ ?_)
  dsimp only
  rw [List.find?_eq_none.2 (List.any_eq_false.1 hfresh)]
  dsimp only
  split
  · rw [if_neg (by simp [hgrant])]
  · rfl

/-- R164, R165: the task of an iteration starts on its lane's core, with the output slots that it takes. -/
theorem exec_streamTaskPlace (s : State) (id iter p : Nat) (r : StreamRun) (outs : List SlotUse)
    (h : Normal.streamTaskPlace s id iter p r outs = true) :
    let x := s.stream id
    let u := s.setStream id { x with placed := x.placed ++ [⟨iter, false, outs⟩] }
    ∃ args, exec (.streamTaskPlace id iter) s = .next (u.startTask p ⟨r.cmd.hdr, 0, x.slot, x.headgate, x.kernelStage.kernel, iter,
      [x.laneCore (iter % x.lanes)], 0, 0, [], .stream id iter 0, s.now⟩ args) := by
  intro x u
  simp only [Normal.streamTaskPlace, Bool.and_eq_true, decide_eq_true_eq, Bool.not_eq_true'] at h
  obtain ⟨⟨⟨⟨⟨⟨⟨⟨⟨⟨⟨⟨⟨⟨⟨hp, hrun⟩, hcore⟩, houts⟩, hphase⟩, hending⟩, hfirst⟩, hlast⟩, hfilled⟩, hdemand⟩, hunplaced⟩, hfree⟩,
    hmay⟩, hgate⟩, hargs⟩, hdebug⟩ := h
  have hexec : execStreamTaskPlace id iter s = _ := State.live_powered _ hp
  dsimp only at hexec
  rw [hrun, hcore, houts] at hexec
  dsimp only at hexec
  rw [State.onlyIf_of, hdebug, if_neg Bool.false_ne_true, State.vcheck_setStream, if_neg] at hexec
  · exact ⟨_, hexec⟩
  · simpa [or_iff_not_imp_left] using hargs
  · simp only [hphase, hending, decide_eq_true hfirst, decide_eq_true hlast, hfilled, hdemand, hunplaced, hfree, hmay, hgate,
      Bool.not_false, Bool.and_self]

/-- R163, R166: the output slot's lines are stored, its range is emptied and it is free; the last of them ends the iteration. -/
theorem exec_streamStore (s : State) (id iter stage p : Nat) (q : Placed) (u : SlotUse)
    (h : Normal.streamStore s id iter stage p q u = true) :
    let x := s.stream id
    let line := (s.pool x.slot x.pool).line u.index
    let n := (x.stage stage).bytes / 128
    let w := (s.spadTouch p x.slot ((List.range n).map (line + ·))).storeOut p x.slot line ((x.stage stage).address iter x.lanes) n
    let v := w.1.setEmptyRange p line (w.1.pool x.slot x.pool).slotLines
    let rest := q.outs.filter fun w => w.stage != stage
    let v := v.setStream id { v.stream id with
      placed := (v.stream id).placed.map fun z => if z.iter == iter then { z with outs := rest } else z }
    w.2 = none → exec (.streamStore id iter stage) s = .next (if rest.isEmpty then v.iterDone id iter else v) := by
  intro x line n w v rest v' hstored
  simp only [Normal.streamStore, Bool.and_eq_true, decide_eq_true_eq] at h
  obtain ⟨⟨⟨⟨hp, hcore⟩, hplaced⟩, hrun⟩, hout⟩ := h
  obtain ⟨r, hrun⟩ := Option.isSome_iff_exists.1 hrun
  have hexec : execStreamStore id iter stage s = _ := State.live_powered _ hp
  refine hexec.trans (congrArg _ ?_)
  dsimp only
  rw [hcore, hplaced, hrun]
  dsimp only
  rw [hout]
  dsimp only
  simp only [w, n, line, x] at hstored
  rw [hstored]

/-- R179: a warm fetch fills lines of the reservoir and no slot. -/
theorem exec_warmFetch (s : State) (id iter stage : Nat) (h : Normal.warmFetch s id iter stage = true) :
    ∃ t, exec (.warmFetch id iter stage) s = .next t ∧ t.streams.streams = s.streams.streams ∧ t.spads.full = s.spads.full ∧
      t.spads.bytes = s.spads.bytes := by
  simp only [Normal.warmFetch, Bool.and_eq_true, Bool.or_eq_true] at h
  obtain ⟨⟨⟨⟨⟨hp, hopen⟩, hkind⟩, hweight⟩, hclosing⟩, hwarm⟩ := h
  have hexec : execWarmFetch id iter stage s = _ := State.live_onlyIf hp (by
    simp only [hopen, hkind, hweight, hclosing, Bool.true_and, Bool.and_true, Bool.or_eq_true, Bool.and_eq_true]
    exact hwarm.symm)
  refine ⟨_, hexec, ?_⟩
  suffices hkeep : (_, _) = (s.streams.streams, s.spads) from
    ⟨congrArg Prod.fst hkeep, congrArg (·.2.full) hkeep, congrArg (·.2.bytes) hkeep⟩
  refine foldl_field (fun t : State => (t.streams.streams, t.spads)) _ (fun t i => ?_) _ _
  split
  · rfl
  · dsimp only
    split
    · rfl
    · simp

/-- R181: a ring that waits too long is reported, once until the next progress. -/
theorem exec_creditWatchdog (s : State) (id lane stage : Nat) (e : Nat × Nat)
    (h : Normal.creditWatchdog s id lane stage e = true) (hstall : (s.stream id).stallAction ≠ 1) :
    ∃ t, exec (.creditWatchdog id lane stage) s = .next t ∧ (t.stream id).deadlockAt = some s.now := by
  simp only [Normal.creditWatchdog, Bool.and_eq_true, decide_eq_true_eq] at h
  obtain ⟨⟨⟨⟨⟨⟨hp, hopen⟩, hphase⟩, hwaits⟩, hlong⟩, hidle⟩, hunreported⟩ := h
  have hexec : execCreditWatchdog id lane stage s = _ := State.live_powered _ hp
  dsimp only at hexec
  rw [hwaits] at hexec
  dsimp only at hexec
  rw [State.onlyIf_of, if_neg hstall] at hexec
  · refine ⟨_, hexec, ?_⟩
    split
    · rw [State.stream_congr (State.recordCmd_streams ..), State.stream_setStream_self]
      rfl
    · rw [State.stream_setStream_self]
      rfl
  · simp only [hopen, hphase, hunreported, decide_eq_true hlong, decide_eq_true hidle, Bool.and_self]

/-- R183: a clap breaks when a core has waited LIMIT_US at it. -/
theorem exec_clapLimit (s : State) (slot n : Nat) (k : Clap) (h : Normal.clapLimit s slot n k = true) :
    exec (.clapLimit slot n) s = .next (s.breakClap slot n) := by
  simp only [Normal.clapLimit, Bool.and_eq_true, decide_eq_true_eq] at h
  obtain ⟨⟨⟨hp, hclap⟩, hwhole⟩, hlate⟩ := h
  change execClapLimit slot n s = _
  refine State.live_onlyIf hp ?_
  simp only [hclap, Option.any_some, hwhole, Bool.true_and]
  exact hlate

/-- R176: with no injected error in its line, the scrubber leaves the reservoir, and logs the wrong bit that it corrects. -/
theorem exec_resvScrub {s : State} {l errors : Nat} (h : Normal.resvScrub s l = true) (herrors : errors ≤ 1) :
    exec (.resvScrub l errors false) s = .next (if errors = 0 then s
      else (s.bump uResv 0x028 63 32 1).logError { type := 0x22, cls := 0, unit := uResv, sub := l }) := by
  simp only [Normal.resvScrub, Bool.and_eq_true, List.all_eq_true, bne, ← Bool.not_and] at h
  obtain ⟨⟨⟨hp, hline⟩, henabled⟩, hclean⟩ := h
  have hnone : s.diag.injected.filter (fun x => x.unit == uResv && x.sub == l) = [] := by
    simpa only [List.filter_eq_nil_iff, Bool.not_eq_true, Bool.not_eq_true'] using hclean
  have hexec : execResvScrub l errors false s = _ := State.live_onlyIf hp (by simp only [hline, henabled, Bool.and_self])
  refine hexec.trans (congrArg _ ?_)
  simp only [hnone, List.filter_eq_self.2 hclean, List.head?_nil, Bool.false_eq_true, if_false]
  rcases Nat.le_one_iff_eq_zero_or_eq_one.1 herrors with rfl | rfl <;> rfl

/-- R180: the last discarded read of a cancelled stream has arrived, and the run may end. -/
theorem exec_readDrainComplete_stream (s : State) (id n : Nat) (h : Normal.streamDrained s id = true) :
    exec (.readDrainComplete false id n) s = .next ((s.setStream id { s.stream id with
      drained := true, discarded := n, drainedAt := s.now }).tryEndRun id) := by
  simp only [Normal.streamDrained, Bool.and_eq_true] at h
  obtain ⟨⟨hp, hcancel⟩, hdrained⟩ := h
  have hexec : execReadDrainComplete false id n s = _ := State.live_powered _ hp
  refine hexec.trans (congrArg _ ?_)
  simp only [Bool.false_eq_true, if_false, State.streamDrained, hcancel, hdrained, Bool.and_self, if_true]

/-- Settles O39: one lemma for each event; a fetch that is granted its slot and one that waits. -/
theorem streamEventsComplete : Obligations.StreamEventsComplete :=
  ⟨exec_streamFetch_granted, exec_streamFetch_waits, exec_streamTaskPlace, exec_streamStore, exec_warmFetch, exec_creditWatchdog,
    exec_clapLimit, fun _ _ h => exec_resvScrub h (by decide), fun _ _ h => exec_resvScrub h (by decide),
    exec_readDrainComplete_stream⟩

end Sys2Proof.Machine
end

section
/-! SUPPORT and O37. PUSH, POP, HOLD and RELEASE as rows of a TRANSFER bundle that acts on the job's reel unit (R195-R198). -/

namespace Sys2Proof.Machine

/-- The command of a reel row that can act: its effect on the unit of the core's logical id, which is the job's (R195). -/
theorem State.live_reelRow {s : State} {p : Nat} {t : Task} {kn : Kernel} {b port fid : Nat} {mine : Nat → Nat → Bool}
    {effect : Task → Nat → Nat → Nat → State → State} (h : Normal.reelReady s p t kn b port fid = true)
    (hmine : mine (tXop b) port = true) (hport : tXop b = 1 ↔ port = 0) :
    let u := Normal.transferState s p t kn b
    s.live (fun s => s.reelRow p mine effect) = .next (effect t b (u.logicalOf p) fid u) := by
  simp only [Normal.reelReady, Bool.and_eq_true, decide_eq_true_eq, beq_iff_eq] at h
  obtain ⟨⟨hready, hone⟩, hslot⟩ := h
  have hrow : s.live (fun s => s.reelRow p mine effect) = _ := State.live_transferRow hready hmine
  have hright : (if tXop b = 1 then port = 0 else port ≠ 0) := by
    split
    · exact hport.1 ‹_›
    · exact mt hport.2 ‹_›
  refine hrow.trans (congrArg _ (if_neg ?_))
  simp only [hone, hslot, decide_eq_true hright, ne_eq, not_true, decide_false, Bool.not_true, Bool.or_self,
    Bool.false_eq_true, not_false_eq_true]

/-- R197: PUSH puts the marker of its line on top; with room above the top, nothing spills. -/
theorem exec_pushFrame (s : State) (p : Nat) (t : Task) (kn : Kernel) (b fid : Nat)
    (h : Normal.pushFrame s p t kn b fid = true) :
    let u := Normal.transferState s p t kn b
    let x := u.reel (u.logicalOf p)
    let raw := u.line p (tLocal b)
    let m : Marker := ⟨fid, leAt raw 2 1, leAt raw 4 4, leAt raw 0xC 4, leAt raw 0x10 2, raw, x.depth, u.now⟩
    exec (.pushFrame p) s = .next (((u.setReel (u.logicalOf p) { x with
      marks := m :: x.marks, depth := x.depth + m.len, promised := m.next
      peakDepth := max x.peakDepth (x.depth + m.len) }).takeLines p [tLocal b]).transferDone p b 40) := by
  intro u x raw m
  simp only [Normal.pushFrame, Bool.and_eq_true, Bool.or_eq_true, Bool.not_eq_true', beq_iff_eq, bne_iff_ne,
    decide_eq_true_eq] at h
  obtain ⟨⟨⟨⟨⟨⟨⟨⟨hready, hput⟩, hclean⟩, hfid⟩, hstep⟩, hmarker⟩, hmarks⟩, hplace⟩, hroom⟩ := h
  have hexec : execPushFrame p s = _ := State.live_reelRow hready (beq_iff_eq.2 hput) (by simp [hput])
  refine hexec.trans (congrArg _ ?_)
  dsimp only
  rw [if_neg (by simp [hclean]), if_neg (by simp [hfid, hstep, hmarker]), if_neg hmarks, if_neg, Nat.sub_eq_zero_of_le hroom]
  · rfl
  · rcases hplace with hmark | ⟨⟨hpromised, hfirst⟩, hend⟩
    · simp [hmark]
    · rw [hfirst] at hend
      simp [hfirst, Nat.not_lt.2 hpromised, Nat.not_lt.2 hend]

/-- R198: POP and HOLD of the top frame, none of which has spilled: its marker comes off and is written back, and the lines of the
frame that was being read are emptied. -/
theorem State.popFrame_unspilled {s : State} {p : Nat} {t : Task} {b c fid : Nat} {hold : Bool} {m : Marker} {rest : List Marker}
    (hmarks : (s.reel c).marks = m :: rest) (hfid : m.fid = fid) (hmark : m.kind = 1 → (s.reel c).held = [])
    (hhold : hold = true → m.kind = 2 ∧ (s.reel c).held.length ≠ 64)
    (hlow : min (s.reel c).low (s.reel c).depth ≤ m.position) :
    let x := s.reel c
    let old := match x.reading with | some r => if x.readingHeld then [] else r.lines | none => []
    let v := (old.foldl (fun s l => s.setEmpty p l) s).setReel c { x with
      low := min x.low m.position, depth := m.position, marks := rest, promised := 0
      reading := if m.kind = 2 then some m else none, readingHeld := hold
      held := if hold then x.held ++ [m] else x.held, refilled := satAdd 32 x.refilled 0 }
    s.popFrame p t b c fid hold =
      (v.storeLine p (tLocal b) (m.line 0 s.now) false).transferDone p b (40 + ceilDiv old.length 16) := by
  intro x old v
  rw [State.popFrame]
  dsimp only
  rw [hmarks]
  dsimp only
  rw [if_neg (not_not.2 hfid), if_neg, if_neg, if_neg, Nat.sub_eq_zero_of_le hlow, List.range_zero, List.map_nil,
    State.refill]
  · dsimp only
    rfl
  · rw [Bool.and_eq_true, decide_eq_true_eq]
    exact fun hfull => (hhold hfull.1).2 hfull.2
  · rw [Bool.and_eq_true, decide_eq_true_eq]
    exact fun hkind => hkind.2 (hhold hkind.1).1
  · rw [Bool.and_eq_true, decide_eq_true_eq]
    rintro ⟨hkind, hheld⟩
    rw [hmark hkind] at hheld
    cases hheld

/-- R198: what POP and HOLD find where their condition holds. -/
theorem conditions_of_popFrame {s : State} {p : Nat} {t : Task} {kn : Kernel} {b fid : Nat} {hold : Bool} {m : Marker}
    {rest : List Marker} (h : Normal.popFrame s p t kn b fid hold m rest = true) :
    Normal.reelReady s p t kn b (if hold then 2 else 1) fid = true ∧ tXop b = 0 ∧
    let u := Normal.transferState s p t kn b
    let x := u.reel (u.logicalOf p)
    x.marks = m :: rest ∧ m.fid = fid ∧ (m.kind = 1 → x.held = []) ∧ (hold = true → m.kind = 2 ∧ x.held.length ≠ 64) ∧
      min x.low x.depth ≤ m.position := by
  simp only [Normal.popFrame, Bool.and_eq_true, Bool.or_eq_true, Bool.not_eq_true', beq_iff_eq, bne_iff_ne, decide_eq_true_eq,
    List.isEmpty_iff] at h
  obtain ⟨⟨⟨⟨⟨⟨hready, hget⟩, hmarks⟩, hfid⟩, hmark⟩, hhold⟩, hlow⟩ := h
  exact ⟨hready, hget, hmarks, hfid, fun hkind => hmark.resolve_left (not_not.2 hkind),
    fun hheld => hhold.resolve_left (by simp [hheld]), hlow⟩

/-- R198: POP of the frame at the top of the reel. -/
theorem exec_popFrame (s : State) (p : Nat) (t : Task) (kn : Kernel) (b fid : Nat) (m : Marker) (rest : List Marker)
    (h : Normal.popFrame s p t kn b fid false m rest = true) :
    let u := Normal.transferState s p t kn b
    let x := u.reel (u.logicalOf p)
    let old := match x.reading with | some r => if x.readingHeld then [] else r.lines | none => []
    let v := (old.foldl (fun s l => s.setEmpty p l) u).setReel (u.logicalOf p) { x with
      low := min x.low m.position, depth := m.position, marks := rest, promised := 0
      reading := if m.kind = 2 then some m else none, readingHeld := false
      refilled := satAdd 32 x.refilled 0 }
    exec (.popFrame p) s = .next
      ((v.storeLine p (tLocal b) (m.line 0 u.now) false).transferDone p b (40 + ceilDiv old.length 16)) := by
  intro u x old v
  obtain ⟨hready, hget, hmarks, hfid, hmark, hhold, hlow⟩ := conditions_of_popFrame h
  have hexec : execPopFrame p s = _ := State.live_reelRow hready (by simp [hget]) (by simp [hget])
  exact hexec.trans (congrArg _ (State.popFrame_unspilled hmarks hfid hmark hhold hlow))

/-- R198: HOLD of the frame at the top of the reel, which stays full until it is released. -/
theorem exec_holdFrame (s : State) (p : Nat) (t : Task) (kn : Kernel) (b fid : Nat) (m : Marker) (rest : List Marker)
    (h : Normal.popFrame s p t kn b fid true m rest = true) :
    let u := Normal.transferState s p t kn b
    let x := u.reel (u.logicalOf p)
    let old := match x.reading with | some r => if x.readingHeld then [] else r.lines | none => []
    let v := (old.foldl (fun s l => s.setEmpty p l) u).setReel (u.logicalOf p) { x with
      low := min x.low m.position, depth := m.position, marks := rest, promised := 0
      reading := if m.kind = 2 then some m else none, readingHeld := true
      held := x.held ++ [m], refilled := satAdd 32 x.refilled 0 }
    exec (.holdFrame p) s = .next
      ((v.storeLine p (tLocal b) (m.line 0 u.now) false).transferDone p b (40 + ceilDiv old.length 16)) := by
  intro u x old v
  obtain ⟨hready, hget, hmarks, hfid, hmark, hhold, hlow⟩ := conditions_of_popFrame h
  have hexec : execHoldFrame p s = _ := State.live_reelRow hready (by simp [hget]) (by simp [hget])
  exact hexec.trans (congrArg _ (State.popFrame_unspilled hmarks hfid hmark hhold hlow))

/-- R198: RELEASE empties the lines of a held frame. -/
theorem exec_releaseFrame (s : State) (p : Nat) (t : Task) (kn : Kernel) (b fid : Nat) (m : Marker)
    (h : Normal.releaseFrame s p t kn b fid m = true) :
    let u := Normal.transferState s p t kn b
    let x := u.reel (u.logicalOf p)
    let v := (m.lines.foldl (fun s l => s.setEmpty p l) u).setReel (u.logicalOf p) { x with held := x.held.erase m }
    exec (.releaseFrame p) s = .next
      ((v.storeLine p (tLocal b) (m.line 0 u.now) false).transferDone p b (40 + ceilDiv m.len 16)) := by
  intro u x v
  simp only [Normal.releaseFrame, Bool.and_eq_true, decide_eq_true_eq, beq_iff_eq] at h
  obtain ⟨⟨hready, hget⟩, hheld⟩ := h
  have hexec : execReleaseFrame p s = _ := State.live_reelRow hready (by simp [hget]) (by simp [hget])
  have hclock : v.timecode = u.timecode := foldl_field State.timecode _ (fun s l => s.setEmpty_timecode p l) _ u
  refine hexec.trans (congrArg _ ?_)
  dsimp only
  rw [hheld, State.now, ← hclock]

/-- Settles O37: one lemma for each operation; POP and HOLD take the top frame off alike. -/
theorem reelComplete : Obligations.ReelComplete :=
  ⟨exec_pushFrame, exec_popFrame, exec_holdFrame, exec_releaseFrame⟩

end Sys2Proof.Machine
end

section
/-! SUPPORT and O40. `reel_config` in each OP, the update gate and the mirror of the slate log, one lemma for each (R204-R207,
R212-R214, R383, R388). -/

namespace Sys2Proof.Machine

@[simp] theorem State.reelJob_setReelJob_self (s : State) (slot : Nat) (j : ReelJob) : (s.setReelJob slot j).reelJob slot = j :=
  TMap.get_insert_self ..

/-- R213: CONFIG gives the job its ring and its spillway, or takes them away where the ring is of no lines. -/
theorem exec_reelConfig (s : State) (c : Command) (h : Normal.passes s (s.reelConfigChecks c) = true) :
    ∃ u : State, exec (.reelConfig c) s = .next (u.finish c stOk 0
        (u.reelResult (s.cmdSlot c.hdr) (s.coresOf (s.cmdSlot c.hdr)).length)) ∧
      (u.reelJob (s.cmdSlot c.hdr)).ringLines = c.u16 4 ∧
      (c.u16 4 ≠ 0 → (u.reelJob (s.cmdSlot c.hdr)).ringBase = c.u16 2 ∧ (u.reelJob (s.cmdSlot c.hdr)).spillLines = c.u32 0xC ∧
        (u.reelJob (s.cmdSlot c.hdr)).spillVa = c.u64 0x18 ∧ (u.reelJob (s.cmdSlot c.hdr)).reelVa = c.u64 0x10) := by
  have hexec : execReelConfig c s = _ := State.live_checked h
  refine ⟨_, hexec, ?_⟩
  split
  · next hnone => simp [hnone]
  · simp

/-- R205, R214: BEGIN of a job without a freeze configuration enters its step. -/
theorem exec_reelBegin (s : State) (c : Command) (h : Normal.passes s (s.reelBeginChecks c) = true)
    (hfreeze : s.freezeDue (s.cmdSlot c.hdr) (c.u32 8) = none) (hplain : (s.rjob (s.cmdSlot c.hdr)).configured = false) :
    let u := s.enterStep (s.cmdSlot c.hdr) (c.u32 8) none
    exec (.reelBegin c) s = .next (u.finish c stOk 0
      (u.reelResult (s.cmdSlot c.hdr) (u.jobCores (s.cmdSlot c.hdr)).length)) := by
  intro u
  have hexec : execReelBegin c s = _ := State.live_checked h
  refine hexec.trans (congrArg _ ?_)
  dsimp only
  rw [hfreeze]
  dsimp only
  rw [State.runBegin]
  exact if_neg (by simp [hplain])

/-- R207: UPDATE whose condition holds opens the gate. -/
theorem exec_reelUpdate_ready (s : State) (c : Command) (h : Normal.passes s (s.reelUpdateChecks c) = true)
    (hready : s.gateReady (s.cmdSlot c.hdr) = true) :
    exec (.reelUpdate c) s = .next (s.openGate (s.cmdSlot c.hdr) c false 0) := by
  have hexec : execReelUpdate c s = _ := State.live_checked h
  exact hexec.trans (congrArg _ (if_pos hready))

/-- R207: UPDATE whose condition does not hold yet is pending until its limit. -/
theorem exec_reelUpdate_pending (s : State) (c : Command) (h : Normal.passes s (s.reelUpdateChecks c) = true)
    (hready : s.gateReady (s.cmdSlot c.hdr) = false) :
    let limit := if c.expert then c.u32 0x24 else s.fld uMmu 0x5B08 63 32
    let u := s.setReelJob (s.cmdSlot c.hdr) { s.reelJob (s.cmdSlot c.hdr) with
      phase := .gatePending, gateCmd := some c, gateDue := s.now + limit * 1000000 }
    exec (.reelUpdate c) s = .next (u.defer c 0 (u.reelResult (s.cmdSlot c.hdr) (u.jobCores (s.cmdSlot c.hdr)).length)) := by
  have hexec : execReelUpdate c s = _ := State.live_checked h
  exact hexec.trans (congrArg _ (if_neg (by simp [hready])))

/-- R207: a pending gate whose condition has come to hold opens. -/
theorem exec_updateGateOpen (s : State) (slot : Nat) (c : Command) (h : Normal.gateOpens s slot c = true) :
    exec (.updateGateOpen slot) s = .next (s.openGate slot c true (s.now - s.gateSince slot c)) := by
  simp only [Normal.gateOpens, Bool.and_eq_true, decide_eq_true_eq] at h
  obtain ⟨⟨⟨hp, hcmd⟩, hpending⟩, hready⟩ := h
  have hexec : execUpdateGateOpen slot s = _ := State.live_powered _ hp
  refine hexec.trans (congrArg _ ?_)
  dsimp only
  rw [hcmd]
  exact State.onlyIf_of (by rw [hpending, hready, Bool.and_self])

/-- R207: a pending gate that has passed its limit is cancelled, and the job stays IN_STEP. -/
theorem exec_updateGateTimeout (s : State) (slot : Nat) (c : Command) (h : Normal.gateTimeout s slot c = true) :
    exec (.updateGateTimeout slot) s = .next ((s.setReelJob slot { s.reelJob slot with
      phase := .inStep, gateCmd := none }).deferredDone c.hdr stCancelled 0x62) := by
  simp only [Normal.gateTimeout, Bool.and_eq_true, decide_eq_true_eq] at h
  obtain ⟨⟨⟨hp, hcmd⟩, hpending⟩, hlate⟩ := h
  have hexec : execUpdateGateTimeout slot s = _ := State.live_powered _ hp
  refine hexec.trans (congrArg _ ?_)
  dsimp only
  rw [hcmd]
  exact State.onlyIf_of (by rw [hpending, decide_eq_true hlate, Bool.and_self])

/-- R204: SHARD gives or takes a shard range. -/
theorem exec_reelShard (s : State) (c : Command) (h : Normal.passes s (s.reelShardChecks c) = true) :
    ∃ u : State, exec (.reelShard c) s = .next (u.finish c stOk 0 (u.reelResult (s.cmdSlot c.hdr) 0)) ∧
      u = s.setShard (c.u8 1) (if c.u8 6 = 1 then
        { valid := true, slot := s.cmdSlot c.hdr, base := c.u64 0x10, len := c.u64 0x18, tag := c.u32 8
          lastRecord := (s.shard (c.u8 1)).lastRecord } else {}) := by
  have hexec : execReelShard c s = _ := State.live_checked h
  exact ⟨_, hexec, rfl⟩

@[simp] theorem State.setEmptyRange_sched (s : State) (p first n : Nat) : (s.setEmptyRange p first n).sched = s.sched :=
  foldl_field State.sched _ (fun s i => s.setEmpty_sched p (first + i)) _ s

@[simp] theorem State.clearReel_sched (s : State) (slot l : Nat) : (s.clearReel slot l).sched = s.sched := by
  rw [State.clearReel]
  split
  · cases s.physOf l <;> simp
  · rfl

/-- Clearing reels leaves the job of a command as it is, so one slot may be named for the whole list. -/
theorem State.foldl_clearReel_cmdSlot (s : State) (hdr : CmdHdr) (ls : List Nat) :
    ls.foldl (fun s l => s.clearReel (s.cmdSlot hdr) l) s = ls.foldl (fun t l => t.clearReel (s.cmdSlot hdr) l) s := by
  induction ls generalizing s with
  | nil => rfl
  | cons l ls ih =>
    rw [List.foldl_cons, List.foldl_cons, ih, State.cmdSlot_congr (s.clearReel_sched ..)]

/-- R214: CLEAR clears the reels of the job's cores. -/
theorem exec_reelClear (s : State) (c : Command) (h : Normal.passes s (s.reelClearChecks c) = true) :
    let u := (s.jobCores (s.cmdSlot c.hdr)).foldl (fun s l => s.clearReel (s.cmdSlot c.hdr) l) s
    exec (.reelClear c) s = .next (u.finish c stOk 0
      (u.reelResult (s.cmdSlot c.hdr) (s.jobCores (s.cmdSlot c.hdr)).length)) := by
  intro u
  have hexec : execReelClear c s = _ := State.live_checked h
  simp only [u, State.foldl_clearReel_cmdSlot]
  exact hexec

/-- R388: the oldest slate not yet sent goes to the live partner. -/
theorem exec_slateMirror (s : State) (slot step : Nat) (rest : List Nat) (b : List Byte)
    (h : Normal.slateMirror s slot step rest b = true) :
    let r := s.rjob slot
    let u := s.setRjob slot { r with toMirror := rest }
    exec (.slateMirror slot) s = .next ((u.setRjob slot { u.rjob slot with
      mirrorSent := r.mirrorSent.insert step u.now }).sendBulk slot r.partner (.slate step) 0 b) := by
  intro r u
  simp only [Normal.slateMirror, Bool.and_eq_true, decide_eq_true_eq] at h
  obtain ⟨⟨⟨⟨hp, hqueue⟩, hpartner⟩, hlive⟩, hslate⟩ := h
  have hexec : execSlateMirror slot s = _ := State.live_powered _ hp
  refine hexec.trans (congrArg _ ?_)
  dsimp only
  rw [hqueue]
  dsimp only
  rw [State.onlyIf_of (by rw [hpartner, hlive, Bool.and_self]), hslate]

/-- Settles O40: one lemma for each OP and event; UPDATE has one for each side of the gate's condition. -/
theorem reelCommandsComplete : Obligations.ReelCommandsComplete :=
  ⟨exec_reelConfig, exec_reelBegin, exec_reelUpdate_ready, exec_reelUpdate_pending, exec_updateGateOpen, exec_updateGateTimeout,
    exec_reelShard, exec_reelClear, exec_slateMirror⟩

end Sys2Proof.Machine
end

section
/-! SUPPORT and O47. Packets that are for a job of the device, collectives and gathers, one lemma for each row (R205, R328, R335,
R340-R346, R354, R355). -/

namespace Sys2Proof.Machine

/-! ## Packets (R326-R328, R335) -/

/-- A packet for a job is of the TYPE asked for, and at a powered device. -/
theorem powered_and_type_of_packetFor {s : State} {f : Frame} {type slot : Nat} (h : Normal.packetFor s f type slot = true) :
    s.powered = true ∧ f.packet.type = type := by
  simp only [Normal.packetFor, Normal.packetHere, Bool.and_eq_true, beq_iff_eq] at h
  obtain ⟨⟨⟨⟨⟨⟨⟨⟨⟨hp, htype⟩, -⟩, -⟩, -⟩, -⟩, -⟩, -⟩, -⟩, -⟩ := h
  exact ⟨hp, htype⟩

/-- A good frame, next in sequence, brings its packet to this device (R326-R328). -/
theorem State.frameAt_of_packetHere {s : State} {f : Frame} {type : Nat} {k : State → Option Nat → State}
    (h : Normal.packetHere s f type = true) :
    s.frameAt f type k = match (Normal.received s f).slotOf f.packet.jobTag with
      | none => k (Normal.received s f) none
      | some slot => if ((Normal.received s f).fjob slot).seen f.packet then Normal.received s f
        else k (Normal.received s f) (some slot) := by
  simp only [Normal.packetHere, Bool.and_eq_true, beq_iff_eq, decide_eq_true_eq] at h
  obtain ⟨⟨⟨⟨⟨⟨⟨-, htype⟩, hport⟩, hphase⟩, hfec⟩, hcrc⟩, hseq⟩, hdst⟩ := h
  rw [State.frameAt]
  dsimp only
  rw [if_neg (by simp [htype, hport, hphase]), if_neg (by simp [hfec]), if_neg (not_not.2 hcrc), if_neg (not_not.2 hseq)]
  exact if_neg (not_not.2 hdst)

/-- A packet of the job in a slot, not accepted before, is taken for that job (R328). -/
theorem State.frameIn_of_packetFor {s : State} {f : Frame} {type slot : Nat} {k : State → Nat → State}
    (h : Normal.packetFor s f type slot = true) : s.frameIn f type k = k (Normal.received s f) slot := by
  simp only [Normal.packetFor, Bool.and_eq_true, decide_eq_true_eq, Bool.not_eq_true'] at h
  obtain ⟨⟨hhere, hslot⟩, hfresh⟩ := h
  rw [State.frameIn, State.frameAt_of_packetHere hhere, hslot]
  dsimp only
  rw [hfresh]
  rfl

/-- R335: a packet of the job's epoch is accepted. -/
theorem State.epochIn_current {s : State} {slot : Nat} {f : Frame} {boundary accept : State → State}
    (h : f.packet.epoch = (s.fjob slot).epoch) : s.epochIn slot f boundary accept = accept (s.acceptPacket slot f.packet) := by
  rw [State.epochIn, FabricJob.verdict, if_pos h]

/-- R335: a boundary packet of the next epoch is taken for the boundary clap. -/
theorem State.epochIn_boundary {s : State} {slot : Nat} {f : Frame} {boundary accept : State → State}
    (h : f.packet.epoch = (s.fjob slot).epoch + 1) (hclap : f.packet.type = 3) (hid : f.packet.opId = 0xFFFF) :
    s.epochIn slot f boundary accept = boundary (s.acceptPacket slot f.packet) := by
  rw [State.epochIn, FabricJob.verdict, if_neg (by simp [h]), if_pos h, if_pos (by simp [hclap, hid])]

/-- The command of an arriving packet of a job: what the row makes of it in the state in which the frame has been received. -/
theorem State.live_frameIn {s : State} {f : Frame} {type slot : Nat} {k : State → Nat → State}
    (h : Normal.packetFor s f type slot = true) :
    s.live (fun s => s.frameIn f type k) = .next (k (Normal.received s f) slot) := by
  rw [State.live_powered _ (powered_and_type_of_packetFor h).1, State.frameIn_of_packetFor h]

/-- R340: a COLL packet of the job's epoch. -/
theorem exec_collPacket (s : State) (f : Frame) (slot : Nat) (h : Normal.packetFor s f 1 slot = true)
    (hepoch : f.packet.epoch = ((Normal.received s f).fjob slot).epoch) :
    exec (.collPacket f) s = .next (((Normal.received s f).acceptPacket slot f.packet).dataIn slot (uLink f.port) f.packet) := by
  have hexec : execCollPacket f s = _ := State.live_frameIn h
  rw [State.epochIn_current hepoch] at hexec
  exact hexec

/-- R205, R345: a GATHER piece of the job's epoch. -/
theorem exec_gatherPiece (s : State) (f : Frame) (slot : Nat) (h : Normal.packetFor s f 2 slot = true)
    (hepoch : f.packet.epoch = ((Normal.received s f).fjob slot).epoch) :
    exec (.gatherPiece f) s = .next (((Normal.received s f).acceptPacket slot f.packet).dataIn slot (uLink f.port) f.packet) := by
  have hexec : execGatherPiece f s = _ := State.live_frameIn h
  rw [State.epochIn_current hepoch] at hexec
  exact hexec

/-- R346: a CLAP packet of the job's epoch. -/
theorem exec_clapPacket (s : State) (f : Frame) (slot : Nat) (h : Normal.packetFor s f 3 slot = true)
    (hepoch : f.packet.epoch = ((Normal.received s f).fjob slot).epoch) :
    exec (.clapPacket f) s = .next (((Normal.received s f).acceptPacket slot f.packet).clapIn slot f.packet) := by
  have hexec : execClapPacket f s = _ := State.live_frameIn h
  rw [State.epochIn_current hepoch] at hexec
  exact hexec

/-- R335, R346: a packet of the boundary clap to the next epoch. -/
theorem exec_clapPacket_boundary (s : State) (f : Frame) (slot : Nat) (h : Normal.packetFor s f 3 slot = true)
    (hepoch : f.packet.epoch = ((Normal.received s f).fjob slot).epoch + 1) (hid : f.packet.opId = 0xFFFF) :
    exec (.clapPacket f) s = .next (((Normal.received s f).acceptPacket slot f.packet).boundaryIn slot f.packet) := by
  have hexec : execClapPacket f s = _ := State.live_frameIn h
  rw [State.epochIn_boundary hepoch (powered_and_type_of_packetFor h).2 hid] at hexec
  exact hexec

/-! ## Collectives and gathers (R340-R345, R354, R355) -/

/-- R340, R354: a `collective_run` that passes starts its operation. -/
theorem exec_collectiveRun (s : State) (c : Command) (h : Normal.passes s (s.collectiveRunChecks c) = true) :
    ∃ x : Collective, exec (.collectiveRun c) s = .next (s.startCollective x) ∧ x.cmd = c ∧ x.gather = false ∧ x.op = c.u8 0 ∧
      x.id = c.u16 2 ∧ x.epoch = c.u32 4 ∧ x.len = c.u64 8 ∧ x.src = c.u64 0x10 ∧ x.dst = c.u64 0x18 ∧
      x.auxVa = c.u64 0x20 ∧ x.limitAt = s.now + (if c.expert then c.u32 0x34 else s.fld (uLink 0) 0xF10 63 32) * msec := by
  have hexec : execCollectiveRun c s = _ := State.live_checked h
  exact ⟨_, hexec, rfl, rfl, rfl, rfl, rfl, rfl, rfl, rfl, rfl, rfl⟩

/-- R205, R345, R355: a `gather_run` that passes starts its operation; in a step, its forward pass enters the ledger. -/
theorem exec_gatherRun (s : State) (c : Command) (h : Normal.passes s (s.gatherRunChecks c) = true) :
    ∃ (u : State) (x : Collective), exec (.gatherRun c) s = .next (u.startCollective x) ∧ x.cmd = c ∧ x.gather = true ∧
      x.op = 1 ∧ x.id = c.u16 0 ∧ x.pass = c.u8 2 ∧ x.epoch = c.u32 4 ∧ x.len = c.u64 8 ∧ x.src = c.u64 0x10 ∧ x.dst = c.u64 0x18 ∧
      (s.inStep (s.cmdSlot c.hdr) = true → c.u8 2 = 0 →
        (u.reelJob (s.cmdSlot c.hdr)).openIds = c.u16 0 :: (s.reelJob (s.cmdSlot c.hdr)).openIds) ∧
      (s.inStep (s.cmdSlot c.hdr) = false ∨ c.u8 2 = 1 → u = s) := by
  have hexec : execGatherRun c s = _ := State.live_checked h
  refine ⟨_, _, hexec, rfl, rfl, rfl, rfl, rfl, rfl, rfl, rfl, rfl, fun hstep hpass => ?_, fun hkeep => ?_⟩
  · simp [hstep, hpass]
  · refine if_neg ?_
    rcases hkeep with hstep | hpass
    · simp [hstep]
    · simp [hpass]

/-- R343: an operation that has passed its limit with data missing ends, and names the lowest device that is silent. -/
theorem exec_collectiveLimit (s : State) (slot : Nat) (gather : Bool) (id : Nat) (c : Collective)
    (h : Normal.collectiveLate s slot gather id c = true) :
    exec (.collectiveLimit slot gather id) s = .next (s.endCollective c stPeerSilent ((c.missing s.fabricId).foldl min 0xFFFF)) := by
  simp only [Normal.collectiveLate, Bool.and_eq_true, decide_eq_true_eq] at h
  obtain ⟨⟨⟨hp, hcollective⟩, hlate⟩, hmissing⟩ := h
  have hexec : execCollectiveLimit slot gather id s = _ := State.live_powered _ hp
  refine hexec.trans (congrArg _ ?_)
  dsimp only
  rw [hcollective]
  exact State.onlyIf_of (by rw [decide_eq_true hlate, hmissing, Bool.and_self])

/-- Settles O47: one lemma for each packet, command and limit; a CLAP packet is of the job's epoch or of the boundary clap. -/
theorem collectivesComplete : Obligations.CollectivesComplete :=
  ⟨exec_collPacket, exec_gatherPiece, exec_clapPacket, exec_clapPacket_boundary, exec_collectiveRun, exec_gatherRun,
    exec_collectiveLimit⟩

end Sys2Proof.Machine
end

section
/-! SUPPORT and O14. What a store to one side of a tier writes, and what is read of the bytes and of the granules' poison afterwards
(R249, R251). -/

namespace Sys2Proof.Machine

/-- A key that takes a value again and again reads as it; the other keys stay. -/
theorem get_foldl_set {α : Type} [DecidableEq α] (d v : α) (keys : List Nat) (m : TMap α) (k : Nat) :
    (keys.foldl (fun m g => m.set d g v) m).get d k = if k ∈ keys then v else m.get d k := by
  induction keys generalizing m with
  | nil => rfl
  | cons g keys ih =>
    rw [List.foldl_cons, ih]
    by_cases hk : k = g
    · subst hk; simp
    · simp [TMap.get_set_of_ne _ _ _ _ _ hk, hk]

theorem mem_granules {pa n g : Nat} : g ∈ granules pa n ↔ pa / 64 ≤ g ∧ g < pa / 64 + (pa % 64 + n + 63) / 64 := by
  simp only [granules, List.mem_map, List.mem_range]
  refine ⟨?_, fun ⟨hlow, hhigh⟩ => ⟨g - pa / 64, by omega, by omega⟩⟩
  rintro ⟨i, hi, rfl⟩
  omega

/-- The granules whose poison a store sets: those covered whole, and with poisoned data every one that the range enters (R249). -/
def marked (pa n : Nat) (poison : Bool) : List Nat :=
  if poison then granules pa n else (granules pa n).filter fun g => pa ≤ 64 * g && 64 * g + 64 ≤ pa + n

theorem mem_marked_of_whole {pa n g : Nat} (poison : Bool) (hlow : pa ≤ 64 * g) (hhigh : 64 * g + 64 ≤ pa + n) :
    g ∈ marked pa n poison := by
  have hg : g ∈ granules pa n := mem_granules.2 ⟨by omega, by omega⟩
  cases poison with
  | true => exact hg
  | false => exact List.mem_filter.2 ⟨hg, by simp [hlow, hhigh]⟩

theorem not_mem_marked_of_beside {pa n g : Nat} (poison : Bool) (h : 64 * g + 64 ≤ pa ∨ pa + n ≤ 64 * g) :
    g ∉ marked pa n poison := by
  have hg : g ∉ granules pa n := fun hmem => by
    obtain ⟨hlow, hhigh⟩ := mem_granules.1 hmem
    omega
  cases poison with
  | true => exact hg
  | false => exact fun hmem => hg (List.mem_filter.1 hmem).1

@[simp] theorem State.countGranules_memory (s : State) (pa off n : Nat) : (s.countGranules pa off n).memory = s.memory := by
  unfold State.countGranules; split <;> simp

@[simp] theorem State.trackWrite_memory (s : State) (pa n : Nat) : (s.trackWrite pa n).memory = s.memory := rfl

/-- A store where the memory is present puts the bytes and marks the granules. -/
theorem State.writeRaw_memory {s : State} {pa : Nat} (data : List Byte) (poison : Bool) (h : s.dead pa = false) :
    (s.writeRaw pa data poison).memory = { s.memory with
      bytes := putBytes s.memory.bytes pa data
      poison := (marked pa data.length poison).foldl (fun m g => m.set false g poison) s.memory.poison } := by
  simp [State.writeRaw, h, marked]

/-- Settles O14: the bytes are those put, and the poison changes at the marked granules alone, which hold every granule covered whole
and none beside the range. -/
theorem tierReadAfterWrite : Obligations.TierReadAfterWrite := by
  intro s pa data poison hdead t
  have hmemory : t.memory = _ := State.writeRaw_memory data poison hdead
  refine ⟨?_, fun a ha => ?_, fun g hlow hhigh => ?_, fun g hbeside => ?_⟩
  · refine List.ext_getElem (by simp [State.rawBytes]) fun i _ hi => ?_
    simp only [State.rawBytes, List.getElem_map, List.getElem_range, hmemory]
    exact get_putBytes_of_lt _ _ _ i hi
  · rw [hmemory]
    exact get_putBytes_of_beside _ _ _ _ ha
  · rw [hmemory]
    exact (get_foldl_set ..).trans (if_pos (mem_marked_of_whole poison hlow hhigh))
  · rw [hmemory]
    exact (get_foldl_set ..).trans (if_neg (not_mem_marked_of_beside poison hbeside))

end Sys2Proof.Machine
end

section
/-! SUPPORT and O41. Maps, copies, fills, scrubs and shootdowns, one lemma for each command and event (R250, R252, R257-R259,
R268-R272). -/

namespace Sys2Proof.Machine

/-! ## Maps (R252, R257-R259, R268-R270) -/

@[simp] theorem State.map_setMap_self (s : State) (slot : Nat) (m : MapInfo) : (s.setMap slot m).map slot = m := by
  simp [State.map, State.setMap]

/-- The tables of a new map begin with the root, 2 MiB, and the rest of the pool is free. -/
theorem MapInfo.freeKib_new (pa n walkers : Nat) :
    ({ valid := true, pool := pa, poolBytes := n, next4k := pa + 2 ^ 21, top256 := pa + n, walkers := walkers } : MapInfo).freeKib =
      (n - 2 ^ 21) / 1024 := by
  simp only [MapInfo.freeKib, if_true, Nat.add_sub_add_left]

/-- R252, R268: a `map_create` that passes makes the job's map over its pool. -/
theorem exec_mapCreate (s : State) (c : Command) (h : Normal.passes s (s.mapCreateChecks c) = true) :
    ∃ u : State, exec (.mapCreate c) s = .next (u.finish c stOk 0 (le 8 (c.u64 0) ++ le 4 ((c.u64 8 - 2 ^ 21) / 1024) ++ le 4 0)) ∧
      (u.map (s.cmdSlot c.hdr)).valid = true ∧ (u.map (s.cmdSlot c.hdr)).pool = c.u64 0 ∧
      (u.map (s.cmdSlot c.hdr)).poolBytes = c.u64 8 ∧ (u.map (s.cmdSlot c.hdr)).walkers = c.ex (c.u16 0x18) 0 := by
  have hexec : execMapCreate c s = _ := State.live_checked h
  dsimp only at hexec
  rw [MapInfo.freeKib_new] at hexec
  refine ⟨_, hexec, ?_⟩
  rw [State.map_setMap_self]
  exact ⟨rfl, rfl, rfl, rfl⟩

/-- R294, R296: an edit of pages that a sequence's walkers use is deferred. -/
theorem State.runEdit_waits {s t : State} {c : Command} {slot : Nat} {o : EditOut} (heffect : s.editEffect c slot = .ok (t, o))
    (hwaits : s.editWaits slot (s.editRanges c) s.attn.held = true) :
    s.runEdit c slot =
      { s with attn := { s.attn with
        held := s.attn.held ++ [({ cmd := c, slot := slot, ranges := s.editRanges c } : HeldEdit)] } }.defer c 0x0701
        (t.editResult slot o true 0) := by
  simp only [State.runEdit, heffect, hwaits, if_true]

/-- Any other edit takes effect at once. -/
theorem State.runEdit_applies {s t : State} {c : Command} {slot : Nat} {o : EditOut} (heffect : s.editEffect c slot = .ok (t, o))
    (hwaits : s.editWaits slot (s.editRanges c) s.attn.held = false) : s.runEdit c slot = s.applyEdit c slot false := by
  simp [State.runEdit, heffect, hwaits]

/-- R257: an edit after which no translation is stale ends at once. -/
theorem State.applyEdit_ends {s t : State} {c : Command} {slot : Nat} {o : EditOut} (heffect : s.editEffect c slot = .ok (t, o))
    (hshoot : o.shoot = false) : s.applyEdit c slot false = t.finish c stOk 0 (t.editResult slot o false 0) := by
  simp [State.applyEdit, heffect, hshoot]

/-- R258: an edit that removes or changes a valid leaf, and has not NO_WAIT set, ends with its shootdown. -/
theorem State.applyEdit_shoots {s t : State} {c : Command} {slot : Nat} {o : EditOut} (heffect : s.editEffect c slot = .ok (t, o))
    (hshoot : o.shoot = true) (hwait : c.hdr.opcode = 0x1002 → c.ex (c.u8 0x21) 0 = 0) :
    s.applyEdit c slot false = t.startShoot ⟨some c, slot, o.kind, o.changed, o.pages, false⟩ := by
  have hnoWait : (c.hdr.opcode == 0x1002 && c.ex (c.u8 0x21) 0 == 1) = false := by
    by_cases hop : c.hdr.opcode = 0x1002
    · simp [hwait hop]
    · simp [hop]
  simp [State.applyEdit, heffect, hshoot, hnoWait]

/-- R257-R259, R269, R294: a `map_edit` that passes waits, ends at once, or ends with its shootdown. -/
theorem exec_mapEdit (s : State) (c : Command) (h : Normal.passes s (s.mapEditChecks c) = true) :
    Normal.edited s c (s.cmdSlot c.hdr) (exec (.mapEdit c) s) := by
  have hexec : execMapEdit c s = _ := State.live_checked h
  have hrun : exec (.mapEdit c) s = .next (s.runEdit c (s.cmdSlot c.hdr)) := hexec
  intro t o heffect
  rw [hrun]
  refine ⟨fun hwaits => ?_, fun hwaits hshoot => ?_, fun hwaits hshoot hwait => ?_⟩
  · rw [State.runEdit_waits heffect hwaits]
  · rw [State.runEdit_applies heffect hwaits, State.applyEdit_ends heffect hshoot]
  · rw [State.runEdit_applies heffect hwaits, State.applyEdit_shoots heffect hshoot hwait]

/-- R270: a `map_destroy` that passes is deferred until the job's other commands have ended. -/
theorem exec_mapDestroy (s : State) (c : Command) (h : Normal.passes s (s.mapDestroyChecks c) = true) :
    exec (.mapDestroy c) s =
      .next ((s.setMap (s.cmdSlot c.hdr) { s.map (s.cmdSlot c.hdr) with destroyCmd := some c }).defer c 0 []) := by
  have hexec : execMapDestroy c s = _ := State.live_checked h
  exact hexec

/-- R270: with no other command of the job running, the map goes. -/
theorem exec_mapDestroyDone (s : State) (slot : Nat) (d : Command) (h : Normal.mapUnused s slot d = true) :
    exec (.mapDestroyDone slot) s = .next ((s.setMap slot {}).deferredDone d.hdr stOk 0) := by
  simp only [Normal.mapUnused, Bool.and_eq_true, decide_eq_true_eq] at h
  obtain ⟨⟨hp, hdestroy⟩, hidle⟩ := h
  have hexec : execMapDestroyDone slot s = _ := State.live_powered _ hp
  refine hexec.trans (congrArg _ ?_)
  rw [hdestroy]
  exact State.onlyIf_of hidle

/-! ## Shootdowns (R258, R259) -/

/-- The state in which a shootdown has ended: it is counted, and the pool pages that waited for it alone have returned (R292). -/
def State.shootEnded (s : State) (i : Nat) (x : Shoot) : State :=
  x.pages.foldl (fun s g => (s.editPage x.slot g fun k => { k with waits := k.waits - 1 }).freePage x.slot g)
    ({ s with memory := { s.memory with shoots := s.memory.shoots.eraseIdx i } }.bump uMmu 0x020 15 0 1)

@[simp] theorem State.editPage_memory (s : State) (slot page : Nat) (f : KvPage → KvPage) :
    (s.editPage slot page f).memory = s.memory := rfl

@[simp] theorem State.editPage_timecode (s : State) (slot page : Nat) (f : KvPage → KvPage) :
    (s.editPage slot page f).timecode = s.timecode := rfl

@[simp] theorem State.freePage_memory (s : State) (slot page : Nat) : (s.freePage slot page).memory = s.memory := by
  simp only [State.freePage]; split <;> rfl

@[simp] theorem State.freePage_timecode (s : State) (slot page : Nat) : (s.freePage slot page).timecode = s.timecode := by
  simp only [State.freePage]; split <;> rfl

@[simp] theorem State.shootEnded_memory (s : State) (i : Nat) (x : Shoot) :
    (s.shootEnded i x).memory = { s.memory with shoots := s.memory.shoots.eraseIdx i } :=
  (foldl_field State.memory _ (fun _ _ => by simp) _ _).trans (by simp)

@[simp] theorem State.shootEnded_timecode (s : State) (i : Nat) (x : Shoot) : (s.shootEnded i x).timecode = s.timecode :=
  (foldl_field State.timecode _ (fun _ _ => by simp) _ _).trans (by simp)

theorem shooting_iff {s : State} {i : Nat} {x : Shoot} :
    Normal.shooting s i x = true ↔ s.powered = true ∧ s.memory.shoots[i]? = some x := by
  simp [Normal.shooting]

/-- R258: the shootdown of a command that has been answered ends with its DEFERRED_DONE. -/
theorem exec_shootdownComplete_answered (s : State) (i : Nat) (x : Shoot) (c : Command) (h : Normal.shooting s i x = true)
    (hcmd : x.cmd = some c) (hanswered : x.answered = true) :
    ∃ u : State, exec (.shootdownComplete i) s = .next (u.deferredDone c.hdr stOk 0) ∧
      u.memory.shoots = s.memory.shoots.eraseIdx i := by
  obtain ⟨hp, hshoot⟩ := shooting_iff.1 h
  have hexec : execShootdownComplete i s = _ := State.live_powered _ hp
  simp only [hshoot, hcmd, hanswered, if_true] at hexec
  exact ⟨s.shootEnded i x, hexec, by rw [State.shootEnded_memory]⟩

/-- R258, R269: the shootdown of a `map_edit` that waits for it ends with its reply. -/
theorem exec_shootdownComplete_edit (s : State) (i : Nat) (x : Shoot) (c : Command) (h : Normal.shooting s i x = true)
    (hcmd : x.cmd = some c) (hanswered : x.answered = false) (hkind : x.kind = 0) :
    ∃ u : State, exec (.shootdownComplete i) s = .next (u.finish c stOk 0
        (le 4 x.changed ++ le 4 (s.map x.slot).freeKib ++ le 8 s.now)) ∧ u.memory.shoots = s.memory.shoots.eraseIdx i := by
  obtain ⟨hp, hshoot⟩ := shooting_iff.1 h
  have hexec : execShootdownComplete i s = _ := State.live_powered _ hp
  simp only [hshoot, hcmd, hanswered, hkind, if_true, Bool.false_eq_true, if_false] at hexec
  have hmap : (s.shootEnded i x).map x.slot = s.map x.slot := by simp [State.map]
  have hnow : (s.shootEnded i x).now = s.now := by simp [State.now]
  refine ⟨s.shootEnded i x, ?_, by rw [State.shootEnded_memory]⟩
  rw [← hmap, ← hnow]
  exact hexec

/-! ## Copies, fills and scrubs (R250, R271, R272) -/

/-- R271, R272: a `mem_copy` that passes copies. -/
theorem exec_memCopy (s : State) (c : Command) (h : Normal.passes s (s.memCopyChecks c) = true) :
    exec (.memCopy c) s = .next (s.memRun c (some (c.u64 0)) (c.u64 8) (c.u64 0x10) []) := by
  have hexec : execMemCopy c s = _ := State.live_checked h
  exact hexec

/-- R271, R272: a `mem_fill` that passes fills with its eight bytes. -/
theorem exec_memFill (s : State) (c : Command) (h : Normal.passes s (s.memFillChecks c) = true) :
    exec (.memFill c) s = .next (s.memRun c none (c.u64 0) (c.u64 8) ((List.range 8).flatMap fun _ => le 8 (c.u64 0x10))) := by
  have hexec : execMemFill c s = _ := State.live_checked h
  exact hexec

/-- An entry of the error log takes stamps, and the time stays (R75). -/
theorem State.now_logEntry (s : State) (r : ErrorReport) (dtc : Stamp) (outcome : Nat) : (s.logEntry r dtc outcome).now = s.now := by
  unfold State.logEntry State.now
  dsimp only [State.stamp, State.stampAt]
  split <;> simp

theorem State.now_logError (s : State) (r : ErrorReport) : (s.logError r).now = s.now := by
  unfold State.logError
  dsimp only [State.stamp, State.stampAt]
  split
  · simp [State.now]
  · rw [State.now_logEntry]
    simp [State.now]

theorem State.now_memFound (s : State) (pa errors sub flags : Nat) : (s.memFound pa errors sub flags).now = s.now := by
  unfold State.memFound
  split
  · rfl
  · dsimp only
    simp only [apply_ite State.now, State.now_logError]
    simp [State.now]

/-- R250: a scrub of a granule that holds no injected error finds what the memory has. -/
theorem exec_memoryScrub (s : State) (u a errors sub : Nat) (passEnd : Bool) (h : Normal.scrubbed s u a = true) :
    let t := s.memFound (a / 64 * 64) errors sub 0
    exec (.memoryScrub u a errors sub passEnd) s = .next (if passEnd then t.setReg u 0x038 s.now else t) := by
  simp only [Normal.scrubbed, Bool.and_eq_true] at h
  obtain ⟨⟨⟨hp, hunit⟩, hscrub⟩, hclean⟩ := h
  have hhit : ∀ x ∈ s.diag.injected, (x.unit == u && x.addr / 64 == a / 64) = false := fun x hx => by
    simpa [bne, Bool.not_and, or_iff_not_imp_left] using List.all_eq_true.1 hclean x hx
  have hfound : s.diag.injected.filter (fun x => x.unit == u && x.addr / 64 == a / 64) = [] :=
    List.filter_eq_nil_iff.2 fun x hx => by simp [hhit x hx]
  have hleft : s.diag.injected.filter (fun x => !(x.unit == u && x.addr / 64 == a / 64)) = s.diag.injected :=
    List.filter_eq_self.2 fun x hx => by simp only [hhit x hx, Bool.not_false]
  have hexec : execMemoryScrub u a errors sub passEnd s = _ := State.live_powered _ hp
  rw [State.onlyIf_of (by rw [hunit, hscrub, Bool.and_self])] at hexec
  simp only [hfound, hleft, List.foldl_nil, State.now_memFound] at hexec
  exact hexec

/-- Settles O41: one lemma for each command and event; a shootdown's command has been answered, or waits for it. -/
theorem mapsAndMemoryComplete : Obligations.MapsAndMemoryComplete :=
  ⟨exec_mapCreate, exec_mapEdit, exec_mapDestroy, exec_mapDestroyDone, exec_shootdownComplete_answered,
    exec_shootdownComplete_edit, exec_memCopy, exec_memFill, exec_memoryScrub⟩

end Sys2Proof.Machine
end

section
/-! SUPPORT and O42. The far tier, one lemma for each command and event: chunks move, channels go offline and come online, a slot's
power falls (R261-R264, R273-R275, R505). -/

namespace Sys2Proof.Machine

/-! ## Chunks move (R261-R263, R273) -/

/-- R273: a FAR_MIGRATE_OUT that passes starts its move. -/
theorem exec_farMigrateOut (s : State) (c : Command) (h : Normal.passes s (s.migrateOutChecks c) = true) :
    exec (.farMigrateOut c) s = .next (s.startMove c false) := by
  have hexec : execFarMigrateOut c s = _ := State.live_checked h
  exact hexec

/-- R273: a FAR_MIGRATE_BACK that passes starts its move. -/
theorem exec_farMigrateBack (s : State) (c : Command) (h : Normal.passes s (s.migrateBackChecks c) = true) :
    exec (.farMigrateBack c) s = .next (s.startMove c true) := by
  have hexec : execFarMigrateBack c s = _ := State.live_checked h
  exact hexec

/-- R273: the chunks that a FAR_MIGRATE_RELEASE names become VACANT. -/
theorem exec_farMigrateRelease (s : State) (c : Command) (h : Normal.passes s (s.migrateReleaseChecks c) = true) :
    let ch := c.u8 0
    let u := (moveChunks c).foldl (fun s k => s.setChunk ch k 4 0) s
    exec (.farMigrateRelease c) s = .next (u.finish c stOk 0
      (le 1 (c.u8 3) ++ le 1 (u.chunksIn ch [2, 3]) ++ le 2 0 ++ le 4 0 ++ le 8 u.now)) := by
  have hexec : execFarMigrateRelease c s = _ := State.live_checked h
  exact hexec

/-- A chunk's copy and its change of PHASE leave the moves as they are. -/
theorem State.copyChunk_setChunk_moves (s : State) (src dst ch k phase dest : Nat) :
    ((s.copyChunk src dst).setChunk ch k phase dest).memory.moves = s.memory.moves := rfl

/-- A channel whose first move copies a chunk: it is powered, and that move and chunk are found. -/
theorem chunkCopied_iff {s : State} {ch k : Nat} {m : FarMove} : Normal.chunkCopied s ch m k = true ↔
    s.powered = true ∧ s.memory.moves.find? (fun m => m.channel == ch) = some m ∧ m.left.head? = some k := by
  simp [Normal.chunkCopied, and_assoc]

/-- R261: a chunk that goes out is in use at its destination, and the move's next chunk is copied. -/
theorem exec_chunkFlip_out (s : State) (ch : Nat) (m : FarMove) (k : Nat) (h : Normal.chunkCopied s ch m k = true)
    (hback : m.back = false) (hleft : 1 < m.left.length) :
    let d := s.chunkDest ch k
    let u := (s.copyChunk (chunkPa ch k) d).setChunk ch k 2 d
    ∃ bad, exec (.chunkFlip ch) s = .next ({ u with memory := { u.memory with
      moves := u.memory.moves.map fun x => if x = m then
        { m with left := m.left.drop 1, moved := m.moved + 1, poisoned := m.poisoned + bad } else x } }.nextChunk ch) := by
  obtain ⟨hp, hmove, hk⟩ := chunkCopied_iff.1 h
  have hrest : (m.left.drop 1).isEmpty = false := by
    rw [List.isEmpty_eq_false_iff, Ne, List.drop_eq_nil_iff]
    omega
  have hexec : execChunkFlip ch s = _ := State.live_powered _ hp
  have hout : ¬m.back = true := by simp [hback]
  simp only [hmove, hk, if_neg hout, hrest, Bool.false_eq_true, if_false] at hexec
  exact ⟨_, hexec⟩

/-- R262: with the last chunk that comes back the command ends, and its move with it. -/
theorem exec_chunkFlip_back_last (s : State) (ch : Nat) (m : FarMove) (k : Nat) (h : Normal.chunkCopied s ch m k = true)
    (hback : m.back = true) (hleft : m.left.length = 1) :
    ∃ (u : State) (bad : Nat), exec (.chunkFlip ch) s = .next ((u.deferredDoneWith m.cmd.hdr stOk
        (le 2 0 ++ le 6 0 ++ le 1 (m.moved + 1) ++ le 1 (u.chunksIn ch [2, 3]) ++ le 2 0 ++ le 4 bad ++ le 8 u.now)).nextChunk ch) ∧
      u.memory.moves = s.memory.moves.filter (fun x => !decide (x = m)) := by
  obtain ⟨hp, hmove, hk⟩ := chunkCopied_iff.1 h
  have hrest : (m.left.drop 1).isEmpty = true := by
    rw [List.isEmpty_iff_length_eq_zero, List.length_drop, hleft]
  have hexec : execChunkFlip ch s = _ := State.live_powered _ hp
  simp only [hmove, hk, hback, hrest, if_true] at hexec
  exact ⟨_, _, hexec, by rw [State.copyChunk_setChunk_moves]⟩

/-! ## Channels go offline and come online (R263, R264, R274, R275) -/

@[simp] theorem State.setFarState_memory (s : State) (c new : Nat) : (s.setFarState c new).memory = s.memory := by
  by_cases h : s.farState c = new <;> simp [State.setFarState, h]

/-- R263, R274: a `far_offline` that passes takes the channel out of use, and its slot's enable with it where it asks for that. -/
theorem exec_farOffline (s : State) (c : Command) (h : Normal.passes s (s.farOfflineChecks c) = true) :
    ∃ u : State, exec (.farOffline c) s = .next (u.finish c stOk 0
        (le 1 (u.chunksIn (c.u8 0) [2, 3]) ++ le 1 (s.chunksIn (c.u8 0) [0]) ++ le 6 0)) ∧
      (c.ex (c.u8 8) 1 = 1 → u.pins.farSlotEn.get 0 (c.u8 0) = 0) := by
  have hexec : execFarOffline c s = _ := State.live_checked h
  dsimp only at hexec
  refine ⟨_, hexec, fun hoff => ?_⟩
  simp only [if_pos hoff, TMap.get_set_self]

/-- R264, R275: a `far_online` that passes powers the slot and begins the channel's bring-up. -/
theorem exec_farOnline (s : State) (c : Command) (h : Normal.passes s (s.farOnlineChecks c) = true) :
    ∃ u : State, exec (.farOnline c) s = .next (u.defer c 0 []) ∧ u.memory.bringups = s.memory.bringups ++ [(c.u8 0, c)] ∧
      u.pins.farSlotEn.get 0 (c.u8 0) = 1 ∧ u.pins.slotPower.get 0 (c.u8 0) = 1 := by
  have hexec : execFarOnline c s = _ := State.live_checked h
  dsimp only at hexec
  refine ⟨_, hexec, by rw [State.setFarState_memory], ?_, ?_⟩
  · simp only [TMap.get_set_self]
  · simp only [TMap.get_set_self]

/-- R264, R275: a bring-up of a module that qualifies, whose training has passed, ends with the module's data. -/
theorem exec_farOnlineComplete (s : State) (ch : Nat) (c : Command) (serial capacity rate trainMs : Nat)
    (h : Normal.bringingUp s ch c = true) (hcapacity : 128 ≤ capacity) (hrate : 8800 ≤ rate) :
    ∃ u : State, exec (.farOnlineComplete ch 0 serial capacity rate trainMs) s = .next (u.deferredDoneWith c.hdr stOk
      (le 2 0 ++ le 6 0 ++ le 4 serial ++ le 2 capacity ++ le 2 rate ++ le 4 trainMs ++ le 4 0)) := by
  simp only [Normal.bringingUp, Bool.and_eq_true, decide_eq_true_eq] at h
  obtain ⟨hp, hbringup⟩ := h
  have hqualifies : (decide (capacity < 128) || decide (rate < 8800)) = false := by simp [hcapacity, hrate]
  have hexec : execFarOnlineComplete ch 0 serial capacity rate trainMs s = _ := State.live_powered _ hp
  simp only [hbringup, hqualifies, Bool.false_eq_true, if_false, ne_eq, not_true_eq_false] at hexec
  exact ⟨_, hexec⟩

/-- R505: 60 ms after its enable has gone, a slot's power has fallen. -/
theorem exec_slotPowerFall (s : State) (ch : Nat) (h : Normal.slotFalls s ch = true) :
    exec (.slotPowerFall ch) s = .next { s with pins := { s.pins with slotPower := s.pins.slotPower.set 0 ch 0 } } := by
  simp only [Normal.slotFalls, Bool.and_eq_true] at h
  obtain ⟨⟨⟨hp, henable⟩, hpower⟩, hdue⟩ := h
  have hexec : execSlotPowerFall ch s = _ := State.live_onlyIf hp (by rw [henable, hpower, hdue]; rfl)
  exact hexec

/-- Settles O42: one lemma for each command and event; a chunk goes out, or comes back as the last of its move. -/
theorem farTierComplete : Obligations.FarTierComplete :=
  ⟨exec_farMigrateOut, exec_farMigrateBack, exec_farMigrateRelease, exec_chunkFlip_out, exec_chunkFlip_back_last, exec_farOffline,
    exec_farOnline, exec_farOnlineComplete, exec_slotPowerFall⟩

end Sys2Proof.Machine
end

section
/-! SUPPORT and O43. Pools, sequences, their pages and attention runs, one lemma for each command and event (R277, R279, R281, R289,
R294, R296, R298-R300). -/

namespace Sys2Proof.Machine

/-! ## Pools and sequences (R281, R289, R298) -/

@[simp] theorem State.kvPool_setKvPool_self (s : State) (slot : Nat) (x : KvPool) : (s.setKvPool slot x).kvPool slot = x :=
  TMap.get_insert_self ..

/-- R289, R298: a `seq_create` POOL that passes makes the job's pool, with the descriptors in its first pages. -/
theorem exec_seqCreatePool (s : State) (c : Command) (h : Normal.passes s (s.seqCreatePoolChecks c) = true) :
    let page := if c.u8 1 = 1 then 2 ^ 21 else 2 ^ 16
    let pages := c.u64 0x18 / page
    let desc := ceilDiv (pages * 8) page
    ∃ u : State, exec (.seqCreatePool c) s = .next (u.finish c stOk 0 (le 4 (pages - desc) ++ le 4 desc ++ le 8 0)) ∧
      u.kvPool (s.cmdSlot c.hdr) = { valid := true, pageBytes := page, base := c.u64 0x10, pages := pages, descPages := desc
                                     lowWater := c.ex (c.u32 0x20) 0, cmd := some c.hdr } := by
  have hexec : execSeqCreatePool c s = _ := State.live_checked h
  exact ⟨_, hexec, State.kvPool_setKvPool_self ..⟩

/-- R298: the id that a new sequence takes, the one named or the lowest that is free. -/
def State.newSeqId (s : State) (c : Command) : Nat :=
  if c.u16 2 = 0xFFFF then ((List.range 1024).find? fun i => !(s.kvSeq i).valid).getD 0 else c.u16 2

theorem State.newSeqId_of_named (s : State) {c : Command} (h : c.u16 2 ≠ 0xFFFF) : s.newSeqId c = c.u16 2 := if_neg h

/-- No sequence of any job has the id that a passing `seq_create` SEQUENCE takes. -/
theorem State.kvSeq_newSeqId_valid {s : State} {c : Command} (h : firstFail (s.seqCreateSequenceChecks c) = none) :
    (s.kvSeq (s.newSeqId c)).valid = false := by
  simp only [State.seqCreateSequenceChecks, firstFail_cons_eq_none, badIf_eq_none, failIf_eq_none] at h
  obtain ⟨-, hnamed, -, -, -, -, -, -, hpick, -⟩ := h
  by_cases hany : c.u16 2 = 0xFFFF
  · simp only [hany, beq_self_eq_true, Bool.true_and, Option.isNone_eq_false_iff, Option.isSome_iff_exists] at hpick
    obtain ⟨id, hid⟩ := hpick
    simpa [State.newSeqId, hany, hid] using List.find?_some hid
  · rw [s.newSeqId_of_named hany]
    simp only [bne_iff_ne.2 hany, Bool.true_and, Bool.or_eq_false_iff] at hnamed
    exact hnamed.2

/-- R281, R298: a `seq_create` SEQUENCE that passes gives its sequence a free id. -/
theorem exec_seqCreateSequence (s : State) (c : Command) (h : Normal.passes s (s.seqCreateSequenceChecks c) = true) :
    let x : KvSeq := { valid := true, slot := s.cmdSlot c.hdr, va := c.u64 0x10, maxTokens := c.u32 0xC, kvHeads := c.u16 6
                       layers := c.u16 8, fmt := c.u8 4, dim := c.u8 5 }
    ∃ id, (s.kvSeq id).valid = false ∧ (c.u16 2 ≠ 0xFFFF → id = c.u16 2) ∧
      exec (.seqCreateSequence c) s = .next ((s.setKvSeq id x).finish c stOk 0
        (le 2 id ++ le 2 (s.pageTokens x) ++ le 4 (s.pagesPerHead x) ++ le 8 (s.seqBytes x))) := by
  have hexec : execSeqCreateSequence c s = _ := State.live_checked h
  exact ⟨s.newSeqId c, State.kvSeq_newSeqId_valid (passes_iff.1 h).2, s.newSeqId_of_named, hexec⟩

/-! ## Edits of a sequence's pages (R294, R296, R298, R299) -/

/-- R258, R294, R296: an edit command waits, ends at once, or ends with its shootdown. -/
theorem State.runEdit_edited (s : State) (c : Command) (slot : Nat) : Normal.edited s c slot (.next (s.runEdit c slot)) := by
  intro t o heffect
  refine ⟨fun hwaits => ?_, fun hwaits hshoot => ?_, fun hwaits hshoot hwait => ?_⟩
  · rw [State.runEdit_waits heffect hwaits]
  · rw [State.runEdit_applies heffect hwaits, State.applyEdit_ends heffect hshoot]
  · rw [State.runEdit_applies heffect hwaits, State.applyEdit_shoots heffect hshoot hwait]

/-- R298, R299: an edit command whose checks all pass on a powered device is carried out as an edit. -/
theorem State.live_checked_runEdit_edited {s : State} {c : Command} {l : State → List Check} (h : Normal.passes s (l s) = true) :
    Normal.edited s c (s.cmdSlot c.hdr)
      (s.live fun s => s.checked c (l s) fun s => s.runEdit c (s.cmdSlot c.hdr)) := by
  rw [State.live_checked h]
  exact s.runEdit_edited c _

theorem exec_seqDestroy (s : State) (c : Command) (h : Normal.passes s (s.seqDestroyChecks c) = true) :
    Normal.edited s c (s.cmdSlot c.hdr) (exec (.seqDestroy c) s) :=
  State.live_checked_runEdit_edited (l := (·.seqDestroyChecks c)) h

theorem exec_kvPageMap (s : State) (c : Command) (h : Normal.passes s (s.kvPageMapChecks c) = true) :
    Normal.edited s c (s.cmdSlot c.hdr) (exec (.kvPageMap c) s) :=
  State.live_checked_runEdit_edited (l := (·.kvPageMapChecks c)) h

theorem exec_kvPageShare (s : State) (c : Command) (h : Normal.passes s (s.kvPageShareChecks c) = true) :
    Normal.edited s c (s.cmdSlot c.hdr) (exec (.kvPageShare c) s) :=
  State.live_checked_runEdit_edited (l := (·.kvPageShareChecks c)) h

theorem exec_kvPageFree (s : State) (c : Command) (h : Normal.passes s (s.kvPageFreeChecks c) = true) :
    Normal.edited s c (s.cmdSlot c.hdr) (exec (.kvPageFree c) s) :=
  State.live_checked_runEdit_edited (l := (·.kvPageFreeChecks c)) h

/-- R294, R296: at a sequence's kernel boundary the pending edits take effect, and held runs start after them. -/
theorem exec_deferredEditApply (s : State) (id : Nat) (h : Normal.editDue s id = true) :
    exec (.deferredEditApply id) s = .next ((s.applyHeld s.attn.held.length).pumpRuns) := by
  simp only [Normal.editDue, Bool.and_eq_true] at h
  obtain ⟨⟨⟨hp, hvalid⟩, hboundary⟩, hpending⟩ := h
  have hexec : execDeferredEditApply id s = _ := State.live_onlyIf hp (by rw [hvalid, hboundary, hpending]; rfl)
  exact hexec

/-! ## Attention runs (R277, R279, R300) -/

/-- R277, R300: a run that passes joins the runs, next in dispatch order, and the runs that may start do so. -/
theorem exec_attnRun (s : State) (c : Command) (h : Normal.passes s (s.attnRunChecks c) = true) :
    let x : AttnRun := { cmd := c, order := s.sched.nextOrder, slot := s.cmdSlot c.hdr, seq := c.u16 0
                         headgate := (s.queue c.hdr.qkey).headgate }
    ∃ u : State, exec (.attnRun c) s = .next u.pumpRuns ∧ u.attn.runs = s.attn.runs ++ [x] ∧
      u.sched.nextOrder = s.sched.nextOrder + 1 := by
  have hexec : execAttnRun c s = _ := State.live_checked h
  exact ⟨_, hexec, rfl, rfl⟩

/-- R279: the tile that a task awaits goes into its empty ring slot, and the run counts it. -/
theorem exec_attnTileSend (s : State) (p : Nat) (t : Task) (x : AttnRun) (base : Nat) (mask : Bool)
    (h : Normal.tileDue s p t x base mask = true) :
    ∃ u : State, exec (.attnTileSend p) s = .next (u.setAttnRun { x with
      sent := x.sent.insert t.index (x.sent.get 0 t.index + 1), tilesSent := x.tilesSent + 1 }) := by
  simp only [Normal.tileDue, Bool.and_eq_true, decide_eq_true_eq] at h
  obtain ⟨⟨⟨⟨⟨hp, htask⟩, hkind⟩, hrun⟩, htile⟩, hempty⟩ := h
  have hexec : execAttnTileSend p s = _ := State.live_powered _ hp
  simp only [htask, hkind, hrun, htile, State.onlyIf_of hempty] at hexec
  exact ⟨_, hexec⟩

/-- Settles O43: one lemma for each command and event; the page commands and DESTROY share what an edit does. -/
theorem attentionComplete : Obligations.AttentionComplete :=
  ⟨exec_seqCreatePool, exec_seqCreateSequence, exec_seqDestroy, exec_kvPageMap, exec_kvPageShare, exec_kvPageFree, exec_attnRun,
    exec_attnTileSend, exec_deferredEditApply⟩

end Sys2Proof.Machine
end

section
/-! SUPPORT, O1, O3, O5, O6 and O10 to O12. What a step does: a tick, or the command at the front of the queue; what it keeps of the
firmware, the identity key and the host key (R464, R465, R469, R470, R474). -/

namespace Sys2Proof.Machine

/-! ## A step -/

theorem step_cons {s : State} {c : Instr} {rest : List Instr} (h : s.pending = c :: rest) :
    step s = exec c { s with pending := rest } := by
  rw [step, h]

theorem step_nil {s : State} (h : s.pending = []) : step s = .next s.idle := by
  rw [step, h]

/-- A step is a tick of the clock on an empty queue, or the front command's effect on the state with the queue's rest. -/
theorem step_cases {s t : State} (h : step s = .next t) :
    (s.pending = [] ∧ s.Leads t) ∨
      ∃ c rest, s.pending = c :: rest ∧ exec c { s with pending := rest } = .next t := by
  cases hq : s.pending with
  | nil =>
    obtain rfl : s.idle = t := by simpa [step_nil hq] using h
    exact .inl ⟨rfl, State.idle_leads (State.Leads.refl s)⟩
  | cons c rest => exact .inr ⟨c, rest, rfl, (step_cons hq).symm.trans h⟩

theorem exec_leads_of_next {i : Instr} {s t : State} (hi : securityChanger i = false) (h : exec i s = .next t) : s.Leads t := by
  obtain ⟨u, hu, hL⟩ := exec_leads i s hi
  obtain rfl : u = t := by simpa [hu] using h
  exact hL

theorem exec_keeps_of_next {i : Instr} {s t : State} (h : exec i s = .next t) : s.Keeps t := by
  obtain ⟨u, hu, hK⟩ := exec_keeps i s
  obtain rfl : u = t := by simpa [hu] using h
  exact hK

/-- Settles O1: the two branches of a step, of which a command at the front takes the second. -/
theorem stepRunsFront : Obligations.StepRunsFront :=
  ⟨fun _ _ _ h => step_cons h, fun _ _ => step_cons rfl⟩

/-- Settles O5: every command answers, and a tick does. -/
theorem everyCommandAnswers : Obligations.EveryCommandAnswers := by
  have hexec (c : Instr) (s : State) : ∃ t, exec c s = .next t := (exec_keeps c s).imp fun _ h => h.1
  refine ⟨hexec, fun s => ?_⟩
  cases hq : s.pending with
  | nil => exact ⟨s.idle, step_nil hq⟩
  | cons c rest =>
    rw [step_cons hq]
    exact hexec c _

/-- Settles O6: the front command has left the queue before it runs, and no command or tick adds to the queue or takes back what
has been sent. -/
theorem queueFirstInFirstOut : Obligations.QueueFirstInFirstOut := by
  intro s t h
  rcases step_cases h with ⟨hq, hL⟩ | ⟨c, rest, hq, hc⟩
  · exact ⟨by rw [hL.pending, hq, List.tail_nil], hL.outputs, hL.fresh⟩
  · have hK := exec_keeps_of_next hc
    exact ⟨by rw [hK.pending, hq, List.tail_cons], hK.outputs, hK.fresh⟩

/-- Settles O3: at reset the table's GENERATION is 0 and every memory is empty; the rest is read off the state. -/
theorem resetIsSound : Obligations.ResetIsSound :=
  ⟨⟨rfl, ⟨TMap.wf_nil _, TMap.wf_nil _⟩, ⟨TMap.wf_nil _, TMap.wf_nil _, TMap.wf_nil _⟩⟩, fun _ h => absurd h List.not_mem_nil,
    rfl, rfl, rfl, rfl, rfl, rfl⟩

/-! ## Firmware, the identity key, the host key -/

/-- R464: firmware that counts as verified after a command did so before, or the command is a COMMIT of an image that verifies. -/
theorem exec_committed {i : Instr} {s t : State} (h : exec i s = .next t) (ht : t.security.committed = true) :
    s.security.committed = true ∨
      ∃ c, i = .firmwareLoadCommit c ∧ verifyImage s.security.image s.security.imageLen s.minSvn = none := by
  cases hi : securityChanger i with
  | false => exact .inl ((exec_leads_of_next hi h).committed ht)
  | true =>
    unfold securityChanger at hi
    split at hi
    · next c =>
      obtain ⟨u, hu, -, hcommitted, -⟩ := execFirmwareLoadCommit_holds c s
      obtain rfl : u = t := Host.Outcome.next.inj (hu.symm.trans h)
      exact (hcommitted ht).imp_right fun hv => ⟨c, rfl, hv⟩
    · next c =>
      obtain ⟨u, hu, -, hcommitted, -⟩ := execConfigWriteHostKey_holds c s
      obtain rfl : u = t := Host.Outcome.next.inj (hu.symm.trans h)
      exact .inl (hcommitted ht)
    · next ok =>
      obtain ⟨u, hu, -, hcommitted, -⟩ := execKeyRolled_holds ok s
      obtain rfl : u = t := Host.Outcome.next.inj (hu.symm.trans h)
      exact .inl (hcommitted ▸ ht)
    · cases hi

/-- R469: key and chain of the identity stand, and no leaf comes back. -/
def State.IdentityStands (s t : State) : Prop :=
  t.security.keyGen = s.security.keyGen ∧ s.security.nextIndex ≤ t.security.nextIndex ∧ t.security.chain = s.security.chain

theorem State.Leads.identityStands {s t : State} (h : s.Leads t) : s.IdentityStands t := ⟨h.keyGen, h.leaf, h.chain⟩

/-- R470: the next key, with all its leaves, and one more item of the chain. -/
def State.IdentityRolled (s t : State) : Prop :=
  t.security.keyGen = s.security.keyGen + 1 ∧ t.security.nextIndex = 0 ∧ ∃ x, t.security.chain = s.security.chain ++ [x]

/-- R469, R470: the identity stands through every command, or it is rolled by a rollover that succeeded. -/
theorem exec_identity {i : Instr} {s t : State} (h : exec i s = .next t) :
    s.IdentityStands t ∨ i = .keyRolled true ∧ s.IdentityRolled t := by
  cases hi : securityChanger i with
  | false => exact .inl (exec_leads_of_next hi h).identityStands
  | true =>
    unfold securityChanger at hi
    split at hi
    · next c =>
      obtain ⟨u, hu, -, -, hkey, hleaf, hchain, -⟩ := execFirmwareLoadCommit_holds c s
      obtain rfl : u = t := Host.Outcome.next.inj (hu.symm.trans h)
      exact .inl ⟨hkey, hleaf, hchain⟩
    · next c =>
      obtain ⟨u, hu, -, -, hkey, hleaf, hchain⟩ := execConfigWriteHostKey_holds c s
      obtain rfl : u = t := Host.Outcome.next.inj (hu.symm.trans h)
      exact .inl ⟨hkey, hleaf, hchain⟩
    · next ok =>
      obtain ⟨u, hu, -, -, -, hroll⟩ := execKeyRolled_holds ok s
      obtain rfl : u = t := Host.Outcome.next.inj (hu.symm.trans h)
      exact hroll.imp (·.identityStands) fun ⟨hok, hrolled⟩ => ⟨hok ▸ rfl, hrolled⟩
    · cases hi

/-- R474: a command other than `config_write` HOST_KEY keeps the host key. -/
theorem exec_hostKey {i : Instr} {s t : State} (h : exec i s = .next t) :
    t.security.hostKey = s.security.hostKey ∨ ∃ c, i = .configWriteHostKey c := by
  cases hi : securityChanger i with
  | false => exact .inl (exec_leads_of_next hi h).hostKey
  | true =>
    unfold securityChanger at hi
    split at hi
    · next c =>
      obtain ⟨u, hu, -, -, -, -, -, hkey⟩ := execFirmwareLoadCommit_holds c s
      obtain rfl : u = t := Host.Outcome.next.inj (hu.symm.trans h)
      exact .inl hkey
    · next c => exact .inr ⟨c, rfl⟩
    · next ok =>
      obtain ⟨u, hu, -, -, hkey, -⟩ := execKeyRolled_holds ok s
      obtain rfl : u = t := Host.Outcome.next.inj (hu.symm.trans h)
      exact .inl hkey
    · cases hi

/-- Settles O10: a tick verifies nothing, and of the commands only a COMMIT whose image passes. -/
theorem firmwareStartsOnlyVerified : Obligations.FirmwareStartsOnlyVerified := by
  intro s t h ht
  rcases step_cases h with ⟨-, hL⟩ | ⟨i, rest, hq, hi⟩
  · exact .inl (hL.committed ht)
  · rcases exec_committed hi ht with hs | ⟨c, rfl, hv⟩
    · exact .inl hs
    · exact .inr ⟨c, rest, hq, hv⟩

/-- Settles O11: the identity stands through a tick; of the commands only a rollover that succeeded rolls it. -/
theorem leavesNeverReused : Obligations.LeavesNeverReused := by
  intro s t h
  rcases step_cases h with ⟨-, hL⟩ | ⟨i, rest, hq, hi⟩
  · exact .inl hL.identityStands
  · exact (exec_identity hi).imp id fun ⟨hroll, hrolled⟩ => ⟨⟨rest, hroll ▸ hq⟩, hrolled⟩

/-- Settles O12: a tick keeps the host key, and so does every command but one. -/
theorem hostKeyOnlyByConfigWrite : Obligations.HostKeyOnlyByConfigWrite := by
  intro s t h
  rcases step_cases h with ⟨-, hL⟩ | ⟨i, rest, hq, hi⟩
  · exact .inl hL.hostKey
  · exact (exec_hostKey hi).imp id fun ⟨c, hc⟩ => ⟨c, rest, hc ▸ hq⟩

end Sys2Proof.Machine
end

section
/-! SUPPORT, O8 and O9. The frames of an unpowered device and of the commands that store nothing. -/

namespace Sys2Proof.Machine

/-- R499, R503: every meaning but three is guarded by power. -/
theorem exec_off {i : Instr} {s : State} (h : s.powered = false) (hi : Normal.takenUnpowered i = false) : exec i s = .next s := by
  have hoff : ¬s.powered = true := by simp [h]
  cases i with
  | pwrGood | pwrGoodDeassert | tapInstruction => cases hi
  | _ => exact if_neg hoff

/-- Settles O8: the device as it is, by the guard of power. -/
theorem unpoweredStands : Obligations.UnpoweredStands := fun _ _ h hi => exec_off h hi

/-- A command that stores nothing answers a next state that holds the same memory. -/
theorem exec_still (i : Instr) (s : State) (h : Normal.storesNothing i = true) : ∃ t, exec i s = .next t ∧ s.Still t := by
  cases i with
  | data d ms => exact execData_still d ms s
  | ack d => exact execAck_still d s
  | nack d bitmap => exact execNack_still d bitmap s
  | openSession d cred => exact execOpenSession_still d cred s
  | close d => exact execClose_still d s
  | keepalive d => exact execKeepalive_still d s
  | timedRetransmission session tseq => exact execTimedRetransmission_still session tseq s
  | retransmitExhausted session tseq => exact execRetransmitExhausted_still session tseq s
  | sessionSilenceTimeout session => exact execSessionSilenceTimeout_still session s
  | windowReopen session buffers => exact execWindowReopen_still session buffers s
  | queueBind c => exact execQueueBind_still c s
  | queueUnbind c => exact execQueueUnbind_still c s
  | queueAttach c => exact execQueueAttach_still c s
  | queueStatus c => exact execQueueStatus_still c s
  | queueFlush c => exact execQueueFlush_still c s
  | nop c => exact execNop_still c s
  | commandDispatch q => exact execCommandDispatch_still q s
  | queueDrained q => exact execQueueDrained_still q s
  | xancaRead c => exact execXancaRead_still c s
  | callsheetRead c => exact execCallsheetRead_still c s
  | callsheetWaitTimeout idx => exact execCallsheetWaitTimeout_still idx s
  | callsheetDeadline b => exact execCallsheetDeadline_still b s
  | registerWrite unit offset value => exact execRegisterWrite_still unit offset value s
  | badRegisterAccess addr size write => exact execBadRegisterAccess_still addr size write s
  | lcfTransmit port => exact execLcfTransmit_still port s
  | ptpMessage m => exact execPtpMessage_still m s
  | servoAdjust => exact execServoAdjust_still s
  | parentSearchTimeout => exact execParentSearchTimeout_still s
  | ptpLost => exact execPtpLost_still s
  | holdoverLimitExceeded => exact execHoldoverLimitExceeded_still s
  | unlockedNsLimit => exact execUnlockedNsLimit_still s
  | coreGate p => exact execCoreGate_still p s
  | waitTagRelease p => exact execWaitTagRelease_still p s
  | emptySlotStallRelease p => exact execEmptySlotStallRelease_still p s
  | kernelRun c => exact execKernelRun_still c s
  | kernelUnload c => exact execKernelUnload_still c s
  | opeRepair c => exact execOpeRepair_still c s
  | writeRefused idx => exact execWriteRefused_still idx s
  | contScrub p line errors passEnd => exact execContScrub_still p line errors passEnd s
  | resvScrub line errors passEnd => exact execResvScrub_still line errors passEnd s
  | contRun c => exact execContRun_still c s
  | streamOpen c => exact execStreamOpen_still c s
  | streamRun c => exact execStreamRun_still c s
  | reelShard c => exact execReelShard_still c s
  | slateMirror slot => exact execSlateMirror_still slot s
  | updateGateTimeout slot => exact execUpdateGateTimeout_still slot s
  | shootdownComplete idx => exact execShootdownComplete_still idx s
  | mapDestroy c => exact execMapDestroy_still c s
  | farMigrateOut c => exact execFarMigrateOut_still c s
  | farMigrateBack c => exact execFarMigrateBack_still c s
  | farMigrateRelease c => exact execFarMigrateRelease_still c s
  | farOffline c => exact execFarOffline_still c s
  | farOnline c => exact execFarOnline_still c s
  | slotPowerFall channel => exact execSlotPowerFall_still channel s
  | seqCreateSequence c => exact execSeqCreateSequence_still c s
  | flumeChainStart c => exact execFlumeChainStart_still c s
  | flumeTimerSet c => exact execFlumeTimerSet_still c s
  | flumeStatus c => exact execFlumeStatus_still c s
  | timerTick t => exact execTimerTick_still t s
  | bulkPacket f b => exact execBulkPacket_still f b s
  | lightDetected port => exact execLightDetected_still port s
  | trainingComplete port peer peerPort width => exact execTrainingComplete_still port peer peerPort width s
  | trainingTimeout port => exact execTrainingTimeout_still port s
  | lossOfLight port => exact execLossOfLight_still port s
  | connectorRemoval engine => exact execConnectorRemoval_still engine s
  | fabricIdSet c => exact execFabricIdSet_still c s
  | linkStatus c => exact execLinkStatus_still c s
  | jobCreate c => exact execJobCreate_still c s
  | modeSet c => exact execModeSet_still c s
  | rotationTurnEnd a => exact execRotationTurnEnd_still a s
  | taskMigrate c => exact execTaskMigrate_still c s
  | freezeSet c => exact execFreezeSet_still c s
  | freezeTake c => exact execFreezeTake_still c s
  | partnerSet c => exact execPartnerSet_still c s
  | partnerHandshake f feed => exact execPartnerHandshake_still f feed s
  | partnerLimit slot => exact execPartnerLimit_still slot s
  | feedTagSet c => exact execFeedTagSet_still c s
  | negativeLoad c => exact execNegativeLoad_still c s
  | retakeRun c => exact execRetakeRun_still c s
  | sweep c => exact execSweep_still c s
  | errorLogRead c => exact execErrorLogRead_still c s
  | heartbeat n => exact execHeartbeat_still n s
  | controlHeartbeatTimeout n => exact execControlHeartbeatTimeout_still n s
  | dozeEntry => exact execDozeEntry_still s
  | powerLimitSet c => exact execPowerLimitSet_still c s
  | telemetryRead c => exact execTelemetryRead_still c s
  | gafferTick => exact execGafferTick_still s
  | setpointReached => exact execSetpointReached_still s
  | powerEstimate watts dynamic => exact execPowerEstimate_still watts dynamic s
  | excursionBackstop => exact execExcursionBackstop_still s
  | clampReleaseStep => exact execClampReleaseStep_still s
  | throtInAssert => exact execThrotInAssert_still s
  | throtInDeassert => exact execThrotInDeassert_still s
  | railSample mv ma => exact execRailSample_still mv ma s
  | tempSample cmp iod hbm opt => exact execTempSample_still cmp iod hbm opt s
  | i3cIndexWrite data => exact execI3cIndexWrite_still data s
  | i3cRead => exact execI3cRead_still s
  | setpAlert low => exact execSetpAlert_still low s
  | pwrGoodDeassert => exact execPwrGoodDeassert_still s
  | railFault => exact execRailFault_still s
  | thermalTrip => exact execThermalTrip_still s
  | firmwareLoadBegin c => exact execFirmwareLoadBegin_still c s
  | firmwareLoadData c => exact execFirmwareLoadData_still c s
  | firmwareLoadCommit c => exact execFirmwareLoadCommit_still c s
  | firmwareLoadAbort c => exact execFirmwareLoadAbort_still c s
  | configWriteSet c => exact execConfigWriteSet_still c s
  | configWriteClear c => exact execConfigWriteClear_still c s
  | configWriteHostKey c => exact execConfigWriteHostKey_still c s
  | configWriteMinSvn c => exact execConfigWriteMinSvn_still c s
  | attestReport c => exact execAttestReport_still c s
  | attestChain c => exact execAttestChain_still c s
  | attestRoll c => exact execAttestRoll_still c s
  | keyRolled ok => exact execKeyRolled_still ok s
  | neighbourDiscovery target src => exact execNeighbourDiscovery_still target src s
  | icmpv6Echo dst src data => exact execIcmpv6Echo_still dst src data s
  | hostLinkLoss => exact execHostLinkLoss_still s
  | cmReq r => exact execCmReq_still r s
  | cmDreq qpn => exact execCmDreq_still qpn s
  | intakeDecode c => exact execIntakeDecode_still c s
  | intakeStatus c => exact execIntakeStatus_still c s
  | ppsInEdge => exact execPpsInEdge_still s
  | tapInstruction idx => exact execTapInstruction_still idx s
  | functionStopsBeingUsable b => exact execFunctionStopsBeingUsable_still b s
  | trainingRetry port => exact execTrainingRetry_still port s
  | partnerHandshakeLimit slot => exact execPartnerHandshakeLimit_still slot s
  | mapDestroyDone slot => exact execMapDestroyDone_still slot s
  | pfcFrame prio quanta => exact execPfcFrame_still prio quanta s
  | dynamicAddressAssignment addr => exact execDynamicAddressAssignment_still addr s
  | _ => cases h

/-- Where the memories are the same, so is every line. -/
theorem State.Still.line {s t : State} (h : s.Still t) (p l : Nat) : t.line p l = s.line p l := by
  simp [State.line, State.spadBytes, h.lines]

/-- Settles O9: the memories are the same, and the lines and tags are read off them. -/
theorem storesNothingFrame : Obligations.StoresNothingFrame := by
  intro i s t hi h
  obtain ⟨u, hu, hstill⟩ := exec_still i s hi
  obtain rfl : u = t := Host.Outcome.next.inj (hu.symm.trans h)
  refine ⟨fun a => by rw [hstill.bytes], fun g => by rw [hstill.poison], fun p l => ⟨hstill.line p l, ?_, ?_⟩⟩
  · simp [State.isFull, hstill.full]
  · simp [State.isPoisoned, hstill.marks]

end Sys2Proof.Machine
end

section
/-! SUPPORT and O54. The pins, the I3C target, the test access port and what stops the device, one lemma for each row (R496, R499,
R501-R503, R509). -/

namespace Sys2Proof.Machine

/-- R496: the regulator's alert is what the pin shows. -/
theorem exec_setpAlert (s : State) (low : Bool) (hp : s.powered = true) :
    exec (.setpAlert low) s = .next { s with pins := { s.pins with setpAlertN := !low } } := by
  have hexec : execSetpAlert low s = _ := State.live_powered _ hp
  exact hexec

/-- R502: one byte written sets the index. -/
theorem exec_i3cIndexWrite_one (s : State) (b : Byte) (hp : s.powered = true) :
    exec (.i3cIndexWrite [b]) s = .next { s with pins := { s.pins with i3cIndex := b.toNat } } := by
  have hexec : execI3cIndexWrite [b] s = _ := State.live_powered _ hp
  exact hexec

/-- R502: a longer write is not acknowledged. -/
theorem exec_i3cIndexWrite_more (s : State) (a b : Byte) (l : List Byte) (hp : s.powered = true) :
    exec (.i3cIndexWrite (a :: b :: l)) s = .next (s.emit .i3cNack) := by
  have hexec : execI3cIndexWrite (a :: b :: l) s = _ := State.live_powered _ hp
  exact hexec

/-- R502: a read answers the 8 bytes at the index, which goes on to the next. -/
theorem exec_i3cRead (s : State) (hp : s.powered = true) :
    exec .i3cRead s = .next (State.emit { s with pins := { s.pins with i3cIndex := (s.pins.i3cIndex + 1) % 256 } }
      (.i3c (le 8 (s.i3cValue s.pins.i3cIndex)))) := by
  have hexec : execI3cRead s = _ := State.live_powered _ hp
  exact hexec

/-- R502: the controller gives the target its address. -/
theorem exec_dynamicAddressAssignment (s : State) (a : Nat) (hp : s.powered = true) :
    exec (.dynamicAddressAssignment a) s = .next { s with pins := { s.pins with i3cAddress := a % 128 } } := by
  have hexec : execDynamicAddressAssignment a s = _ := State.live_powered _ hp
  exact hexec

/-- R501: an edge of PPS_IN is stamped. -/
theorem exec_ppsInEdge (s : State) (hp : s.powered = true) :
    exec .ppsInEdge s = .next { s with pins := { s.pins with ppsStamp := s.now } } := by
  have hexec : execPpsInEdge s = _ := State.live_powered _ hp
  exact hexec

/-- R503: IDCODE shifts out the identity code, with or without power. -/
theorem exec_tapInstruction_idcode (s : State) :
    exec (.tapInstruction .idcode) s = .next (State.emit { s with pins := { s.pins with tapInstruction := 1 } }
      (.tap 1 0x1074C0B3)) := rfl

/-- R503: while TEST_MODE is low EXTEST acts as BYPASS. -/
theorem exec_tapInstruction_extest_low (s : State) (htest : s.pins.testMode = false) :
    exec (.tapInstruction .extest) s = .next (State.emit { s with pins := { s.pins with tapInstruction := 0 } } (.tap 0 0)) := by
  change execTapInstruction .extest s = _
  have hbypass : tapEffective s.pins.testMode .extest = .bypass := by rw [htest]; rfl
  simp only [execTapInstruction, hbypass]

/-- R499: with the fall of PWR_GOOD the device is unpowered, and FAULT_N is released. -/
theorem exec_pwrGoodDeassert (s : State) :
    exec .pwrGoodDeassert s = .next { s with
      powered := false, pins := { s.pins with pwrGood := false, faultN := true }, power := { s.power with stopped := false } } := rfl

/-- R499: a rail fault stops the device and asserts FAULT_N. -/
theorem exec_railFault (s : State) (hp : s.powered = true) :
    exec .railFault s = .next { s with
      powered := false, pins := { s.pins with faultN := false }, power := { s.power with stopped := true, pll := 0 } } := by
  have hexec : execRailFault s = _ := State.live_powered _ hp
  exact hexec

/-- R509: a thermal trip stops the device and asserts FAULT_N. -/
theorem exec_thermalTrip (s : State) (hp : s.powered = true) :
    exec .thermalTrip s = .next { s with
      powered := false, pins := { s.pins with faultN := false }, power := { s.power with stopped := true, pll := 0 } } := by
  have hexec : execThermalTrip s = _ := State.live_powered _ hp
  exact hexec

/-- Settles O54: one lemma for each row; an I3C write has one for a byte and one for more. -/
theorem pinsComplete : Obligations.PinsComplete :=
  ⟨exec_setpAlert, exec_i3cIndexWrite_one, exec_i3cIndexWrite_more, exec_i3cRead, exec_dynamicAddressAssignment, exec_ppsInEdge,
    exec_tapInstruction_idcode, exec_tapInstruction_extest_low, exec_pwrGoodDeassert, exec_railFault, exec_thermalTrip⟩

end Sys2Proof.Machine
end

section
/-! SUPPORT and O53. Estimates, the fast clamp, operating points, samples, telemetry and limits, one lemma for each row (R447-R450,
R453, R457-R459). -/

namespace Sys2Proof.Machine

/-! ## Estimates and the fast clamp (R449) -/

/-- R449: an estimate is held and summed; the excursion goes on or ends; then the clamp follows its causes. -/
theorem exec_powerEstimate (s : State) (watts dynamic : Nat) (hp : s.powered = true) :
    ∃ u : State, exec (.powerEstimate watts dynamic) s = .next u.reclamp ∧ u.power.powerW = watts ∧ u.power.dynamicW = dynamic ∧
      u.power.peakSeen = max s.power.peakSeen watts ∧ u.power.energyUj = s.power.energyUj + watts ∧
      u.power.excursionUs = (if s.power.tdpW < watts then s.power.excursionUs + 1 else 0) := by
  have hexec : execPowerEstimate watts dynamic s = _ := State.live_powered _ hp
  refine ⟨_, hexec, rfl, rfl, rfl, rfl, ?_⟩
  simp only [gt_iff_lt]

/-- R449: the backstop acts once the excursion has lasted long enough. -/
theorem exec_excursionBackstop (s : State) (hp : s.powered = true) (hdue : s.power.atBackstop = true) :
    exec .excursionBackstop s = .next (State.reclamp { s with power := { s.power with backstop := true } }) := by
  have hexec : execExcursionBackstop s = _ := State.live_onlyIf hp hdue
  exact hexec

/-- R449: with no cause active a clamp that is engaged releases one step. -/
theorem exec_clampReleaseStep (s : State) (hp : s.powered = true) (hcause : s.clampCause.1 = 0) (hk : s.power.clampK ≠ 0) :
    exec .clampReleaseStep s = .next { s with power := { s.power with clampK := s.power.clampK - 1 } } := by
  have hexec : execClampReleaseStep s = _ := State.live_onlyIf hp (by simp [hcause, hk])
  exact hexec

/-- R449, R451: the throttle input is asserted and counted. -/
theorem exec_throtInAssert (s : State) (hp : s.powered = true) (hpin : s.pins.throtInN = true) :
    exec .throtInAssert s = .next (State.reclamp { s with
      pins := { s.pins with throtInN := false }, power := { s.power with throtIns := satAdd 16 s.power.throtIns 1 } }) := by
  have hexec : execThrotInAssert s = _ := State.live_onlyIf hp hpin
  exact hexec

theorem exec_throtInDeassert (s : State) (hp : s.powered = true) :
    exec .throtInDeassert s = .next (State.reclamp { s with pins := { s.pins with throtInN := true } }) := by
  have hexec : execThrotInDeassert s = _ := State.live_powered _ hp
  exact hexec

/-! ## Operating points (R447, R448, R450) -/

/-- The three conditions to lower are two branches of the gaffer's decision, with one outcome. -/
theorem execGafferTick_mustLower {s : State} (hp : s.powered = true) (h : Normal.mustLower s = true) :
    execGafferTick s = .next s.lowerPoint := by
  have hexec : execGafferTick s = _ := State.live_powered _ hp
  rw [Normal.mustLower, Bool.or_eq_true, decide_eq_true_eq] at h
  rcases h with hpower | hthermal
  · simpa only [hpower, if_true] using hexec
  · simpa only [hthermal, if_true, ite_self] using hexec

/-- R448, R450: one point down changes the frequency, and the voltage with it. -/
theorem exec_gafferTick_lower (s : State) (hp : s.powered = true) (h : Normal.mustLower s = true) (hpoint : s.power.point < 4) :
    ∃ t, exec .gafferTick s = .next t ∧ t.power.point = s.power.point + 1 ∧ t.power.arithMhz = (opPoint (s.power.point + 1)).1 ∧
      t.power.vddMv = (opPoint (s.power.point + 1)).2.1 := by
  refine ⟨_, execGafferTick_mustLower hp h, ?_⟩
  rw [State.lowerPoint, if_neg (by omega)]
  exact ⟨rfl, rfl, rfl⟩

/-- Where the device may run faster, the gaffer raises the operating point: no excursion has been, or the last one is 100 ms old. -/
theorem execGafferTick_mayRaise {s : State} (hp : s.powered = true) (h : Normal.mayRaise s = true) :
    execGafferTick s = .next s.raisePoint := by
  have hexec : execGafferTick s = _ := State.live_powered _ hp
  simp only [Normal.mayRaise, Normal.mustLower, Bool.and_eq_true, Bool.not_eq_true', Bool.or_eq_false_iff] at h
  obtain ⟨⟨⟨⟨⟨⟨⟨⟨hlong, havg⟩, hhot⟩, hpoint⟩, hpending⟩, hexcursion⟩, hago⟩, hcool⟩, hroom⟩ := h
  simp only [hlong, havg, hpoint, hpending, hexcursion, hcool, hroom, of_decide_eq_false hhot, Bool.or_self, Bool.true_and,
    Bool.and_true, Bool.false_eq_true, if_false] at hexec
  cases hlast : s.power.lastExcursion with
  | none =>
    simp only [hlast, if_true] at hexec
    exact hexec
  | some t =>
    simp only [hlast] at hago hexec
    rwa [if_pos hago] at hexec

/-- R448, R450: one point up raises the voltage first, and the frequency waits for it. -/
theorem exec_gafferTick_raise (s : State) (hp : s.powered = true) (h : Normal.mayRaise s = true) :
    ∃ t, exec .gafferTick s = .next t ∧ t.power.point = s.power.point ∧ t.power.vddMv = (opPoint (s.power.point - 1)).2.1 ∧
      t.power.pendingPoint = some (s.power.point - 1) :=
  ⟨_, execGafferTick_mayRaise hp h, rfl, rfl, rfl⟩

/-- R448: the frequency follows its voltage. -/
theorem exec_setpointReached (s : State) (p : Nat) (hp : s.powered = true) (hpending : s.power.pendingPoint = some p) :
    ∃ t, exec .setpointReached s = .next t ∧ t.power.point = p ∧ t.power.arithMhz = (opPoint p).1 ∧ t.power.pendingPoint = none := by
  have hexec : execSetpointReached s = _ := State.live_powered _ hp
  simp only [hpending] at hexec
  exact ⟨_, hexec, rfl, rfl, rfl⟩

/-! ## Samples (R453) -/

theorem State.reg_setReg_self (s : State) (u off v : Nat) : (s.setReg u off v).reg u off = v % 2 ^ 64 :=
  TMap.get_insert_self ..

theorem State.reg_setReg_of_ne (s : State) (u v : Nat) {off off' : Nat} (h : off' ≠ off) :
    (s.setReg u off v).reg u off' = s.reg u off' :=
  TMap.get_insert_of_ne _ _ _ _ _ (by omega)

/-- Registers of a unit written one after another, at distinct offsets, all read as what was written. -/
theorem State.reg_foldl_setReg (s : State) (u : Nat) (off v : Nat → Nat) (hoff : Function.Injective off) (l : List Nat) (r : Nat) :
    (l.foldl (fun s r => s.setReg u (off r) (v r)) s).reg u (off r) = if r ∈ l then v r % 2 ^ 64 else s.reg u (off r) := by
  induction l generalizing s with
  | nil => simp
  | cons a l ih =>
    rw [List.foldl_cons, ih]
    by_cases hl : r ∈ l
    · simp [hl]
    · by_cases ha : r = a
      · simp [ha, State.reg_setReg_self]
      · rw [State.reg_setReg_of_ne _ _ _ (hoff.ne ha)]
        simp [hl, ha]

/-- R453: the six rails' voltages and currents are in the gaffer's registers. -/
theorem exec_railSample (s : State) (mv ma : List Nat) (hp : s.powered = true) :
    ∃ t, exec (.railSample mv ma) s = .next t ∧ ∀ r, r < 6 →
      t.reg uGaffer (0x100 + 8 * r) = ((mv.getD r 0 % 65536) <<< 48 + (ma.getD r 0 % 2 ^ 24) <<< 24) % 2 ^ 64 := by
  have hexec : execRailSample mv ma s = _ := State.live_powered _ hp
  refine ⟨_, hexec, fun r hr => ?_⟩
  have hoff : Function.Injective fun r => 0x100 + 8 * r := fun a b hab => by simpa using hab
  rw [s.reg_foldl_setReg uGaffer _ (fun r => (mv.getD r 0 % 65536) <<< 48 + (ma.getD r 0 % 2 ^ 24) <<< 24) hoff,
    if_pos (List.mem_range.2 hr)]

/-- The registers that a temperature sample writes are not the gaffer's record. -/
@[simp] theorem State.setHbmTemp_power (s : State) (k t : Nat) : (s.setHbmTemp k t).power = s.power := by
  simp [State.setHbmTemp]

/-- R449, R453: the dies' temperatures are held, and the thermal cause follows the compute die's. -/
theorem exec_tempSample (s : State) (cmp iod : Nat) (hbm opt : List Nat) (hp : s.powered = true) :
    ∃ u : State, exec (.tempSample cmp iod hbm opt) s = .next u.reclamp ∧ u.power.cmpC = cmp % 256 ∧ u.power.iodC = iod % 256 ∧
      u.power.thermalK = thermalLevel s.power.thermalK cmp := by
  have hexec : execTempSample cmp iod hbm opt s = _ := State.live_powered _ hp
  refine ⟨_, hexec, rfl, rfl, ?_⟩
  rw [foldl_field (·.power) _ (fun _ _ => State.setFld_power ..), foldl_field (·.power) _ fun _ _ => State.setHbmTemp_power ..]

/-! ## Telemetry and limits (R457, R458) -/

/-- R458: the telemetry is answered; the long form may clear the peak. -/
theorem exec_telemetryRead (s : State) (c : Command) (h : Normal.passes s (s.telemetryReadChecks c) = true) :
    let t := s.finish c stOk 0 s.telemetry
    exec (.telemetryRead c) s = .next (if c.ex (c.u8 0) 0 = 1 then { t with power := { t.power with peakSeen := 0 } } else t) := by
  have hexec : execTelemetryRead c s = _ := State.live_checked h
  exact hexec

/-- R457: the limits that pass are in force, and the command answers with the old ones. -/
theorem exec_powerLimitSet (s : State) (c : Command) (h : Normal.passes s (s.powerLimitSetChecks c) = true) :
    ∃ u : State, exec (.powerLimitSet c) s = .next (u.reclamp.finish c stOk 0
        (le 2 s.power.tdpW ++ le 2 s.power.peakW ++ le 1 s.power.peakMs ++ le 3 0)) ∧ u.power.tdpW = c.u16 0 ∧
      u.power.peakW = c.u16 2 ∧ u.power.peakMs = c.u8 4 := by
  have hexec : execPowerLimitSet c s = _ := State.live_checked h
  exact ⟨_, hexec, rfl, rfl, rfl⟩

/-- Settles O53: one lemma for each row; the gaffer's tick has one for each direction. -/
theorem powerComplete : Obligations.PowerComplete :=
  ⟨exec_powerEstimate, exec_excursionBackstop, exec_clampReleaseStep, exec_throtInAssert, exec_throtInDeassert,
    exec_gafferTick_lower, exec_gafferTick_raise, exec_setpointReached, exec_railSample, exec_tempSample, exec_telemetryRead,
    exec_powerLimitSet⟩

end Sys2Proof.Machine
end

section
/-! SUPPORT, O44 and O45. The Flume commands, timers, and a channel's descriptors from read to write-back, one lemma for each command
and event (R306-R316, R319-R321). -/

namespace Sys2Proof.Machine

@[simp] theorem State.channel_setChannel_self (s : State) (k : Nat) (x : FlumeChannel) : (s.setChannel k x).channel k = x :=
  TMap.get_insert_self ..

@[simp] theorem State.timer_setTimer_self (s : State) (t : Nat) (x : FlumeTimer) : (s.setTimer t x).timer t = x :=
  TMap.get_insert_self ..

/-! ## Commands and timers (R311, R313, R319-R321) -/

/-- R319: the channel that a `flume_chain_start` takes, the first idle one among those that it allows. -/
def State.freeChannel (s : State) (c : Command) : Option Nat :=
  ((if c.u8 1 = 0xFF then (List.range 16).filter s.jobEngine else [c.u8 1]).flatMap fun e =>
    (if c.u8 2 = 0xFF then List.range 16 else [c.u8 2]).map fun n => flumeKey e n).find? s.idleChannel

/-- With its checks passed there is a channel to take, and it is idle. -/
theorem State.freeChannel_idle {s : State} {c : Command} (h : firstFail (s.flumeChainStartChecks c) = none) :
    (s.channel ((s.freeChannel c).getD 0)).phase = .idle := by
  simp only [State.flumeChainStartChecks, firstFail_cons_eq_none, failIf_eq_none] at h
  obtain ⟨-, -, -, -, -, -, -, -, hfree, -⟩ := h
  change (s.freeChannel c).isNone = false at hfree
  obtain ⟨k, hk⟩ := Option.isSome_iff_exists.1 (Option.isNone_eq_false_iff.1 hfree)
  rw [hk, Option.getD_some]
  exact beq_iff_eq.1 (List.find?_some (p := s.idleChannel) hk)

/-- R311, R319: a chain starts on an idle channel, at the command's first descriptor. -/
theorem exec_flumeChainStart (s : State) (c : Command) (h : Normal.passes s (s.flumeChainStartChecks c) = true) :
    ∃ (u : State) (k n : Nat), (s.channel k).phase = .idle ∧
      exec (.flumeChainStart c) s = .next (u.defer c 0 (le 1 (k / 16) ++ le 1 (k % 16) ++ le 2 0 ++ le 4 n ++ le 8 s.now)) ∧
      n = (if c.ex (c.u8 0x19) 0 = 1 then (s.channel k).counter else 0) ∧ (u.channel k).phase = .reading ∧
      (u.channel k).owner = some (s.cmdSlot c.hdr) ∧ (u.channel k).desc = c.u64 8 ∧ (u.channel k).counter = n ∧
      (u.channel k).cmd = some c := by
  obtain ⟨hp, hc⟩ := passes_iff.1 h
  have hexec : execFlumeChainStart c s = _ := (State.live_powered _ hp).trans (congrArg _ (State.checked_pass hc))
  refine ⟨_, (s.freeChannel c).getD 0, _, State.freeChannel_idle hc, hexec, rfl, ?_⟩
  simp only [State.freeChannel, State.channel_setChannel_self, and_self]

/-- R313: a timer takes its period, and its first tick lies on the grid of its start. -/
theorem exec_flumeTimerSet (s : State) (c : Command) (h : Normal.passes s (s.flumeTimerSetChecks c) = true) :
    ∃ u : State, exec (.flumeTimerSet c) s = .next (u.finish c stOk 0 (le 1 (c.u8 1) ++ le 1 0 ++ le 2 0 ++ le 4 0 ++ le 8 s.now)) ∧
      (u.timer (c.u8 1)).owner = some (s.cmdSlot c.hdr) ∧ (u.timer (c.u8 1)).period = c.u32 4 ∧ (u.timer (c.u8 1)).counter = 0 ∧
      (c.u32 4 ≠ 0 → c.u64 0x10 = 0 → (u.timer (c.u8 1)).nextAt = (s.now / c.u32 4 + 1) * c.u32 4) ∧
      (c.u32 4 ≠ 0 → c.u64 0x10 ≠ 0 → s.now ≤ c.u64 0x10 → (u.timer (c.u8 1)).nextAt = c.u64 0x10) := by
  have hexec : execFlumeTimerSet c s = _ := State.live_checked h
  dsimp only at hexec
  refine ⟨_, hexec, ?_⟩
  rw [State.timer_setTimer_self]
  exact ⟨rfl, rfl, rfl, fun hperiod hstart => by rw [if_neg hperiod, if_pos hstart],
    fun hperiod hstart hnow => by rw [if_neg hperiod, if_neg hstart, if_pos hnow]⟩

/-- R313: with each period the counter advances by one. -/
theorem exec_timerTick (s : State) (t : Nat) (h : Normal.timerDue s t = true) :
    exec (.timerTick t) s = .next (s.setTimer t { s.timer t with
      counter := ((s.timer t).counter + 1) % 2 ^ 32, nextAt := (s.timer t).nextAt + (s.timer t).period }) := by
  simp only [Normal.timerDue, Bool.and_eq_true] at h
  obtain ⟨⟨⟨hp, ht⟩, hperiod⟩, hdue⟩ := h
  have hexec : execTimerTick t s = _ := State.live_onlyIf hp (by rw [ht, hperiod, hdue]; rfl)
  exact hexec

theorem exec_flumeChainStop (s : State) (c : Command) (h : Normal.passes s (s.flumeChainStopChecks c) = true) :
    exec (.flumeChainStop c) s = .next (s.stopChain (flumeKey (c.u8 0) (c.u8 1)) (1 + c.u8 2) (some ⟨c, s.now⟩)) := by
  have hexec : execFlumeChainStop c s = _ := State.live_checked h
  exact hexec

theorem exec_flumeStatus (s : State) (c : Command) (h : Normal.passes s (s.flumeStatusChecks c) = true) :
    exec (.flumeStatus c) s = .next (s.finish c stOk 0 ((if c.u8 1 = 0xFF then List.range 16 else [c.u8 1]).flatMap fun n =>
      (s.channelRegs (flumeKey (c.u8 0) n) (some (s.cmdSlot c.hdr))).flatMap fun v => le 8 v)) := by
  have hexec : execFlumeStatus c s = _ := State.live_checked h
  exact hexec

/-- Settles O44: one lemma for each command, and for the timer's tick. -/
theorem flumeCommandsComplete : Obligations.FlumeCommandsComplete :=
  ⟨exec_flumeChainStart, exec_flumeTimerSet, exec_timerTick, exec_flumeChainStop, exec_flumeStatus⟩

/-! ## Reads of memory where no error is injected (R435) -/

/-- A read finds no error: the memory and the list of injected errors, which is empty, stay. -/
theorem State.memTouch_memory {s : State} (h : s.diag.injected = []) (pa n : Nat) :
    (s.memTouch pa n).memory = s.memory ∧ (s.memTouch pa n).diag.injected = [] := by
  simp only [State.memTouch, h, List.filter_nil, List.foldl_nil, State.countGranules]
  split <;> simp

theorem State.vtouch_memory {s : State} (h : s.diag.injected = []) (slot va n : Nat) : (s.vtouch slot va n).memory = s.memory := by
  refine (List.foldlRecOn (motive := fun t : State => t.memory = s.memory ∧ t.diag.injected = []) _ _ ⟨rfl, h⟩ ?_).1
  intro t ⟨hmemory, hinjected⟩ q _
  split
  · exact ⟨hmemory, hinjected⟩
  · rw [← hmemory]
    exact State.memTouch_memory hinjected _ _

/-! ## Reading descriptors (R306, R307, R310, R312, R316) -/

theorem flumePhase_iff {s : State} {e n : Nat} {p : FlumePhase} : Normal.flumePhase s e n p = true ↔
    s.powered = true ∧ n < 16 ∧ (s.channel (flumeKey e n)).phase = p := by
  simp [Normal.flumePhase, and_assoc]

/-- R306: a descriptor whose OWN is set is read and taken. -/
theorem State.readDescriptor_of_owned {s : State} {k : Nat} {b : List Byte} (h : Normal.ownedDescriptor s k b) :
    s.readDescriptor k = (s.vtouch ((s.channel k).owner.getD 0) (s.channel k).desc 64).takeDescriptor k b := by
  obtain ⟨hahead, hread, hown⟩ := h
  simp only [State.readDescriptor, hahead, hread, hown, Bool.false_eq_true, if_false, if_true]

theorem exec_descriptorRead (s : State) (e n : Nat) (b : List Byte) (h : Normal.flumePhase s e n .reading = true)
    (hown : Normal.ownedDescriptor s (flumeKey e n) b) :
    let k := flumeKey e n
    exec (.descriptorRead e n) s = .next ((s.vtouch ((s.channel k).owner.getD 0) (s.channel k).desc 64).takeDescriptor k b) := by
  obtain ⟨hp, hn, hphase⟩ := flumePhase_iff.1 h
  have hexec : execDescriptorRead e n s = _ := State.live_onlyIf hp (by simp [hn, hphase])
  rw [State.readDescriptor_of_owned hown] at hexec
  exact hexec

theorem exec_ownPoll (s : State) (e n : Nat) (b : List Byte) (h : Normal.flumePhase s e n .waitOwn = true)
    (hown : Normal.ownedDescriptor s (flumeKey e n) b) :
    let k := flumeKey e n
    (s.channel k).polledAt + s.fld (uFlume e) 0x040 63 48 ≤ s.now →
    exec (.ownPoll e n) s = .next ((s.vtouch ((s.channel k).owner.getD 0) (s.channel k).desc 64).takeDescriptor k b) := by
  intro k hdue
  obtain ⟨hp, hn, hphase⟩ := flumePhase_iff.1 h
  have hexec : execOwnPoll e n s = _ := State.live_onlyIf hp (by simp [hn, hphase, hdue, k])
  rw [State.readDescriptor_of_owned hown] at hexec
  exact hexec

/-- R307, R312: a legal descriptor that waits for nothing starts to move its data; only the next one is read beside. -/
theorem State.takeDescriptor_of_runnable {s : State} {k : Nat} {b : List Byte} (h : Normal.runnable s k b) :
    ((s.takeDescriptor k b).channel k).phase = .moving ∧ ((s.takeDescriptor k b).channel k).held = b ∧
      ((s.takeDescriptor k b).channel k).placement = (s.job ((s.channel k).owner.getD 0)).placement ∧
      (s.diag.injected = [] → (s.takeDescriptor k b).memory = s.memory) := by
  obtain ⟨hlegal, hwindow, hwait, hopen⟩ := h
  have hevent : ((parseDescriptor b).waitEvent ≠ 0xFFFF &&
      !waitMet (s.eventSource (parseDescriptor b).waitEvent).2 (parseDescriptor b).waitValue) = false := by
    rcases hwait with hnone | hmet
    · simp [hnone]
    · simp [hmet]
  have hclosed : (s.closing ((s.channel k).owner.getD 0) && isWindow (parseDescriptor b).dst) = false := by
    rcases hopen with hno | hno <;> simp [hno]
  simp only [State.takeDescriptor, hlegal, hwindow, hevent, hclosed, Bool.false_eq_true, if_false, State.channel_setChannel_self,
    true_and]
  intro hinjected
  change (if _ then s else _ : State).memory = _
  split_ifs
  · rfl
  · exact State.vtouch_memory hinjected ..

theorem exec_eventWaitRelease (s : State) (e n : Nat) (h : Normal.flumePhase s e n .waitEvent = true) :
    let k := flumeKey e n
    let d := parseDescriptor (s.channel k).held
    waitMet (s.eventSource d.waitEvent).2 d.waitValue = true → Normal.runnable s k (s.channel k).held →
    ∃ t, exec (.eventWaitRelease e n) s = .next t ∧ (t.channel k).phase = .moving ∧ (t.channel k).held = (s.channel k).held ∧
      (t.channel k).placement = (s.job ((s.channel k).owner.getD 0)).placement ∧
      (s.diag.injected = [] → t.memory = s.memory) := by
  intro k d hmet hrun
  obtain ⟨hp, hn, hphase⟩ := flumePhase_iff.1 h
  have hexec : execEventWaitRelease e n s = _ := State.live_onlyIf hp (by
    rw [Bool.and_eq_true, Bool.and_eq_true]
    exact ⟨⟨decide_eq_true hn, beq_iff_eq.2 hphase⟩, hmet⟩)
  exact ⟨_, hexec, State.takeDescriptor_of_runnable hrun⟩

/-! ## Moving data (R307-R310) -/

theorem running_iff {s : State} {e n op : Nat} : Normal.running s e n op = true ↔
    s.powered = true ∧ n < 16 ∧ (s.channel (flumeKey e n)).phase = .moving ∧ (s.channel (flumeKey e n)).discarding = false ∧
      (∃ c, (s.channel (flumeKey e n)).cmd = some c) ∧ (parseDescriptor (s.channel (flumeKey e n)).held).op = op := by
  simp [Normal.running, Normal.flumePhase, Option.isSome_iff_exists, and_assoc]

/-- A descriptor that has moved its data waits for its write-back. -/
theorem State.moveData_draining {s : State} {e n op : Nat} (h : Normal.running s e n op = true) :
    ((s.moveData (flumeKey e n) op).channel (flumeKey e n)).phase = .draining := by
  obtain ⟨-, -, hphase, hkept, -, hop⟩ := running_iff.1 h
  simp only [State.moveData, hphase, hkept, hop, ne_eq, not_true_eq_false, Bool.false_eq_true, decide_false, Bool.or_self, if_false,
    State.channel_setChannel_self]

theorem exec_copyDescriptor (s : State) (e n : Nat) (h : Normal.running s e n 0 = true) :
    ∃ t, exec (.copyDescriptor e n) s = .next t ∧ t = s.moveData (flumeKey e n) 0 ∧ (t.channel (flumeKey e n)).phase = .draining := by
  obtain ⟨hp, hn, -⟩ := running_iff.1 h
  have hexec : execCopyDescriptor e n s = _ := State.live_onlyIf hp (decide_eq_true hn)
  exact ⟨_, hexec, rfl, State.moveData_draining h⟩

theorem exec_fillDescriptor (s : State) (e n : Nat) (h : Normal.running s e n 1 = true) :
    ∃ t, exec (.fillDescriptor e n) s = .next t ∧ t = s.moveData (flumeKey e n) 1 ∧ (t.channel (flumeKey e n)).phase = .draining := by
  obtain ⟨hp, hn, -⟩ := running_iff.1 h
  have hexec : execFillDescriptor e n s = _ := State.live_onlyIf hp (decide_eq_true hn)
  exact ⟨_, hexec, rfl, State.moveData_draining h⟩

theorem exec_skewDescriptor (s : State) (e n : Nat) (h : Normal.running s e n 2 = true) :
    ∃ t, exec (.skewDescriptor e n) s = .next t ∧ t = s.moveData (flumeKey e n) 2 ∧ (t.channel (flumeKey e n)).phase = .draining := by
  obtain ⟨hp, hn, -⟩ := running_iff.1 h
  have hexec : execSkewDescriptor e n s = _ := State.live_onlyIf hp (decide_eq_true hn)
  exact ⟨_, hexec, rfl, State.moveData_draining h⟩

theorem exec_transposeDescriptor (s : State) (e n : Nat) (h : Normal.running s e n 3 = true) :
    ∃ t, exec (.transposeDescriptor e n) s = .next t ∧ t = s.moveData (flumeKey e n) 3 ∧
      (t.channel (flumeKey e n)).phase = .draining := by
  obtain ⟨hp, hn, -⟩ := running_iff.1 h
  have hexec : execTransposeDescriptor e n s = _ := State.live_onlyIf hp (decide_eq_true hn)
  exact ⟨_, hexec, rfl, State.moveData_draining h⟩

/-! ## Write-back (R306, R312, R315, R319) -/

/-- R306: after the write-back of a good descriptor, other than STOP, of a chain that is not being stopped, the chain goes on with
the descriptor that LINK names, or the next. -/
theorem State.flumeWriteBack_goesOn {s : State} {k : Nat} {c : Command} (hcmd : (s.channel k).cmd = some c)
    (hstop : (s.channel k).stopping = 0) (hgood : (s.channel k).result.bad = false)
    (hop : (parseDescriptor (s.channel k).held).op ≠ 6) :
    ((s.flumeWriteBack k 0).channel k).phase = .reading ∧
      ((s.flumeWriteBack k 0).channel k).desc = (if (parseDescriptor (s.channel k).held).op = 5 then
        (parseDescriptor (s.channel k).held).src % 2 ^ 57 else (s.channel k).desc + 64) := by
  simp only [State.flumeWriteBack, hcmd, hstop, hgood, hop, decide_false, Bool.false_and, Bool.false_eq_true, if_false, ne_eq,
    not_true_eq_false, Bool.not_false, Bool.and_true, State.channel_setChannel_self, decide_eq_true_eq, true_and]

/-- R319: a STOP, once written back, ends its chain. -/
theorem State.flumeWriteBack_stop {s : State} {k : Nat} {c : Command} (hcmd : (s.channel k).cmd = some c)
    (hgood : (s.channel k).result.bad = false) (hop : (parseDescriptor (s.channel k).held).op = 6) :
    ∃ u : State, s.flumeWriteBack k 0 = u.endChain k 0 ((s.channel k).desc + 64) stOk 0 0 := by
  simp only [State.flumeWriteBack, hcmd, hgood, hop, Bool.false_eq_true, if_false, Bool.not_false, Bool.and_true, decide_true,
    if_true]
  exact ⟨_, rfl⟩

/-- A running descriptor that moves nothing is written back at once. -/
theorem State.moveNothing_of_running {s : State} {e n op : Nat} (h : Normal.running s e n op = true) :
    s.moveNothing e n op = s.flumeWriteBack (flumeKey e n) 0 := by
  obtain ⟨-, hn, hphase, hkept, -, hop⟩ := running_iff.1 h
  rw [State.moveNothing, State.onlyIf_of]
  simp [hn, hphase, hkept, hop]

theorem exec_eventDescriptor (s : State) (e n : Nat) (h : Normal.running s e n 4 = true)
    (hstop : (s.channel (flumeKey e n)).stopping = 0) (hgood : (s.channel (flumeKey e n)).result.bad = false) :
    ∃ t, exec (.eventDescriptor e n) s = .next t ∧ t = s.flumeWriteBack (flumeKey e n) 0 ∧
      (t.channel (flumeKey e n)).phase = .reading ∧ (t.channel (flumeKey e n)).desc = (s.channel (flumeKey e n)).desc + 64 := by
  obtain ⟨hp, -, -, -, ⟨c, hcmd⟩, hop⟩ := running_iff.1 h
  have hexec : execEventDescriptor e n s = _ := State.live_powered _ hp
  rw [State.moveNothing_of_running h] at hexec
  obtain ⟨hphase, hdesc⟩ := State.flumeWriteBack_goesOn hcmd hstop hgood (by omega)
  exact ⟨_, hexec, rfl, hphase, by rw [hdesc, if_neg (by omega)]⟩

theorem exec_linkDescriptor (s : State) (e n : Nat) (h : Normal.running s e n 5 = true)
    (hstop : (s.channel (flumeKey e n)).stopping = 0) (hgood : (s.channel (flumeKey e n)).result.bad = false) :
    ∃ t, exec (.linkDescriptor e n) s = .next t ∧ t = s.flumeWriteBack (flumeKey e n) 0 ∧
      (t.channel (flumeKey e n)).phase = .reading ∧
      (t.channel (flumeKey e n)).desc = (parseDescriptor (s.channel (flumeKey e n)).held).src % 2 ^ 57 := by
  obtain ⟨hp, -, -, -, ⟨c, hcmd⟩, hop⟩ := running_iff.1 h
  have hexec : execLinkDescriptor e n s = _ := State.live_powered _ hp
  rw [State.moveNothing_of_running h] at hexec
  obtain ⟨hphase, hdesc⟩ := State.flumeWriteBack_goesOn hcmd hstop hgood (by omega)
  exact ⟨_, hexec, rfl, hphase, by rw [hdesc, if_pos hop]⟩

theorem exec_stopChain (s : State) (e n : Nat) (h : Normal.running s e n 6 = true)
    (hgood : (s.channel (flumeKey e n)).result.bad = false) :
    ∃ u : State, exec (.stopChain e n) s = .next (u.endChain (flumeKey e n) 0 ((s.channel (flumeKey e n)).desc + 64) stOk 0 0) := by
  obtain ⟨hp, -, -, -, ⟨c, hcmd⟩, hop⟩ := running_iff.1 h
  have hexec : execStopChain e n s = _ := State.live_powered _ hp
  obtain ⟨u, hu⟩ := State.flumeWriteBack_stop hcmd hgood hop
  rw [State.moveNothing_of_running h, hu] at hexec
  exact ⟨u, hexec⟩

theorem exec_descriptorWriteBack (s : State) (e n : Nat) (h : Normal.writeBackDue s e n = true)
    (hstop : (s.channel (flumeKey e n)).stopping = 0) (hgood : (s.channel (flumeKey e n)).result.bad = false)
    (hop : (parseDescriptor (s.channel (flumeKey e n)).held).op ≤ 3) :
    ∃ t, exec (.descriptorWriteBack e n) s = .next t ∧ t = s.flumeWriteBack (flumeKey e n) 0 ∧
      (t.channel (flumeKey e n)).phase = .reading ∧ (t.channel (flumeKey e n)).desc = (s.channel (flumeKey e n)).desc + 64 := by
  simp only [Normal.writeBackDue, Bool.and_eq_true, Bool.not_eq_true', flumePhase_iff, Option.isSome_iff_exists] at h
  obtain ⟨⟨⟨hp, hn, hphase⟩, hkept⟩, c, hcmd⟩ := h
  have hexec : execDescriptorWriteBack e n s = _ := State.live_onlyIf hp (by simp [hn, hphase, hkept])
  obtain ⟨hreading, hdesc⟩ := State.flumeWriteBack_goesOn hcmd hstop hgood (by omega)
  exact ⟨_, hexec, rfl, hreading, by rw [hdesc, if_neg (by omega)]⟩

/-- Settles O45: one lemma for each event of a channel. -/
theorem descriptorsComplete : Obligations.DescriptorsComplete :=
  ⟨exec_descriptorRead, exec_ownPoll, exec_eventWaitRelease, exec_copyDescriptor, exec_fillDescriptor, exec_skewDescriptor,
    exec_transposeDescriptor, exec_eventDescriptor, exec_linkDescriptor, exec_stopChain, exec_descriptorWriteBack⟩

end Sys2Proof.Machine
end

section
/-! SUPPORT and O46. Link control frames, training and the loss of light, one lemma for each event (R326, R327, R330, R508). -/

namespace Sys2Proof.Machine

theorem portIn_iff {s : State} {p : Nat} {ph : PortPhase} :
    Normal.portIn s p ph = true ↔ s.powered = true ∧ p < 16 ∧ (s.port p).phase = ph := by
  simp [Normal.portIn, and_assoc]

/-! ## Link control frames (R326, R327) -/

/-- R326, R327: an UP port takes the acknowledgement and the credits of a frame without a NACK, and goes on sending. -/
theorem exec_lcf_up (s : State) (p : Nat) (l : LinkControl) (h : Normal.portIn s p .up = true) (hnack : l.nack = none) :
    let x := s.port p
    let u := (s.setPort p { x with
      echo := (l.stamp, s.now), credit := x.credit + l.credits, peer := l.peer, peerPort := l.peerPort }).linkAck p l.ack
    (u.port p).phase = .up → exec (.lcf p l) s = .next (((u.kickPort p).tcExchange p l).collAcked) := by
  intro x u hup
  dsimp only [x, u] at hup ⊢
  obtain ⟨hp, hport, hphase⟩ := portIn_iff.1 h
  have hwired : ((s.port p).phase == PortPhase.miswired) = false := by rw [hphase]; rfl
  have hexec : execLcf p l s = _ := State.live_onlyIf hp (by simp [hport, hphase])
  dsimp only at hexec
  rw [hwired, if_neg Bool.false_ne_true, hnack] at hexec
  dsimp only at hexec
  rw [if_pos (beq_iff_eq.2 hup)] at hexec
  exact hexec

/-- R326, R330: a MISWIRED port whose peer is the same stays MISWIRED. -/
theorem exec_lcf_miswired (s : State) (p : Nat) (l : LinkControl) (h : Normal.portIn s p .miswired = true)
    (hpeer : l.peer = (s.port p).peer) (hpeerPort : l.peerPort = (s.port p).peerPort) :
    exec (.lcf p l) s = .next (s.setPort p { s.port p with
      echo := (l.stamp, s.now), credit := (s.port p).credit + l.credits, peer := l.peer, peerPort := l.peerPort }) := by
  obtain ⟨hp, hport, hphase⟩ := portIn_iff.1 h
  have hexec : execLcf p l s = _ := State.live_onlyIf hp (by simp [hport, hphase])
  dsimp only at hexec
  rw [if_pos (beq_iff_eq.2 hphase), if_neg (by simp [hpeer, hpeerPort])] at hexec
  exact hexec

theorem exec_lcfTransmit (s : State) (p : Nat) (h : Normal.lcfDue s p = true) :
    exec (.lcfTransmit p) s = .next ((s.setPort p { s.port p with
      ackDue := false, nackDue := none, toGrant := 0, lastLcf := s.now }).emit (.linkControl p (s.makeLcf p))) := by
  simp only [Normal.lcfDue, Bool.and_eq_true] at h
  obtain ⟨⟨⟨hp, hport⟩, hphase⟩, hdue⟩ := h
  have hexec : execLcfTransmit p s = _ := State.live_onlyIf hp (by rw [hport, hphase, hdue]; rfl)
  exact hexec

/-! ## Training and light (R330) -/

theorem exec_lightDetected (s : State) (p : Nat) (h : Normal.portIn s p .down = true) (htrain : s.fld (uLink p) 0x040 0 0 = 1) :
    exec (.lightDetected p) s = .next ((s.setPort p { s.port p with light := true }).trainPort p) := by
  obtain ⟨hp, hport, hphase⟩ := portIn_iff.1 h
  have hexec : execLightDetected p s = _ := State.live_onlyIf hp (decide_eq_true hport)
  dsimp only at hexec
  rw [if_pos] at hexec
  · exact hexec
  · rw [State.port_setPort_self]
    exact Bool.and_eq_true_iff.2 ⟨beq_iff_eq.2 hphase, beq_iff_eq.2 htrain⟩

theorem exec_trainingComplete (s : State) (p a b w : Nat) (h : Normal.portIn s p .training = true) :
    exec (.trainingComplete p a b w) s = .next ((s.setPort p { s.port p with
      peer := a, peerPort := b, width := min (s.port p).working w }).checkPeer p) := by
  obtain ⟨hp, hport, hphase⟩ := portIn_iff.1 h
  have hexec : execTrainingComplete p a b w s = _ := State.live_onlyIf hp (by simp [hport, hphase])
  exact hexec

theorem exec_trainingTimeout (s : State) (p : Nat) (h : Normal.portIn s p .training = true)
    (hdue : (s.port p).trainingSince + 200 * msec ≤ s.now) : exec (.trainingTimeout p) s = .next (s.portLost p .down) := by
  obtain ⟨hp, hport, hphase⟩ := portIn_iff.1 h
  have hexec : execTrainingTimeout p s = _ := State.live_onlyIf hp (by simp [hport, hphase, hdue])
  exact hexec

theorem exec_trainingRetry (s : State) (p : Nat) (h : Normal.retryDue s p = true) :
    exec (.trainingRetry p) s = .next (s.trainPort p) := by
  simp only [Normal.retryDue, Bool.and_eq_true] at h
  obtain ⟨⟨⟨hdown, hlight⟩, htrain⟩, hdue⟩ := h
  obtain ⟨hp, hport, hphase⟩ := portIn_iff.1 hdown
  have hexec : execTrainingRetry p s = _ := State.live_onlyIf hp (by rw [hlight, htrain, hdue, hphase, decide_eq_true hport]; rfl)
  exact hexec

/-- R330: an UP port that loses light goes DOWN, and its screen test is due. -/
theorem exec_lossOfLight (s : State) (p : Nat) (h : Normal.portIn s p .up = true) :
    exec (.lossOfLight p) s = .next ((((s.setPort p { s.port p with light := false }).bump (uOptic (p / 4)) 0x020 31 0 1).portLost
      p .down).logError { type := 0x40, cls := 2, unit := uLink p, sub := p }) := by
  obtain ⟨hp, hport, hphase⟩ := portIn_iff.1 h
  have hexec : execLossOfLight p s = _ := State.live_onlyIf hp (decide_eq_true hport)
  have hup : (((s.setPort p { s.port p with light := false }).bump (uOptic (p / 4)) 0x020 31 0 1).port p).phase = .up := by
    change ((s.setPort p { s.port p with light := false }).port p).phase = .up
    rw [State.port_setPort_self, hphase]
  dsimp only at hexec
  rw [if_pos (beq_iff_eq.2 hup)] at hexec
  exact hexec

/-! ## The light of the ports, which sending and changes of state leave as it is (R333) -/

/-- Whether light is seen at each port. -/
def State.light (s : State) (p : Nat) : Bool := (s.port p).light

theorem State.light_congr {s t : State} (h : t.fabric = s.fabric) : t.light = s.light := by
  funext p
  simp only [State.light, State.port, h]

/-- A port's record is written with a light of its own; that of every other port stays. -/
theorem State.light_setPort (s : State) (p : Nat) (x : Port) : (s.setPort p x).light = Function.update s.light p x.light := by
  funext q
  by_cases hq : q = p
  · simp [hq, State.light]
  · simp only [State.light, State.port, State.setPort, Function.update_of_ne hq, TMap.get_insert_of_ne _ _ _ _ _ hq]

/-- A port's record that shows the light as before. -/
theorem State.light_setPort_same {s : State} {p : Nat} {x : Port} (h : x.light = s.light p) : (s.setPort p x).light = s.light := by
  rw [State.light_setPort, h, Function.update_eq_self]

@[simp] theorem State.sealPacket_fabric (s : State) (p : Nat) (k : Packet) : (s.sealPacket p k).2.fabric = s.fabric := by
  unfold State.sealPacket
  split <;> simp

@[simp] theorem State.kick_light (fuel : Nat) (s : State) (p : Nat) : (State.kick fuel s p).light = s.light := by
  induction fuel generalizing s with
  | zero => rfl
  | succ fuel ih =>
    simp only [State.kick]
    split
    · rfl
    · next k rest _ =>
      split
      · rw [ih, State.light_congr (State.emit_fabric ..), State.light_congr (State.bump_fabric ..), State.light_setPort_same,
          State.light_congr (s.sealPacket_fabric p k)]
        rfl
      · rfl

@[simp] theorem State.sendPacket_light (s : State) (k : Packet) (p : Nat) : (s.sendPacket k p).light = s.light := by
  simp only [State.sendPacket]
  split
  · rw [State.enqueue, State.kickPort, State.kick_light, State.light_setPort_same]
    rfl
  · split
    · rfl
    · exact State.light_congr (by simp)

@[simp] theorem State.sendWaiting_light (s : State) : s.sendWaiting.light = s.light := by
  rw [State.sendWaiting, foldl_field State.light (fun s (k : Packet × Nat) => s.sendPacket k.1 k.2) fun _ _ => State.sendPacket_light ..]
  rfl

@[simp] theorem State.tcReselect_fabric (s : State) : s.tcReselect.fabric = s.fabric := by
  simp only [State.tcReselect]
  split_ifs <;> rfl

@[simp] theorem State.tcPortDown_fabric (s : State) (p : Nat) : (s.tcPortDown p).fabric = s.fabric := by
  rw [State.tcPortDown, State.tcReselect_fabric]

@[simp] theorem State.portPhase_light (s : State) (p : Nat) (ph : PortPhase) : (s.portPhase p ph).light = s.light := by
  by_cases hsame : (s.port p).phase = ph
  · simp [State.portPhase, hsame]
  · have hset : (s.setPort p { s.port p with phase := ph, tc := s.now }).light = s.light := State.light_setPort_same rfl
    rw [← hset]
    refine State.light_congr ?_
    simp only [State.portPhase, if_neg hsame]
    split_ifs <;> simp

@[simp] theorem State.portLost_light (s : State) (p : Nat) (ph : PortPhase) : (s.portLost p ph).light = s.light := by
  simp only [State.portLost, State.sendWaiting_light]
  rw [foldl_field State.light _ (fun s k => s.sendPacket_light k p), State.portPhase_light, State.light_setPort_same]
  rfl

/-! ## Connector removal (R508) -/

/-- A port of an engine whose connector has been removed: it loses light, and goes DOWN where it is not. -/
def State.portUnplugged (s : State) (p : Nat) : State :=
  let u := s.setPort p { s.port p with light := false }
  if (u.port p).phase == .down || (u.port p).phase == .failed then u else u.portLost p .down

theorem State.portUnplugged_light (s : State) (p : Nat) : (s.portUnplugged p).light = Function.update s.light p false := by
  simp only [State.portUnplugged]
  split_ifs
  · exact State.light_setPort ..
  · rw [State.portLost_light, State.light_setPort]

theorem State.foldl_portUnplugged_light (l : List Nat) (s : State) (p : Nat) :
    (l.foldl State.portUnplugged s).light p = (!decide (p ∈ l) && s.light p) := by
  induction l generalizing s with
  | nil => simp
  | cons a l ih =>
    rw [List.foldl_cons, ih, State.portUnplugged_light]
    by_cases ha : p = a
    · simp [ha]
    · simp [ha, Function.update_of_ne]

theorem exec_connectorRemoval (s : State) (e : Nat) (hp : s.powered = true) (he : e < 4) :
    ∃ t, exec (.connectorRemoval e) s = .next t ∧ ∀ i, i < 4 → (t.port (4 * e + i)).light = false := by
  have hexec : execConnectorRemoval e s = .next (((List.range 4).map (4 * e + ·)).foldl State.portUnplugged
      (s.bump (uOptic e) 0x020 31 0 1)) := by
    rw [List.foldl_map]
    exact State.live_onlyIf hp (decide_eq_true he)
  refine ⟨_, hexec, fun i hi => ?_⟩
  have hlight := State.foldl_portUnplugged_light ((List.range 4).map (4 * e + ·)) (s.bump (uOptic e) 0x020 31 0 1) (4 * e + i)
  simpa [hi, State.light] using hlight

/-- Settles O46: one lemma for each event; a frame has one for an UP port and one for a MISWIRED one. -/
theorem linksComplete : Obligations.LinksComplete :=
  ⟨exec_lcf_up, exec_lcf_miswired, exec_lcfTransmit, exec_lightDetected, exec_trainingComplete, exec_trainingTimeout,
    exec_trainingRetry, exec_lossOfLight, exec_connectorRemoval⟩

end Sys2Proof.Machine
end

section
/-! SUPPORT and O50. The commands and limits of the resilience unit, one lemma for each (R389, R390, R394, R395, R398, R404,
R406-R413). -/

namespace Sys2Proof.Machine

@[simp] theorem State.rjob_setRjob_self (s : State) (slot : Nat) (r : ResJob) : (s.setRjob slot r).rjob slot = r :=
  TMap.get_insert_self ..

/-- A command that is looked at in a state of its own, as the job's latest (R413), has its effect where its checks pass there. -/
theorem State.live_checkedAt {s u : State} {c : Command} {l : List Check} {f g : State → State} (h : Normal.passes u l = true)
    (hp : s.powered = u.powered) (hg : g s = u.checked c l f) : s.live g = .next (f u) := by
  obtain ⟨hpu, hc⟩ := passes_iff.1 h
  rw [State.live_powered _ (hp.trans hpu), hg, State.checked_pass hc]

/-! ## Partners (R394, R395, R398, R408, R409) -/

theorem exec_partnerSet (s : State) (c : Command)
    (h : Normal.passes (s.latestRes c) ((s.latestRes c).partnerSetChecks c) = true) :
    let u := s.latestRes c
    let slot := s.cmdSlot c.hdr
    let limit := if c.expert then c.u32 8 else u.fld uRes 0x040 31 16
    exec (.partnerSet c) s = .next ((u.setRjob slot { u.rjob slot with
      handshake := some ⟨c, c.u16 0, 0, false, u.now, limit, false⟩ }).sendBulk slot (c.u16 0) (.handshake u.feedTag) 0 []) := by
  have hexec : execPartnerSet c s = _ := State.live_checkedAt h rfl rfl
  exact hexec

/-- R395: a handshake that goes unanswered ends its command. -/
theorem exec_partnerHandshakeLimit (s : State) (slot : Nat) (x : Pairing) (h : Normal.handshakeLimit s slot x = true) :
    exec (.partnerHandshakeLimit slot) s = .next
      ((s.setRjob slot { s.rjob slot with handshake := none }).finish x.cmd stPeerSilent x.partner []) := by
  simp only [Normal.handshakeLimit, Bool.and_eq_true, decide_eq_true_eq] at h
  obtain ⟨⟨hp, hshake⟩, hdue⟩ := h
  have hexec : execPartnerHandshakeLimit slot s = _ := State.live_powered _ hp
  simp only [hshake] at hexec
  rw [State.onlyIf_of (decide_eq_true hdue)] at hexec
  exact hexec

/-- R398: a partner that leaves a block or a slate unacknowledged is lost. -/
theorem exec_partnerLimit (s : State) (slot : Nat) (h : Normal.partnerLimit s slot = true) :
    exec (.partnerLimit slot) s = .next (s.losePartner slot 3) := by
  simp only [Normal.partnerLimit, Bool.and_eq_true] at h
  obtain ⟨⟨hp, hlive⟩, hlate⟩ := h
  have hexec : execPartnerLimit slot s = _ := State.live_onlyIf hp (Bool.and_eq_true_iff.2 ⟨hlive, hlate⟩)
  exact hexec

theorem exec_feedTagSet (s : State) (c : Command) (hp : s.powered = true) (htag : c.u16 0 ≠ 0) :
    exec (.feedTagSet c) s = .next ((s.setFld uRes 0x018 15 0 (c.u16 0)).finish c stOk 0 (le 2 s.feedTag ++ le 6 0)) := by
  have hpass : Normal.passes s (s.feedTagSetChecks c) = true := by simp [passes_iff, hp, State.feedTagSetChecks, htag]
  have hexec : execFeedTagSet c s = _ := State.live_checked hpass
  exact hexec

/-! ## Freezes (R389, R406, R407) -/

/-- R389, R406: the job has its configuration; without a snapshot the initial freeze begins. -/
theorem exec_freezeSet (s : State) (c : Command)
    (h : Normal.passes (s.latestRes c) ((s.latestRes c).freezeSetChecks c) = true) :
    ∃ (u : State) (result : List Byte), exec (.freezeSet c) s = .next (
        if ((s.latestRes c).rjob (s.cmdSlot c.hdr)).newest.isSome then u.finish c stOk 0 result
        else (u.beginFreeze (s.cmdSlot c.hdr) { kind := 0, cmd := c, take := none, step := c.u32 4, stopped := none }).defer c 0 result) ∧
      (u.rjob (s.cmdSlot c.hdr)).configured = true ∧ (u.rjob (s.cmdSlot c.hdr)).interval = c.u16 0 ∧
      (u.rjob (s.cmdSlot c.hdr)).firstStep = c.u32 4 ∧ (u.rjob (s.cmdSlot c.hdr)).stageVa = c.u64 0x10 ∧
      (u.rjob (s.cmdSlot c.hdr)).reportVa = c.u64 0x18 ∧
      (u.rjob (s.cmdSlot c.hdr)).ringSlates = (if c.u32 8 = 0 then max 4096 (2 * c.u16 0 + 2) else c.u32 8) := by
  have hexec : execFreezeSet c s = _ := State.live_checkedAt h rfl rfl
  dsimp only at hexec
  refine ⟨_, _, hexec, ?_⟩
  rw [State.rjob_setRjob_self]
  exact ⟨rfl, rfl, rfl, rfl, rfl, rfl⟩

theorem exec_freezeTake (s : State) (c : Command)
    (h : Normal.passes (s.latestRes c) ((s.latestRes c).freezeTakeChecks c) = true) :
    let u := s.latestRes c
    let slot := s.cmdSlot c.hdr
    exec (.freezeTake c) s = .next ((if c.u8 0 = 0 then u.setRjob slot { u.rjob slot with takeNext := some c }
      else u.beginFreeze slot { kind := 2, cmd := c, take := none, step := u.nextStep slot, stopped := none }).defer c 0 []) := by
  have hexec : execFreezeTake c s = _ := State.live_checkedAt h rfl rfl
  exact hexec

/-! ## The slate log, loads and retakes (R404, R410, R412) -/

theorem exec_slateRead (s : State) (c : Command)
    (h : Normal.passes (s.latestRes c) ((s.latestRes c).slateReadChecks c) = true) :
    let l := (s.latestRes c).slatesFrom (s.cmdSlot c.hdr) (c.u16 0) (c.u32 4) (c.u16 2)
    let w := (s.latestRes c).slatesOut (s.cmdSlot c.hdr) (c.u64 8) l
    w.2.2 = none → exec (.slateRead c) s = .next (w.1.finish c stOk 0
      (le 4 w.2.1 ++ le 4 (if l.length = c.u16 2 then 0xFFFFFFFF else c.u32 4 + l.length) ++ le 8 0)) := by
  intro l w hfault
  dsimp only [w, l] at hfault ⊢
  have hexec : execSlateRead c s = _ := State.live_checkedAt h rfl rfl
  simp only [hfault] at hexec
  exact hexec

theorem exec_negativeLoad (s : State) (c : Command)
    (h : Normal.passes (s.latestRes c) ((s.latestRes c).negativeLoadChecks c) = true) :
    let u := (s.latestRes c).defer c 0 []
    let r := (s.latestRes c).rjob (s.cmdSlot c.hdr)
    exec (.negativeLoad c) s = .next (if r.load.isSome then u.setRjob (s.cmdSlot c.hdr) { r with loads := r.loads ++ [c] }
      else u.startLoad (s.cmdSlot c.hdr) c) := by
  have hexec : execNegativeLoad c s = _ := State.live_checkedAt h rfl rfl
  exact hexec

/-- R404, R412: the retake of the step is armed. -/
theorem exec_retakeRun (s : State) (c : Command)
    (h : Normal.passes (s.latestRes c) ((s.latestRes c).retakeRunChecks c) = true) :
    ∃ u : State, exec (.retakeRun c) s = .next (u.defer c 0 (le 4 (c.u32 0) ++ le 4 0 ++ le 8 s.now)) ∧
      (u.rjob (s.cmdSlot c.hdr)).retake.any (fun x => decide (x.cmd = c) && x.step == c.u32 0) = true := by
  have hexec : execRetakeRun c s = _ := State.live_checkedAt h rfl rfl
  dsimp only at hexec
  refine ⟨_, hexec, ?_⟩
  rw [State.rjob_setRjob_self, Option.any_some]
  split_ifs <;> simp

/-! ## Failure spreading (R401, R411) -/

/-- R401, R411: an equivalent layout without a failed device is accepted as a recut that abandons the epoch. -/
theorem exec_spreadApply (s : State) (c : Command) (l : Layout) (b : List Nat) (w : State)
    (h : Normal.passes (s.latestRes c) ((s.latestRes c).spreadApplyChecks c) = true) :
    let u := s.latestRes c
    let old := ((u.fjob (s.cmdSlot c.hdr)).layout.getD ⟨0, [], []⟩)
    b = ((List.range (min (c.u8 0) 8)).map fun i => c.u16 (0x18 + 2 * i)) →
    Normal.layoutRead u (s.cmdSlot c.hdr) (c.u64 0x10) ((u.fjob (s.cmdSlot c.hdr)).epoch + 1) l w →
    l.equivalent old = true → (l.entries.any fun e => b.contains e) = false →
    ∃ (v : State) (x : Recut), exec (.spreadApply c) s = .next (v.acceptRecut (s.cmdSlot c.hdr) x) ∧ x.abandon = true ∧
      x.layout = l ∧ x.epoch = (u.fjob (s.cmdSlot c.hdr)).epoch + 1 ∧ (v.rjob (s.cmdSlot c.hdr)).phase = .spreading ∧
      (v.rjob (s.cmdSlot c.hdr)).spread.any (fun y => decide (y.cmd = c)) = true := by
  intro u old hb hl hequiv hfailed
  subst hb
  dsimp only [old, u] at hequiv hl
  have hexec : execSpreadApply c s = _ := State.live_checkedAt h rfl rfl
  rw [State.readLayout_of_layoutRead hl] at hexec
  dsimp only at hexec
  rw [if_neg (by rw [hequiv, hfailed]; decide)] at hexec
  refine ⟨_, _, hexec, rfl, rfl, rfl, ?_⟩
  simp only [State.rjob_setRjob_self, Option.any_some, decide_true, and_self]

/-- Settles O50: one lemma for each command and limit. -/
theorem resilienceCommandsComplete : Obligations.ResilienceCommandsComplete :=
  ⟨exec_partnerSet, exec_partnerHandshakeLimit, exec_partnerLimit, exec_feedTagSet, exec_freezeSet, exec_freezeTake,
    exec_slateRead, exec_negativeLoad, exec_retakeRun, exec_spreadApply⟩

end Sys2Proof.Machine
end

section
/-! SUPPORT and the refutation of O51. Where a load is written into the guarded ranges of an aborted job (R209, R403). -/

namespace Sys2Proof.Machine

/-- R403: the ranges of a load whose data is complete and good are written as a load may write them; without a fault the load ends
with ST_OK. -/
theorem exec_negativeLoadDone {s : State} {slot : Nat} {l : Load} {x : Snap} (h : Normal.negativeLoadDone s slot l x = true)
    (hw : (s.writeRanges slot x (l.targets x)).2 = none) :
    exec (.negativeLoadDone slot) s = .next
      (((s.writeRanges slot x (l.targets x)).1.loaded slot l x (l.targets x)).endLoad slot stOk 0
        (le 8 (((l.targets x).map fun t => t.2.2).sum) ++ le 4 (l.targets x).length ++ le 4 0)) := by
  simp only [Normal.negativeLoadDone, Bool.and_eq_true, beq_iff_eq, decide_eq_true_eq] at h
  obtain ⟨⟨⟨⟨⟨⟨⟨hp, hload⟩, hsnap⟩, hcomplete⟩, htag⟩, hstep⟩, howner⟩, hblocks⟩ := h
  have hexec : execNegativeLoadDone slot s = _ := State.live_powered _ hp
  simp only [hload, hsnap] at hexec
  rw [State.onlyIf_of hcomplete, if_neg (by simp [htag, hstep, howner]), if_neg (by simp [hblocks])] at hexec
  simp only [hw] at hexec
  exact hexec

/-- What follows the writes of a load leaves the poison of the tiers as it is. -/
theorem State.loaded_endLoad_poison (s : State) (slot : Nat) (l : Load) (x : Snap) (ts : List (Nat × Nat × Nat)) (st d : Nat)
    (result : List Byte) : ((s.loaded slot l x ts).endLoad slot st d result).memory.poison = s.memory.poison := by
  rw [(State.endLoad_still slot st d result (State.Still.refl (s.loaded slot l x ts))).poison]
  rfl

namespace GuardedLoad

/-- A snapshot of 64 bytes at address 0, zero and poisoned. -/
def image : Snap :=
  { header := { jobTag := 0, step := 0, epoch := 0, owner := State.reset.fabricId, feed := 0, ranges := [(0, 64)], tags := []
                crcs := [crc32c (imageBytes [] 0 64)] }
    bytes := [], poison := [(0, true)] }

/-- Its load from the device's own area. -/
def load : Load :=
  { cmd := default, owner := State.reset.fabricId, holder := State.reset.fabricId, step := 0, dests := [], snap := some image
    got := [], fails := [] }

/-- A powered device whose job 0 has been aborted. A shard range takes the 64 bytes, and its guard is in force (R209); the map, a
table at 2^32 and one at 2^32 + 4096, gives the lowest 2^30 bytes with the right to write. -/
def state : State :=
  { State.reset with
    powered := true
    regs := [(uMmu * 65536 + 0x5B08, 1)]
    resil := { State.reset.resil with jobs := [(0, { load := some load })] }
    reels := { State.reset.reels with
      jobs := [(0, { phase := .aborted })], shards := [(0, { valid := true, slot := 0, base := 0, len := 64 })] }
    memory := { State.reset.memory with
      maps := [(0, { valid := true, pool := 2 ^ 32 })]
      bytes := [(2 ^ 32, 0x01#8), (2 ^ 32 + 1, 0x10#8), (2 ^ 32 + 4, 0x01#8), (2 ^ 32 + 4096, 0x07#8)] } }

/-- The load's data is complete, and every block agrees with its index. -/
theorem state_done : Normal.negativeLoadDone state 0 load image = true := by decide +kernel

/-- The row writes with the guard lifted: the granule takes its poison. -/
theorem writeRanges_state : (state.writeRanges 0 image (load.targets image)).2 = none ∧
    (state.writeRanges 0 image (load.targets image)).1.memory.poison = [(0, true)] := by decide +kernel

/-- Writing in the state as it is, with the guard in force, refuses the poisoned granule without a fault. -/
theorem writeImage_state : (state.writeImage 0 image 0 0 64).2 = none ∧
    (state.writeImage 0 image 0 0 64).1.memory.poison = [] := by decide +kernel

end GuardedLoad

/-- Refutes O51: the clause of `negativeLoadDone` writes the ranges with the guard of an aborted job in force, which the row lifts
(R209, R403). A refused write of poison is no fault of a load, so that in `GuardedLoad.state` both end without one, and the granule
is poisoned by the row alone. -/
theorem not_resilienceEventsComplete : ¬ Obligations.ResilienceEventsComplete := by
  intro h
  obtain ⟨-, -, hload, -⟩ := h
  have hclause := hload _ _ _ _ GuardedLoad.state_done GuardedLoad.writeImage_state.1
  rw [exec_negativeLoadDone GuardedLoad.state_done GuardedLoad.writeRanges_state.1] at hclause
  have hpoison := congrArg (fun s : State => s.memory.poison) (Host.Outcome.next.inj hclause)
  simp only [State.loaded_endLoad_poison, GuardedLoad.writeRanges_state.2] at hpoison
  exact absurd (hpoison.trans GuardedLoad.writeImage_state.2) (List.cons_ne_nil _ _)

end Sys2Proof.Machine
end

section
/-! SUPPORT and O52. Screen tests, sweeps, the error log, injection and the control cores' watchdog, one lemma for each command and
event (R418-R422, R431, R433-R435). -/

namespace Sys2Proof.Machine

/-! ## Screen tests (R418-R422, R433) -/

/-- The test that is held for a unit is of that unit, and it has run for its time. -/
theorem tested_iff {s : State} {unit sub type : Nat} {t : Screen} : Normal.tested s unit sub type t = true ↔
    s.powered = true ∧ (s.diag.screens.find? fun t => t.unit == unit && t.sub == sub && t.type == type) = some t ∧
      t.running = true ∧ t.startedAt + testNs type ≤ s.now := by
  simp [Normal.tested, and_assoc]

/-- The test of a unit that is no core and no store of a core is no core's. -/
theorem Screen.ofCore_of_tested {s : State} {unit sub type : Nat} {t : Screen} (h : Normal.tested s unit sub type t = true)
    (hunit : 624 < unit) : t.ofCore = false := by
  obtain ⟨-, hfind, -, -⟩ := tested_iff.1 h
  have hfound := List.find?_some hfind
  simp only [Bool.and_eq_true, beq_iff_eq] at hfound
  obtain ⟨⟨hown, -⟩, -⟩ := hfound
  simp only [Screen.ofCore, hown, Bool.and_eq_false_iff, decide_eq_false_iff_not]
  omega

/-- R419: a test that passes counts its pass, and ends with OUTCOME 2. -/
theorem exec_screenTestComplete_pass (s : State) (unit sub type : Nat) (t : Screen) (subs : List Nat) (spare : Bool)
    (h : Normal.tested s unit sub type t = true) (hmust : t.mustFail = false) (_ : 624 < unit) :
    exec (.screenTestComplete unit sub type false subs spare) s = .next
      ((State.passed { s with diag := { s.diag with screens := s.diag.screens.filter fun x => !decide (x = t) } } t).endTest t 2) := by
  obtain ⟨hp, hfind, hruns, hdue⟩ := tested_iff.1 h
  have hexec : execScreenTestComplete unit sub type false subs spare s = _ := State.live_powered _ hp
  simp only [hfind] at hexec
  rw [State.onlyIf_of (by simp [hruns, hdue]), if_pos (by simp [hmust])] at hexec
  exact hexec

/-- R419: a test that fails has its verdict, and ends with the verdict's OUTCOME. -/
theorem exec_screenTestComplete_fail (s : State) (unit sub type : Nat) (t : Screen) (subs : List Nat) (spare : Bool)
    (h : Normal.tested s unit sub type t = true) (hreport : t.reportOnly = false) (hunit : 624 < unit) :
    let u : State := { s with diag := { s.diag with screens := s.diag.screens.filter fun x => !decide (x = t) } }
    let v := u.verdict t subs spare (!t.entries.isEmpty && t.entries.all fun i => bitAt (s.diag.log.get default i).flags 0)
    exec (.screenTestComplete unit sub type true subs spare) s = .next (v.2.endTest t v.1) := by
  obtain ⟨hp, hfind, hruns, hdue⟩ := tested_iff.1 h
  have hcore := Screen.ofCore_of_tested h hunit
  have hexec : execScreenTestComplete unit sub type true subs spare s = _ := State.live_powered _ hp
  simp only [hfind] at hexec
  rw [State.onlyIf_of (by simp [hruns, hdue]), if_neg (by simp)] at hexec
  simp only [hcore, hreport, Bool.false_and, Bool.false_eq_true, if_false, decide_eq_false (Nat.not_le.2 hunit), Bool.and_false]
    at hexec
  exact hexec

/-- R421: a sweep begins the test of its core. -/
theorem exec_sweep (s : State) (c a p : Nat) (h : Normal.sweepDue s c a p = true) :
    exec (.sweep c) s = .next { s with diag := { s.diag with
      lastSweep := s.diag.lastSweep.insert c s.now
      screens := s.diag.screens ++ [(⟨uCore p, 0, 0x11, s.now, true, [], [], false, true, false⟩ : Screen)] } } := by
  simp only [Normal.sweepDue, Bool.and_eq_true, decide_eq_true_eq] at h
  obtain ⟨⟨⟨⟨⟨⟨⟨hp, hallot⟩, hphys⟩, hevery⟩, hdue⟩, hfree⟩, hidle⟩, hothers⟩ := h
  have hexec : execSweep c s = _ := State.live_powered _ hp
  simp only [hallot, hphys] at hexec
  rw [State.onlyIf_of (by simp only [hevery, hdue, hfree, hidle, hothers, decide_true, Bool.and_self])] at hexec
  exact hexec

/-- R433: a unit that no test is held for gets a test of its own. -/
theorem exec_screenTestRun (s : State) (c : Command) (type target : Nat) (h : Normal.passes s (s.screenTestRunChecks c) = true)
    (hone : c.u16 0 ≠ 0xFFFF) (htest : unitTest (c.u16 0) = some (type, target)) (htarget : 156 < target)
    (hnew : (s.diag.screens.all fun x => x.unit != target) = true) :
    let u := s.defer c 0 (le 2 1 ++ le 2 0 ++ le 4 0)
    exec (.screenTestRun c) s = .next { u with diag := { u.diag with
      screens := u.diag.screens ++ [(⟨target, 0, type, u.now, true, [], [c.hdr], c.u8 2 == 1, false, false⟩ : Screen)]
      runs := u.diag.runs ++ [(⟨c, 1, none⟩ : ScreenRun)] } } := by
  have hunit : ∀ x ∈ s.diag.screens, x.unit ≠ target := by simpa using hnew
  have hall : (c.hdr.expert && c.u16 8 != 0 && c.u16 0 == 0xFFFF) = false := by rw [beq_false_of_ne hone, Bool.and_false]
  have htargets : ([c.u16 0].filterMap unitTest).eraseDups = [(type, target)] := by rw [List.filterMap_cons_some htest]; rfl
  have hbusy : (s.diag.screens.any fun x => x.unit == target) = false := by simpa using hunit
  have hjoin : (s.diag.screens.map fun x : Screen => if target == x.unit then { x with commands := x.commands ++ [c.hdr] } else x) =
      s.diag.screens := by
    refine (List.map_congr_left fun x hx => ?_).trans s.diag.screens.map_id
    rw [if_neg (by simpa using (hunit x hx).symm), id]
  have hjoins : (s.diag.screens.filter fun x => target == x.unit) = [] := by
    simpa using fun x hx => (hunit x hx).symm
  have hnoCore (now : Nat) : Screen.ofCore ⟨target, 0, type, now, true, [], [c.hdr], c.u8 2 == 1, false, false⟩ = false := by
    simp only [Screen.ofCore, Bool.and_eq_false_iff, decide_eq_false_iff_not]
    omega
  have hexec : execScreenTestRun c s = _ := State.live_checked h
  have hruns : (!(decide (1 ≤ target) && decide (target ≤ 156))) = true := by simpa using .inr htarget
  simp only [hall, Bool.false_eq_true, if_false, htargets, List.isEmpty_cons, List.any_cons, List.any_nil, Bool.or_false,
    List.filter_cons, List.filter_nil, hbusy, Bool.not_false, if_true, List.map_cons, List.map_nil, hruns, State.defer_diag, hjoin,
    hjoins, hnoCore, List.foldl_nil] at hexec
  dsimp only
  rw [State.defer_diag]
  exact hexec

/-! ## The error log and injection (R434, R435) -/

/-- R434: the entries asked for are answered, and marked as returned; the log keeps its indexes. -/
theorem exec_errorLogRead (s : State) (c : Command) (h : Normal.passes s (s.errorLogReadChecks c) = true) :
    let held := s.diag.log.filter fun e => c.u32 0 ≤ e.1
    let hits := (held.filter fun e => c.u8 5 ≤ e.2.cls).take (c.u8 4)
    let last := if hits.length = c.u8 4 then hits.getLast? else held.getLast?
    ∃ u : State, exec (.errorLogRead c) s = .next (u.finish c stOk 0
        (le 4 ((last.map fun e => e.1 + 1).getD (c.u32 0)) ++ le 2 hits.length ++
          le 2 (min ((s.diag.log.head?.map (·.1)).getD s.diag.nextIndex - c.u32 0) 65535) ++ hits.flatMap fun e => e.2.bytes)) ∧
      u.diag.log.map (·.1) = s.diag.log.map (·.1) := by
  have hexec : execErrorLogRead c s = _ := State.live_checked h
  refine ⟨_, hexec, ?_⟩
  dsimp only
  rw [List.map_map]
  refine List.map_congr_left fun e _ => ?_
  rw [Function.comp_apply, apply_ite Prod.fst, ite_self]

/-- R435: MODE 0 or 1 leaves an error in a stored word, to be found. -/
theorem exec_errorInject_word (s : State) (c : Command) (h : Normal.passes s (s.errorInjectChecks c) = true) (hmode : c.u8 2 ≤ 1) :
    exec (.errorInject c) s = .next (({ s with diag := { s.diag with
      injected := s.diag.injected ++ [(⟨c.u16 0, c.u32 4, c.u64 8, 1 + c.u8 2⟩ : Injected)] } }).finish c stOk 0
        (le 4 0xFFFFFFFF ++ le 4 0)) := by
  have hexec : execErrorInject c s = _ := State.live_checked h
  rw [if_pos hmode] at hexec
  exact hexec

/-- R435: MODE 2 makes an entry, which the reply names. -/
theorem exec_errorInject_test (s : State) (c : Command) (h : Normal.passes s (s.errorInjectChecks c) = true) (hmode : c.u8 2 = 2) :
    ∃ u : State, exec (.errorInject c) s = .next (u.finish c stOk 0 (le 4 s.diag.nextIndex ++ le 4 0)) := by
  have hexec : execErrorInject c s = _ := State.live_checked h
  rw [if_neg (by omega)] at hexec
  exact ⟨_, hexec⟩

/-! ## The control cores (R431) -/

theorem exec_heartbeat (s : State) (n : Nat) (hp : s.powered = true) (hn : n < 4) (hactive : n ∉ s.diag.controlRetired) :
    exec (.heartbeat n) s = .next { s with diag := { s.diag with lastReport := s.diag.lastReport.insert n s.now } } := by
  have hexec : execHeartbeat n s = _ := State.live_onlyIf hp (by simp [hn, hactive])
  exact hexec

/-- R431: the first timeout of a control core takes it out of work and has it tested. -/
theorem exec_controlHeartbeatTimeout (s : State) (n : Nat) (h : Normal.heartbeatLost s n = true)
    (hfirst : (s.diag.timeouts.all fun e => e.1 != n) = true) :
    exec (.controlHeartbeatTimeout n) s = .next (State.logError { s with
      power := { s.power with alive := putBit s.power.alive n false, timeouts := satAdd 32 s.power.timeouts 1 }
      diag := { s.diag with
        timeouts := s.diag.timeouts.insert n s.now, lastReport := s.diag.lastReport.insert n s.now } }
      { type := 0x70, cls := 2, unit := uWmaster, sub := n }) := by
  simp only [Normal.heartbeatLost, Bool.and_eq_true] at h
  obtain ⟨⟨⟨hp, hn⟩, halive⟩, hdue⟩ := h
  have hnone : (s.diag.timeouts.find? fun e => e.1 == n) = none := by simpa using hfirst
  have hexec : execControlHeartbeatTimeout n s = _ := State.live_onlyIf hp (by rw [hn, halive, hdue]; rfl)
  rw [hnone, Option.any_none] at hexec
  exact hexec

/-- Settles O52: one lemma for each command and event; the end of a test has one for a pass and one for a failure, an injection one
for a stored word and one for a test. -/
theorem faultsComplete : Obligations.FaultsComplete :=
  ⟨fun s unit sub type t subs spare => exec_screenTestComplete_pass s unit sub type t subs spare,
    fun s unit sub type t subs spare => exec_screenTestComplete_fail s unit sub type t subs spare, exec_sweep, exec_screenTestRun,
    exec_errorLogRead, exec_errorInject_word, exec_errorInject_test, exec_heartbeat, exec_controlHeartbeatTimeout⟩

end Sys2Proof.Machine
end

section
/-! SUPPORT and O56. The firmware image and the configuration record, one lemma for each command; a COMMIT has one for an image that
verifies and one for an image that does not (R463-R466, R473, R474). -/

namespace Sys2Proof.Machine

/-! ## The firmware image (R463-R465, R473) -/

theorem exec_firmwareLoadBegin (s : State) (c : Command) (h : Normal.passes s (s.firmwareLoadBeginChecks c) = true) :
    exec (.firmwareLoadBegin c) s = .next (State.finish { s with security := { s.security with
      loadSession := c.hdr.session, image := [], imageLen := c.u32 8, phase := .loading } } c stOk 0 (le 4 0 ++ le 4 0)) := by
  have hexec : execFirmwareLoadBegin c s = _ := State.live_checked h
  exact hexec

theorem exec_firmwareLoadData (s : State) (c : Command) (h : Normal.passes s (s.firmwareLoadDataChecks c) = true) :
    let m := putImage s.security.image (c.u32 4) (c.params.drop 16)
    exec (.firmwareLoadData c) s = .next (State.finish { s with security := { s.security with image := m } } c stOk 0
      (le 4 m.length ++ le 4 0)) := by
  have hexec : execFirmwareLoadData c s = _ := State.live_checked h
  exact hexec

/-- R464: an image that does not verify is discarded with the DETAIL of its first failure, which is counted. -/
theorem exec_firmwareLoadCommit_bad (s : State) (c : Command) (x : Nat)
    (h : Normal.passes s (s.firmwareLoadCommitChecks c) = true)
    (hbad : verifyImage s.security.image s.security.imageLen s.minSvn = some x) :
    exec (.firmwareLoadCommit c) s = .next (State.finish { s.dropLoad with security := { s.dropLoad.security with
      loadFailed := satAdd 16 s.security.loadFailed 1 } } c stAuthFail x []) := by
  have hexec : execFirmwareLoadCommit c s = _ := State.live_checked h
  dsimp only at hexec
  rw [hbad] at hexec
  exact hexec

/-- R465: an image that verifies is the firmware from then on. -/
theorem exec_firmwareLoadCommit_good (s : State) (c : Command) (h : Normal.passes s (s.firmwareLoadCommitChecks c) = true)
    (hgood : verifyImage s.security.image s.security.imageLen s.minSvn = none) :
    let img := firmwareBytes s.security.image s.security.imageLen
    exec (.firmwareLoadCommit c) s = .next (State.finish { s.dropLoad with security := { s.dropLoad.security with
      phase := .running, committed := true, firmware := img, fwDigest := shake256 img 32
      fwVersion := leAt img 0xC 4, fwSvn := leAt img 0x10 4 } } c stOk 0
        (le 4 (leAt img 0xC 4) ++ le 4 (leAt img 0x10 4) ++ shake256 img 32 ++ le 8 s.now)) := by
  have hexec : execFirmwareLoadCommit c s = _ := State.live_checked h
  dsimp only at hexec
  rw [hgood] at hexec
  exact hexec

theorem exec_firmwareLoadCommit (s : State) (c : Command) (h : Normal.passes s (s.firmwareLoadCommitChecks c) = true) :
    let img := firmwareBytes s.security.image s.security.imageLen
    let bad := verifyImage s.security.image s.security.imageLen s.minSvn
    ∃ u : State, exec (.firmwareLoadCommit c) s = .next (u.finish c (if bad.isNone then stOk else stAuthFail) (bad.getD 0)
        (if bad.isNone then le 4 (leAt img 0xC 4) ++ le 4 (leAt img 0x10 4) ++ shake256 img 32 ++ le 8 s.now else [])) ∧
      u.security.loadSession = 0 ∧ u.security.image = [] ∧
      (bad = none → u.security.committed = true ∧ u.security.firmware = img ∧ u.security.fwSvn = leAt img 0x10 4) ∧
      (bad ≠ none → u.security.loadFailed = satAdd 16 s.security.loadFailed 1 ∧
        u.security.committed = s.security.committed) := by
  intro img bad
  cases hbad : bad with
  | none => exact ⟨_, exec_firmwareLoadCommit_good s c h hbad, rfl, rfl, fun _ => ⟨rfl, rfl, rfl⟩, (absurd rfl ·)⟩
  | some x => exact ⟨_, exec_firmwareLoadCommit_bad s c x h hbad, rfl, rfl, (nomatch ·), fun _ => ⟨rfl, rfl⟩⟩

theorem exec_firmwareLoadAbort (s : State) (c : Command) (h : Normal.passes s (s.firmwareLoadAbortChecks c) = true) :
    exec (.firmwareLoadAbort c) s = .next ((if s.security.loadSession = 0 then s else s.dropLoad).finish c stOk 0
      (le 4 s.security.image.length ++ le 4 0)) := by
  have hexec : execFirmwareLoadAbort c s = _ := State.live_checked h
  exact hexec

/-! ## The configuration record (R466, R474) -/

theorem exec_configWriteSet (s : State) (c : Command) (h : Normal.passes s (s.configWriteSetChecks c) = true) :
    let t := s.configCommit c fun x => { x with settings := (configEntries c).foldl putSetting s.fieldCopy.settings }
    exec (.configWriteSet c) s = .next (if c.u8 2 = 1 then (configEntries c).foldl State.applySetting t else t) := by
  have hexec : execConfigWriteSet c s = _ := State.live_checked h
  exact hexec

theorem exec_configWriteClear (s : State) (c : Command) (h : Normal.passes s (s.configWriteClearChecks c) = true) :
    exec (.configWriteClear c) s = .next (s.configCommit c fun x => { x with
      settings := x.settings.filter fun y => !((configEntries c).any y.sameAs) }) := by
  have hexec : execConfigWriteClear c s = _ := State.live_checked h
  exact hexec

/-- R474: a key of zeros removes the host key. -/
theorem exec_configWriteHostKey (s : State) (c : Command) (h : Normal.passes s (s.configWriteHostKeyChecks c) = true) :
    let key := sliceBytes c.params 8 32
    exec (.configWriteHostKey c) s = .next (State.configCommit { s with security := { s.security with
      hostKey := if key.all (· == 0) then none else some key } } c id) := by
  have hexec : execConfigWriteHostKey c s = _ := State.live_checked h
  exact hexec

theorem exec_configWriteMinSvn (s : State) (c : Command) (h : Normal.passes s (s.configWriteMinSvnChecks c) = true) :
    exec (.configWriteMinSvn c) s = .next (s.configCommit c fun x => { x with minSvn := c.u32 4 }) := by
  have hexec : execConfigWriteMinSvn c s = _ := State.live_checked h
  exact hexec

/-- Settles O56: one lemma for each command. -/
theorem securityComplete : Obligations.SecurityComplete :=
  ⟨exec_firmwareLoadBegin, exec_firmwareLoadData, exec_firmwareLoadCommit, exec_firmwareLoadAbort, exec_configWriteSet,
    exec_configWriteClear, exec_configWriteHostKey, exec_configWriteMinSvn⟩

end Sys2Proof.Machine
end

section
/-! SUPPORT and O57. Reports, the identity chain and the rollover of the identity key, one lemma for each command and event (R468-R471,
R475, R476). -/

namespace Sys2Proof.Machine

/-- R468, R469: a report is signed with the next leaf of the active key. -/
theorem exec_attestReport (s : State) (c : Command) (h : Normal.passes s (s.attestReportChecks c) = true) :
    ∃ (u : State) (tc : Stamp), exec (.attestReport c) s = .next ((u.finish c stOk 0
        (u.reportHead (sliceBytes c.params 8 32) (c.ex (c.u64 0x28) 0) tc ++
          fitBytes 2820 (Config.xmssSign s.security.keyGen s.security.nextIndex
            (ascii "G7ATTEST" ++ u.reportHead (sliceBytes c.params 8 32) (c.ex (c.u64 0x28) 0) tc)) ++ le 4 0)).identityLow) ∧
      u.security.nextIndex = s.security.nextIndex + 1 ∧ u.security.keyGen = s.security.keyGen ∧
      (s.security.reservedTo ≤ s.security.nextIndex → u.security.reservedTo = s.security.nextIndex + 64) := by
  have hexec : execAttestReport c s = _ := State.live_checked h
  exact ⟨_, _, hexec, rfl, rfl, fun hspent => if_pos hspent⟩

/-- R475: an item of the chain, filled to whole words; the count of items fits its byte. -/
theorem exec_attestChain (s : State) (c : Command) (h : Normal.passes s (s.attestChainChecks c) = true)
    (hshort : s.security.chain.length ≤ 253) :
    ∃ u : State, exec (.attestChain c) s = .next (u.finish c stOk 0
      (le 1 (2 + s.security.chain.length) ++ le 1 (c.u8 1) ++ le 6 0 ++ s.chainItem (c.u8 1) ++
        le ((8 - (s.chainItem (c.u8 1)).length % 8) % 8) 0)) := by
  have hexec : execAttestChain c s = _ := State.live_checked h
  dsimp only at hexec
  rw [if_pos (by omega)] at hexec
  exact ⟨_, hexec⟩

theorem exec_attestRoll (s : State) (c : Command) (h : Normal.passes s (s.attestRollChecks c) = true) :
    exec (.attestRoll c) s = .next (State.defer { s with security := { s.security with rollCmd := some c } } c 0 []) := by
  have hexec : execAttestRoll c s = _ := State.live_checked h
  exact hexec

/-- R470: a rollover that succeeds makes the next generation, which the chain gets an item for. -/
theorem exec_keyRolled (s : State) (c : Command) (hp : s.powered = true) (hroll : s.security.rollCmd = some c) :
    ∃ u : State, exec (.keyRolled true) s = .next (u.deferredDoneWith c.hdr stOk
        (le 2 0 ++ le 6 0 ++ le 1 (s.security.keyGen + 1) ++ le 7 0 ++ le 8 s.now)) ∧
      u.security.keyGen = s.security.keyGen + 1 ∧ u.security.nextIndex = 0 ∧ u.security.rollCmd = none ∧
      u.security.chain.length = s.security.chain.length + 1 := by
  have hexec : execKeyRolled true s = _ := State.live_powered _ hp
  simp only [hroll, if_true, State.now, State.recordAll_timecode, State.draw_timecode] at hexec
  refine ⟨_, hexec, ?_⟩
  simp only [State.recordAll_security, State.draw_security, List.length_append, List.length_singleton, and_self]

/-- Settles O57: one lemma for each command, and one for the rollover. -/
theorem identityComplete : Obligations.IdentityComplete :=
  ⟨exec_attestReport, exec_attestChain, exec_attestRoll, exec_keyRolled⟩

end Sys2Proof.Machine
end

section
/-! SUPPORT and O58. The host port's link, its neighbours, and queue pairs, one lemma for each command and event (R477, R478, R480-R482,
R493). -/

namespace Sys2Proof.Machine

/-! ## The port's own state -/

@[simp] theorem State.rxBytes_hostPort (s : State) (n : Nat) : (s.rxBytes n).hostPort = s.hostPort := rfl
@[simp] theorem State.rxBytes_slotOf (s : State) (n tag : Nat) : (s.rxBytes n).slotOf tag = s.slotOf tag := rfl
@[simp] theorem State.rxBytes_qpCount (s : State) (n : Nat) : (s.rxBytes n).qpCount = s.qpCount := rfl

/-- The end of a DOZE leaves the host port alone (R443). -/
@[simp] theorem State.dozeExit_hostPort (s : State) (cause : Nat) : (s.dozeExit cause).hostPort = s.hostPort := by
  unfold State.dozeExit State.powerStateRecord
  split
  · exact State.recordAll_hostPort ..
  · rfl

/-! ## The link and the neighbours (R477, R478) -/

theorem exec_neighbourDiscovery (s : State) (target src : Nat) (hp : s.powered = true) (hup : s.hostUp = true)
    (hown : (s.rxBytes 0).ownAddress target = true) :
    exec (.neighbourDiscovery target src) s = .next ((s.rxBytes 0).emit (.network 1 [src, target, (s.rxBytes 0).hostMac])) := by
  have hexec : execNeighbourDiscovery target src s = _ := State.live_onlyIf hp hup
  dsimp only at hexec
  rw [State.onlyIf_of hown] at hexec
  exact hexec

theorem exec_icmpv6Echo (s : State) (dst src : Nat) (data : List Byte) (hp : s.powered = true) (hup : s.hostUp = true)
    (hown : (s.rxBytes data.length).ownAddress dst = true) :
    exec (.icmpv6Echo dst src data) s = .next ((s.rxBytes data.length).emit (.network 2 ([src, dst] ++ data.map (·.toNat)))) := by
  have hexec : execIcmpv6Echo dst src data s = _ := State.live_onlyIf hp hup
  dsimp only at hexec
  rw [State.onlyIf_of hown] at hexec
  exact hexec

theorem exec_hostLinkLoss (s : State) (hp : s.powered = true) (hup : s.hostUp = true) :
    exec .hostLinkLoss s = .next (((s.setFld uHostport 0x010 63 60 1).setFld uHostport 0x010 59 56 0).csDrop 2) := by
  have hexec : execHostLinkLoss s = _ := State.live_onlyIf hp hup
  exact hexec

/-- R477: a PFC frame of the port's own priority stops it for its quanta, and nothing is sent. -/
theorem exec_pfcFrame (s : State) (prio quanta : Nat) (hp : s.powered = true) (hup : s.hostUp = true)
    (hmine : prio = (s.rxBytes 0).fld uHostport 0x040 7 4) (hprio : prio ≤ 7) :
    ∃ t, exec (.pfcFrame prio quanta) s = .next t ∧
      t.hostPort.pausedUntil = s.now + ceilDiv (quanta % 65536 * 64) 100 ∧ t.outputs = s.outputs := by
  have hexec : execPfcFrame prio quanta s = _ := State.live_onlyIf hp hup
  dsimp only at hexec
  rw [State.onlyIf_of (by rw [← hmine, beq_self_eq_true, decide_eq_true hprio]; rfl)] at hexec
  exact ⟨_, hexec, rfl, rfl⟩

/-! ## Queue pairs (R480, R493) -/

/-- A key that has been inserted is found with its value. -/
theorem TMap.find?_insert_self {α : Type} (m : TMap α) (k : Nat) (v : α) :
    (m.insert k v).find? (fun e => e.1 == k) = some (k, v) := by
  induction m with
  | nil => simp [TMap.insert]
  | cons head tail ih =>
    obtain ⟨a, b⟩ := head
    unfold TMap.insert
    split_ifs with hbefore hsame
    · simp
    · simp
    · simp [hsame, ih]

/-- A key that has been erased is found no longer. -/
theorem TMap.find?_erase_self {α : Type} (m : TMap α) (k : Nat) : (m.erase k).find? (fun e => e.1 == k) = none := by
  simp [TMap.erase]

@[simp] theorem State.qp_setQp_self (s : State) (n : Nat) (q : QueuePair) : (s.setQp n q).qp n = some q := by
  simp [State.qp, State.setQp, TMap.find?_insert_self]

/-- The REQ is answered by a REP: a session that is open from its address and has a queue bound for the job, a port that takes
queue pairs, a REQ in form, and a queue pair that is free (R480). -/
theorem connects_iff {s : State} {r : CmReq} : Normal.connects s r = true ↔
    s.powered = true ∧ s.hostUp = true ∧
      ((s.session (leAt r.privateData 4 2)).isOpen && (s.session (leAt r.privateData 4 2)).addr == r.src) = true ∧
      ((s.umauth.queues.any fun e => 1 ≤ e.1 && e.1 < 4096 && e.2.phase != .unbound &&
          e.2.session == leAt r.privateData 4 2 && e.2.jobTag == leAt r.privateData 0 4) &&
        (s.slotOf (leAt r.privateData 0 4)).isSome) = true ∧
      (s.rxBytes r.privateData.length).fld uHostport 0x040 0 0 ≠ 0 ∧
      leAt r.privateData 16 4 ≤ 4096 ∧ leAt r.privateData 6 2 = 0 ∧ leAt r.privateData 20 4 = 0 ∧ s.qpCount < 1024 := by
  simp only [Normal.connects, Bool.and_eq_true, decide_eq_true_eq, beq_iff_eq, and_assoc]

/-- R480: the REP makes a queue pair of the job, with the receive slots that the REQ gives. -/
theorem exec_cmReq (s : State) (r : CmReq) (h : Normal.connects s r = true) :
    let n := leAt r.privateData 4 2
    ∃ (u : State) (k : Nat) (q : QueuePair), exec (.cmReq r) s = .next (u.qpState k q 1 0 stOk) ∧ u.qp k = some q ∧
      q.session = n ∧ q.inst = (s.session n).inst ∧ q.jobTag = leAt r.privateData 0 4 ∧
      some q.slot = s.slotOf (leAt r.privateData 0 4) ∧ q.recvVa = leAt r.privateData 8 8 ∧
      q.recvSlots = leAt r.privateData 16 4 ∧ q.hostQpn = r.hostQpn ∧ q.hostAddr = r.src ∧ q.connected = true ∧
      q.nextSlot = 0 ∧ q.filled = [] := by
  obtain ⟨hp, hup, hopen, hbound, htakes, hslots, hres, hres', hfree⟩ := connects_iff.1 h
  have hjob : (s.slotOf (leAt r.privateData 0 4)).isSome = true := (Bool.and_eq_true_iff.1 hbound).2
  have hexec : execCmReq r s = _ := State.live_onlyIf hp hup
  have hform : (decide (4096 < leAt r.privateData 16 4) || decide (leAt r.privateData 6 2 ≠ 0) ||
      decide (leAt r.privateData 20 4 ≠ 0)) = false := by simp [hslots, hres, hres']
  simp only [State.rxBytes_session, State.rxBytes_umauth, State.rxBytes_slotOf, State.rxBytes_qpCount, hopen, hbound, hform,
    Bool.not_true, Bool.false_eq_true, if_false, if_neg htakes, Nat.not_le.2 hfree, ne_eq, not_true_eq_false] at hexec
  have hslot : some ((s.slotOf (leAt r.privateData 0 4)).getD 0) = s.slotOf (leAt r.privateData 0 4) := by
    rw [← Option.get_eq_getD _ (h := hjob), Option.some_get]
  exact ⟨_, _, _, hexec, State.qp_setQp_self .., rfl, rfl, rfl, hslot, rfl, rfl, rfl, rfl, rfl, rfl, rfl⟩

theorem connected_iff {s : State} {n : Nat} {q : QueuePair} : Normal.connected s n q = true ↔
    s.powered = true ∧ s.hostUp = true ∧ s.qp n = some q ∧ q.connected = true := by
  simp only [Normal.connected, Bool.and_eq_true, decide_eq_true_eq, and_assoc]

/-- R493: a queue pair that the host closes is there no longer. -/
theorem exec_cmDreq (s : State) (n : Nat) (q : QueuePair) (h : Normal.connected s n q = true) (hthere : q.gone = false) :
    ∃ u : State, exec (.cmDreq n) s = .next (u.qpState n q 3 0 stOk) ∧ u.qp n = none := by
  obtain ⟨hp, hup, hqp, -⟩ := connected_iff.1 h
  have hexec : execCmDreq n s = _ := State.live_onlyIf hp hup
  simp only [show (s.rxBytes 0).qp n = some q from hqp, hthere, Bool.false_eq_true, if_false] at hexec
  exact ⟨_, hexec, congrArg (Option.map _) (TMap.find?_erase_self s.hostPort.qps n)⟩

/-! ## Requests (R481, R482) -/

/-- A request of a connected queue pair is answered in the state in which it has been received. -/
theorem State.request_of_connected {s : State} {n : Nat} {q : QueuePair} (h : Normal.connected s n q = true) (bytes : Nat)
    (ecn : Bool) (f : QueuePair → State → State) : s.request n bytes ecn f = f q (Normal.requested s bytes ecn q) := by
  obtain ⟨-, hup, hqp, hconn⟩ := connected_iff.1 h
  have hfound : ((s.rxBytes bytes).dozeExit 2).qp n = some q := by
    rw [← hqp, State.qp, State.dozeExit_hostPort, State.rxBytes_hostPort, State.qp]
  unfold State.request
  rw [State.onlyIf_of hup]
  simp only [hfound, hconn, Bool.not_true, Bool.false_eq_true, if_false]
  rfl

/-- R481: the data of a SEND go to the next receive slot that has been released. -/
theorem exec_rdmaSend (s : State) (n : Nat) (q : QueuePair) (ecn : Bool) (data : List Byte) (i : Nat)
    (h : Normal.connected s n q = true) (hfits : data.length ≤ 4096) :
    let u := Normal.requested s data.length ecn q
    (((List.range q.recvSlots).map fun k => (q.nextSlot + k) % q.recvSlots).find? fun i => !(u.unreleased q).contains i) = some i →
    let w := u.vwrite q.slot (q.recvVa + 4096 * i) data false
    w.2.2 = none →
    exec (.rdmaSend n ecn data) s = .next ((w.1.setQp n { q with
      nextSlot := (i + 1) % q.recvSlots, filled := u.unreleased q ++ [i] }).emit (.network 6 [q.hostAddr, q.hostQpn])) := by
  intro u hslot w hwritten
  dsimp only [u, w] at hslot hwritten ⊢
  have hexec : execRdmaSend n ecn data s = _ :=
    (State.live_powered _ (connected_iff.1 h).1).trans (congrArg _ (State.request_of_connected h ..))
  simp only [hslot, if_neg (Nat.not_lt.2 hfits), hwritten] at hexec
  exact hexec

theorem exec_rdmaWrite (s : State) (n : Nat) (q : QueuePair) (ecn : Bool) (va : Nat) (data : List Byte)
    (h : Normal.connected s n q = true) :
    let w := (Normal.requested s data.length ecn q).vwrite q.slot va data false
    w.2.2 = none → exec (.rdmaWrite n ecn va q.rkey data) s = .next (w.1.emit (.network 6 [q.hostAddr, q.hostQpn])) := by
  intro w hwritten
  dsimp only [w] at hwritten ⊢
  have hexec : execRdmaWrite n ecn va q.rkey data s = _ :=
    (State.live_powered _ (connected_iff.1 h).1).trans (congrArg _ (State.request_of_connected h ..))
  simp only [ne_eq, not_true_eq_false, if_false, hwritten] at hexec
  exact hexec

/-- R481: a READ answers what the map reads. -/
theorem exec_rdmaRead (s : State) (n : Nat) (q : QueuePair) (ecn : Bool) (va len : Nat) (b : List Byte)
    (h : Normal.connected s n q = true) :
    let u := Normal.requested s 0 ecn q
    u.vread q.slot va len = .ok (b, false) →
    exec (.rdmaRead n ecn va q.rkey len) s = .next ((u.vtouch q.slot va len).emit
      (.network 7 ([q.hostAddr, q.hostQpn] ++ b.map (·.toNat)))) := by
  intro u hread
  dsimp only [u] at hread ⊢
  have hexec : execRdmaRead n ecn va q.rkey len s = _ :=
    (State.live_powered _ (connected_iff.1 h).1).trans (congrArg _ (State.request_of_connected h ..))
  simp only [ne_eq, not_true_eq_false, if_false, hread, Bool.false_eq_true] at hexec
  exact hexec

/-- Settles O58: one lemma for each command and event. -/
theorem hostPortComplete : Obligations.HostPortComplete :=
  ⟨exec_neighbourDiscovery, exec_icmpv6Echo, exec_hostLinkLoss, exec_pfcFrame, exec_cmReq, exec_cmDreq, exec_rdmaSend,
    exec_rdmaWrite, exec_rdmaRead⟩

end Sys2Proof.Machine
end

section
/-! SUPPORT and O59. Decodes wait for their engine, and end with what their frames have come to, one lemma for each command and event
(R483-R488, R491, R492). -/

namespace Sys2Proof.Machine

/-- The first decode of the engine has run, and no frame has more channels than CHANNEL_STRIDE holds. -/
theorem decoded_iff {s : State} {e : Nat} {r : DecodeOutcome} {d : Decode} {rest : List Decode} :
    Normal.decoded s e r d rest = true ↔ s.powered = true ∧ s.decodes e = d :: rest ∧
      (r.frames.any fun f => decide (d.cmd.u16 4 < f.planes.length * (if d.cmd.u8 2 = 0 then 4 else 2))) = false := by
  simp only [Normal.decoded, Bool.and_eq_true, decide_eq_true_eq, List.all_eq_true, List.any_eq_false, Nat.not_lt, and_assoc]

theorem exec_intakeDecode (s : State) (c : Command) (h : Normal.passes s (s.intakeDecodeChecks c) = true) :
    let e := s.intakeEngine (c.u8 1)
    exec (.intakeDecode c) s = .next (s.setDecodes e (s.decodes e ++ [{ cmd := c, slot := s.cmdSlot c.hdr }])) := by
  have hexec : execIntakeDecode c s = _ := State.live_checked h
  exact hexec

/-- R487: a decode that was not cancelled ends with what stopped it, or with success. -/
theorem exec_intakeDecodeComplete (s : State) (e : Nat) (r : DecodeOutcome) (d : Decode) (rest : List Decode)
    (h : Normal.decoded s e r d rest = true) (hruns : d.cancelled = false) :
    let x := (r.frames.foldl (State.decodeFrame d e r) (s.setDecodes e rest, ({} : DecodeRun))).2
    ∃ u : State, exec (.intakeDecodeComplete e r) s = .next (u.finish d.cmd (x.stop.getD (stOk, 0)).1 (x.stop.getD (stOk, 0)).2
      (le 4 x.written ++ le 4 x.skipped ++ le 2 r.width ++ le 2 r.height ++ le 4 e ++ le 8 x.bytes ++ le 8 u.now)) := by
  obtain ⟨hp, hfirst, hfits⟩ := decoded_iff.1 h
  have hexec : execIntakeDecodeComplete e r s = _ := State.live_powered _ hp
  simp only [hfirst, hfits, hruns, Bool.false_eq_true, if_false] at hexec
  exact ⟨_, hexec⟩

theorem exec_intakeStatus (s : State) (c : Command) (h : Normal.passes s (s.intakeStatusChecks c) = true) :
    exec (.intakeStatus c) s = .next (s.finish c stOk 0 ((if c.u8 0 = 0xFF then List.range 4 else [c.u8 0]).flatMap fun e =>
      [0x010, 0x018, 0x020, 0x028, 0x030, 0x038].flatMap fun off => le 8 (s.intakeReg e off))) := by
  have hexec : execIntakeStatus c s = _ := State.live_checked h
  exact hexec

/-- Settles O59: one lemma for each command, and one for the end of a decode. -/
theorem intakeComplete : Obligations.IntakeComplete :=
  ⟨exec_intakeDecode, exec_intakeDecodeComplete, exec_intakeStatus⟩

end Sys2Proof.Machine
end
